-- ==== Sys2Proof/Word.lean ====
section
/-! DEFINITION. The word types of the DRL7 and the index types of its repeated units (spec 00 R8, 02 R27). -/

namespace Sys2Proof

/-- One byte of memory, of a message or of a flash image. -/
abbrev Byte := BitVec 8
/-- A 16-bit parcel (10 R205, 08 R162). -/
abbrev Parcel := BitVec 16
/-- A 32-bit register. -/
abbrev Half := BitVec 32
/-- A 64-bit register, address or element. -/
abbrev Word := BitVec 64
/-- An X register or a chain accumulator (10 R203, 04). -/
abbrev Wide := BitVec 128
/-- An S register: a stream, decode or table descriptor (05 R88). -/
abbrev Desc := BitVec 256

/-- A core instance: 0 to 31 are SQ00 to SQ31, 32 to 35 are MC0 to MC3 (02 R27). -/
abbrev CoreId := Fin 36
/-- A chain CH00 to CH31, and the sequencer beside it. -/
abbrev ChainId := Fin 32
/-- A barrel thread (09 R196). -/
abbrev ThreadId := Fin 4
/-- A cluster of eight chains (14 R279). -/
abbrev ClusterId := Fin 4
/-- A TGL port (16 R318). -/
abbrev PortId := Fin 8
/-- A DDR controller (02 R20). -/
abbrev CtrlId := Fin 16
/-- A CXL link by its code: 0 link 0, 1 link 1, 2 0A, 3 0B, 4 1A, 5 1B (15 R303). -/
abbrev LinkId := Fin 6
/-- A PLL: 0 CPLL, 1 BPLL, 2 to 5 DPLL0 to DPLL3 (17 R353). -/
abbrev PllId := Fin 6

end Sys2Proof
end

