-- ==== Sys2Proof/Syntax.lean ====
section
/-! DEFINITION. The commands the block takes: one constructor per row of spec/opcode_table.json, with the row's
operands.  An operand is what the outside of the block supplies (a value written, a message, a reply of host
memory or of another node, a physical finding such as an ECC error); what the block itself holds is read from its
state. -/

namespace Sys2Proof

/-- Who makes a register access or rings a doorbell (02 R37 SOURCE, 09 R200). -/
inductive Src where
  | core (n : CoreId)
  | host (p : Fin 2)
  | fabric
  deriving DecidableEq, Repr

/-- What a place outside the device (host memory, another node) answers an access with. -/
inductive Reply where
  /-- The access succeeded; a read returns these bytes, lowest address first. -/
  | ok (bytes : List Byte)
  /-- The data came back poisoned (13 R263, 15 R315). -/
  | poison
  /-- The target or a device on the route refused it, or it got no response in time (16 R336). -/
  | refused
  /-- The host completed it with an error (05 R99). -/
  | hostError
  /-- The request has been sent; its answer has not come yet (15 R312). -/
  | owed
  deriving DecidableEq, Repr

/-- What an ECC check of a word or line finds (13 R262, R263, R273). -/
inductive EccFind where
  | clean
  | corrected
  | uncorrectable
  deriving DecidableEq, Repr

/-- The path of a register access (02 R26, R28): BAR0, BAR2 and BAR4 offsets come from a host port, a CSR offset
from a core or from the fabric. -/
inductive Path where
  | bar0 (p : Fin 2)
  | bar2 (p : Fin 2)
  | bar4 (p : Fin 2)
  /-- A configuration request to the function of a link (15 R301). -/
  | config (l : LinkId)
  | core (n : CoreId)
  | fabric
  deriving DecidableEq, Repr

/-- One 64-bit register access at an 8-byte-aligned offset, with its byte enables (02 R31 to R35). -/
structure Access where
  path   : Path
  offset : Nat
  be     : BitVec 8
  data   : Word
  deriving DecidableEq, Repr

/-- The fields of one sequencer instruction as its parcels give them (10 R205, R206, R225); UNIT and OP are the
row's own. `len` is the LEN code: 0 one parcel, 1 two, 2 four. -/
structure Fields where
  stop : Bool
  len  : BitVec 2
  md   : BitVec 4
  rd   : BitVec 5
  ra   : BitVec 5
  rb   : BitVec 5
  /-- Bit 0 of parcel 1, reserved (10 R206). -/
  rsv  : Bool
  imm  : BitVec 32
  deriving DecidableEq, Repr

/-- Module type of a DIMM (13 R268). -/
inductive DimmKind where
  | rdimm
  | rdimm3ds
  | mrdimm
  | other
  deriving DecidableEq, Repr

/-- What an SPD hub reports of its module (13 R268 to R270). -/
structure Dimm where
  kind    : DimmKind
  /-- Capacity in GiB. -/
  gib     : Nat
  /-- DRAM width in bits. -/
  width   : Nat
  /-- Die density in Gb. -/
  density : Nat
  ranks   : Nat
  stack   : Nat
  /-- Rated speed in MT/s. -/
  speed   : Nat
  ecc     : Bool
  deriving DecidableEq, Repr

/-- One DIMM slot as firmware finds it (13 R271). -/
inductive Slot where
  | empty
  | unreadable
  | dimm (d : Dimm)
  deriving DecidableEq, Repr

/-- A request to a scratch bank (13 R259). -/
inductive BankOp where
  | read (bytes : Nat)
  | write (data : List Byte)
  | addI64 (v : Word)
  | addF64 (v : Word)
  | swap (v : Word)
  deriving DecidableEq, Repr

/-- A device access to a DDR line at the home agent (15 R308). -/
inductive LineOp where
  | read
  | write (at' : Nat) (data : List Byte)
  /-- A write of several runs of bytes of the line, each at its place. -/
  | parts (ps : List (Nat × List Byte))
  deriving DecidableEq, Repr

/-- MetaValue of an M2S request (15 R307). -/
inductive Meta where
  | i
  | s
  | a
  deriving DecidableEq, Repr

/-- A junction: the four cluster junctions and the root junction (14 R279). -/
inductive Junction where
  | cluster (c : ClusterId)
  | root
  deriving DecidableEq, Repr

/-- What a request of the junction asks (14 R282): a read carries its header alone, a write and an atomic their data. -/
inductive JKind where
  | read (len : Nat)
  | write (data : List Byte)
  | atomic (v : Word)
  deriving DecidableEq, Repr

/-- A request at a junction (14 R282 to R290): its master, its transaction ID, the QOS and class that it carries, its address,
what it asks, and for a chain's the code of the station whose access it is.  `trail` names the master ports that it has passed on
its way, with the junction's number and the target port of each. -/
structure JReq where
  master  : Nat
  tag     : Nat
  qos     : BitVec 4
  addr    : Nat
  kind    : JKind
  control : Bool
  unit    : Nat := 31
  trail   : List (Nat × Nat × Nat) := []
  deriving DecidableEq, Repr

/-- A routed TGL message (16 R325): requests 0x01 to 0x03 and responses 0x20 to 0x22 and RDATA. -/
structure Msg where
  qos    : BitVec 4
  aop    : BitVec 2
  ret    : Bool
  mc     : Bool
  tid    : BitVec 16
  src    : BitVec 20
  hops   : Nat
  /-- Requests: data length in bytes, 1 to 256. -/
  len    : Nat
  addr   : Word
  data   : List Byte
  poison : Bool
  /-- RSP_REFUSE: the reason. -/
  reason : Nat
  /-- Control class (14 R290). -/
  control : Bool
  /-- Layer 1 of a detour (16 R331). -/
  layer  : Bool
  deriving DecidableEq, Repr

/-- Which access of this device a remote request belongs to: a core's load, its oldest posted store, a fetch, a stream's
line, a write of a chain's oldest drain, an access of a station, a line of an RLE directory, a line that firmware accesses for a
command with MC0 (64) or a chain. -/
inductive Asker where
  | load (n : CoreId) (seq : Nat)
  | store (n : CoreId)
  | fetch (n : CoreId) (t : ThreadId) (va : Word)
  | line (c : ChainId) (strip : Fin 2) (stream : Nat) (va : Word)
  | drain (c : ChainId) (i : Nat)
  | station (c : ChainId) (strip : Fin 2) (parcel : Fin 16) (i : Nat)
  | dir (c : ChainId) (stream va : Nat)
  | fw (m : Nat) (handle : Half) (wr : Bool) (ptr line : Nat)
  deriving DecidableEq, Repr

/-- Where a routed request comes from: a TGL port, or this device. -/
inductive Origin where
  | port (p : PortId)
  | own (a : Asker)
  deriving DecidableEq, Repr

/-- The header of a management message (16 R338). -/
structure MgtHdr where
  fhops  : Nat
  fseq   : BitVec 32
  origin : Word
  deriving DecidableEq, Repr

/-- A training frame's fields (16 R321). -/
structure TrainFrame where
  serial  : Word
  node    : Half
  port    : BitVec 8
  lanes   : BitVec 2
  major   : BitVec 8
  minor   : BitVec 8
  epoch   : Word
  digest0 : Word
  digest1 : Word
  /-- Receive buffer of VC 0 to 8, in slots. -/
  credits : List (BitVec 16)
  deriving DecidableEq, Repr

/-- A HEARTBEAT payload (16 R341). -/
structure HeartbeatMsg where
  serial   : Word
  node     : Half
  port     : BitVec 8
  culdesac : Bool
  staged   : Bool
  major    : BitVec 8
  minor    : BitVec 8
  epoch    : Word
  digest0  : Word
  digest1  : Word
  pepoch   : Word
  pdigest0 : Word
  pdigest1 : Word
  deriving DecidableEq, Repr

/-- One port of a NEIGH report (16 R339). -/
structure NeighPort where
  peer     : Word
  peerPort : BitVec 8
  up       : Bool
  four     : Bool
  deriving DecidableEq, Repr

/-- A NEIGH report (16 R339). -/
structure Neigh where
  serial : Word
  major  : BitVec 8
  minor  : BitVec 8
  ports  : List NeighPort
  deriving DecidableEq, Repr

/-- One answer to a survey (16 R349). -/
structure SurveyRec where
  serial  : Word
  node    : Half
  agrees  : Bool
  culdesac : Bool
  unassigned : Bool
  minor   : BitVec 4
  major   : BitVec 4
  epoch   : Word
  digest0 : Word
  digest1 : Word
  pepoch  : Word
  /-- Per port: REL and the four-lane bit. -/
  ports   : List Byte
  deriving DecidableEq, Repr

/-- How a malformed instruction reaches decode (10 R208, R210 orders 1 and 3): its raw parcels. -/
structure RawInstr where
  p0  : Parcel
  p1  : Parcel
  imm : BitVec 32
  deriving DecidableEq, Repr

/-- A byte write on SMBus: the target's address, the command code, the data and the PEC, where there is one (19 R405). -/
structure SmbWrite where
  addr : BitVec 7
  code : BitVec 8
  data : BitVec 8
  pec  : Option (BitVec 8)
  deriving DecidableEq, Repr

/-- How a JTAG instruction acts (18 R397, 19 R406). The instruction codes themselves are not in the spec. -/
inductive JtagInstr where
  | bypass
  /-- Boundary scan: the levels of the signals that the board drives, and what is shifted into the register (19 R406). -/
  | samplePreload (pins load : BitVec 26)
  | extest (pins load : BitVec 26)
  | idcode
  /-- Any instruction of the debug access path. -/
  | debug (code : Nat)
  deriving DecidableEq, Repr

/-- What the comparator of one sensor sees (17 R365). -/
structure TripSeen where
  sensor : Fin 64
  temp   : BitVec 16
  deriving DecidableEq, Repr

/-- A clock source that stops: CLKIN, or the source of a loop (17 R355). -/
structure SourceLoss where
  loop  : PllId
  clkin : Bool
  deriving DecidableEq, Repr

/-- A training frame as it arrives, and the halves whose lanes this end has locked (16 R320). -/
structure TrainSeen where
  own   : BitVec 2
  frame : TrainFrame
  deriving DecidableEq, Repr

/-- The commands: one constructor per row of the opcode table. -/
inductive Instr where
  -- resets, power and the package (17, 18, 19)
  | powerOnReset
  | railsRestored
  | resetN
  | undervoltage (rail : Fin 6)
  | firmwareReset
  | resetEnd (bif0 bif1 a0 a1 clkin : Bool)
  | perstN (port : Fin 2)
  | thermalTrip (seen : TripSeen)
  | wakeN
  | pwrWakeClear (src : Src) (v : Half)
  | pllLoss (source : SourceLoss)
  | quickSwitch (src : Src) (k : PllId) (postdiv : Byte)
  | relock (src : Src) (k : PllId) (v : Half)
  | clockSwitchEnd (k : PllId) (present : Bool)
  | clkGate (src : Src) (v : Half)
  | governorPeriod (p i : Nat) (avsOk : Bool)
  | sensorUpdate (temps : List (BitVec 16))
  | thmWearTick
  | wearStore
  | pwrGate (src : Src) (v : Word)
  | coreGateDone (n : CoreId)
  | coreWakeDone (n : CoreId)
  | handover (src : Src)
  | recoveryGo (flashOk : Bool)
  | dbgLockProgram (src : Src) (key : Half)
  -- DDR and scratch (13)
  | ddrBringup (slots : List (Slot × Slot))
  | ddrTrainingDone (failed : BitVec 16)
  | ddrZeroingDone
  | ddrSrEntry (n : CtrlId)
  | ddrSrExit (n : CtrlId) (sub0 sub1 : Bool)
  | refreshRatePoll (n : CtrlId) (sub0 sub1 : Bool)
  | ddrScrub (n : CtrlId) (offset : Nat) (found : EccFind) (device : BitVec 4)
  | scratchScrub (offset : Nat) (found : EccFind)
  | scratchWriteBack (offset : Nat)
  | scratchRequest (m : Fin 71) (wait : Nat) (offset : Nat) (op : BankOp) (found : EccFind)
  -- the home agent and the host link (15)
  | homeAgentAccess (tag : Nat) (offset : Nat) (op : LineOp) (found : EccFind) (device : BitVec 4)
  | memRd (hpa : Word) (mv : Meta)
  | memRdData (hpa : Word) (mv : Meta)
  | memInv (hpa : Word) (mv : Meta)
  | memInvNt (hpa : Word) (mv : Meta)
  | memSpecRd (hpa : Word)
  | memClnEvct (hpa : Word)
  | memWr (hpa : Word) (mv : Meta) (data : List Byte) (poison : Bool)
  | memWrPtl (hpa : Word) (mv : Meta) (be : BitVec 64) (data : List Byte)
  | biConflict (hpa : Word)
  | biRspS (hpa : Word)
  | biRspI (hpa : Word)
  | h2dSnoop (link : LinkId) (hpa : Word)
  | d2hResponse (link : LinkId) (tag : Nat) (r : Reply)
  | decoderCommit (base size : Word) (ways1 : Bool) (dpaSkip : Word) (lockOnCommit commit : Bool)
  | cxlLinkUp (link : LinkId) (width : BitVec 4) (speed : BitVec 4) (cxl : Bool)
      (cacheEn memEn msixEn fnMask : Bool)
  | cxlLinkDown (link : LinkId) (uncorrectable : Bool)
  | msixUnmask (vec : Fin 2048)
  -- the Amtik Command Interface (03)
  | aciEnable (src : Src)
  | aciReady
  | aciReset (src : Src)
  | aciResetComplete
  | aciSqTail (q : Byte) (v : Half)
  | aciCqHead (q : Byte) (v : Half)
  | aciCancel (handle : Half)
  | sqFetch (q : Byte) (r : Reply)
  | commandDispatch
  | coalTimeExpiry (q : Byte)
  | diagGrantExpiry
  | negotiate (handle : Half)
  | identify (handle : Half) (w : Reply)
  | createQp (handle : Half)
  | deleteQp (handle : Half)
  | setCoalesce (handle : Half)
  | kernelRun (handle : Half) (image args : Reply)
  | kernelRunComplete (handle : Half)
  | copy (handle : Half) (stopAt : Nat) (r : Reply) (accepted : Reply)
  | fill (handle : Half) (stopAt : Nat) (accepted : Reply)
  | fwStage (handle : Half)
  | fwStagePiece (handle : Half) (r : Reply) (readBackOk : Bool)
  | fwActivate (handle : Half)
  | settingsRead (handle : Half) (w : Reply)
  | settingsWrite (handle : Half) (r : Reply)
  | settingsCommit (handle : Half)
  | calRead (handle : Half) (w : Reply)
  | calWrite (handle : Half) (r : Reply) (readBackOk : Bool)
  | fabricSurvey (handle : Half)
  | surveyComplete (handle : Half) (timedOut : Bool) (w : Reply)
  | waymarkPropose (handle : Half) (r : Reply)
  | waymarkCommit (handle : Half)
  | diagOpen (handle : Half)
  | diagClose (handle : Half)
  -- registers, events and core control (02, 09, 11)
  | registerWrite (a : Access)
  | readToClear (a : Access)
  | evtRoute (src : Src) (source : Fin 2048) (v : Half)
  | evtSwset (src : Src) (v : Half)
  | coreStart (src : Src) (n : CoreId) (levelK : Bool)
  | coreStop (src : Src) (n : CoreId)
  | coreCfg (src : Src) (n : CoreId) (v : Half)
  | coreDbRing (src : Src) (n : CoreId)
  | chainStop (src : Src) (c : ChainId)
  | flushQ (src : Src) (c : ChainId)
  | clrMsc (src : Src) (c : ChainId)
  | exctlRestart (src : Src) (c : ChainId) (flushOnce : Bool)
  | exctlReplay (src : Src) (c : ChainId) (flushOnce : Bool)
  | exctlAbandon (src : Src) (c : ChainId)
  | sctlRetry (src : Src) (c : ChainId) (dir : List Word)
  | sctlAbandon (src : Src) (c : ChainId)
  -- translation (12)
  | writeL2 (src : Src) (n : CoreId) (way : BitVec 4) (wsel : Bool) (dir : List Word)
  | writeIlock (src : Src) (n : CoreId) (slot : BitVec 4)
  | writeDlock (src : Src) (n : CoreId) (slot : BitVec 4)
  | invalVa (src : Src) (n : CoreId)
  | invalUser (src : Src) (n : CoreId)
  | invalAll (src : Src) (n : CoreId)
  | clearLocks (src : Src) (n : CoreId)
  | readL2 (src : Src) (n : CoreId) (way : BitVec 4)
  | tlbInvalEffect (n : CoreId)
  -- the junction (14)
  | priorityWrite (src : Src) (j : Junction) (m : Fin 25) (w : Fin 33) (v : Half)
  | requestArrival (j : Junction) (t : Nat) (rs : List JReq)
  | junctionDecision (j : Junction) (t : Nat)
  | grantEnd (j : Junction) (t : Nat)
  | destinationAdmission (tid : BitVec 16)
  -- launches and strips (04, 05, 08)
  | launchBegin (c : ChainId)
  | reservationGrant (k : ClusterId)
  | stripTranslate (c : ChainId) (dir : List Word)
  | stripIssue (c : ChainId)
  | bufferGrant (k : ClusterId)
  | streamLineFill (c : ChainId) (strip : Fin 2) (stream : Nat) (va : Word) (r : Reply)
  | stationStep (c : ChainId) (strip : Fin 2) (parcel : Fin 16)
  | stripAbort (c : ChainId)
  | streamAccessFailure (c : ChainId) (strip : Fin 2)
  | stripCommit (c : ChainId)
  | drainAccept (c : ChainId) (i : Nat) (r : Reply)
  | chainStopped (c : ChainId)
  -- a core's own events (09, 10, 11)
  | loadResponse (n : CoreId) (i : Nat) (r : Reply)
  | divideComplete (n : CoreId) (t : ThreadId)
  | fetchResponse (n : CoreId) (t : ThreadId) (va : Word) (r : Reply)
  | storeAccept (n : CoreId) (r : Reply)
  | trapEntry (n : CoreId) (t : ThreadId)
  | wfiWake (n : CoreId)
  -- A unit (10 R212)
  | adda (n : CoreId) (t : ThreadId) (f : Fields)
  | suba (n : CoreId) (t : ThreadId) (f : Fields)
  | anda (n : CoreId) (t : ThreadId) (f : Fields)
  | movad (n : CoreId) (t : ThreadId) (f : Fields)
  | liha (n : CoreId) (t : ThreadId) (f : Fields)
  | ldD (n : CoreId) (t : ThreadId) (f : Fields)
  | ldA (n : CoreId) (t : ThreadId) (f : Fields)
  | ldX (n : CoreId) (t : ThreadId) (f : Fields)
  | ldS (n : CoreId) (t : ThreadId) (f : Fields)
  | stD (n : CoreId) (t : ThreadId) (f : Fields)
  | stA (n : CoreId) (t : ThreadId) (f : Fields)
  | stX (n : CoreId) (t : ThreadId) (f : Fields)
  | dinv (n : CoreId) (t : ThreadId) (f : Fields)
  | iinv (n : CoreId) (t : ThreadId) (f : Fields)
  | dinvall (n : CoreId) (t : ThreadId) (f : Fields)
  | iinvall (n : CoreId) (t : ThreadId) (f : Fields)
  | aadd (n : CoreId) (t : ThreadId) (f : Fields)
  | aswp (n : CoreId) (t : ThreadId) (f : Fields)
  -- D unit (10 R216, R217)
  | add (n : CoreId) (t : ThreadId) (f : Fields)
  | sub (n : CoreId) (t : ThreadId) (f : Fields)
  | neg (n : CoreId) (t : ThreadId) (f : Fields)
  | abs (n : CoreId) (t : ThreadId) (f : Fields)
  | mins (n : CoreId) (t : ThreadId) (f : Fields)
  | maxs (n : CoreId) (t : ThreadId) (f : Fields)
  | minu (n : CoreId) (t : ThreadId) (f : Fields)
  | maxu (n : CoreId) (t : ThreadId) (f : Fields)
  | and (n : CoreId) (t : ThreadId) (f : Fields)
  | or (n : CoreId) (t : ThreadId) (f : Fields)
  | xor (n : CoreId) (t : ThreadId) (f : Fields)
  | andn (n : CoreId) (t : ThreadId) (f : Fields)
  | not (n : CoreId) (t : ThreadId) (f : Fields)
  | shl (n : CoreId) (t : ThreadId) (f : Fields)
  | shr (n : CoreId) (t : ThreadId) (f : Fields)
  | sar (n : CoreId) (t : ThreadId) (f : Fields)
  | rol (n : CoreId) (t : ThreadId) (f : Fields)
  | sext (n : CoreId) (t : ThreadId) (f : Fields)
  | zext (n : CoreId) (t : ThreadId) (f : Fields)
  | clz (n : CoreId) (t : ThreadId) (f : Fields)
  | ctz (n : CoreId) (t : ThreadId) (f : Fields)
  | popc (n : CoreId) (t : ThreadId) (f : Fields)
  | bswap (n : CoreId) (t : ThreadId) (f : Fields)
  | mov (n : CoreId) (t : ThreadId) (f : Fields)
  | mul (n : CoreId) (t : ThreadId) (f : Fields)
  | mulhs (n : CoreId) (t : ThreadId) (f : Fields)
  | mulhu (n : CoreId) (t : ThreadId) (f : Fields)
  | divs (n : CoreId) (t : ThreadId) (f : Fields)
  | divu (n : CoreId) (t : ThreadId) (f : Fields)
  | rems (n : CoreId) (t : ThreadId) (f : Fields)
  | remu (n : CoreId) (t : ThreadId) (f : Fields)
  | slt (n : CoreId) (t : ThreadId) (f : Fields)
  | sltu (n : CoreId) (t : ThreadId) (f : Fields)
  | seq (n : CoreId) (t : ThreadId) (f : Fields)
  | li (n : CoreId) (t : ThreadId) (f : Fields)
  | lih (n : CoreId) (t : ThreadId) (f : Fields)
  | movda (n : CoreId) (t : ThreadId) (f : Fields)
  -- X unit (10 R218, R219)
  | xmac (n : CoreId) (t : ThreadId) (f : Fields)
  | xfma (n : CoreId) (t : ThreadId) (f : Fields)
  | xadd (n : CoreId) (t : ThreadId) (f : Fields)
  | xsub (n : CoreId) (t : ThreadId) (f : Fields)
  | xext (n : CoreId) (t : ThreadId) (f : Fields)
  | xpack (n : CoreId) (t : ThreadId) (f : Fields)
  | xlo (n : CoreId) (t : ThreadId) (f : Fields)
  | xhi (n : CoreId) (t : ThreadId) (f : Fields)
  | xclr (n : CoreId) (t : ThreadId) (f : Fields)
  | xmov (n : CoreId) (t : ThreadId) (f : Fields)
  -- B unit (10 R220)
  | nop (n : CoreId) (t : ThreadId) (f : Fields)
  | br (n : CoreId) (t : ThreadId) (f : Fields)
  | bcc (n : CoreId) (t : ThreadId) (f : Fields)
  | dbnz (n : CoreId) (t : ThreadId) (f : Fields)
  | jal (n : CoreId) (t : ThreadId) (f : Fields)
  | jr (n : CoreId) (t : ThreadId) (f : Fields)
  | jalr (n : CoreId) (t : ThreadId) (f : Fields)
  | trap (n : CoreId) (t : ThreadId) (f : Fields)
  | eret (n : CoreId) (t : ThreadId) (f : Fields)
  | wfi (n : CoreId) (t : ThreadId) (f : Fields)
  | mfcr (n : CoreId) (t : ThreadId) (f : Fields)
  | mtcr (n : CoreId) (t : ThreadId) (f : Fields)
  -- V unit (10 R225)
  | chiss (n : CoreId) (t : ThreadId) (f : Fields)
  | chwait (n : CoreId) (t : ThreadId) (f : Fields)
  | chstop (n : CoreId) (t : ThreadId) (f : Fields)
  | rdch (n : CoreId) (t : ThreadId) (f : Fields)
  | wrch (n : CoreId) (t : ThreadId) (f : Fields)
  | ldca (n : CoreId) (t : ThreadId) (f : Fields)
  | rdca (n : CoreId) (t : ThreadId) (f : Fields)
  | ssw (n : CoreId) (t : ThreadId) (f : Fields)
  | sswa (n : CoreId) (t : ThreadId) (f : Fields)
  | rsw (n : CoreId) (t : ThreadId) (f : Fields)
  | smov (n : CoreId) (t : ThreadId) (f : Fields)
  | sclr (n : CoreId) (t : ThreadId) (f : Fields)
  -- the Tchigor link fabric (16)
  | tglPortEnable (src : Src) (p : PortId) (en : Bool)
  | trainingFrame (p : PortId) (seen : TrainSeen)
  | trainingTimeout (p : PortId)
  | frameReceive (p : PortId) (frame : List Byte) (fecOk : Bool)
  | replayTimeout (p : PortId)
  | fecLockLoss (p : PortId)
  | heartbeatSend (p : PortId)
  | heartbeatMiss (p : PortId)
  | heartbeat (p : PortId) (hb : HeartbeatMsg)
  | catchingUpExpiry (p : PortId)
  | rd (o : Origin) (m : Msg)
  | wr (o : Origin) (m : Msg)
  | atom (o : Origin) (m : Msg)
  | rspRefuse (p : PortId) (m : Msg)
  | rspData (p : PortId) (m : Msg)
  | rspAcc (p : PortId) (m : Msg)
  | rdata (p : PortId) (m : Msg)
  | requestTimeout (tid : BitVec 16)
  | hello (p : PortId) (serial lowest : Word) (node : Half) (port : Byte)
  | neigh (p : PortId) (r : Neigh)
  | discoveryStart
  | discoveryRoot
  | propose (p : PortId) (h : MgtHdr) (e d0 d1 : Word) (length : Half)
  | vote (p : PortId) (h : MgtHdr) (e serial : Word) (result : Byte)
  | voteTimeout
  | commit (p : PortId) (h : MgtHdr) (e d0 d1 : Word)
  | abort (p : PortId) (h : MgtHdr) (e : Word)
  | stageExpiry
  | fsrReq (p : PortId) (epoch : Word) (offset count : Half) (which : Byte)
  | fsrData (p : PortId) (epoch : Word) (offset length : Half) (bytes : List Byte)
  | fsrRetry (p : PortId) (epoch : Word)
  | surveyReq (p : PortId) (h : MgtHdr) (epoch : Word)
  | surveyRsp (p : PortId) (h : MgtHdr) (r : SurveyRec)
  | floodKeyExpiry (origin : Word) (fseq : BitVec 32)
  -- SMBus, standby, sideband (17, 19)
  | id
  | temp
  | power
  | state
  | wear
  | prepareOff (w : SmbWrite)
  | offReady
  | vstbyLost
  | clkinReturn
  | linkLevelRetry (link : LinkId) (fecCorrected : Bool)
  | stationAccessResponse (c : ChainId) (strip : Fin 2) (parcel : Fin 16) (i : Nat) (r : Reply)
  | bclkPeriod (waiting : List Nat)
  | jtagInstruction (j : JtagInstr)
  | illegalInstr (n : CoreId) (t : ThreadId) (r : RawInstr)
  deriving DecidableEq, Repr

end Sys2Proof
end

