-- ==== Sys2Proof/Config.lean ====
section
/-! DEFINITION. What an implementation fixes and the spec leaves open: constants without a body, so that nothing can be
proved of their values.  A function of `n : Nat` is drawn at the state's counter `free`, a fresh value each time. -/

namespace Sys2Proof

/-- A memory error that comes about by itself: one or two bits of a word of a core's IMEM or DMEM (by window offset ÷ 8),
of a word of scratch (by its number in scratch) or of a DDR line (by its number).
Log entry 53 (DESIGN CHOICE). -/
inductive Upset where
  | none
  | core (n : CoreId) (w : Nat) (double : Bool)
  | scratch (w : Nat) (double : Bool)
  | ddr (line : Nat) (double : Bool)
  deriving DecidableEq, Repr, Inhabited

end Sys2Proof

namespace Sys2Proof.Config

/-- The memory error, if any, that time brings while the block idles (09 R188, 13 R262, R273).
Log entry 53 (DESIGN CHOICE). -/
opaque upset : Nat → Upset
/-- The value of a register or a result the spec leaves open.
Log entry 12 (DESIGN CHOICE). -/
opaque freeWord : Nat → BitVec 64
/-- A count or a choice the spec leaves open.
Log entry 12 (DESIGN CHOICE). -/
opaque freeNat : Nat → Nat
/-- Which of several outcomes the spec allows.
Log entry 12 (DESIGN CHOICE). -/
opaque freeBool : Nat → Bool
/-- The bank cycles a request waits that the command does not name (13 R267).
Log entry 23 (DESIGN CHOICE). -/
opaque bankWait : Nat → Nat
/-- The demand on the root junction exceeds its capacity now (14 R280, R281).
Log entry 106 (DESIGN CHOICE). -/
opaque rootBusy : Nat → Bool
/-- DDR_ECC_ADDR.DEVICE of an uncorrectable line that a request finds (13).
Log entry 24 (DESIGN CHOICE). -/
opaque eccDevice : Nat → BitVec 4
/-- The snoop filter's set of a line, of 131,072: a hash that the spec does not give (15 R307).
Log entry 17 (DESIGN CHOICE). -/
opaque sfSet : Nat → Fin 131072
/-- The set of a line in a cache of 32 KiB, four ways and 64 B lines: an index that the spec does not give (09 R185).
Log entry 16 (DESIGN CHOICE). -/
opaque cacheSet : Nat → Fin 128
/-- Elements that the wire between two stations holds (04 R76, R77).
Log entry 18 (DESIGN CHOICE). -/
opaque stationQueue : Nat
/-- Flood keys that a device holds beyond 4,096 (16 R338).
Log entry 19 (DESIGN CHOICE). -/
opaque floodKeys : Nat
/-- A key of a settings schema above 1 with its value is one that the firmware of that schema parses (18 R387); the spec
gives the keys of schema 1 alone.
Log entry 20 (DESIGN CHOICE). -/
opaque settingsKey : Nat → Nat → List (BitVec 8) → Bool
/-- The entry of the Cusyn runtime, which receives every trap of a kernel (03 R415).
Log entry 21 (DESIGN CHOICE). -/
opaque runtimeEntry : BitVec 64

/-- What the device answers over DOE in a protocol whose contents the spec does not give: 1 CMA/SPDM, 2 secured CMA/SPDM
(15 R298).
Log entry 144 (DESIGN CHOICE). -/
opaque doeAnswer : Nat → List (BitVec 32) → List (BitVec 32)
/-- A secured message of IDE_KM completes the keys of a link's CXL.cachemem IDE (15 R314).
Log entry 144 (DESIGN CHOICE). -/
opaque ideKeyed : List (BitVec 32) → Bool
/-- It asks for skid mode.
Log entry 144 (DESIGN CHOICE). -/
opaque ideSkid : List (BitVec 32) → Bool
/-- A secured message of IDE_KM completes the keys of a function's selective stream for CXL.io (15 R298).
Log entry 144 (DESIGN CHOICE). -/
opaque streamKeyed : List (BitVec 32) → Bool
/-- CDAT's latency in ns at a speed code for which the manual gives no figure (15 R303).
Log entry 144 (DESIGN CHOICE). -/
opaque cdatLatency : Nat → Nat
/-- CDAT's write bandwidth in GB/s at a speed code, for which the manual gives no figure (15 R303).
Log entry 144 (DESIGN CHOICE). -/
opaque cdatWriteRate : Nat → Nat

/-- A CXL link holds the credit for a request's response (14 R291), at a step.
Log entry 108 (DESIGN CHOICE). -/
opaque hostCredit : Nat → Bool
/-- How many tolls beyond the first a target port has for a class, control or data, which the manual does not give (14 R290).
Log entry 108 (DESIGN CHOICE). -/
opaque portTolls : Bool → Nat

end Sys2Proof.Config
end

