-- ==== Sys2Proof/Machine/Bits.lean ====
section
/-! DEFINITION. Bit fields, sign extension, byte order, and sparse arrays: the helpers that every meaning uses.
Every multi-byte value is little-endian (00 R8). -/

namespace Sys2Proof.Machine

/-- Bits `hi` to `lo` of a natural number. -/
def bits (v hi lo : Nat) : Nat := (v >>> lo) % 2 ^ (hi + 1 - lo)

/-- Bit `i` of a natural number. -/
def bitN (v i : Nat) : Bool := v.testBit i

/-- 1 for true. -/
def b2n (b : Bool) : Nat := if b then 1 else 0

/-- The low `w` bits of `v` as a signed number. -/
def toSigned (w v : Nat) : Int :=
  let u := v % 2 ^ w
  if u < 2 ^ (w - 1) then (u : Int) else (u : Int) - (2 ^ w : Nat)

/-- A signed number modulo 2^w. -/
def ofSigned (w : Nat) (i : Int) : Nat := (i % (2 ^ w : Nat)).toNat

/-- `n` bytes of `v`, lowest first. -/
def bytesOf : Nat → Nat → List Byte
  | 0, _ => []
  | n + 1, v => BitVec.ofNat 8 v :: bytesOf n (v / 256)

/-- The number that bytes spell, lowest first. -/
def natOf : List Byte → Nat
  | [] => 0
  | b :: t => b.toNat + 256 * natOf t

/-- A 64-bit word from bytes. -/
def wordOf (bs : List Byte) : Word := BitVec.ofNat 64 (natOf bs)

/-- The bytes of `old` with those of `new` put in where `be` is set. -/
def mergeBytes : Nat → Nat → List Byte → List Byte → List Byte
  | _, _, [], _ => []
  | _, _, o :: os, [] => o :: os
  | be, i, o :: os, n :: ns => (if be.testBit i then n else o) :: mergeBytes be (i + 1) os ns

/-- `bs` with `new` put in at index `at'`. -/
def spliceAt (bs : List Byte) (at' : Nat) (new : List Byte) : List Byte :=
  bs.take at' ++ new ++ bs.drop (at' + new.length)

/-- `n` bytes of `bs` from index `i`, zero beyond its end. -/
def sliceAt (bs : List Byte) (i n : Nat) : List Byte :=
  let t := (bs.drop i).take n
  t ++ List.replicate (n - t.length) 0

/-- A field of little-endian bytes: `n` bytes at `i`. -/
def fieldAt (bs : List Byte) (i n : Nat) : Nat := natOf (sliceAt bs i n)

/-- Reads cell `a` of a sparse array; an unlisted cell is 0. -/
def cellGet {w : Nat} : List (Nat × BitVec w) → Nat → BitVec w
  | [], _ => 0
  | (b, x) :: t, a => if a = b then x else cellGet t a

/-- Writes cell `a` of a sparse array and keeps its canonical form.
Log entry 2 (DESIGN CHOICE). -/
def cellSet {w : Nat} : List (Nat × BitVec w) → Nat → BitVec w → List (Nat × BitVec w)
  | [], a, v => if v = 0 then [] else [(a, v)]
  | (b, x) :: t, a, v =>
    if a < b then (if v = 0 then (b, x) :: t else (a, v) :: (b, x) :: t)
    else if a = b then (if v = 0 then t else (a, v) :: t)
    else (b, x) :: cellSet t a v

/-- The canonical form from a lower bound on: addresses strictly rising, no cell zero. -/
def cellsFrom {w : Nat} : Nat → List (Nat × BitVec w) → Bool
  | _, [] => true
  | lo, (a, x) :: t => decide (lo ≤ a) && decide (x ≠ 0) && cellsFrom (a + 1) t

/-- The canonical form of a sparse array.
Log entry 2 (DESIGN CHOICE). -/
def cellsWf {w : Nat} (c : List (Nat × BitVec w)) : Bool := cellsFrom 0 c

/-- Reads `n` bytes from `a`. -/
def readCells (m : List (Nat × Byte)) : Nat → Nat → List Byte
  | _, 0 => []
  | a, n + 1 => cellGet m a :: readCells m (a + 1) n

/-- Writes bytes from `a`. -/
def writeCells (m : List (Nat × Byte)) : Nat → List Byte → List (Nat × Byte)
  | _, [] => m
  | a, b :: bs => writeCells (cellSet m a b) (a + 1) bs

/-- Clears `n` bytes from `a`: drops their cells. -/
def clearCells (m : List (Nat × Byte)) (a n : Nat) : List (Nat × Byte) :=
  m.filter fun c => !(decide (a ≤ c.1) && decide (c.1 < a + n))

/-- Looks a key up in an association list. -/
def alookup {α β : Type} [DecidableEq α] (k : α) : List (α × β) → Option β
  | [] => none
  | (a, b) :: t => if a = k then some b else alookup k t

/-- Sets a key of an association list: replaced in place, or appended. -/
def aset {α β : Type} [DecidableEq α] (k : α) (v : β) : List (α × β) → List (α × β)
  | [] => [(k, v)]
  | (a, b) :: t => if a = k then (k, v) :: t else (a, b) :: aset k v t

/-- Removes a key of an association list. -/
def adel {α β : Type} [DecidableEq α] (k : α) (l : List (α × β)) : List (α × β) :=
  l.filter fun p => decide (p.1 ≠ k)

/-- Replaces element `i` of a list by its image. -/
def modifyAt {α : Type} (f : α → α) : Nat → List α → List α
  | _, [] => []
  | 0, x :: t => f x :: t
  | i + 1, x :: t => x :: modifyAt f i t

/-- Removes element `i` of a list. -/
def removeAt {α : Type} : Nat → List α → List α
  | _, [] => []
  | 0, _ :: t => t
  | i + 1, x :: t => x :: removeAt i t

/-- All numbers below `n`, rising. -/
def upto (n : Nat) : List Nat := List.range n

/-- A natural number as the nearest index below `n`: itself, if it is one. -/
def fin? (n i : Nat) : Option (Fin n) := if h : i < n then some ⟨i, h⟩ else none

end Sys2Proof.Machine
end

