-- ==== Sys2Proof/Machine/State.lean ====
section
/-! DEFINITION. The state of the DRL7 block: every register, queue, buffer, mode and pin the spec gives it, as plain
data; the reasons a command can stop; and the state after reset (18 R373). -/

namespace Sys2Proof.Machine

/-- Why a command stops.  Each is raised only by the operation its docstring names. -/
inductive Fault where
  /-- SCRATCH_REQUEST, SCRATCH_SCRUB and SCRATCH_WRITE_BACK at an offset that no bank holds (02 R18, R22).  Safe: the
  machine stops where the spec says nothing exists. -/
  | noSuchScratch
  /-- HOME_AGENT_ACCESS and DDR_SCRUB at an offset at or above D (02 R18).  Safe, for the same reason. -/
  | noSuchDdr
  deriving DecidableEq, Repr

/-- Why a command is refused. -/
inductive Refusal where
  /-- A command that has no meaning yet.  Safe. -/
  | notModelled (mnemonic : String)
  /-- JTAG_INSTRUCTION of the debug access path while DBG_LOCK is not in effect: what the debug unit then does is not
  in the spec (18 R397).  Safe. -/
  | debugUnit
  deriving DecidableEq, Repr

/-- Sparse memory: (address, byte) cells, addresses strictly rising, no cell zero; an unlisted byte reads 0
(13 R261, R271).
Log entry 2 (DESIGN CHOICE). -/
abbrev Mem := List Host.Cell
/-- A sparse array of registers: (index, value) cells, indexes strictly rising, no cell zero; an unlisted register
reads its reset value 0.
Log entry 2 (DESIGN CHOICE). -/
abbrev Regs (w : Nat) := List (Nat × BitVec w)

/-! ## Cores (09, 10, 11, 12) -/

/-- A register that a long operation writes (09 R191). -/
inductive RegRef where
  | a (i : Fin 16)
  | d (i : Fin 32)
  | x (i : Fin 8)
  | s (i : Fin 8)
  /-- A word of the frame that eret reads outside DMEM (10 R223). -/
  | frame (i : Fin 2)
  deriving DecidableEq, Repr

/-- Where a translated address leads (12 R243): this node's offset, another node, or host memory. -/
inductive Phys where
  | here (off : Nat)
  | remote (ga : Word)
  | host (hpa : Word)
  deriving DecidableEq, Repr

/-- One instruction of a bundle as decode holds it: unit, operation and fields (10 R205). -/
structure SlotI where
  unit : BitVec 3
  op   : BitVec 6
  f    : Fields
  deriving DecidableEq, Repr

/-- What the dual-issue rule needs of the bundle before: the registers it read and wrote, and its DMEM reads and writes
(09 R193). -/
structure Prev where
  reads  : List RegRef
  writes : List RegRef
  dr     : Nat
  dw     : Nat
  deriving DecidableEq, Repr

/-- A word of eret's frame outside DMEM: not read yet, its value, or a read that has failed (10 R211, R223).
Log entry 68 (DESIGN CHOICE). -/
inductive FrameWord where
  | unread
  | got (v : Word)
  | failed
  deriving DecidableEq, Repr

/-- A value of CORE_CFG that is due, and whether the core itself wrote it (09 R195). -/
structure CfgDue where
  value : Half
  own   : Bool
  deriving DecidableEq, Repr

/-- One barrel thread's registers (09 R196). -/
structure Thread where
  pc     : Word
  a      : Vector Word 16
  d      : Vector Word 32
  status : Word
  cause  : Word
  era    : Word
  est    : Word
  /-- Instructions of the bundle that decode is reading, in order; empty between bundles (10 R208). -/
  latch  : List SlotI
  /-- The bundle at pc has been found waiting (09 R192). -/
  waited : Bool
  /-- An interrupt is due and waits for the end of the dual-issue pair that the latched bundle may complete (09 R199). -/
  hold   : Bool
  /-- What the eret bundle at pc has read of its frame outside DMEM (10 R223). -/
  frame  : Vector FrameWord 2
  /-- First of the two instruction words in the fetch buffer; none when it is empty (09 R189). -/
  buf    : Option Nat
  /-- The bundle before, when the next one may share states with it (09 R193). -/
  prev   : Option Prev
  /-- The thread runs: thread 0 of a running core, and a barrel thread that was started (09 R197). -/
  live   : Bool
  deriving DecidableEq, Repr

/-- A TLB entry: the tag word and the data word of 12 R244. -/
structure TlbEntry where
  tag  : Word
  data : Word
  deriving DecidableEq, Repr

/-- What an outstanding long operation does when its response arrives (09 R191). -/
inductive LoadKind where
  | read (size : Nat) (sext : Bool)
  | aadd (v : Word)
  | aswp (v : Word)
  /-- A read of a chain register that waits for the launches up to `upto` to end (04 R83). -/
  | chainReg (off : Nat) (upto : Nat)
  /-- rdca: both halves of CAn (04 R79). -/
  | chainAcc (i : Fin 8) (upto : Nat)
  deriving DecidableEq, Repr

/-- An outstanding load, atomic or chain-register read.
Log entry 15 (DESIGN CHOICE). -/
structure Load where
  thread : ThreadId
  dest   : RegRef
  kind   : LoadKind
  loc    : Phys
  va     : Word
  /-- The page is cacheable and the data cache was on (09 R185). -/
  cached : Bool
  /-- The data cache held the line at issue: its bytes. -/
  hit    : Option (List Byte)
  seq    : Nat
  /-- It was issued at level K (16 R325). -/
  levelK : Bool := false
  deriving DecidableEq, Repr

/-- A posted store in the store queue (09 R191).
Log entry 15 (DESIGN CHOICE). -/
structure Store where
  thread : ThreadId
  loc    : Phys
  va     : Word
  bytes  : List Byte
  seq    : Nat
  /-- It was posted at level K (16 R325). -/
  levelK : Bool := false
  deriving DecidableEq, Repr

/-- A scalar division in progress (10 R217). -/
structure Division where
  thread : ThreadId
  dest   : Fin 32
  value  : Word
  deriving DecidableEq, Repr

/-- A line of the data or instruction cache: its local offset and its 64 bytes as they were filled (09 R185). -/
structure CacheLine where
  line  : Nat
  bytes : List Byte
  deriving DecidableEq, Repr

/-- An invalidation (12 R249). -/
inductive Inval where
  | va (v : Word)
  | user
  | all
  deriving DecidableEq, Repr

/-- A deferred error waiting to be taken (10 R211, 11 R233). -/
structure Deferred where
  thread : ThreadId
  info   : BitVec 8
  addr   : Word
  deriving DecidableEq, Repr

/-- One of the 36 cores.
Log entry 15 (DESIGN CHOICE). -/
structure Core where
  threads : Vector Thread 4
  x       : Vector Wide 8
  s       : Vector Desc 8
  evb     : Word
  slim    : Word
  cycle   : Word
  imem    : Mem
  dmem    : Mem
  /-- DMEM or IMEM words with a double-bit error (09 R188), by window offset ÷ 8. -/
  badWords : List Nat
  /-- DMEM or IMEM words with a single-bit error, likewise. -/
  soft    : List Nat
  cfg     : Half
  /-- CORE_CFG as it is in force, and a value that takes its place when the next bundle is over, or at the next bundle boundary
  when another source wrote it (09 R195). -/
  mode    : Half
  cfgDue  : Option CfgDue
  ctl     : Half
  /-- CORE_STAT.STATE. -/
  stat    : BitVec 3
  entry   : Word
  thrPc   : Vector Word 3
  dbPend  : Word
  dbEn    : Word
  loads   : List Load
  stores  : List Store
  divider : Option Division
  /-- Numbers the port requests, so that a store keeps behind an earlier load of its bytes (14 R290). -/
  seq     : Nat
  /-- Cache lines, most recently used first. -/
  dcache  : List CacheLine
  icache  : List CacheLine
  deferred : List Deferred
  tlbTag  : Word
  tlbData : Word
  /-- STAT.VICTIM and STAT.HIT (12 R250). -/
  victim  : BitVec 3
  hit     : Bool
  /-- STAT.WAKES, kept while the core is gated (12 R250). -/
  wakes   : BitVec 32
  ilock   : Vector (Option TlbEntry) 4
  dlock   : Vector (Option TlbEntry) 4
  /-- First-level fill entries 4 to 15 and 4 to 31, and the ones that the next fills take (12 R245). -/
  ifill   : Vector (Option TlbEntry) 12
  dfill   : Vector (Option TlbEntry) 28
  inext   : Fin 12
  dnext   : Fin 28
  /-- The second-level TLB: (set × 8 + way, the way's words), rising; V of the data word says whether the way is valid,
  and an unlisted way holds zeros. -/
  l2      : List (Nat × TlbEntry)
  /-- Invalidations that wait for issued strips of the chain (12 R255). -/
  invals  : List Inval
  /-- JNC_SQOS (14 R288). -/
  sqos    : Half
  deriving DecidableEq, Repr

/-! ## Chains (04 to 08) -/

/-- A launch as captured (04 R60).
Log entry 15 (DESIGN CHOICE). -/
structure Launch where
  /-- The chain word's parcels, up to the end of the station parcel with STOP. -/
  word    : List Parcel
  sregs   : Vector Desc 8
  n       : Nat
  caClear : BitVec 8
  overlap : Bool
  sl      : Nat
  /-- STATUS.LEVEL at the chain-issue instruction: true for K (10 R226). -/
  levelK  : Bool
  markCfg : Half
  /-- The launch's number on its chain, for 04 R80 and R83. -/
  serial  : Nat
  deriving DecidableEq, Repr

/-- One element on a wire: position in the launch, null bit, value (wide wires use `hi`); `bad` marks an RLE
element of an invalid block, with the block number in `hi` (04 R74, 05 R109). -/
structure Elem where
  pos  : Nat
  null : Bool
  lo   : Word
  hi   : Word
  bad  : Bool
  deriving DecidableEq, Repr

/-- A line a stream unit holds for a strip: its address as the stream names it and its bytes (05 R94). -/
structure LineBuf where
  stream : Nat
  va     : Word
  bytes  : List Byte
  deriving DecidableEq, Repr

/-- A page of a strip map or of the PRB footprint (05 R104, 12 R255). -/
structure PageMap where
  stream : Nat
  tag    : Word
  data   : Word
  deriving DecidableEq, Repr

/-- An output element held until commit: its stream (4 OUTA, 5 OUTB), its address as the stream names it, its place
among the strip's elements (a compacted LINEAR or STRIDED output gets its address at commit), its bytes and whether it
is valid (05 R100, R103). -/
structure HeldElem where
  stream : Nat
  va     : Word
  idx    : Nat
  comp   : Bool
  bytes  : List Byte
  valid  : Bool
  /-- Bytes of buffer it takes: a SCATTER element carries its address (05 R100). -/
  room   : Nat
  deriving DecidableEq, Repr

/-- A write of a committed strip (05 R100). -/
structure HeldWrite where
  stream : Nat
  /-- The place of the first byte. -/
  loc    : Phys
  /-- Runs of bytes by their distance from `loc`: one, or those of a 64 B line with gaps (05 R94). -/
  parts  : List (Nat × List Byte)
  room   : Nat
  /-- The stream's QOS (05 R88, 14 R288). -/
  qos    : BitVec 4
  deriving DecidableEq, Repr

/-- The step a PRB search or insert, a bank atomic or a dictionary read is at (07 R150, R151). -/
inductive FlightStep where
  /-- Reads the bucket head. -/
  | head
  /-- Reads entry `idx`; `visited` entries were visited before it. -/
  | entry (idx : Nat) (visited : Nat)
  /-- CONT reads NEXT of entry `idx` without searching it. -/
  | next (idx : Nat)
  /-- GATHER reads its word. -/
  | gather
  /-- INSERT writes its entry `idx`. -/
  | put (idx : Nat)
  /-- INSERT swaps the bucket head. -/
  | swap (idx : Nat)
  /-- INSERT writes the old head into NEXT. -/
  | link (idx : Nat) (old : Word)
  /-- An atomic at the bank. -/
  | atomic (addr : Word) (aop : BitVec 4) (v : Word)
  /-- Finished with this result element. -/
  | done (e : Elem)
  deriving DecidableEq, Repr

/-- An element that a station has taken and that waits for a memory access. -/
structure Flight where
  elem : Elem
  h    : Word
  k0   : Word
  k1   : Word
  p0   : Word
  p1   : Word
  st   : FlightStep
  deriving DecidableEq, Repr

/-- Where one station of a strip stands. -/
structure StationRun where
  /-- Elements of its inputs it has taken. -/
  taken  : Nat
  /-- Elements it has produced, oldest first; CPT's second wire is `out2`. -/
  out1   : List Elem
  out2   : List Elem
  flight : List Flight
  /-- INSERT: elements inserted in this strip (07 R151). -/
  count  : Nat
  deriving DecidableEq, Repr

/-- The shadow of one accumulator in a strip (04 R67, 07 R157, R158). -/
structure Shadow where
  ca      : Fin 8
  op      : BitVec 5
  /-- Exact sum of an integer or decimal reduction, or the count. -/
  sum     : Int
  /-- MIN and MAX of integers: the strip's own result. -/
  best    : Option Int
  /-- The eight lane partials of a floating-point reduction. -/
  lanes   : Vector (Option Word) 8
  nonempty : Bool
  nullSeen : Bool
  /-- A rounded floating-point sum has overflowed (07 R159). -/
  ovf      : Bool
  deriving DecidableEq, Repr

/-- A mark that a strip holds until it commits, in the form of its log entry without WHICH order (08 R183). -/
structure Mark where
  pos    : Nat
  parcel : Nat
  entry  : Word
  deriving DecidableEq, Repr

/-- The condition that aborts a strip (08 R175, R178). -/
structure Abort where
  pos    : Nat
  parcel : Nat
  stn    : BitVec 5
  cond   : BitVec 4
  which  : BitVec 2
  val0   : Word
  val1   : Word
  deriving DecidableEq, Repr

/-- An RLE block that a strip's input decodes: its directory entries and its run words so far (05 R109). -/
structure RleBlock where
  stream : Nat
  block  : Nat
  first  : Nat
  stop   : Nat
  words  : List Word
  deriving DecidableEq, Repr

/-- A strip that has issued: the oldest is in Execute, the next follows it (04 R68).
Log entry 15 (DESIGN CHOICE). -/
structure Strip where
  k         : Nat
  /-- The number of this attempt at the strip on its chain: a restarted strip has a new one (04 R69). -/
  att       : Nat
  /-- Active elements. -/
  size      : Nat
  map       : List PageMap
  lines     : List LineBuf
  /-- Lines that are being fetched, by stream and address: each holds its buffer (05 R106). -/
  asked     : List (Nat × Nat)
  /-- The blocks that its RLE inputs decode now. -/
  rle       : List RleBlock
  stations  : List StationRun
  shadows   : List Shadow
  marks     : List Mark
  /-- Marks that found the queue full (08 R183). -/
  lost      : Nat
  /-- CORE_NUMF bits this strip has set (06 R119). -/
  flags     : Half
  abort     : Option Abort
  replay    : Bool
  flushOnce : Bool
  held      : List HeldElem
  /-- Elements written or performed by OUTA and OUTB (04 R78). -/
  outA      : Nat
  outB      : Nat
  deriving DecidableEq, Repr

/-- What is read of the directory of an RLE input, up to the end of its line: `n` bytes at `va`, and the answer.
Log entry 14 (DESIGN CHOICE). -/
structure DirLine where
  stream : Nat
  va     : Nat
  n      : Nat
  ans    : Reply
  deriving DecidableEq, Repr

/-- A strip in its Translate stage (12 R253, R254). -/
structure Translating where
  k         : Nat
  map       : List PageMap
  done      : Bool
  /-- A stream's translation waits on a miss or a fault. -/
  waiting   : Bool
  replay    : Bool
  flushOnce : Bool
  /-- It answers an abort: a stop lets it run as the oldest issued strip (08 R181). -/
  restarted : Bool
  /-- Committed counts of OUTA and OUTB, and active positions of the issued and of this strip, as the stage began
  (05 R104). -/
  opa       : Nat
  opb       : Nat
  act       : Nat
  /-- The lines of RLE directories that it has asked for (05 R109). -/
  dir       : List DirLine
  deriving DecidableEq, Repr

/-- The running launch. -/
structure Run where
  launch   : Launch
  /-- Buffers reserved; `granted` once the pool gave them (04 R63). -/
  need     : Nat
  granted  : Bool
  /-- Index of the next strip to enter Translate. -/
  nextK    : Nat
  trans    : Option Translating
  strips   : List Strip
  /-- DEC's table, as far as read (05 R111). -/
  dict     : List Word
  /-- A strip that was discarded with the older one before it: it issues again once that one has committed (08 R174). -/
  again    : Option Nat
  /-- PRB's footprint, held for the launch; none before it is translated or after an invalidation. -/
  prbMap   : Option (List PageMap)
  /-- INSERT: elements inserted in committed strips (07 R151). -/
  inserted : Nat
  deriving DecidableEq, Repr

/-- A stream cause raised and not yet taken (11 R233): CODE, INFO and the address. -/
structure StreamCause where
  code : BitVec 8
  info : BitVec 8
  addr : Word
  deriving DecidableEq, Repr

/-- The drain of a committed strip: its launch and its writes that are not accepted yet (04 R70). -/
structure Drain where
  serial : Nat
  writes : List HeldWrite
  deriving DecidableEq, Repr

/-- A launch's reservation in its cluster's pool: in all, and for each of the six streams (04 R63). -/
structure Resv where
  serial : Nat
  total  : Nat
  per    : Vector Nat 6
  deriving DecidableEq, Repr

/-- One of the 32 chains.
Log entry 15 (DESIGN CHOICE). -/
structure Chain where
  gang     : BitVec 2
  msc      : BitVec 40
  opa      : BitVec 41
  opb      : BitVec 41
  cas      : Half
  ca       : Vector Wide 8
  lchk     : Half
  exs      : Word
  expos    : Word
  exval0   : Word
  exval1   : Word
  markCfg  : Half
  markCnt  : Half
  numf     : Half
  replays  : Half
  srec     : Half
  stopReq  : Bool
  exc      : Bool
  lwait    : Bool
  run      : Option Run
  queued   : Option Launch
  /-- Drains of committed strips, oldest strip first (04 R70). -/
  drains   : List Drain
  /-- Reservations of launches that run or whose drains are not all accepted (04 R63). -/
  resv     : List Resv
  /-- Loads of CAn that wait for their launch order (04 R80): the launches up to the number must have ended. -/
  caLoads  : List (Nat × Fin 8 × Wide)
  /-- Launches issued: the serial of the last one (04 R80, R83). -/
  issued   : Nat
  /-- Strips issued: the number of the last attempt. -/
  tries    : Nat
  cause    : Option StreamCause
  excHeld  : Bool
  /-- Buffers held and their peak, per stream INA to OUTB (05 CORE_SU_HELD). -/
  held     : Vector Nat 6
  peak     : Vector Nat 6
  /-- An access failure stopped the chain (05 R99): what a KERNEL_RUN reports. -/
  failed   : Bool
  /-- The chain stopped because MSC would have wrapped (04 R73). -/
  wrapped  : Bool
  deriving DecidableEq, Repr

/-- A cluster's buffer pool (05 R106): unreserved free buffers, launches that wait, the round-robin position. -/
structure Pool where
  free     : Nat
  reserved : Nat
  waiting  : List ChainId
  turn     : Nat
  deriving DecidableEq, Repr

/-! ## The Amtik Command Interface (03) -/

/-- A line that firmware has to wait for in an access of a command: the master that sends it, the pointer, where it lies, and
the bytes there that are read or written; the answer.
Log entry 14 (DESIGN CHOICE). -/
structure FwIo where
  m    : Nat
  wr   : Bool
  ptr  : Nat
  line : Nat
  loc  : Phys
  n    : Nat
  data : List Byte
  ans  : Reply
  deriving DecidableEq, Repr

/-- A queue pair that exists. -/
structure Pair where
  gen       : BitVec 4
  sqLog2    : Nat
  cqLog2    : Nat
  /-- Rings in local DDR (LOC = 1). -/
  dev       : Bool
  sqBase    : Word
  cqBase    : Word
  vector    : Nat
  weight    : Nat
  sqHead    : Nat
  sqTail    : Nat
  cqHead    : Nat
  /-- Slot firmware writes next, and the PHASE it writes there (03 R41). -/
  cqNext    : Nat
  phase     : Bool
  /-- TAG of the next entry to fetch (03 R47). -/
  tag       : BitVec 20
  halted    : Bool
  /-- DELETE_QP has stopped its fetching; the entries up to SQ_TAIL are flushed (03 R58). -/
  deleting  : Bool
  coalCount : Nat
  coalTime  : Nat
  /-- Records written since the CQ last raised its interrupt (03 R59). -/
  counted   : Nat
  /-- The answer to the read of its next entry, once it has come. -/
  entry     : Option Reply
  deriving DecidableEq, Repr

/-- How far a fetched command has come. -/
inductive CmdPhase where
  /-- Checked and waiting to start (03 R42). -/
  | ready
  /-- Committed to run. -/
  | running
  /-- Fetched but completed with an error; its record waits for the ring. -/
  | finished
  deriving DecidableEq, Repr

/-- How a sequencer of a KERNEL_RUN ended (03 R416). -/
inductive SeqEnd where
  | normal
  | halted
  | faulted (cause : BitVec 16)
  | stopped
  deriving DecidableEq, Repr

/-- What a completion record says of its command (03 R49). -/
structure CmdRecord where
  status     : BitVec 16
  detail     : Half
  milestones : Nat
  result     : Word
  deriving DecidableEq, Repr

/-- A range of the page table that the runtime holds for a kernel run: each virtual address in it is its own global address,
and its leaves carry these bits of a TLB data word (12 R244, R413). -/
structure MapRange where
  base : Nat
  size : Nat
  bits : Word
  deriving DecidableEq, Repr

/-- What a sequencer of a KERNEL_RUN and its chain report: the first row of 03 R416's table that applies, with its STATUS
and DETAIL. -/
structure SeqFailure where
  core   : Nat
  row    : Nat
  status : BitVec 16
  detail : Half
  deriving DecidableEq, Repr

/-- A fetched command.
Log entry 15 (DESIGN CHOICE). -/
structure Cmd where
  qid        : Nat
  handle     : Half
  entry      : List Byte
  phase      : CmdPhase
  /-- A cancel after start has been applied (03 R57). -/
  cancelled  : Bool
  milestones : Nat
  /-- KERNEL_RUN: sequencers that have ended, with how. -/
  ends       : List (Nat × SeqEnd)
  /-- KERNEL_RUN: the failure seen first (03 R416). -/
  failure    : Option SeqFailure
  /-- KERNEL_RUN: D0 of the lowest-numbered sequencer at its trap 0 (10 R222). -/
  inline     : Word
  /-- KERNEL_RUN: its sequencers have been started. -/
  started    : Bool
  /-- KERNEL_RUN: the chains that firmware has stopped, as a bitmap (03 R416). -/
  rested     : Nat
  /-- KERNEL_RUN: the page table that the runtime holds for the run (12 R413). -/
  table      : List MapRange
  /-- COPY and FILL: the chains that firmware has assigned, as a bitmap (03 R52). -/
  chains     : Nat
  /-- The lines of an access that has to wait. -/
  io         : List FwIo
  /-- The record of a finished command, which waits to be written. -/
  record     : Option CmdRecord
  deriving DecidableEq, Repr

/-- The open DIAG_OPEN grant (03 R54). -/
structure Grant where
  blocks  : BitVec 16
  write   : Bool
  limitMs : Nat
  deriving DecidableEq, Repr

/-- The ACI's registers and firmware's view of it.
Log entry 15 (DESIGN CHOICE). -/
structure Aci where
  enable     : Bool
  ready      : Bool
  fatal      : Bool
  aqGen      : BitVec 4
  aqCfg      : Half
  sqBase     : Word
  cqBase     : Word
  dropped    : Bool
  err        : Half
  cancels    : List Half
  /-- Handles cancelled before their command was fetched (03 R57). -/
  marked     : List Half
  pairs      : List (Nat × Pair)
  /-- Generation of each pair number, kept across deletion (03 R47). -/
  gens       : Regs 4
  /-- Fetched commands whose records are not given to memory yet, in the order of their fetch. -/
  cmds       : List Cmd
  /-- Commands that can start, in the order in which they became ready (03 R42). -/
  readyQ     : List Half
  version    : Option (Nat × Nat)
  features   : Half
  grant      : Option Grant
  /-- The enable found an invalid configuration, and READY stays 0 (03 R43). -/
  failed     : Bool
  /-- A reset is in progress (03 R45); an ENABLE written during it is held. -/
  resetting  : Bool
  /-- The round of R42: the pair being visited and what was fetched from it in this round. -/
  roundQid   : Nat
  roundTaken : Nat
  deriving DecidableEq, Repr

/-! ## Memory, DDR and scratch (13) -/

/-- One DDR controller's registers (13). -/
structure Ddr where
  slots  : BitVec 2
  refx2  : Bool
  state  : BitVec 3
  ecc    : Word
  eccAddr : Word
  scrub  : Half
  srCfg  : Half
  deriving DecidableEq, Repr

/-- The scratch registers (13).
Log entry 15 (DESIGN CHOICE). -/
structure Scr where
  ecc     : Word
  eccAddr : Word
  scrub   : Half
  rpr     : Regs 32
  conf    : Regs 64
  req     : Regs 64
  /-- Words with a single-bit error, by local offset ÷ 8, and those whose corrected value the bank will write back
  (13 R262). -/
  soft      : List Nat
  writeBack : List Nat
  deriving DecidableEq, Repr

/-- DDR and scratch contents by local offset, with the poisoned words and lines (13 R263, R273).
Log entry 15 (DESIGN CHOICE). -/
structure Memory where
  cells  : Mem
  /-- Poisoned granules: offset ÷ 8 for scratch words, offset ÷ 64 for DDR lines. -/
  badScratch : List Nat
  badDdr     : List Nat
  /-- DDR lines with an error that their check bits correct, and those whose corrected line is owed a write-back
  (13 R273). -/
  softDdr    : List Nat
  ddrBack    : List Nat
  /-- Addressable capacity D (02 R18); 0 until DDR is up. -/
  d      : Nat
  /-- D that the population found at bring-up will give. -/
  dNext  : Nat
  /-- The module that every slot of the accepted population holds, and whether slot 1 is filled (13 R270, R272). -/
  dimm   : Option (Dimm × Bool)
  init   : Half
  deriving DecidableEq, Repr

/-! ## The junction (14) -/

/-- A request waiting at a target port. -/
structure Waiting where
  req  : JReq
  lost : Nat
  deriving DecidableEq, Repr

/-- A target port of a junction: its waiting requests in arrival order, its grant, its lay-by. -/
structure TPort where
  waiting : List Waiting
  grant   : Option JReq
  layby   : Option Nat
  deriving DecidableEq, Repr

/-- A destination slot (14 R292). -/
structure DestSlot where
  node  : BitVec 20
  valid : Bool
  out   : Nat
  /-- JNC_FLAG. -/
  lag   : Word
  deriving DecidableEq, Repr

/-- The junction's registers and ports.
Log entry 15 (DESIGN CHOICE). -/
structure Jnc where
  cfg     : Half
  time    : Word
  lagCfg  : Half
  rBudget : Half
  hqos    : Half
  dlag    : Vector Word 16
  plag    : Vector Word 8
  /-- JNC_SLAG by chain × 32 + station. -/
  slag    : Regs 64
  /-- JNC_CPRI by (cluster × 25 + master) × 33 + word; JNC_RPRI by master × 4 + word. -/
  cpri    : Regs 32
  rpri    : Regs 32
  /-- Ports that are not idle, by junction × 512 + target. -/
  ports   : List (Nat × TPort)
  slots   : Vector DestSlot 64
  /-- Slots in least-recently-used order, the least recent first. -/
  lru     : List (Fin 64)
  /-- Requests that have passed an uplink or a downlink and not arrived at the next junction (14 R288). -/
  hops    : List JReq
  /-- The root target port whose turn comes next (14 R281). -/
  turn    : Nat
  deriving DecidableEq, Repr

/-! ## The host link (15) -/

/-- An access of this device that waits for an answer from the home agent, host memory or another node: whose it is, with the
attempt at a strip, the write or the flight that it serves. -/
inductive Wanted where
  | load (n : CoreId) (seq : Nat)
  | store (n : CoreId)
  | fetch (n : CoreId) (t : ThreadId) (va : Word)
  | line (c : ChainId) (att stream : Nat) (va : Word)
  | drain (c : ChainId) (w : HeldWrite)
  | flight (c : ChainId) (att parcel : Nat) (f : Flight)
  | dict (c : ChainId) (att parcel : Nat)
  /-- A line of the directory of an RLE input, at `va`, for the strip in Translate. -/
  | dir (c : ChainId) (serial att k stream va : Nat)
  /-- A line of what firmware reads or writes for a command: with scratch master `m`, by pointer `ptr` (03 R50). -/
  | fw (m : Nat) (handle : Half) (wr : Bool) (ptr line : Nat)
  /-- The entry of a submission ring that will have a handle (03 R47). -/
  | entry (handle : Half)
  deriving DecidableEq, Repr

/-- An answer that has reached a core whose clock is stopped (17 R356): one from outside, or a line of memory. -/
inductive Late where
  | reply (w : Wanted) (r : Reply)
  | line (w : Wanted) (line : Nat) (bytes : List Byte) (poison : Bool)
  deriving DecidableEq, Repr

/-- A completion record on its way to memory: its pair, the pair's generation, and IRQ_NOW. -/
structure RecordRef where
  qid : Nat
  gen : BitVec 4
  irq : Bool
  deriving DecidableEq, Repr

/-- What a D2H request is for: the write of a completion record, or an access of a core or a chain. -/
inductive D2hFor where
  | record (r : RecordRef)
  | want (w : Wanted)
  deriving DecidableEq, Repr

/-- A D2H request outstanding on a cache link (15 R312, R313). -/
structure D2h where
  tag   : Nat
  hpa   : Word
  write : Bool
  who   : D2hFor
  deriving DecidableEq, Repr

/-- Error registers in their standard form: uncorrectable status, mask and severity, correctable status and mask (15 R315). -/
structure ErrRegs where
  unc     : Half
  uncMask : Half
  uncSev  : Half
  cor     : Half
  corMask : Half
  deriving DecidableEq, Repr

/-- A DOE mailbox: what the host has written of an object, and what it has not yet read of the answer (15 R298). -/
structure Doe where
  irq     : Bool
  error   : Bool
  request : List Half
  answer  : List Half
  deriving DecidableEq, Repr

/-- What the host writes in the configuration space of a link's function (15 R299, R301, R303). -/
structure LinkCfg where
  /-- The Command register: bit 1 Memory Space Enable, bit 2 Bus Master Enable. -/
  command : BitVec 16
  /-- BAR0, BAR2 and BAR4. -/
  bars    : Vector Word 3
  /-- The function stands in D3hot. -/
  d3hot   : Bool
  devCtl  : BitVec 16
  /-- Device Control 3: bit 2 enables 14-bit tags (15 R298). -/
  dev3    : BitVec 16
  aer     : ErrRegs
  doe     : Doe
  /-- The selective IDE stream for CXL.io: its control, its two requester-ID words and its three address words, and whether its
  keys are set (15 R298). -/
  stream  : Vector Half 6
  keyed   : Bool
  deriving DecidableEq, Repr

/-- One CXL link. -/
structure Link where
  up      : Bool
  cxl     : Bool
  width   : BitVec 4
  speed   : BitVec 4
  cacheEn : Bool
  memEn   : Bool
  ide     : Bool
  /-- IDE runs in skid mode rather than in containment mode (15 R298, R314). -/
  skid    : Bool
  /-- MSI-X Enable of the link's function, and its Function Mask (15 R302). -/
  msixEn  : Bool
  fnMask  : Bool
  /-- The function reports Mem_Capable (15 R302). -/
  memCap  : Bool
  cfg     : LinkCfg
  d2h     : List D2h
  deriving DecidableEq, Repr

/-- Snoop filter state of a line (15 R307); a line without an entry is in I. -/
inductive SfState where
  | s
  | a
  | pi
  | pr
  deriving DecidableEq, Repr

/-- Whose a device access at the home agent is: who is told when it is served (15 R306, R308). -/
inductive Who where
  | want (w : Wanted)
  | tag (t : Nat)
  | record (r : RecordRef)
  /-- A request of another node, by its requester and TID. -/
  | remote (src : BitVec 20) (tid : BitVec 16)
  deriving DecidableEq, Repr

/-- A held device access; `snooped` says that the snoop of its line was sent for it. -/
structure Held where
  line    : Nat
  who     : Who
  op      : LineOp
  snooped : Bool
  deriving DecidableEq, Repr

/-- A host request held at the home agent (15 R307, R309). -/
structure HostReq where
  hpa    : Word
  line   : Nat
  mv     : Meta
  /-- A write's data with its byte enables; a read, an invalidation otherwise. -/
  wr     : Option (BitVec 64 × List Byte)
  /-- Answered with data (MemRd, MemRdData). -/
  data   : Bool
  poison : Bool
  /-- MemClnEvct. -/
  clean  : Bool
  /-- The victim of its set whose snoop it waits for (15 R309). -/
  behind : Option Nat
  deriving DecidableEq, Repr

/-- The HDM decoder (15 R304). -/
structure Decoder where
  base      : Word
  size      : Word
  committed : Bool
  notCommitted : Bool
  locked    : Bool
  deriving DecidableEq, Repr

/-- The HDM decoder's registers as the host has written them, in the layout of CXL 3.1 (15 R304). -/
structure HdmRegs where
  base   : Word
  size   : Word
  skip   : Word
  /-- Interleave granularity and interleave ways. -/
  gran   : BitVec 4
  ways   : BitVec 4
  lock   : Bool
  commit : Bool
  /-- The global control register. -/
  global : BitVec 2
  deriving DecidableEq, Repr

/-- The CXL ports and the home agent. -/
structure Cxl where
  links   : Vector Link 6
  lerr    : Vector Word 6
  hdmLink : BitVec 3
  bifd    : Vector Bool 2
  /-- Snoop filter entries, most recently used first. -/
  sf      : List (Nat × SfState)
  held    : List Held
  hostHeld : List HostReq
  biCnt   : Word
  biXing  : Word
  sfEvict : Word
  decoder : Decoder
  hdmRegs : HdmRegs
  /-- The CXL RAS capability of the component registers (15 R315). -/
  ras     : ErrRegs
  /-- MSI-X table: words by entry × 2 (address) and entry × 2 + 1 (data and control), and the pending bits. -/
  msixTab : Regs 64
  pba     : List Nat
  deriving DecidableEq, Repr

/-! ## The fabric (16) -/

/-- One virtual channel of a link: credits held toward the peer, slots of ours the peer has filled, credits owed. -/
structure Vc where
  credit : Nat
  used   : Nat
  owed   : Nat
  deriving DecidableEq, Repr

/-- A management message that waits for credits: its opcode, header and payload. -/
structure MgtMsg where
  opc     : BitVec 8
  h       : MgtHdr
  payload : List Byte
  deriving DecidableEq, Repr

/-- A message that a port is receiving or has received (16 R324): a routed one with its opcode, or one of management. -/
inductive RxBody where
  | routed (opc : BitVec 8) (m : Msg)
  | mgt (m : MgtMsg)
  deriving DecidableEq, Repr

/-- A received message, its VC, the bytes of its data that have not come, and the slots of the receive buffer that it holds. -/
structure RxMsg where
  vc    : Nat
  need  : Nat
  slots : Nat
  body  : RxBody
  deriving DecidableEq, Repr

/-- A slot of a frame: its descriptor and its 64 bytes (16 R323, R324). -/
structure FlitSlot where
  desc  : BitVec 48
  bytes : List Byte
  deriving DecidableEq, Repr

/-- A sequenced frame: its slots, of which the absent ones are EMPTY, its SEQ and its credit return (16 R323). -/
structure TxFrame where
  slots : List FlitSlot
  seq   : BitVec 12
  cvc   : Nat
  ccnt  : Nat
  deriving DecidableEq, Repr

/-- One TGL port.
Log entry 15 (DESIGN CHOICE). -/
structure Tgl where
  en      : Bool
  up      : Bool
  rel     : BitVec 4
  major   : BitVec 4
  minor   : BitVec 4
  lanes   : BitVec 2
  downr   : BitVec 4
  peer    : Word
  peerNode : Half
  pepoch  : Word
  err     : Word
  refused : Word
  /-- Last training frame received and how many identical ones in a row (16 R320). -/
  train   : Option TrainFrame
  same    : Nat
  vcs     : Vector Vc 9
  /-- SEQ of the next sequenced frame to send and of the last one received in order. -/
  txSeq   : BitVec 12
  rxSeq   : BitVec 12
  /-- Sequenced frames sent and not acknowledged, oldest first (16 R330). -/
  sent    : List TxFrame
  /-- A NAK has been sent and the frame after the last good one has not come (16 R330). -/
  nakSent : Bool
  /-- Replays of the first unacknowledged frame. -/
  replays : Nat
  /-- The last heartbeat received. -/
  hb      : Option HeartbeatMsg
  /-- CATCHING_UP has run out (16 R342). -/
  ranOut  : Bool
  /-- Messages that wait at the port for credits, or in TRAINING or CATCHING_UP (16 R329, R331), oldest first. -/
  hold    : List (BitVec 8 × Msg)
  mgt     : List MgtMsg
  /-- Halves whose lanes this end has all locked: bit 0 lanes 0 to 3, bit 1 lanes 4 to 7 (16 R320). -/
  locked  : BitVec 2
  /-- VC of the message most recently begun on the receiving side (16 R324). -/
  rxVc    : Nat
  /-- The message that still takes DATA slots, and the messages in the receive buffer, oldest first. -/
  rxOpen  : Option RxMsg
  rx      : List RxMsg
  deriving DecidableEq, Repr

/-- A remote request of this device that awaits its response (16 R336). -/
structure RemoteReq where
  tid   : BitVec 16
  who   : Wanted
  opc   : BitVec 8
  msg   : Msg
  /-- It has been admitted and given to a port (14 R292); the destination slot it is counted in. -/
  sent  : Bool
  slot  : Option (Fin 64)
  deriving DecidableEq, Repr

/-- A flood key this device holds (16 R338): its arrival port (none at the origin), and whether the key itself is
still held. -/
structure FloodKey where
  origin : Word
  fseq   : BitVec 32
  port   : Option PortId
  live   : Bool
  deriving DecidableEq, Repr

/-- A fabric settings record, as its bytes (16 R343). -/
abbrev FabricRecord := List Byte

/-- A record being pulled with FSR_REQ (16 R339).
Log entry 15 (DESIGN CHOICE). -/
structure Pull where
  port   : PortId
  epoch  : Word
  staged : Bool
  /-- Length of the record; 0 until it is known. -/
  length : Nat
  got    : List Byte
  /-- End of the range that has been asked for. -/
  asked  : Nat
  tries  : Nat
  /-- The PROPOSE that asked for it: its header, the LENGTH it announced, its digest. -/
  header : Option MgtHdr
  announced : Half
  d0     : Word
  d1     : Word
  deriving DecidableEq, Repr

/-- A proposal this device has made (16 R345): E, the command's handle, whether discovery made it (R340), the FSEQ of its
flood, the votes.
Log entry 15 (DESIGN CHOICE). -/
structure Proposal where
  e       : Word
  handle  : Option Half
  auto    : Bool
  fseq    : BitVec 32
  acks    : List Word
  /-- The proposal has completed with SUCCESS and may be committed (16 R346). -/
  passed  : Bool
  deriving DecidableEq, Repr

/-- A survey in progress (16 R349). -/
structure Survey where
  handle : Half
  fseq   : BitVec 32
  recs   : List SurveyRec
  deriving DecidableEq, Repr

/-- A request of another device at this one's home agent: its lines that are not served yet, and the bytes of those that are
(16 R335). -/
structure AtHome where
  opc  : BitVec 8
  msg  : Msg
  /-- The port that it came by, and the slots of its response (14 R291). -/
  port : PortId
  slots : Nat
  need : List Nat
  got  : List (Nat × List Byte)
  bad  : Bool
  deriving DecidableEq, Repr

/-- What a valid copy in the fabric area says (18 R394). -/
structure FabricCopy where
  node   : Half
  epoch  : Word
  record : FabricRecord
  deriving DecidableEq, Repr

/-- The XL_ block and the fabric's firmware state.
Log entry 15 (DESIGN CHOICE). -/
structure Xl where
  node      : Half
  rtBank    : Bool
  staged    : Bool
  culdesac  : Bool
  epoch     : Word
  digest    : Vector Word 2
  pEpoch    : Word
  pDigest   : Vector Word 2
  hbCfg     : Half
  timeout   : Half
  /-- XL_GRT by bank × 4096 + group; XL_MRT by bank × 256 + member. -/
  grt       : Regs 32
  mrt       : Regs 32
  record    : FabricRecord
  stagedRec : FabricRecord
  atomics   : Bool
  remoteCsr : Bool
  keys      : List FloodKey
  fseq      : BitVec 32
  lowest    : Option Word
  parent    : Option PortId
  neighs    : List Neigh
  discovering : Bool
  proposals : List Proposal
  survey    : Option Survey
  pulls     : List Pull
  /-- Epoch of the last committed record that the device could not take (16 R348 step 3). -/
  unfit     : Option Word
  remote    : List RemoteReq
  /-- Requests of other devices with lines that the home agent holds back. -/
  atHome    : List AtHome
  /-- A committed waymark that the fabric area does not hold yet (18 R394). -/
  toStore   : Option FabricCopy
  deriving DecidableEq, Repr

/-! ## Clocks, power, heat, boot and flash (17, 18) -/

/-- A PLL: its register fields, a switch in progress and whether it relocks, the writes held behind it.
Log entry 15 (DESIGN CHOICE). -/
structure Pll where
  loss    : Bool
  coast   : Bool
  lock    : Bool
  ref     : Bool
  mult    : Byte
  postdiv : Byte
  switching : Bool
  relock  : Bool
  held    : List Half
  deriving DecidableEq, Repr

/-- Power and heat. -/
structure Pwr where
  cfg     : Half
  peakW   : BitVec 10
  /-- Burst credit in units of 100 µJ·W: 1 J is 10,000; current credit in units of 100 µA·s. -/
  burst   : Nat
  current : Nat
  vcoreMv : Nat
  imeanA  : Nat
  pkgW    : Nat
  on      : Bool
  avsErr  : Bool
  floor   : Bool
  limPeak : Bool
  limBurst : Bool
  limCurrent : Bool
  limThermal : Bool
  gate    : Word
  gated   : Word
  deriving DecidableEq, Repr

/-- The on-die sensors and the wear counters. -/
structure Thm where
  t       : Vector (BitVec 16) 64
  max     : BitVec 16
  cfg     : Half
  wear    : Word
  /-- The wear total as stored (17 R366). -/
  stored  : Word
  deriving DecidableEq, Repr

/-- What a valid copy of the boot control record says (18 R378). -/
structure BootCtl where
  seq    : Half
  active : Bool
  valid  : BitVec 2
  deriving DecidableEq, Repr

/-- What a valid copy of the wear area says (18 R395). -/
structure WearCopy where
  seconds : Word
  seq     : Word
  deriving DecidableEq, Repr

/-- A committed settings generation: its number and its record's bytes (18 R388). -/
structure Generation where
  number : Word
  record : List Byte
  deriving DecidableEq, Repr

/-- A record of the settings store, at its 4 KiB sector of the store, and the bytes of the mark that follows it: none until it is
committed (18 R388). -/
structure Stored where
  sector : Nat
  record : List Byte
  mark   : List Byte
  deriving DecidableEq, Repr

/-- The external flash (18 R377): the bytes of its areas from each area's start, as far as they were programmed. -/
structure Flash where
  /-- The copies of the boot control record. -/
  boot   : Vector (List Byte) 2
  slots  : Vector (List Byte) 2
  /-- The records of the settings store, in the order in which they were appended. -/
  store  : List Stored
  /-- The calibration area's bytes. -/
  cal    : List Byte
  fabric : Vector (List Byte) 2
  wear   : Vector (List Byte) 2
  deriving DecidableEq, Repr

/-- Where the device stands between reset and running firmware (18 R374). -/
inductive Phase where
  /-- No power, VSTBY included. -/
  | off
  /-- Held in device reset. -/
  | reset
  /-- The boot ROM has verified an image and runs on MC0. -/
  | rom
  /-- The ROM serves the recovery mailbox (18 R384). -/
  | recovery
  /-- Firmware runs. -/
  | firmware
  /-- Held in reset by a thermal trip until the rails are removed (17 R365). -/
  | tripped
  deriving DecidableEq, Repr

/-- Fuses, pins, the boot and settings state of firmware.
Log entries 15 (DESIGN CHOICE), 92 (DESIGN CHOICE). -/
structure Chip where
  phase     : Phase
  serial    : Word
  keyHash   : List Byte
  /-- The fuse itself, and its value when the fuses were last read (18 R397). -/
  dbgFuse   : Bool
  dbgLock   : Bool
  cause     : BitVec 4
  result    : BitVec 2
  slot      : Bool
  /-- PWR_WAKE: UV, TRIP, WAKEREQ (17 R369). -/
  wake      : BitVec 3
  thermtripN : Bool
  pwrreqN   : Bool
  clkin     : Bool
  /-- CLKIN was absent as reset ended, and firmware has not relocked every loop since (19 R411). -/
  cold      : Bool
  /-- PORT0_BIF, PORT1_BIF, SMB_A0, SMB_A1 as sampled (19 R404). -/
  straps    : BitVec 4
  romOverlay : Bool
  /-- A firmware reset is due in 1 ms (18 R383, R384). -/
  resetDue  : Bool
  calStat   : Bool
  tofs      : Regs 16
  trim      : Regs 8
  /-- The calibration set in force is present (18 R392). -/
  calPresent : Bool
  provisional : Bool
  unreadable : Bool
  /-- The settings record in use, and the staged one (18 R390). -/
  settings  : List Byte
  stagedSet : Option (List Byte)
  clkGate   : Half
  /-- PREPARE_OFF has been written, and has completed (19 R405). -/
  preparing : Bool
  offReady  : Bool
  jtag      : JtagInstr
  /-- The boundary-scan register: a cell for each signal in the order of 19 R403, RESET_N at bit 0. -/
  bsr       : BitVec 26
  /-- Answers that wait for a core while CCLK is stopped, oldest first. -/
  late      : List Late
  deriving DecidableEq, Repr

/-! ## Register access errors and events (02, 11) -/

/-- ACC_ERR, ACC_ADDR and the EVT_ block. -/
structure Evt where
  accErr  : BitVec 4
  accAddr : Word
  route   : Regs 32
  pend    : Vector Word 32
  /-- EVT_TADDR by core × 4 + thread. -/
  taddr   : Regs 64
  /-- EVT_HALT by core. -/
  halt    : Regs 32
  deriving DecidableEq, Repr

/-! ## What leaves the block -/

/-- What the block sends to its surroundings: the model's record of its outputs, oldest first.
Log entry 13 (DESIGN CHOICE). -/
inductive Out where
  | msix (vec : Nat)
  /-- CXL.cache requests (15 R311): a read of a line, a write of a whole line, a write of some bytes of one by their enables. -/
  | rdCurr (link : LinkId) (tag line : Nat)
  | itoMWr (link : LinkId) (tag line : Nat) (data : List Byte)
  | woWrInv (link : LinkId) (tag line : Nat) (be : BitVec 64) (data : List Byte)
  /-- The completion of a BAR read, poisoned or not. -/
  | barData (v : Word) (poison : Bool)
  /-- A store of the device that host memory or another node has accepted, and an atomic that another node has
  performed. -/
  | hostStore (hpa : Word) (bytes : List Byte)
  | farStore (ga : Word) (bytes : List Byte)
  | farAtomic (ga : Word) (aop : BitVec 4) (v : Word)
  /-- S2M responses with their DevLoad (15 R298). -/
  | s2mData (hpa : Word) (bytes : List Byte) (poison : Bool) (load : BitVec 2)
  | s2mDone (hpa : Word) (load : BitVec 2)
  | biSnpData (line : Nat)
  | biSnpInv (line : Nat)
  | biConflictAck (hpa : Word)
  | rspIHitI (hpa : Word)
  /-- An error message of AER: 0 correctable, 1 non-fatal, 2 fatal (15 R315). -/
  | errMsg (link : LinkId) (kind : Fin 3)
  | bankRsp (m : Nat) (bytes : List Byte) (poison : Bool)
  | lineRsp (tag : Nat) (bytes : List Byte) (poison : Bool)
  /-- A frame on a link: its 256 B flit and its 32 B FCW (16 R323). -/
  | tglFrame (p : PortId) (bytes : List Byte)
  /-- A message that the frames before it carry. -/
  | tglMsg (p : PortId) (opc : BitVec 8) (m : Msg)
  | tglMgt (p : PortId) (opc : BitVec 8) (h : MgtHdr) (payload : List Byte)
  | avsVolts (mv : Nat)
  | uart (state : Nat)
  | smbus (bytes : List Byte)
  | smbusNack
  | jtagCode (v : Half)
  /-- The boundary-scan register as it was captured, and the levels that EXTEST drives from it (19 R406). -/
  | jtagScan (cells : BitVec 26)
  | pinsDriven (cells : BitVec 26)
  deriving DecidableEq, Repr

/-- The state of the block. -/
structure State where
  /-- The commands that wait, first in, first out. -/
  pending : List Instr
  /-- Numbers the free values drawn so far: the model's own field. -/
  free    : Nat
  /-- What the block has sent: the model's own record. -/
  out     : List Out
  chip    : Chip
  flash   : Flash
  evt     : Evt
  aci     : Aci
  cores   : Vector Core 36
  chains  : Vector Chain 32
  pools   : Vector Pool 4
  mem     : Memory
  scr     : Scr
  ddr     : Vector Ddr 16
  jnc     : Jnc
  cxl     : Cxl
  xl      : Xl
  tgl     : Vector Tgl 8
  plls    : Vector Pll 6
  pwr     : Pwr
  thm     : Thm
  deriving DecidableEq, Repr

/-- What every meaning answers. -/
abbrev Outcome := Host.Outcome State Fault Refusal

/-! ## The state after reset (18 R373) -/

/-- A thread after reset: every register 0. -/
def Thread.reset : Thread where
  pc := 0
  a := Vector.replicate 16 0
  d := Vector.replicate 32 0
  status := 0
  cause := 0
  era := 0
  est := 0
  latch := []
  waited := false
  hold := false
  frame := Vector.replicate 2 .unread
  buf := none
  prev := none
  live := false

/-- Data TLB lock slot 0 after reset (12 R251). -/
def TlbEntry.boot : TlbEntry := { tag := 0x00000FF000000300, data := 0x00000FF00000021B }

/-- A core after reset. CORE_CFG resets to 0x1F (09 R195). -/
def Core.reset : Core where
  threads := Vector.replicate 4 Thread.reset
  x := Vector.replicate 8 0
  s := Vector.replicate 8 0
  evb := 0
  slim := 0
  cycle := 0
  imem := []
  dmem := []
  badWords := []
  soft := []
  cfg := 0x1F
  mode := 0x1F
  cfgDue := none
  ctl := 0
  stat := 0
  entry := 0
  thrPc := Vector.replicate 3 0
  dbPend := 0
  dbEn := 0
  loads := []
  stores := []
  divider := none
  seq := 0
  dcache := []
  icache := []
  deferred := []
  tlbTag := 0
  tlbData := 0
  victim := 0
  hit := false
  wakes := 0
  ilock := Vector.replicate 4 none
  dlock := (Vector.replicate 4 none).set 0 (some TlbEntry.boot)
  ifill := Vector.replicate 12 none
  dfill := Vector.replicate 28 none
  inext := 0
  dnext := 0
  l2 := []
  invals := []
  sqos := 0

/-- A chain after reset. -/
def Chain.reset : Chain where
  gang := 0
  msc := 0
  opa := 0
  opb := 0
  cas := 0
  ca := Vector.replicate 8 0
  lchk := 0
  exs := 0
  expos := 0
  exval0 := 0
  exval1 := 0
  markCfg := 0
  markCnt := 0
  numf := 0
  replays := 0
  srec := 0
  stopReq := false
  exc := false
  lwait := false
  run := none
  queued := none
  drains := []
  resv := []
  caLoads := []
  issued := 0
  tries := 0
  cause := none
  excHeld := false
  held := Vector.replicate 6 0
  peak := Vector.replicate 6 0
  failed := false
  wrapped := false

/-- A buffer pool after reset: 2,048 free buffers (05 R107 JNC_POOL). -/
def Pool.reset : Pool := { free := 2048, reserved := 0, waiting := [], turn := 0 }

/-- The ACI after reset. -/
def Aci.reset : Aci where
  enable := false
  ready := false
  fatal := false
  aqGen := 0
  aqCfg := 0
  sqBase := 0
  cqBase := 0
  dropped := false
  err := 0
  cancels := []
  marked := []
  pairs := []
  gens := []
  cmds := []
  readyQ := []
  version := none
  features := 0
  grant := none
  failed := false
  resetting := false
  roundQid := 0
  roundTaken := 0

/-- A DDR controller after reset: DDR_SCRUB 0x1801 (13). -/
def Ddr.reset : Ddr where
  slots := 0
  refx2 := false
  state := 0
  ecc := 0
  eccAddr := 0
  scrub := 0x1801
  srCfg := 0

/-- The scratch registers after reset: SCR_SCRUB 0x000E1001; no column repaired (DESIGN CHOICE, log entry 4).
Log entry 4 (DESIGN CHOICE). -/
def Scr.reset : Scr where
  ecc := 0
  eccAddr := 0
  scrub := 0x000E1001
  rpr := []
  conf := []
  req := []
  soft := []
  writeBack := []

/-- Memory after reset: nothing listed, D = 0 (13 R261, R271).
Log entry 2 (DESIGN CHOICE). -/
def Memory.reset : Memory where
  cells := []
  badScratch := []
  badDdr := []
  softDdr := []
  ddrBack := []
  d := 0
  dNext := 0
  dimm := none
  init := 0

/-- The junction after reset (14, Registers). -/
def Jnc.reset : Jnc where
  cfg := 0x00004003
  time := 0
  lagCfg := 0x1C
  rBudget := 0x80
  hqos := 0
  dlag := Vector.replicate 16 0
  plag := Vector.replicate 8 0
  slag := []
  cpri := []
  rpri := []
  ports := []
  slots := Vector.replicate 64 { node := 0, valid := false, out := 0, lag := 0 }
  lru := List.finRange 64
  hops := []
  turn := 0

/-- Error registers after reset: nothing reported, the masks and severities given. Those of AER and of CXL RAS are PRESUMED
from PCI Express and CXL, log entry 143.
Log entry 143 (PRESUMED). -/
def ErrRegs.reset (mask sev corMask : Half) : ErrRegs :=
  { unc := 0, uncMask := mask, uncSev := sev, cor := 0, corMask := corMask }

/-- A function's configuration after a reset of it. Device Control's value is PRESUMED from PCI Express, log entry 143.
Log entry 143 (PRESUMED). -/
def LinkCfg.reset : LinkCfg where
  command := 0
  bars := Vector.replicate 3 0
  d3hot := false
  devCtl := 0x2810
  dev3 := 0
  aer := ErrRegs.reset 0x00400000 0x00462030 0x00002000
  doe := { irq := false, error := false, request := [], answer := [] }
  stream := Vector.replicate 6 0
  keyed := false

/-- A CXL link after reset: down.
Log entry 8 (DESIGN CHOICE). -/
def Link.reset : Link where
  up := false
  cxl := false
  width := 0
  speed := 0
  cacheEn := false
  memEn := false
  ide := false
  skid := false
  msixEn := false
  fnMask := false
  memCap := false
  cfg := LinkCfg.reset
  d2h := []

/-- The CXL ports and the home agent after reset. The MSI-X entries are masked, bit 32 of the second word of each
(PRESUMED from PCI Express, log entry 5): the table stores the complement of the mask bit.
Log entries 5 (PRESUMED), 8 (DESIGN CHOICE). -/
def Cxl.reset : Cxl where
  links := Vector.replicate 6 Link.reset
  lerr := Vector.replicate 6 0
  hdmLink := 0
  bifd := Vector.replicate 2 false
  sf := []
  held := []
  hostHeld := []
  biCnt := 0
  biXing := 0
  sfEvict := 0
  decoder := { base := 0, size := 0, committed := false, notCommitted := false, locked := false }
  hdmRegs := { base := 0, size := 0, skip := 0, gran := 0, ways := 0, lock := false, commit := false, global := 0 }
  ras := ErrRegs.reset 0x0001CFFF 0x0001CFFF 0x0000007F
  msixTab := []
  pba := []

/-- A TGL port after reset: enabled and down (16 R320).
Log entry 111 (DEDUCED). -/
def Tgl.reset : Tgl where
  en := true
  up := false
  rel := 0
  major := 0
  minor := 0
  lanes := 0
  downr := 0
  peer := 0
  peerNode := 0
  pepoch := 0
  err := 0
  refused := 0
  train := none
  same := 0
  vcs := Vector.replicate 9 { credit := 0, used := 0, owed := 0 }
  txSeq := 0
  rxSeq := 0xFFF
  sent := []
  nakSent := false
  replays := 0
  hb := none
  ranOut := false
  hold := []
  mgt := []
  locked := 0
  rxVc := 0
  rxOpen := none
  rx := []

/-- The fabric registers after reset (16, Registers). -/
def Xl.reset : Xl where
  node := 0
  rtBank := false
  staged := false
  culdesac := false
  epoch := 0
  digest := Vector.replicate 2 0
  pEpoch := 0
  pDigest := Vector.replicate 2 0
  hbCfg := 0x0A08080A
  timeout := 0x646403E8
  grt := []
  mrt := []
  record := []
  stagedRec := []
  atomics := true
  remoteCsr := true
  keys := []
  fseq := 0
  lowest := none
  parent := none
  neighs := []
  discovering := false
  proposals := []
  survey := none
  pulls := []
  unfit := none
  remote := []
  atHome := []
  toStore := none

/-- A PLL after reset, locked at its reset setting (17 R353). -/
def Pll.reset (mult postdiv : Byte) : Pll where
  loss := false
  coast := false
  lock := true
  ref := false
  mult := mult
  postdiv := postdiv
  switching := false
  relock := false
  held := []

/-- The six PLLs after reset. -/
def Pll.resetAll : Vector Pll 6 :=
  #v[Pll.reset 64 4, Pll.reset 32 8, Pll.reset 48 6, Pll.reset 48 6, Pll.reset 48 6, Pll.reset 48 6]

/-- Power after reset (17). PWR_BURST.CREDIT_J resets to 1,000 J. -/
def Pwr.reset : Pwr where
  cfg := 0xE12BC2BC
  peakW := 900
  burst := 10000000
  current := 6000000
  vcoreMv := 800
  imeanA := 0
  pkgW := 0
  on := false
  avsErr := false
  floor := false
  limPeak := false
  limBurst := false
  limCurrent := false
  limThermal := false
  gate := 0
  gated := 0

/-- Heat after reset (17): THM_CFG ALERT 140, TLIMIT 150. -/
def Thm.reset : Thm where
  t := Vector.replicate 64 0
  max := 0
  cfg := 0x008C0096
  wear := 0
  stored := 0

/-- An erased flash (DESIGN CHOICE: the spec gives a part's flash no contents, log entry 6).
Log entry 6 (DESIGN CHOICE). -/
def Flash.erased : Flash where
  boot := Vector.replicate 2 []
  slots := Vector.replicate 2 []
  store := []
  cal := []
  fabric := Vector.replicate 2 []
  wear := Vector.replicate 2 []

/-- Fuses and pins as the model names them (log entry 3), firmware state as reset leaves it.
Log entries 3 (DESIGN CHOICE), 42 (PRESUMED). -/
def Chip.reset : Chip where
  phase := .reset
  serial := 1
  keyHash := []
  dbgFuse := false
  dbgLock := false
  cause := 0
  result := 0
  slot := false
  wake := 0
  thermtripN := true
  pwrreqN := true
  clkin := true
  cold := false
  straps := 0
  romOverlay := true
  resetDue := false
  calStat := true
  tofs := []
  trim := []
  calPresent := false
  provisional := false
  unreadable := false
  settings := []
  stagedSet := none
  clkGate := 0x1FFFFFFF
  preparing := false
  offReady := false
  jtag := .idcode
  bsr := 0
  late := []

/-- Events and register access errors after reset. -/
def Evt.reset : Evt where
  accErr := 0
  accAddr := 0
  route := []
  pend := Vector.replicate 32 0
  taddr := []
  halt := []

/-- The 36 cores after reset: CORE_CTL.RUN resets to 1 in MC0's instance alone (09, 18 R373). -/
def Core.resetAll : Vector Core 36 :=
  (Vector.replicate 36 Core.reset).set 32 { Core.reset with ctl := 1 }

/-- The machine right after a power-on reset has taken effect (18 R373): every register at its reset value and the
device held in reset.  RESET_END is what happens next. -/
def State.reset : State where
  pending := []
  free := 0
  out := []
  chip := Chip.reset
  flash := Flash.erased
  evt := Evt.reset
  aci := Aci.reset
  cores := Core.resetAll
  chains := Vector.replicate 32 Chain.reset
  pools := Vector.replicate 4 Pool.reset
  mem := Memory.reset
  scr := Scr.reset
  ddr := Vector.replicate 16 Ddr.reset
  jnc := Jnc.reset
  cxl := Cxl.reset
  xl := Xl.reset
  tgl := Vector.replicate 8 Tgl.reset
  plls := Pll.resetAll
  pwr := Pwr.reset
  thm := Thm.reset

end Sys2Proof.Machine
end

