-- ==== Sys2Proof/Machine/Ops.lean ====
section
/-! DEFINITION. The operations every meaning shares: one unit of the state replaced, free values, outputs, events and
MSI-X (11 R241, 03 R59), register access errors (02 R37), and memory with its check bits (02, 13). -/

namespace Sys2Proof.Machine

/-! ## One unit of the state -/

/-- Changes one core. -/
def State.modCore (s : State) (n : CoreId) (g : Core → Core) : State :=
  { s with cores := s.cores.set n (g s.cores[n]) }

/-- Changes one thread of a core. -/
def Core.modThread (c : Core) (t : ThreadId) (g : Thread → Thread) : Core :=
  { c with threads := c.threads.set t (g c.threads[t]) }

/-- Changes one thread of one core. -/
def State.modThread (s : State) (n : CoreId) (t : ThreadId) (g : Thread → Thread) : State :=
  s.modCore n (·.modThread t g)

/-- Changes one chain. -/
def State.modChain (s : State) (c : ChainId) (g : Chain → Chain) : State :=
  { s with chains := s.chains.set c (g s.chains[c]) }

/-- Changes one buffer pool. -/
def State.modPool (s : State) (k : ClusterId) (g : Pool → Pool) : State :=
  { s with pools := s.pools.set k (g s.pools[k]) }

/-- Changes one DDR controller. -/
def State.modDdr (s : State) (n : CtrlId) (g : Ddr → Ddr) : State :=
  { s with ddr := s.ddr.set n (g s.ddr[n]) }

/-- Changes one TGL port. -/
def State.modTgl (s : State) (p : PortId) (g : Tgl → Tgl) : State :=
  { s with tgl := s.tgl.set p (g s.tgl[p]) }

/-- Changes one PLL. -/
def State.modPll (s : State) (k : PllId) (g : Pll → Pll) : State :=
  { s with plls := s.plls.set k (g s.plls[k]) }

/-- Changes one CXL link. -/
def State.modLink (s : State) (l : LinkId) (g : Link → Link) : State :=
  { s with cxl := { s.cxl with links := s.cxl.links.set l (g s.cxl.links[l]) } }

/-- The sequencer beside a chain. -/
def seqOf (c : ChainId) : CoreId := ⟨c.val, by omega⟩

/-- The chain beside a core, if it has one. -/
def chainOf (n : CoreId) : Option ChainId := fin? 32 n.val

/-- The cluster of a chain (14 R279). -/
def clusterOf (c : ChainId) : ClusterId := ⟨c.val / 8, by omega⟩

/-! ## Free values and outputs -/

/-- Steps past the free value that was just drawn.
Log entry 12 (DESIGN CHOICE). -/
def State.tick (s : State) : State := { s with free := s.free + 1 }

/-- Sends something out of the block.
Log entry 13 (DESIGN CHOICE). -/
def State.emit (s : State) (o : Out) : State := { s with out := s.out ++ [o] }

/-! ## MSI-X and events -/

/-- The host port of a link. -/
def portOf (l : LinkId) : Nat := if l.val = 0 || l.val = 2 || l.val = 3 then 0 else 1


/-- Vector `v` is not masked: the table stores the complement of its mask bit.
Log entry 5 (PRESUMED). -/
def State.unmasked (s : State) (v : Nat) : Bool := (cellGet s.cxl.msixTab (2 * v + 1)).getLsbD 32

/-- The message link: the lowest code in the order 0, 0A, 0B, 1, 1A, 1B that is up with Bus Master Enable and MSI-X Enable
(15 R302); a function in D3hot sends nothing (15 R299).
Log entry 145 (DEDUCED). -/
def State.messageLink (s : State) : Option Link :=
  ([0, 2, 3, 1, 4, 5] : List LinkId).findSome? fun l =>
    let k := s.cxl.links[l]
    if k.up && k.msixEn && k.cfg.command.getLsbD 2 && !k.cfg.d3hot then some k else none

/-- A message on vector `v` can be sent now. -/
def State.canSend (s : State) (v : Nat) : Bool :=
  match s.messageLink with
  | some k => !k.fnMask && s.unmasked v
  | none => false

/-- Inserts a number into a strictly rising list. -/
def natIns (n : Nat) : List Nat → List Nat
  | [] => [n]
  | a :: t => if n < a then n :: a :: t else if n = a then a :: t else a :: natIns n t

/-- Sends the message of vector `v`, or sets its pending bit (03 R59, 15 R302). -/
def State.msix (s : State) (v : Nat) : State :=
  if s.canSend v then s.emit (.msix v) else { s with cxl := { s.cxl with pba := natIns v s.cxl.pba } }

/-- Sends every pending message that can now be sent. -/
def State.msixFlush (s : State) : State :=
  s.cxl.pba.foldl (fun s v =>
    if s.canSend v then { s.emit (.msix v) with cxl := { s.cxl with pba := s.cxl.pba.filter (· ≠ v) } } else s) s

/-- Source `src` is pending. -/
def State.pendingSrc (s : State) (src : Nat) : Bool :=
  match fin? 32 (src / 64) with
  | some w => s.evt.pend[w].getLsbD (src % 64)
  | none => false

/-- Raises event source `src` (11 R241): its pending bit becomes 1, and going from 0 to 1 with HOST_EN = 1 sends
its MSI-X message. -/
def State.raise (s : State) (src : Nat) : State :=
  match fin? 32 (src / 64) with
  | none => s
  | some w =>
    if s.evt.pend[w].getLsbD (src % 64) then s
    else
      let s := { s with evt := { s.evt with pend := s.evt.pend.set w (s.evt.pend[w] ||| (1 : Word) <<< (src % 64)) } }
      let r := cellGet s.evt.route src
      if r.getLsbD 30 then s.msix (r.extractLsb' 0 11).toNat else s

/-- The cache links that are up, in ascending order of code (15 R302, R312). -/
def State.cacheLinks (s : State) : List LinkId :=
  (List.finRange 6).filter fun l => s.cxl.links[l].up && s.cxl.links[l].cxl && s.cxl.links[l].cacheEn

/-- The cache link of a host address: number (H >> 12) mod m of the m cache links (15 R312). -/
def State.cacheLink (s : State) (hpa : Word) : Option LinkId :=
  s.cacheLinks[(hpa.toNat >>> 12) % s.cacheLinks.length]?

/-- The lines of core `n` that event routes assert (11 R239, R241). -/
def State.eventLines (s : State) (n : CoreId) : Word :=
  s.evt.route.foldl (fun acc p =>
    if p.2.getLsbD 31 && decide ((p.2.extractLsb' 24 6).toNat = n.val) && decide ((p.2.extractLsb' 18 6).toNat ≠ 0)
        && s.pendingSrc p.1 then
      acc ||| (1 : Word) <<< (p.2.extractLsb' 18 6).toNat
    else acc) 0

/-- The asserted lines of core `n`; line 0 is the doorbell line (09 R200). -/
def State.lines (s : State) (n : CoreId) : Word :=
  let c := s.cores[n]
  s.eventLines n ||| (if c.dbPend &&& c.dbEn = 0 then 0 else 1)

/-- A line of core `n` is asserted. -/
def State.anyLine (s : State) (n : CoreId) : Bool := decide (s.lines n ≠ 0)

/-- The number of the lowest set bit of a word; 0 for 0. -/
def lowestBit (w : Word) : Nat := ((upto 64).find? fun i => w.getLsbD i).getD 0

/-! ## Register access errors (02 R37) -/

/-- SOURCE of ACC_ADDR. -/
def srcCode : Src → Nat
  | .core n => n.val
  | .host p => 0x40 + p.val
  | .fabric => 0x80

/-- Records an access error: `bit` 0 NARROW, 1 UNMAPPED, 2 NOGRANT. -/
def State.accError (s : State) (bit : Fin 3) (src : Src) (space : Nat) (off be : Nat) : State :=
  let e := s.evt.accErr
  let first := e.extractLsb' 0 3 = 0
  let one := fun (i : Nat) => (1 : BitVec 4) <<< i
  let e' := e ||| one bit ||| (if first then 0 else one 3)
  let addr := BitVec.ofNat 64 (be <<< 40 + srcCode src <<< 32 + space <<< 30 + (off / 8 * 8) % 2 ^ 29)
  let s := { s with evt := { s.evt with accErr := e', accAddr := if first then addr else s.evt.accAddr } }
  let s := if e.getLsbD bit then s else s.raise (0x80 + bit)
  if !first && !e.getLsbD 3 then s.raise 0x83 else s

/-! ## The local space of a node (02 R16 to R22) -/

/-- Offset of scratch (02 R18). -/
def scratchBase : Nat := 0xFFFC0000000
/-- Bytes of scratch. -/
def scratchSize : Nat := 0x18000000
/-- Offset of CSR space. -/
def csrBase : Nat := 0xFFFF0000000

/-- XL_NODE.GROUP and MEMBER as bits 63:44 of an address. -/
def State.nodeId (s : State) : Nat := s.xl.node.toNat >>> 12

/-- What stands at an offset of this node (02 R18). -/
inductive Place where
  | ddr
  | scratch
  | csr
  | nothing
  deriving DecidableEq, Repr

/-- What stands at a local offset. -/
def State.place (s : State) (off : Nat) : Place :=
  if off < s.mem.d then .ddr
  else if scratchBase ≤ off && off < scratchBase + scratchSize then .scratch
  else if csrBase ≤ off && off < 2 ^ 44 then .csr
  else .nothing

/-- Where a global address leads (02 R17). -/
def State.route (s : State) (ga : Word) : Phys :=
  if ga.toNat >>> 44 = s.nodeId then .here (ga.toNat % 2 ^ 44) else .remote ga

/-- The global address of a local offset. -/
def State.global (s : State) (off : Nat) : Word := BitVec.ofNat 64 (s.nodeId <<< 44 + off)

/-- No clock of the device runs: it has no power, or a thermal trip holds every unit in reset (17 R365). -/
def State.clocksOff (s : State) : Bool := s.chip.phase == .tripped || s.chip.phase == .off

/-- The links have their clock: CLKIN is present, and where it was absent as reset ended, firmware has relocked the loops
(17 R355, 19 R411).
Log entry 127 (DEDUCED). -/
def State.linkClock (s : State) : Bool := s.chip.clkin && !s.chip.cold

/-- BCLK is stopped, and with it the control bus and JNC_TIME (17 R353, R356). -/
def State.bclkStopped (s : State) : Bool := s.plls[(1 : PllId)].switching || s.clocksOff

/-- Controller and address in it of a DDR offset (02 R20). -/
def ddrSplit (a : Nat) : CtrlId × Nat :=
  (⟨(bits a 11 8 ^^^ bits a 19 16 ^^^ bits a 27 24 ^^^ bits a 35 32) % 16, by omega⟩,
    (a >>> 12) <<< 8 + a % 256)

/-- Global bank and word in it of a scratch offset counted from the start of scratch (02 R22). -/
def bankSplit (o : Nat) : Nat × Nat :=
  let cluster := o / 0x6000000
  let w := o % 0x6000000
  let bank := ((w >>> 6) ^^^ (w >>> 14)) % 256
  (cluster * 256 + bank, ((w >>> 14) * 64 + w % 64) / 8)

/-! ## Memory contents -/

/-- Reads `n` bytes at a local offset. -/
def State.memRead (s : State) (off n : Nat) : List Byte := readCells s.mem.cells off n

/-- The granules of `g` bytes that `n` bytes at `off` touch. -/
def granules (g off n : Nat) : List Nat :=
  if n = 0 then [] else (upto ((off + n - 1) / g - off / g + 1)).map (· + off / g)

/-- The parts of `n` bytes at `a` in the lines that they touch: start and length. -/
def lineRuns (a n : Nat) : List (Nat × Nat) :=
  (granules 64 a n).map fun l => (max a (64 * l), min (a + n) (64 * l + 64) - max a (64 * l))

/-- The granules of `g` bytes that `n` bytes at `off` cover whole. -/
def wholeGranules (g off n : Nat) : List Nat :=
  (granules g off n).filter fun i => decide (off ≤ i * g) && decide ((i + 1) * g ≤ off + n)

/-- Some granule of scratch or DDR that the bytes touch is poisoned. -/
def State.poisoned (s : State) (off n : Nat) : Bool :=
  if scratchBase ≤ off then (granules 8 off n).any (· ∈ s.mem.badScratch)
  else (granules 64 off n).any (· ∈ s.mem.badDdr)

/-- Writes bytes at a local offset.  A word or line written whole loses its poison (13 R263, R273), and a write-back
that waits for a written word or line is dropped (13 R262, R273). -/
def State.memWrite (s : State) (off : Nat) (bs : List Byte) : State :=
  let m := { s.mem with cells := writeCells s.mem.cells off bs }
  if scratchBase ≤ off then
    let whole := wholeGranules 8 off bs.length
    let touched := (granules 8 off bs.length)
    { s with
      mem := { m with badScratch := m.badScratch.filter (· ∉ whole) }
      scr := { s.scr with
        soft := s.scr.soft.filter (· ∉ touched)
        writeBack := s.scr.writeBack.filter (· ∉ touched) } }
  else
    let whole := wholeGranules 64 off bs.length
    let touched := (granules 64 off bs.length)
    { s with mem := { m with
      badDdr := m.badDdr.filter (· ∉ whole)
      softDdr := m.softDdr.filter (· ∉ touched)
      ddrBack := m.ddrBack.filter (· ∉ touched) } }

/-- Poisons the granules that the bytes touch. -/
def State.poisonAt (s : State) (off n : Nat) : State :=
  if scratchBase ≤ off then
    { s with mem := { s.mem with badScratch := (granules 8 off n).foldl (fun l g => natIns g l) s.mem.badScratch } }
  else
    { s with mem := { s.mem with badDdr := (granules 64 off n).foldl (fun l g => natIns g l) s.mem.badDdr } }

/-! ## Check bits (13 R262 to R264, R273, R274) -/

/-- An ECC register with one more corrected granule; CE holds at its maximum. -/
def eccCe (r : Word) : Word := if r.extractLsb' 0 32 = 0xFFFFFFFF then r else r + 1

/-- An ECC register with one more uncorrectable granule; UE holds at its maximum. -/
def eccUe (r : Word) : Word := if r.extractLsb' 32 16 = 0xFFFF then r else r + 0x100000000

/-- A corrected scratch word: SCR_ECC.CE advances, and its event is raised when it leaves 0.
Log entry 80 (DEDUCED). -/
def State.scrCorrected (s : State) : State :=
  let r := s.scr.ecc
  let s := { s with scr := { s.scr with ecc := eccCe r } }
  if r.extractLsb' 0 32 = 0 then s.raise 0x2E0 else s

/-- An uncorrectable word at scratch offset `o` (counted from the start of scratch).
Log entry 80 (DEDUCED). -/
def State.scrUncorrectable (s : State) (o : Nat) (scrub : Bool) : State :=
  let b := bankSplit o
  let addr := BitVec.ofNat 64 (1 <<< 63 + b2n scrub <<< 62 + b.1 <<< 16 + b.2)
  let s := { s with scr := { s.scr with
    ecc := eccUe s.scr.ecc
    eccAddr := if s.scr.eccAddr.getLsbD 63 then s.scr.eccAddr else addr } }
  s.raise 0x2E1

/-- A corrected line of the controller that holds DDR offset `a`.
Log entry 80 (DEDUCED). -/
def State.ddrCorrected (s : State) (a : Nat) : State :=
  let n := (ddrSplit a).1
  let r := s.ddr[n].ecc
  let s := s.modDdr n fun d => { d with ecc := eccCe r }
  if r.extractLsb' 0 32 = 0 then s.raise (0x100 + 16 * n) else s

/-- An uncorrectable line at DDR offset `a`. -/
def State.ddrUncorrectable (s : State) (a : Nat) (scrub : Bool) (device : BitVec 4) : State :=
  let p := ddrSplit a
  let addr := BitVec.ofNat 64 (1 <<< 63 + device.toNat <<< 40 + (p.2 / 64 * 64) % 2 ^ 40 + b2n scrub)
  let s := s.modDdr p.1 fun d => { d with
    ecc := eccUe d.ecc
    eccAddr := if d.eccAddr.getLsbD 63 then d.eccAddr else addr }
  s.raise ((if scrub then 0x102 else 0x101) + 16 * p.1)

/-- The granules of `g` bytes that `n` bytes at `off` touch and do not cover.
Log entry 81 (DEDUCED). -/
def partGranules (g off n : Nat) : List Nat := (granules g off n).filter (· ∉ wholeGranules g off n)

/-- The bank will write the corrected word back. -/
def State.owe (s : State) (w : Nat) : State :=
  { s with scr := { s.scr with writeBack := natIns w s.scr.writeBack } }

/-- The check of each word that a request reads: a poisoned one is recorded; one with a single-bit error is corrected, and its
write-back is owed (13 R262, R263).
Log entry 81 (DEDUCED). -/
def State.checkScratch (s : State) (ws : List Nat) : State :=
  (ws.filter fun w => w ∈ s.mem.badScratch || w ∈ s.scr.soft).foldl
    (fun s w => if w ∈ s.mem.badScratch then s.scrUncorrectable (w * 8 - scratchBase) false else s.scrCorrected.owe w) s

/-- The check of each line that a request reads, likewise (13 R273).  DEVICE is a free value.
Log entries 24 (DESIGN CHOICE), 81 (DEDUCED). -/
def State.checkDdr (s : State) (ls : List Nat) : State :=
  (ls.filter fun l => l ∈ s.mem.badDdr || l ∈ s.mem.softDdr).foldl
    (fun s l =>
      if l ∈ s.mem.badDdr then (s.ddrUncorrectable (l * 64) false (Config.eccDevice s.free)).tick
      else
        let s := s.ddrCorrected (l * 64)
        { s with mem := { s.mem with ddrBack := natIns l s.mem.ddrBack } }) s

/-- Controllers write the lines they have corrected back (13 R273). -/
def State.ddrWriteBack (s : State) : State :=
  { s with mem := { s.mem with softDdr := s.mem.softDdr.filter (· ∉ s.mem.ddrBack), ddrBack := [] } }

/-- A memory error that comes about by itself, in a word or a line that exists.
Log entries 53 (DESIGN CHOICE), 91 (DESIGN CHOICE). -/
def State.upset (s : State) : Upset → State
  | .none => s
  | .core n w double =>
    if 0xC000 ≤ w then s
    else s.modCore n fun c => if double then { c with badWords := natIns w c.badWords } else { c with soft := natIns w c.soft }
  | .scratch w double =>
    if scratchSize / 8 ≤ w then s
    else if double then { s with mem := { s.mem with badScratch := natIns (scratchBase / 8 + w) s.mem.badScratch } }
    else { s with scr := { s.scr with soft := natIns (scratchBase / 8 + w) s.scr.soft } }
  | .ddr l double =>
    if s.mem.d / 64 ≤ l then s
    else if double then { s with mem := { s.mem with badDdr := natIns l s.mem.badDdr } }
    else { s with mem := { s.mem with softDdr := natIns l s.mem.softDdr } }

/-- Time passes with no command waiting: controllers write corrected lines back, and a memory error may come about.
Log entry 1 (DESIGN CHOICE). -/
def State.memIdle (s : State) : State := (s.ddrWriteBack.upset (Config.upset s.free)).tick

/-! ## Requests to scratch (13 R259, R263, R266, R267) -/

/-- Adds to a 64-bit counter that stops at its maximum. -/
def satAdd (v : Word) (n : Nat) : Word := BitVec.ofNat 64 (min (v.toNat + n) 0xFFFFFFFFFFFFFFFF)

/-- Counts one request of master `m` that waited `wait` bank cycles (13 R267). -/
def State.bankCount (s : State) (m wait : Nat) : State :=
  { s with scr := { s.scr with
    req := cellSet s.scr.req m (satAdd (cellGet s.scr.req m) 1)
    conf := cellSet s.scr.conf m (satAdd (cellGet s.scr.conf m) wait) } }

/-- Counts `n` requests of master `m` whose waits the command does not name: free values.
Log entry 23 (DESIGN CHOICE). -/
def State.bankCountFree (s : State) (m : Nat) : Nat → State
  | 0 => s
  | n + 1 => ((s.bankCount m (Config.bankWait s.free)).tick).bankCountFree m n

/-- Requests that `n` bytes at `off` take: one for a whole line, else one for each word of the line that they touch.
Log entry 23 (DESIGN CHOICE). -/
def requestsFor (off n : Nat) : Nat :=
  ((granules 64 off n).map fun l =>
    if off ≤ 64 * l && 64 * l + 64 ≤ off + n then 1
    else (granules 8 (max off (64 * l)) (min (off + n) (64 * l + 64) - max off (64 * l))).length).foldl (· + ·) 0

/-- What a bank answers: the bytes read, and whether they are poisoned. -/
structure ReadAns where
  bytes  : List Byte
  poison : Bool
  deriving DecidableEq, Repr

/-- Master `m` reads `n` bytes of scratch at local offset `off`. -/
def State.scratchRead (s : State) (m off n : Nat) : State × ReadAns :=
  ((s.bankCountFree m (requestsFor off n)).checkScratch (granules 8 off n),
    { bytes := s.memRead off n, poison := s.poisoned off n })

/-- Master `m` writes bytes to scratch; a partial write finds a poisoned word and leaves it so. -/
def State.scratchWrite (s : State) (m off : Nat) (bs : List Byte) : State :=
  ((s.bankCountFree m (requestsFor off bs.length)).checkScratch (partGranules 8 off bs.length)).memWrite off bs

/-- Master `m` writes several runs of bytes of one line of scratch, in one request when there are several; each word that it
writes in part is checked once (13 R263). -/
def State.scratchParts (s : State) (m off : Nat) (ps : List (Nat × List Byte)) : State :=
  match ps with
  | [(a, bs)] => s.scratchWrite m (off + a) bs
  | ps =>
    let s := (s.bankCountFree m 1).checkScratch (ps.flatMap fun p => partGranules 8 (off + p.1) p.2.length).eraseDups
    ps.foldl (fun s p => s.memWrite (off + p.1) p.2) s

/-- An atomic of master `m` on the word at `off`: `f old` is stored unless the word is poisoned (13 R263, R266). -/
def State.scratchAtomic (s : State) (m off : Nat) (f : Word → Word) : State × ReadAns :=
  let (s, a) := s.scratchRead m off 8
  if a.poison then (s, a) else (s.memWrite off (bytesOf 8 (f (wordOf a.bytes)).toNat), a)

/-! ## CXL.cache requests (15 R311, R312) -/

/-- The D2H requests outstanding on all links. -/
def State.d2hAll (s : State) : List D2h := (s.cxl.links.toList.map (·.d2h)).flatten

/-- Smallest tag that no request of a link has. -/
def freeTag (ds : List D2h) : Nat := ((upto 512).find? fun t => ds.all fun d => d.tag ≠ t).getD 0

/-- The data port of MC0, by which firmware's accesses go. -/
def fwSource : Nat := 32

/-- The source of an access: a core's data port, its instruction port, or a chain (14 R279). Firmware's own accesses come from
MC0, those of COPY and FILL from chains (13 R267). -/
def Wanted.source : Wanted → Nat
  | .load n _ => n.val
  | .store n => n.val
  | .fetch n _ _ => 128 + n.val
  | .line c _ _ _ => 64 + c.val
  | .drain c _ => 64 + c.val
  | .flight c _ _ _ => 64 + c.val
  | .dict c _ _ => 64 + c.val
  | .dir c _ _ _ _ _ => 64 + c.val
  | .fw m _ _ _ _ => if m < 32 then 64 + m else fwSource
  | .entry _ => fwSource

/-- A write of runs of bytes, by their distance from a host address, to the line that holds it: ItoMWr for the whole line, one
WOWrInv with byte enables for fewer bytes. -/
def d2hWrite (l : LinkId) (tag : Nat) (hpa : Word) (ps : List (Nat × List Byte)) : Out :=
  let o := hpa.toNat % 64
  let data := ps.foldl (fun d p => (spliceAt d (o + p.1) p.2).take 64) (List.replicate 64 (0 : Byte))
  let be := ps.foldl (fun (b : BitVec 64) p => b ||| BitVec.ofNat 64 ((2 ^ p.2.length - 1) <<< (o + p.1))) 0
  if be = BitVec.allOnes 64 then .itoMWr l tag (hpa.toNat / 64) data else .woWrInv l tag (hpa.toNat / 64) be data

/-- The request for a host address: a read of its whole line, or a write. -/
def d2hSend (l : LinkId) (tag : Nat) (hpa : Word) : Option (List (Nat × List Byte)) → Out
  | none => .rdCurr l tag (hpa.toNat / 64)
  | some ps => d2hWrite l tag hpa ps

/-- AER records an uncorrectable error, bit `b`; one that is not masked sends its message, fatal or not by its severity, where
Device Control lets it report and the link is up (15 R315).
Log entry 143 (PRESUMED). -/
def State.aerUnc (s : State) (l : LinkId) (b : Nat) : State :=
  let k := s.cxl.links[l]
  let a := k.cfg.aer
  let kind : Fin 3 := if a.uncSev.getLsbD b then 2 else 1
  let s := s.modLink l fun k => { k with cfg := { k.cfg with aer := { k.cfg.aer with unc := k.cfg.aer.unc ||| (1 : Half) <<< b } } }
  if k.up && !a.uncMask.getLsbD b && k.cfg.devCtl.getLsbD kind.val then s.emit (.errMsg l kind) else s

/-- AER records a correctable error, bit `b`, likewise.
Log entry 143 (PRESUMED). -/
def State.aerCor (s : State) (l : LinkId) (b : Nat) : State :=
  let k := s.cxl.links[l]
  let s := s.modLink l fun k => { k with cfg := { k.cfg with aer := { k.cfg.aer with cor := k.cfg.aer.cor ||| (1 : Half) <<< b } } }
  if k.up && !k.cfg.aer.corMask.getLsbD b && k.cfg.devCtl.getLsbD 0 then s.emit (.errMsg l 0) else s

/-- Poison that the device receives is reported: Poisoned TLP Received of AER on the link, and Poison_Received of CXL RAS
(15 R315).
Log entry 143 (PRESUMED). -/
def State.poisonReport (s : State) (l : LinkId) : State :=
  let s := s.aerUnc l 12
  { s with cxl := { s.cxl with ras := { s.cxl.ras with unc := s.cxl.ras.unc ||| 0x400 } } }

/-- The answer of a D2H request on link `l`; a failure or poisoned data raise an event of its port (15 R315, R317). -/
def State.d2hEnd (s : State) (l : LinkId) (r : Reply) : State × Reply :=
  match r with
  | .ok bs => (s, .ok bs)
  | .poison => ((s.raise (0x284 + 16 * portOf l)).poisonReport l, .poison)
  | _ => (s.raise (0x286 + 16 * portOf l), .hostError)

/-- An answer with the `n` bytes that a read wants, taken from a whole line at `lo`; data of another length are no answer. -/
def fitReply (r : Reply) (lo n : Nat) : Reply :=
  match r with
  | .ok bs => if bs.length = n then r else if bs.length = 64 then .ok (sliceAt bs lo n) else .owed
  | r => r

/-- The answer is data or an acceptance. -/
def replyGood : Reply → Bool
  | .ok _ => true
  | _ => false

/-- The bytes of an answer. -/
def replyBytes : Reply → List Byte
  | .ok bs => bs
  | _ => []

/-- An answer, if it has come. -/
def replyCome : Reply → Option Reply
  | .owed => none
  | r => some r

/-- The link and the request of an access that is outstanding. -/
def State.d2hOf (s : State) (w : Wanted) : Option (LinkId × D2h) :=
  (List.finRange 6).findSome? fun l => (s.cxl.links[l].d2h.find? (·.who = .want w)).map fun d => (l, d)

/-- A link loses a request. -/
def State.dropD2h (s : State) (l : LinkId) (tag : Nat) : State :=
  s.modLink l fun k => { k with d2h := k.d2h.filter (·.tag ≠ tag) }

/-- An earlier write of the same source to the line has no GO yet; firmware writes the completion records. -/
def State.writeOwed (s : State) (src line : Nat) : Bool :=
  s.d2hAll.any fun d => d.write && d.hpa.toNat / 64 = line && match d.who with
    | .want v => v.source = src
    | .record _ => src = fwSource

/-- Access `w` of host memory: `n` bytes read, or the runs `ps` written.  `r` answers the request that it has outstanding, or
the one that it sends now on the address's cache link; the answer, if it has come.  It fails while no cache link is up, and
waits while its link holds 512 requests or an earlier write of its source to the line is outstanding (15 R311, R312).
Log entries 14 (DESIGN CHOICE), 93 (DEDUCED). -/
def State.hostAsk (s : State) (w : Wanted) (hpa : Word) (n : Nat) (ps : Option (List (Nat × List Byte))) (r : Reply) :
    State × Option Reply :=
  let r := if ps.isSome then r else fitReply r (hpa.toNat % 64) n
  let finish := fun (s : State) (l : LinkId) =>
    let (s, r) := s.d2hEnd l r
    (s, some r)
  match s.d2hOf w with
  | some (l, d) => if r = .owed then (s, none) else finish (s.dropD2h l d.tag) l
  | none =>
    match s.cacheLink hpa with
    | none => (s, some .hostError)
    | some l =>
      if 512 ≤ s.cxl.links[l].d2h.length || (ps.isSome && s.writeOwed w.source (hpa.toNat / 64)) then (s, none)
      else
        let t := freeTag s.cxl.links[l].d2h
        let s := s.emit (d2hSend l t hpa ps)
        if r = .owed then
          (s.modLink l fun k => { k with d2h := k.d2h ++ [{ tag := t, hpa := hpa, write := ps.isSome, who := .want w }] }, none)
        else finish s l

/-- What the surroundings see of a write that has been accepted outside this device. -/
def State.landed (s : State) (loc : Phys) (ps : List (Nat × List Byte)) : State :=
  match loc with
  | .remote ga => ps.foldl (fun s p => s.emit (.farStore (ga + BitVec.ofNat 64 p.1) p.2)) s
  | .host hpa => ps.foldl (fun s p => s.emit (.hostStore (hpa + BitVec.ofNat 64 p.1) p.2)) s
  | .here _ => s

end Sys2Proof.Machine
end

