-- ==== Sys2Proof/Machine/Home.lean ====
section
/-! DEFINITION. The home agent's device side (15 R306 to R310): each 64 B DDR line's one ordering point, its snoop
filter, and the accesses it holds; and an access of any place, `State.reach`. -/

namespace Sys2Proof.Machine

/-- The snoop filter state of a line; none is I. -/
def State.sfOf (s : State) (line : Nat) : Option SfState := alookup line s.cxl.sf

/-- Sets a line's state and makes it the most recently used; none removes the entry. -/
def State.sfPut (s : State) (line : Nat) (st : Option SfState) : State :=
  let rest := adel line s.cxl.sf
  { s with cxl := { s.cxl with sf := match st with
    | none => rest
    | some x => (line, x) :: rest } }

/-- Snoops outstanding: lines in PI or PR. -/
def State.snoops (s : State) : Nat :=
  (s.cxl.sf.filter fun p => p.2 == .pi || p.2 == .pr).length

/-- Sends a back-invalidate snoop for a line and puts it in PI (15 R308). -/
def State.snoop (s : State) (line : Nat) (data : Bool) : State :=
  let s := { s with cxl := { s.cxl with biCnt := satAdd s.cxl.biCnt 1 } }
  (s.emit (if data then .biSnpData line else .biSnpInv line)).sfPut line (some .pi)

/-- Holds a device access behind a line's snoop. -/
def State.hold (s : State) (h : Held) : State := { s with cxl := { s.cxl with held := s.cxl.held ++ [h] } }

/-- A controller reads the refresh-rate indication of its ranks: doubled refresh while a subchannel has a rank that
asks for it (13 R275). -/
def State.refreshRate (s : State) (n : CtrlId) (x2 : Bool) : State :=
  let s' := s.modDdr n fun d => { d with refx2 := x2 }
  if s.ddr[n].refx2 = x2 then s' else s'.raise (0x103 + 16 * n)

/-- A controller leaves self-refresh; it reads the refresh-rate indication before it serves (13 R277).
Log entry 84 (DEDUCED). -/
def State.srExit (s : State) (n : CtrlId) (x2 : Bool) : State :=
  if s.ddr[n].state = 3 then (s.modDdr n fun d => { d with state := 2 }).refreshRate n x2 else s

/-- The DPLL of a controller (17 R353).
Log entry 85 (DESIGN CHOICE). -/
def dpllOf (n : CtrlId) : PllId := ⟨2 + n.val / 4, by omega⟩

/-- A clock switch or CLK_GATE has stopped a controller: requests to it wait (17 R356, R357). -/
def State.ctrlStopped (s : State) (n : CtrlId) : Bool :=
  s.plls[dpllOf n].switching || !s.chip.clkGate.getLsbD n.val || s.clocksOff

/-- The controller of the line that a DDR offset lies in. -/
def ctrlOf (off : Nat) : CtrlId := (ddrSplit (off / 64 * 64)).1

/-- A request of `n` bytes ends the self-refresh of every controller that it reaches (13 R277), but not one that a clock
switch asked for (17 R356); what the ranks indicate then is a free value.
Log entry 84 (DEDUCED). -/
def State.ddrWake (s : State) (off n : Nat) : State :=
  ((List.finRange 16).filter fun k => decide (s.ddr[k].state = 3) && !s.ctrlStopped k
      && (granules 64 off n).any fun l => ctrlOf (64 * l) = k).foldl
    (fun s k => (s.srExit k (Config.freeBool s.free)).tick) s

/-- The bytes that pass a controller: free values while its DPLL coasts (17 R355).
Log entry 85 (DESIGN CHOICE). -/
def State.ddrBytes (s : State) (off : Nat) (bs : List Byte) : State × List Byte :=
  let coasts := fun (l : Nat) => s.plls[dpllOf (ctrlOf (64 * l))].coast
  if (granules 64 off bs.length).any coasts then
    let free := bytesOf bs.length (Config.freeNat s.free)
    (s.tick, bs.mapIdx fun i b => if coasts ((off + i) / 64) then free.getD i 0 else b)
  else (s, bs)

/-- A write of part or all of a line, applied. A partial write finds a poisoned line and leaves it so (13 R273). -/
def State.ddrApply (s : State) (off : Nat) (bs : List Byte) : State :=
  let s := (s.ddrWake off bs.length).checkDdr (partGranules 64 off bs.length)
  let (s, bs) := s.ddrBytes off bs
  s.memWrite off bs

/-- A write of several runs of bytes of the line at `line`, applied at once. -/
def State.ddrParts (s : State) (line : Nat) (ps : List (Nat × List Byte)) : State :=
  let s := (s.ddrWake (line * 64) 64).checkDdr [line]
  ps.foldl (fun s p =>
    let (s, bs) := s.ddrBytes (line * 64) p.2
    s.memWrite (line * 64 + p.1) bs) s

/-- A read of DDR bytes, served: a poisoned line is recorded (13 R273). -/
def State.ddrServe (s : State) (off n : Nat) : State × ReadAns :=
  let (s', bs) := ((s.ddrWake off n).checkDdr (granules 64 off n)).ddrBytes off (s.memRead off n)
  (s', { bytes := bs, poison := s.poisoned off n })

/-- What the home agent makes of a device access: served with its answer, or held. -/
inductive HomeAns where
  | served (a : ReadAns)
  | held
  deriving DecidableEq, Repr

/-- The access's line offset and length, and its effect when it is served. -/
def State.serveOp (s : State) (off : Nat) : LineOp → State × ReadAns
  | .read => s.ddrServe (off / 64 * 64) 64
  | .write a bs => (s.ddrApply (off / 64 * 64 + a) bs, { bytes := [], poison := false })
  | .parts ps => (s.ddrParts (off / 64) ps, { bytes := [], poison := false })

/-- The access needs no snoop in this state of its line (15 R308). -/
def freeAccess : Option SfState → LineOp → Bool
  | none, _ => true
  | some .pr, _ => true
  | some .s, .read => true
  | _, _ => false

/-- An access to the line is held. -/
def State.heldOn (s : State) (line : Nat) : Bool := s.cxl.held.any (·.line = line)

/-- An access can be served now: its controller runs, and its line's state needs no snoop (15 R308, 17 R356). -/
def State.canServe (s : State) (line : Nat) (op : LineOp) : Bool :=
  !s.ctrlStopped (ddrSplit (line * 64)).1 && freeAccess (s.sfOf line) op

/-- The snoop that the first access of a line waits for is sent, unless one is outstanding for the line or 1,024 are in all
(15 R308). -/
def State.snoopFirst (s : State) (h : Held) : State × Held :=
  if s.ctrlStopped (ddrSplit (h.line * 64)).1 || freeAccess (s.sfOf h.line) h.op || s.sfOf h.line = some .pi
      || 1024 ≤ s.snoops then (s, h)
  else (s.snoop h.line (h.op == .read), { h with snooped := true })

/-- A device access to the DDR line that holds offset `off` takes its place among the line's accesses: served at once, or
held (15 R306, R308). -/
def State.homeAccess (s : State) (off : Nat) (op : LineOp) (who : Who) : State × HomeAns :=
  let h : Held := { line := off / 64, who := who, op := op, snooped := false }
  if s.heldOn h.line then (s.hold h, .held)
  else if s.canServe h.line op then
    let (s, a) := s.serveOp off op
    (s, .served a)
  else
    let (s, h) := s.snoopFirst h
    (s.hold h, .held)

/-! ## Requests to other nodes -/

/-- Bytes that a request counts in its destination slot (14 R292). -/
def RemoteReq.bytes (q : RemoteReq) : Nat := if q.opc = 0x03 then 8 else q.msg.len

/-- The request leaves its destination slot. -/
def State.leaveSlot (s : State) (q : RemoteReq) : State :=
  match q.slot with
  | some k => { s with jnc := { s.jnc with
      slots := s.jnc.slots.set k { s.jnc.slots[k] with out := s.jnc.slots[k].out - q.bytes } } }
  | none => s

/-- A row's answer from another node ends the request that `w` has sent there, if it has sent one (14 R292, 16 R336).
Log entry 57 (DEDUCED). -/
def State.popRemote (s : State) (w : Wanted) : State × Bool :=
  match s.xl.remote.find? fun q => q.sent && q.who == w with
  | none => (s, false)
  | some q => (({ s with xl := { s.xl with remote := s.xl.remote.filter (·.tid ≠ q.tid) } }).leaveSlot q, true)

/-! ## An access of any place -/

/-- An access is held at the home agent. -/
def State.heldFor (s : State) (w : Wanted) : Bool := s.cxl.held.any (·.who = .want w)

/-- A request for an access is outstanding: at the home agent, in host memory or at another node. -/
def State.sentFor (s : State) (w : Wanted) : Bool := s.heldFor w || (s.d2hOf w).isSome || s.xl.remote.any fun q => q.who == w

/-- The answer that a read of `n` bytes at `lo` in its line or word makes of what memory gives. -/
def ReadAns.reply (a : ReadAns) (lo n : Nat) : Reply := if a.poison then .poison else fitReply (.ok a.bytes) lo n

/-- An access as an operation on its line. -/
def lineOp (off : Nat) : Option (List (Nat × List Byte)) → LineOp
  | none => .read
  | some [(a, bs)] => .write (off % 64 + a) bs
  | some ps => .parts (ps.map fun p => (off % 64 + p.1, p.2))

/-- Where in its line a place lies. -/
def Phys.low : Phys → Nat
  | .here off => off % 64
  | .remote ga => ga.toNat % 64
  | .host hpa => hpa.toNat % 64

/-- Access `w` of master `m` at a place: `n` bytes read, or the runs `ps` written.  `got` says that `r` is its answer, which has
come; else `r` is what a place outside the device answers.  None while there is no answer.
Log entries 14 (DESIGN CHOICE), 107 (DESIGN CHOICE). -/
def State.reach (s : State) (m : Nat) (got : Bool) (w : Wanted) (loc : Phys) (n : Nat) (ps : Option (List (Nat × List Byte)))
    (r : Reply) : State × Option Reply :=
  let r := if ps.isSome then r else fitReply r loc.low n
  if got then (s, replyCome r)
  else match loc with
    | .here off =>
      match s.place off, ps with
      | .scratch, none =>
        let (s, a) := s.scratchRead m off n
        (s, some (a.reply 0 n))
      | .scratch, some ps => (s.scratchParts m off ps, some (.ok []))
      | .ddr, ps =>
        if s.heldFor w then (s, none)
        else match s.homeAccess off (lineOp off ps) (.want w) with
          | (s, .served a) => (s, some (if ps.isSome then .ok [] else a.reply (off % 64) n))
          | (s, .held) => (s, none)
      | _, _ => (s, some .refused)
    | .remote _ =>
      if r = .owed then (s, none)
      else match s.popRemote w with
        | (s, true) => (s, some r)
        | (s, false) => (s, none)
    | .host hpa => s.hostAsk w hpa n ps r

/-! ## Release (15 R308, R310) -/

/-- A held access that has been served, with what it answers. -/
structure Delivery where
  who  : Who
  line : Nat
  op   : LineOp
  ans  : ReadAns
  deriving DecidableEq, Repr

/-- Serves the accesses of a line, oldest first, while they need no snoop; `released` says that a snoop of the line has ended,
and the first access proceeds when the snoop was its own. -/
def State.serveHeld (s : State) (released : Bool) : List Held → State × List Delivery
  | [] => (s, [])
  | h :: t =>
    if s.canServe h.line h.op || (released && h.snooped && !s.ctrlStopped (ddrSplit (h.line * 64)).1) then
      let (s, a) := s.serveOp (h.line * 64) h.op
      let (s, ds) := s.serveHeld false t
      (s, { who := h.who, line := h.line, op := h.op, ans := a } :: ds)
    else
      let (s, h) := s.snoopFirst h
      ({ s with cxl := { s.cxl with held := s.cxl.held ++ h :: t } }, [])

/-- The held accesses of a line go on as far as they can. -/
def State.releaseLine (s : State) (line : Nat) (released : Bool) : State × List Delivery :=
  let mine := s.cxl.held.filter (·.line = line)
  let s := { s with cxl := { s.cxl with held := s.cxl.held.filter (·.line ≠ line) } }
  s.serveHeld released mine

/-- The held accesses of every line go on as far as they can. -/
def State.releaseAll (s : State) : State × List Delivery :=
  ((s.cxl.held.map (·.line)).eraseDups).foldl (fun acc l =>
    let (s, ds) := acc.1.releaseLine l false
    (s, acc.2 ++ ds)) (s, [])

end Sys2Proof.Machine
end

