-- ==== Sys2Proof/Machine/AciRecord.lean ====
section
/-! DEFINITION. Queue pairs, completion records and their interrupts (03 R38 to R49, R59), and which fetched commands can
start (R42, R48, R52). -/

namespace Sys2Proof.Machine

/-! ## Pairs and handles -/

/-- The pair of a number. -/
def State.pair (s : State) (q : Nat) : Option Pair := alookup q s.aci.pairs

/-- Changes a pair that exists. -/
def State.modPair (s : State) (q : Nat) (g : Pair → Pair) : State :=
  match s.pair q with
  | some p => { s with aci := { s.aci with pairs := aset q (g p) s.aci.pairs } }
  | none => s

/-- Entries of a pair's submission ring and of its completion ring. -/
def Pair.sqDepth (p : Pair) : Nat := 2 ^ p.sqLog2
def Pair.cqDepth (p : Pair) : Nat := 2 ^ p.cqLog2

/-- Entries written and not fetched (03 R39). -/
def Pair.waiting (p : Pair) : Nat := (p.sqTail + p.sqDepth - p.sqHead) % p.sqDepth

/-- Records written and not consumed. -/
def Pair.unread (p : Pair) : Nat := (p.cqNext + p.cqDepth - p.cqHead) % p.cqDepth

/-- The handle of TAG `tag` of a pair (03 R47). -/
def Pair.handle (p : Pair) (q : Nat) (tag : BitVec 20) : Half :=
  BitVec.ofNat 32 (q <<< 24 + p.gen.toNat <<< 20 + tag.toNat)

/-- Bytes 0, 1 and 2 of a command's entry (03 R44). -/
def Cmd.op (c : Cmd) : Nat := fieldAt c.entry 0 1
def Cmd.flags (c : Cmd) : Nat := fieldAt c.entry 1 1
def Cmd.hostptr (c : Cmd) : Nat := fieldAt c.entry 2 1

/-- A field of a command's entry: `n` bytes at `i`. -/
def Cmd.at (c : Cmd) (i n : Nat) : Nat := fieldAt c.entry i n

/-- The command belongs to the pair, in its generation, of a handle. -/
def Cmd.samePair (c : Cmd) (h : Half) : Bool := c.handle.extractLsb' 20 12 = h.extractLsb' 20 12

/-- A command that has just been fetched. -/
def Cmd.new (q : Nat) (handle : Half) (entry : List Byte) : Cmd where
  qid := q
  handle := handle
  entry := entry
  phase := .ready
  cancelled := false
  milestones := 0
  ends := []
  failure := none
  inline := 0
  started := false
  rested := 0
  table := []
  chains := 0
  io := []
  record := none

/-- The command of a handle. -/
def State.cmd (s : State) (handle : Half) : Option Cmd := s.aci.cmds.find? (·.handle = handle)

/-- Changes the command of a handle. -/
def State.modCmd (s : State) (handle : Half) (g : Cmd → Cmd) : State :=
  { s with aci := { s.aci with cmds := s.aci.cmds.map fun c => if c.handle = handle then g c else c } }

/-- The entry for a line of an access of a command. -/
def Cmd.ioAt (c : Cmd) (wr : Bool) (ptr line : Nat) : Option FwIo :=
  c.io.find? fun e => e.wr == wr && e.ptr = ptr && e.line = line

/-- The line that a waiting access of a command still waits for. -/
def State.ioOwed (s : State) (m : Nat) (handle : Half) (wr : Bool) (ptr line : Nat) : Option FwIo :=
  match s.cmd handle with
  | some c =>
    match c.ioAt wr ptr line with
    | some e => if e.m = m && e.ans = .owed then some e else none
    | none => none
  | none => none

/-- An answer reaches the line that firmware waits for. -/
def State.fwAnswer (s : State) (m : Nat) (handle : Half) (wr : Bool) (ptr line : Nat) (r : Reply) : State :=
  match s.ioOwed m handle wr ptr line with
  | none => s
  | some e =>
    let r := if wr then r else fitReply r e.loc.low e.n
    let s := s.modCmd handle fun c => { c with io := c.io.map fun x => if x = e then { x with ans := r } else x }
    match wr, r with
    | true, .ok _ => s.landed e.loc [(0, e.data)]
    | _, _ => s

/-- The answer to the read of the entry that will have handle `h` is kept until firmware takes it. -/
def State.entryAnswer (s : State) (h : Half) (r : Reply) : State :=
  let q := (h.extractLsb' 24 8).toNat
  match s.pair q with
  | some p => if p.handle q p.tag = h then s.modPair q fun p => { p with entry := replyCome r } else s
  | none => s

/-- Sets a bit of ACI_ERR: 0 DOORBELL, 2 RING, 3 CONFIG; going from 0 to 1 raises its event (03, 11 R240). -/
def State.aciError (s : State) (bit q : Nat) : State :=
  let e := s.aci.err.toNat
  let e1 := if e % 16 = 0 then e % 256 + 256 * (q % 256) else e
  let s := { s with aci := { s.aci with err := BitVec.ofNat 32 (e1 ||| 2 ^ bit) } }
  if e.testBit bit then s else s.raise (if bit = 0 then 0x84 else if bit = 2 then 0x85 else 0x86)

/-- A ring that cannot be read or written halts its pair (03 R46): its finished commands get no record.
Log entry 99 (DEDUCED). -/
def State.haltPair (s : State) (q : Nat) : State :=
  let s := (s.modPair q fun p => { p with halted := true, entry := none }).aciError 2 q
  { s with aci := { s.aci with cmds := s.aci.cmds.filter fun c => !(decide (c.qid = q) && c.phase == .finished) } }

/-! ## Interrupts (03 R59) -/

/-- A CQ raises its interrupt. -/
def State.cqInterrupt (s : State) (q : Nat) : State :=
  match s.pair q with
  | some p => (s.modPair q fun p => { p with counted := 0 }).msix p.vector
  | none => s

/-- The counted records reach COAL_COUNT. -/
def Pair.coalMet (p : Pair) : Bool := 0 < p.counted && decide (max p.coalCount 1 ≤ p.counted)

/-- A record is in memory. -/
def State.recordDone (s : State) (r : RecordRef) : State :=
  match s.pair r.qid with
  | none => s
  | some p =>
    if p.gen ≠ r.gen then s
    else
      let s := s.modPair r.qid fun p => { p with counted := p.counted + 1 }
      let met := match s.pair r.qid with
        | some p => p.coalMet
        | none => false
      if r.irq || met then s.cqInterrupt r.qid else s

/-! ## Records (03 R40, R41, R49, 15 R311 to R313) -/

/-- The 32 bytes of a record. -/
def recordBytes (handle : Half) (r : CmdRecord) (phase : Bool) (sqHead : Nat) : List Byte :=
  bytesOf 4 handle.toNat ++ bytesOf 2 r.status.toNat ++ bytesOf 2 (b2n phase) ++ bytesOf 4 sqHead
    ++ bytesOf 4 r.detail.toNat ++ bytesOf 8 r.milestones ++ bytesOf 8 r.result.toNat

/-- What became of an attempt to write a record. -/
inductive RecordTry where
  | given
  | wait
  | failed
  deriving DecidableEq, Repr

/-- Writes a record's bytes at its slot: a WOWrInv on the address's cache link, or a write of local DDR.
Log entry 99 (DEDUCED). -/
def State.writeRecord (s : State) (p : Pair) (bs : List Byte) (ref : RecordRef) : State × RecordTry :=
  let a := p.cqBase.toNat + 32 * p.cqNext
  if p.dev then
    if s.poisoned a 32 then (s.checkDdr [a / 64], .failed)
    else match s.homeAccess a (.write (a % 64) bs) (.record ref) with
      | (s, .served _) => (s.recordDone ref, .given)
      | (s, .held) => (s, .given)
  else
    let hpa : Word := BitVec.ofNat 64 a
    match s.cacheLink hpa with
    | none => (s, .failed)
    | some l =>
      if s.writeOwed fwSource (a / 64) || 512 ≤ s.cxl.links[l].d2h.length then (s, .wait)
      else
        let t := freeTag s.cxl.links[l].d2h
        let s := s.modLink l fun k => { k with d2h := k.d2h ++ [{ tag := t, hpa := hpa, write := true, who := .record ref }] }
        (s.emit (d2hWrite l t hpa [(0, bs)]), .given)

/-- Writes the record of a finished command, if its CQ has room; `s.aci.cmds` keeps the command when it must wait. -/
def State.flushOne (s : State) (c : Cmd) : State :=
  match c.record, s.pair c.qid with
  | some r, some p =>
    let gone := fun (s : State) =>
      { s with aci := { s.aci with cmds := s.aci.cmds.filter (·.handle ≠ c.handle) } }
    if p.halted || p.gen ≠ c.handle.extractLsb' 20 4 then gone s
    else if p.cqDepth ≤ p.unread + 1 then s
    else
      let ref : RecordRef := { qid := c.qid, gen := p.gen, irq := c.flags.testBit 1 }
      match s.writeRecord p (recordBytes c.handle r p.phase p.sqHead) ref with
      | (s, .wait) => s
      | (s, .failed) => s.haltPair c.qid
      | (s, .given) =>
        let next := (p.cqNext + 1) % p.cqDepth
        gone (s.modPair c.qid fun p => { p with cqNext := next, phase := if next = 0 then !p.phase else p.phase })
  | some _, none => { s with aci := { s.aci with cmds := s.aci.cmds.filter (·.handle ≠ c.handle) } }
  | none, _ => s

/-- Writes the records that can be written, oldest first. -/
def State.flushRecords (s : State) : State :=
  (s.aci.cmds.filter (·.phase == .finished)).foldl (fun s c => s.flushOne c) s

/-- Records of a pair that are on their way to memory. -/
def State.recordsInFlight (s : State) (q : Nat) : Nat :=
  (s.d2hAll.filter fun d => match d.who with
      | .record r => r.qid = q
      | .want _ => false).length
    + (s.cxl.held.filter fun h => match h.who with
      | .record r => r.qid = q
      | _ => false).length

/-! ## Commands that can start (03 R42, R48, R51, R52) -/

/-- FLAGS.FENCE counts: version 1.2 with the feature (03 R44, R56). -/
def State.fenceOn (s : State) : Bool := s.aci.features.getLsbD 4

/-- The sequencers that running KERNEL_RUNs hold, as a bitmap. -/
def State.heldChains (s : State) : Nat :=
  (s.aci.cmds.filter fun c => c.phase == .running && c.op = 0x10).foldl (fun m c => m ||| c.at 32 4) 0

/-- The chains that running COPYs and FILLs use, as a bitmap (03 R52). -/
def State.copyChains (s : State) : Nat :=
  (s.aci.cmds.filter fun c => c.phase == .running).foldl (fun m c => m ||| c.chains) 0

/-- A fetched command can start. -/
def State.canStart (s : State) (c : Cmd) : Bool :=
  let before := (s.aci.cmds.takeWhile (·.handle ≠ c.handle)).filter (·.samePair c.handle)
  let alone := c.op = 0x01 || (s.fenceOn && c.flags.testBit 0)
  c.phase == .ready
    && before.all (fun b => !(b.phase == .ready) && !(b.phase == .running && b.op = 0x01))
    && (!alone || (before.isEmpty && s.recordsInFlight c.qid = 0))
    && (c.op ≠ 0x10 || c.at 32 4 &&& (s.heldChains ||| s.copyChains) = 0)
    && (!(c.op = 0x11 || c.op = 0x12) || s.heldChains ≠ 0xFFFFFFFF)

/-- Notes the commands that have become ready, in the order of their fetch. -/
def State.promote (s : State) : State :=
  let still := s.aci.readyQ.filter fun h => match s.cmd h with
    | some c => s.canStart c
    | none => false
  let more := (s.aci.cmds.filter fun c => s.canStart c && !still.contains c.handle).map (·.handle)
  { s with aci := { s.aci with readyQ := still ++ more } }

/-- A command finishes with a record. -/
def State.finish (s : State) (handle : Half) (r : CmdRecord) : State :=
  s.modCmd handle fun c => { c with phase := .finished, record := some r }

/-- A deleting pair has nothing left to write (03 R46, R58). -/
def State.drained (s : State) (q : Nat) : Bool :=
  match s.pair q with
  | none => false
  | some p => p.deleting && (p.halted || (s.aci.cmds.all (!·.samePair (p.handle q 0)) && s.recordsInFlight q = 0))

/-- A DELETE_QP whose pair is drained deletes it and finishes. -/
def State.finishDelete (s : State) (c : Cmd) : State :=
  let q := c.at 16 2
  if s.drained q then
    let s := { s with aci := { s.aci with
      pairs := adel q s.aci.pairs
      cmds := s.aci.cmds.filter fun (k : Cmd) => decide (k.qid ≠ q) || k.phase == CmdPhase.running } }
    s.finish c.handle { status := 0, detail := 0, milestones := 0, result := 0 }
  else s

/-- Firmware goes on with what it can do at once: records are written, deletions end, commands become ready. -/
def State.aciSettle (s : State) : State :=
  let s := s.flushRecords
  let s := (s.aci.cmds.filter fun c => c.phase == .running && c.op = 0x04).foldl (fun s c => s.finishDelete c) s
  s.flushRecords.promote

end Sys2Proof.Machine
end

