-- ==== Sys2Proof/Machine/Fpu.lean ====
section
/-! DEFINITION. IEEE 754 arithmetic on bit patterns, exact and correctly rounded (06 R121 to R126, R135): the FPU, the
fused multiply-add of MAC and xfma, the bank's ADD_F64. -/

namespace Sys2Proof.Machine

/-- A binary format: exponent and fraction widths. -/
structure Fmt where
  eb : Nat
  mb : Nat
  deriving DecidableEq, Repr

/-- FP64. -/
def fp64 : Fmt := { eb := 11, mb := 52 }
/-- FP32. -/
def fp32 : Fmt := { eb := 8, mb := 23 }
/-- The format that FMT selects. -/
def fmtOf (b : Bool) : Fmt := if b then fp32 else fp64

/-- Exponent bias. -/
def Fmt.bias (f : Fmt) : Nat := 2 ^ (f.eb - 1) - 1
/-- Least exponent of a normal number. -/
def Fmt.emin (f : Fmt) : Int := 1 - (f.bias : Int)
/-- Greatest exponent of a finite number. -/
def Fmt.emax (f : Fmt) : Int := f.bias
/-- Width in bits. -/
def Fmt.width (f : Fmt) : Nat := f.eb + f.mb + 1

/-- IEEE flags in CORE_NUMF's places (06 R119). -/
def flagNV : Nat := 1
def flagDZ : Nat := 2
def flagOF : Nat := 4
def flagUF : Nat := 8
def flagNX : Nat := 16
def flagSUB : Nat := 32

/-- A decoded operand: `fin` is ± m × 2^e with m > 0. -/
inductive Fp where
  | nan
  | inf (s : Bool)
  | zero (s : Bool)
  | fin (s : Bool) (m : Nat) (e : Int)
  deriving DecidableEq, Repr

/-- A result and the flags it sets. -/
structure FpRes where
  v     : Nat
  flags : Nat
  deriving DecidableEq, Repr

def Fmt.expOf (f : Fmt) (v : Nat) : Nat := (v >>> f.mb) % 2 ^ f.eb
def Fmt.fracOf (f : Fmt) (v : Nat) : Nat := v % 2 ^ f.mb
def Fmt.signOf (f : Fmt) (v : Nat) : Bool := v.testBit (f.eb + f.mb)
/-- A NaN's bit pattern. -/
def Fmt.isNan (f : Fmt) (v : Nat) : Bool := f.expOf v == 2 ^ f.eb - 1 && f.fracOf v != 0
/-- A signalling NaN's bit pattern. -/
def Fmt.isSnan (f : Fmt) (v : Nat) : Bool := f.isNan v && !v.testBit (f.mb - 1)
/-- A subnormal's bit pattern. -/
def Fmt.isSub (f : Fmt) (v : Nat) : Bool := f.expOf v == 0 && f.fracOf v != 0
/-- The NaN made quiet. -/
def Fmt.quiet (f : Fmt) (v : Nat) : Nat := v % 2 ^ f.width ||| 2 ^ (f.mb - 1)
/-- The default NaN (06 R122). -/
def Fmt.defNan (f : Fmt) : Nat := (2 ^ f.eb - 1) <<< f.mb + 2 ^ (f.mb - 1)
/-- An infinity. -/
def Fmt.infBits (f : Fmt) (s : Bool) : Nat := b2n s <<< (f.eb + f.mb) + (2 ^ f.eb - 1) <<< f.mb
/-- A zero. -/
def Fmt.zeroBits (f : Fmt) (s : Bool) : Nat := b2n s <<< (f.eb + f.mb)
/-- The greatest finite value. -/
def Fmt.maxBits (f : Fmt) (s : Bool) : Nat := f.infBits s - 1

/-- Decodes a pattern; `exact` keeps a subnormal, else it is a zero of its sign (06 R125). -/
def Fmt.decode (f : Fmt) (exact : Bool) (v : Nat) : Fp :=
  let s := f.signOf v
  let e := f.expOf v
  let m := f.fracOf v
  if e = 2 ^ f.eb - 1 then (if m = 0 then .inf s else .nan)
  else if e = 0 then
    (if m = 0 || !exact then .zero s else .fin s m (f.emin - f.mb))
  else .fin s (m + 2 ^ f.mb) ((e : Int) - f.bias - f.mb)

/-- Whether to round the magnitude up: `rm` 0 nearest even, 1 toward zero, 2 up, 3 down (06 R121). -/
def roundUp (rm : Nat) (s odd half more : Bool) : Bool :=
  match rm with
  | 0 => half && (more || odd)
  | 1 => false
  | 2 => !s && (half || more)
  | _ => s && (half || more)

/-- m × 2^e rounded to a multiple of 2^q: the multiple and whether it is inexact. -/
def quantize (rm : Nat) (s : Bool) (m : Nat) (e q : Int) : Nat × Bool :=
  if q ≤ e then (m <<< (e - q).toNat, false)
  else
    let k := (q - e).toNat
    let r := m >>> k
    let rem := m % 2 ^ k
    let half := 2 ^ (k - 1) ≤ rem
    let more := rem ≠ 0 && rem ≠ 2 ^ (k - 1)
    (if roundUp rm s (r % 2 = 1) half more then r + 1 else r, rem ≠ 0)

/-- The overflow result (06 R123). -/
def Fmt.overflow (f : Fmt) (rm : Nat) (s : Bool) : FpRes :=
  let toInf := match rm with
    | 0 => true
    | 1 => false
    | 2 => !s
    | _ => s
  { v := if toInf then f.infBits s else f.maxBits s, flags := flagOF + flagNX }

/-- Rounds ± m × 2^e, m > 0.  `exact` computes subnormal results with gradual underflow; otherwise a result that is
subnormal before rounding becomes a zero with SUB, UF and NX (06 R125, R126). -/
def Fmt.round (f : Fmt) (exact : Bool) (rm : Nat) (s : Bool) (m : Nat) (e : Int) : FpRes :=
  let top : Int := e + Nat.log2 m
  if !exact && top < f.emin then { v := f.zeroBits s, flags := flagSUB + flagUF + flagNX }
  else
    let free := quantize rm s m e (top - f.mb)
    let top' := if free.1 = 2 ^ (f.mb + 1) then top + 1 else top
    let tiny := top' < f.emin
    let q := max (top - f.mb) (f.emin - f.mb)
    let (r, nx) := quantize rm s m e q
    let (r, q) := if r = 2 ^ (f.mb + 1) then (2 ^ f.mb, q + 1) else (r, q)
    if r = 0 then { v := f.zeroBits s, flags := if nx then flagUF + flagNX else 0 }
    else
      let sub := r < 2 ^ f.mb
      let ex : Int := if sub then 0 else q + f.mb + f.bias
      if !sub && ex ≥ 2 ^ f.eb - 1 then f.overflow rm s
      else
        { v := b2n s <<< (f.eb + f.mb) + ex.toNat <<< f.mb + (if sub then r else r - 2 ^ f.mb)
          flags := if nx then flagNX + (if tiny then flagUF else 0) else 0 }

/-- Rounds a signed multiple of 2^e; an exact zero has the sign `zs`. -/
def Fmt.roundInt (f : Fmt) (exact : Bool) (rm : Nat) (zs : Bool) (v : Int) (e : Int) : FpRes :=
  if v = 0 then { v := f.zeroBits zs, flags := 0 }
  else f.round exact rm (v < 0) v.natAbs e

/-- The NaN rule (06 R122): the first NaN operand, quiet; NV for a signalling one. -/
def Fmt.nanOf (f : Fmt) (ops : List Nat) : Option FpRes :=
  (ops.find? f.isNan).map fun v =>
    { v := f.quiet v, flags := if ops.any f.isSnan then flagNV else 0 }

/-- SUB for an operand that is flushed. -/
def Fmt.subFlag (f : Fmt) (exact : Bool) (ops : List Nat) : Nat :=
  if !exact && ops.any f.isSub then flagSUB else 0

/-- Flags added to a result. -/
def FpRes.also (r : FpRes) (g : Nat) : FpRes := { r with flags := r.flags ||| g }

/-- The invalid result. -/
def Fmt.invalid (f : Fmt) : FpRes := { v := f.defNan, flags := flagNV }

/-- A signed mantissa. -/
def signed (s : Bool) (m : Nat) : Int := if s then -(m : Int) else m

/-- The sum of two decoded operands, neither a NaN. -/
def Fmt.addFp (f : Fmt) (exact : Bool) (rm : Nat) : Fp → Fp → FpRes
  | .inf s, .inf t => if s = t then { v := f.infBits s, flags := 0 } else f.invalid
  | .inf s, _ => { v := f.infBits s, flags := 0 }
  | _, .inf t => { v := f.infBits t, flags := 0 }
  | .zero s, .zero t => { v := f.zeroBits (if s = t then s else rm = 3), flags := 0 }
  | .zero _, .fin t m e => f.round exact rm t m e
  | .fin s m e, .zero _ => f.round exact rm s m e
  | .fin s m e, .fin t n g =>
    let q := min e g
    f.roundInt exact rm (rm = 3) (signed s m * 2 ^ (e - q).toNat + signed t n * 2 ^ (g - q).toNat) q
  | _, _ => f.invalid

/-- The exact product of two decoded operands; none for 0 × ∞. -/
def mulFp : Fp → Fp → Option Fp
  | .inf s, .inf t => some (.inf (s != t))
  | .inf s, .fin t _ _ => some (.inf (s != t))
  | .fin s _ _, .inf t => some (.inf (s != t))
  | .zero s, .zero t => some (.zero (s != t))
  | .zero s, .fin t _ _ => some (.zero (s != t))
  | .fin s _ _, .zero t => some (.zero (s != t))
  | .fin s m e, .fin t n g => some (.fin (s != t) (m * n) (e + g))
  | _, _ => none

/-- A decoded value rounded to the format. -/
def Fmt.encode (f : Fmt) (exact : Bool) (rm : Nat) : Fp → FpRes
  | .inf s => { v := f.infBits s, flags := 0 }
  | .zero s => { v := f.zeroBits s, flags := 0 }
  | .fin s m e => f.round exact rm s m e
  | .nan => f.invalid

/-- a + b. -/
def Fmt.add (f : Fmt) (exact : Bool) (rm a b : Nat) : FpRes :=
  match f.nanOf [a, b] with
  | some r => r.also (f.subFlag exact [a, b])
  | none => (f.addFp exact rm (f.decode exact a) (f.decode exact b)).also (f.subFlag exact [a, b])

/-- The pattern with its sign inverted. -/
def Fmt.neg (f : Fmt) (a : Nat) : Nat := (a % 2 ^ f.width) ^^^ 2 ^ (f.eb + f.mb)

/-- The decoded operand negated. -/
def Fp.neg : Fp → Fp
  | .inf s => .inf (!s)
  | .zero s => .zero (!s)
  | .fin s m e => .fin (!s) m e
  | .nan => .nan

/-- a − b. -/
def Fmt.sub (f : Fmt) (exact : Bool) (rm a b : Nat) : FpRes :=
  match f.nanOf [a, b] with
  | some r => r.also (f.subFlag exact [a, b])
  | none => (f.addFp exact rm (f.decode exact a) (f.decode exact b).neg).also (f.subFlag exact [a, b])

/-- a × b. -/
def Fmt.mul (f : Fmt) (exact : Bool) (rm a b : Nat) : FpRes :=
  match f.nanOf [a, b] with
  | some r => r.also (f.subFlag exact [a, b])
  | none =>
    FpRes.also (match mulFp (f.decode exact a) (f.decode exact b) with
    | some p => f.encode exact rm p
    | none => f.invalid) (f.subFlag exact [a, b])

/-- The quotient of two decoded operands, neither a NaN. -/
def Fmt.divFp (f : Fmt) (exact : Bool) (rm : Nat) : Fp → Fp → FpRes
  | .inf _, .inf _ => f.invalid
  | .inf s, .zero t => { v := f.infBits (s != t), flags := 0 }
  | .inf s, .fin t _ _ => { v := f.infBits (s != t), flags := 0 }
  | .zero _, .zero _ => f.invalid
  | .zero s, .inf t => { v := f.zeroBits (s != t), flags := 0 }
  | .zero s, .fin t _ _ => { v := f.zeroBits (s != t), flags := 0 }
  | .fin s _ _, .inf t => { v := f.zeroBits (s != t), flags := 0 }
  | .fin s _ _, .zero t => { v := f.infBits (s != t), flags := flagDZ }
  | .fin s m e, .fin t n g =>
    let k := f.mb + 4 + Nat.log2 n
    let q := (m <<< k) / n
    let sticky := (m <<< k) % n ≠ 0
    f.round exact rm (s != t) (2 * q + b2n sticky) (e - g - k - 1)
  | _, _ => f.invalid

/-- a ÷ b. -/
def Fmt.div (f : Fmt) (exact : Bool) (rm a b : Nat) : FpRes :=
  match f.nanOf [a, b] with
  | some r => r.also (f.subFlag exact [a, b])
  | none => (f.divFp exact rm (f.decode exact a) (f.decode exact b)).also (f.subFlag exact [a, b])

/-- The integer square root, bit by bit from bit `n` down. -/
def isqrtFrom (v : Nat) : Nat → Nat → Nat
  | 0, r => if (r + 1) * (r + 1) ≤ v then r + 1 else r
  | n + 1, r =>
    let c := r + 2 ^ (n + 1)
    isqrtFrom v n (if c * c ≤ v then c else r)

/-- The integer square root. -/
def isqrt (v : Nat) : Nat := isqrtFrom v (Nat.log2 v / 2) 0

/-- √a. -/
def Fmt.sqrt (f : Fmt) (exact : Bool) (rm a : Nat) : FpRes :=
  match f.nanOf [a] with
  | some r => r
  | none =>
    FpRes.also (match f.decode exact a with
    | .zero s => { v := f.zeroBits s, flags := 0 }
    | .inf false => { v := f.infBits false, flags := 0 }
    | .fin false m e =>
      let k := 2 * (f.mb + 4) + (e % 2).toNat
      let v := m <<< k
      let r := isqrt v
      f.round exact rm false (2 * r + b2n (r * r ≠ v)) ((e - k) / 2 - 1)
    | _ => f.invalid) (f.subFlag exact [a])

/-- The order of two patterns that are not NaNs, with −0 below +0, as signed keys (06 R121). -/
def Fmt.key (f : Fmt) (v : Nat) : Int :=
  let m := v % 2 ^ (f.eb + f.mb)
  if f.signOf v then -(m : Int) - 1 else m

/-- FMIN: an operand unchanged (06 R124). -/
def Fmt.min (f : Fmt) (a b : Nat) : FpRes :=
  match f.nanOf [a, b] with
  | some r => r
  | none => { v := if f.key b < f.key a then b % 2 ^ f.width else a % 2 ^ f.width, flags := 0 }

/-- FMAX. -/
def Fmt.max (f : Fmt) (a b : Nat) : FpRes :=
  match f.nanOf [a, b] with
  | some r => r
  | none => { v := if f.key a < f.key b then b % 2 ^ f.width else a % 2 ^ f.width, flags := 0 }

/-- FABS. -/
def Fmt.abs (f : Fmt) (a : Nat) : FpRes := { v := a % 2 ^ (f.eb + f.mb), flags := 0 }

/-- An integer converted. -/
def Fmt.ofInt (f : Fmt) (rm : Nat) (i : Int) : FpRes := f.roundInt true rm false i 0

/-- ± m × 2^e rounded to an integer, and whether the value changed. -/
def roundToInt (rm : Nat) (s : Bool) (m : Nat) (e : Int) : Int × Bool :=
  let (r, nx) := quantize rm s m e 0
  (signed s r, nx)

/-- CVTTOI: to i64 as a bit pattern (06 R123). -/
def Fmt.toI64 (f : Fmt) (exact : Bool) (rm a : Nat) : FpRes :=
  let clamp := fun (s : Bool) => if s then 2 ^ 63 else 2 ^ 63 - 1
  FpRes.also (match f.decode exact a with
  | .nan => { v := 0, flags := flagNV }
  | .inf s => { v := clamp s, flags := flagNV }
  | .zero _ => { v := 0, flags := 0 }
  | .fin s m e =>
    let (i, nx) := roundToInt rm s m e
    if i < -(2 ^ 63 : Nat) || (2 ^ 63 : Nat) ≤ i then { v := clamp s, flags := flagNV }
    else { v := ofSigned 64 i, flags := if nx then flagNX else 0 }) (f.subFlag exact [a])

/-- FROUND: an integral value in the format. -/
def Fmt.toIntegral (f : Fmt) (exact : Bool) (rm a : Nat) : FpRes :=
  match f.nanOf [a] with
  | some r => r
  | none =>
    FpRes.also (match f.decode exact a with
    | .fin s m e =>
      let (i, nx) := roundToInt rm s m e
      (if i = 0 then { v := f.zeroBits s, flags := 0 } else f.round true rm s i.natAbs 0).also
        (if nx then flagNX else 0)
    | .zero s => { v := f.zeroBits s, flags := 0 }
    | _ => { v := a % 2 ^ f.width, flags := 0 }) (f.subFlag exact [a])

/-- WIDEN: FP32 to FP64, exact (06 R122). -/
def widenFp (exact : Bool) (a : Nat) : FpRes :=
  if fp32.isNan a then
    { v := b2n (fp32.signOf a) <<< 63 + 0x7FF <<< 52 + ((fp32.fracOf a) <<< 29 ||| 2 ^ 51)
      flags := if fp32.isSnan a then flagNV else 0 }
  else (fp64.encode true 0 (fp32.decode exact a)).also (fp32.subFlag exact [a])

/-- NARROW: FP64 to FP32 (06 R122). -/
def narrowFp (exact : Bool) (rm a : Nat) : FpRes :=
  if fp64.isNan a then
    { v := b2n (fp64.signOf a) <<< 31 + 0xFF <<< 23 + ((fp64.fracOf a) >>> 29 ||| 2 ^ 22)
      flags := if fp64.isSnan a then flagNV else 0 }
  else (fp32.encode exact rm (fp64.decode exact a)).also (fp64.subFlag exact [a])

/-- a × b + c, or − c, rounded once, subnormals taken as MAC takes them (06 R135). -/
def Fmt.fma (f : Fmt) (minus : Bool) (rm a b c : Nat) : FpRes :=
  let da := f.decode false a
  let db := f.decode false b
  let dc := if minus then (f.decode false c).neg else f.decode false c
  let bad := match da, db with
    | .zero _, .inf _ => true
    | .inf _, .zero _ => true
    | _, _ => false
  FpRes.also (match f.nanOf [a, b, c] with
  | some r => r.also (if bad then flagNV else 0)
  | none =>
    match mulFp da db with
    | none => f.invalid
    | some p => f.addFp false rm p dc) (f.subFlag false [a, b, c])

/-- FADD at a bank: nearest even, subnormals exact (13 R266). -/
def bankAddF64 (old v : Word) : Word := BitVec.ofNat 64 (fp64.add true 0 old.toNat v.toNat).v

end Sys2Proof.Machine
end

