-- ==== Sys2Proof/Machine/Alu.lean ====
section
/-! DEFINITION. What the stations and the D unit compute on one element: integers (06 R120, R127, R134), packed decimal
(06 R129 to R133), floating point with its conditions (06 R117, R121), comparisons (07 R139, R140) and hashes
(07 R144). -/

namespace Sys2Proof.Machine

/-! ## Integers -/

/-- Leading zero bits. -/
def clz64 (a : Word) : Nat := if a = 0 then 64 else 63 - Nat.log2 a.toNat

/-- Trailing zero bits. -/
def ctz64 (a : Word) : Nat := if a = 0 then 64 else ((upto 64).find? fun i => a.getLsbD i).getD 64

/-- Bits set. -/
def popc64 (a : Word) : Nat := ((upto 64).filter fun i => a.getLsbD i).length

/-- Bytes in reverse order. -/
def bswap64 (a : Word) : Word := wordOf (bytesOf 8 a.toNat).reverse

/-- A signed number as a 64-bit word. -/
def wordOfInt (i : Int) : Word := BitVec.ofInt 64 i

/-- A signed number fits in 64 bits. -/
def fitsI64 (i : Int) : Bool := decide (-(2 ^ 63 : Int) ≤ i) && decide (i < (2 ^ 63 : Int))

/-- `a` sign-extended from bit `b mod 64`. -/
def sextFrom (a b : Word) : Word :=
  let k := 63 - b.toNat % 64
  (a <<< k).sshiftRight k

/-- `a` with the bits above bit `b mod 64` cleared. -/
def zextFrom (a b : Word) : Word :=
  let k := 63 - b.toNat % 64
  (a <<< k) >>> k

/-- The ALU operation of an OP value on values that are not null, and whether a checked operation overflows
(06 R120); SELECT, NVL and ISNULL stand apart. -/
def aluInt (op : Nat) (a b : Word) : Option (Word × Bool) :=
  let n := b.toNat % 64
  match op with
  | 0x00 => some (a + b, false)
  | 0x01 => some (a - b, false)
  | 0x02 => some (a + b, !fitsI64 (a.toInt + b.toInt))
  | 0x03 => some (a - b, !fitsI64 (a.toInt - b.toInt))
  | 0x04 => some (-a, false)
  | 0x05 => some (-a, !fitsI64 (-a.toInt))
  | 0x06 => some (if a.toInt < 0 then -a else a, false)
  | 0x07 => some (if a.toInt < 0 then -a else a, !fitsI64 (if a.toInt < 0 then -a.toInt else a.toInt))
  | 0x08 => some (if b.toInt < a.toInt then b else a, false)
  | 0x09 => some (if a.toInt < b.toInt then b else a, false)
  | 0x0A => some (if b.toNat < a.toNat then b else a, false)
  | 0x0B => some (if a.toNat < b.toNat then b else a, false)
  | 0x10 => some (a &&& b, false)
  | 0x11 => some (a ||| b, false)
  | 0x12 => some (a ^^^ b, false)
  | 0x13 => some (a &&& ~~~b, false)
  | 0x14 => some (~~~a, false)
  | 0x18 => some (a <<< n, false)
  | 0x19 => some (a >>> n, false)
  | 0x1A => some (a.sshiftRight n, false)
  | 0x1B => some (a.rotateLeft n, false)
  | 0x20 => some (sextFrom a b, false)
  | 0x21 => some (zextFrom a b, false)
  | 0x24 => some (BitVec.ofNat 64 (clz64 a), false)
  | 0x25 => some (BitVec.ofNat 64 (ctz64 a), false)
  | 0x26 => some (BitVec.ofNat 64 (popc64 a), false)
  | 0x27 => some (bswap64 a, false)
  | 0x33 => some (a, false)
  | _ => none

/-- Bits 127:64 of the signed product. -/
def mulHiS (a b : Word) : Word := BitVec.ofInt 64 (a.toInt * b.toInt / (2 ^ 64 : Nat))
/-- Bits 127:64 of the unsigned product. -/
def mulHiU (a b : Word) : Word := BitVec.ofNat 64 (a.toNat * b.toNat / 2 ^ 64)

/-- The D unit's division at width 64 or 32 (10 R217): `op` 0 divs, 1 divu, 2 rems, 3 remu. -/
def divideD (op : Nat) (narrow : Bool) (a b : Word) : Word :=
  let w := if narrow then 32 else 64
  let sa := toSigned w a.toNat
  let sb := toSigned w b.toNat
  let ua := a.toNat % 2 ^ w
  let ub := b.toNat % 2 ^ w
  match op with
  | 0 => wordOfInt (toSigned w (ofSigned w (if sb = 0 then -1 else Int.tdiv sa sb)))
  | 1 => BitVec.ofNat 64 (if ub = 0 then 2 ^ w - 1 else ua / ub)
  | 2 => wordOfInt (if sb = 0 then sa else Int.tmod sa sb)
  | _ => BitVec.ofNat 64 (if ub = 0 then ua else ua % ub)

/-! ## Elements and their conditions -/

/-- An element's value on a wire: wide values use `hi` (06 R114). -/
structure Val where
  null : Bool
  lo   : Word
  hi   : Word
  deriving DecidableEq, Repr

/-- The null value. -/
def Val.nul : Val := { null := true, lo := 0, hi := 0 }
/-- A narrow value. -/
def Val.nar (w : Word) : Val := { null := false, lo := w, hi := 0 }
/-- A wide value. -/
def Val.wid (n : Nat) : Val := { null := false, lo := BitVec.ofNat 64 n, hi := BitVec.ofNat 64 (n / 2 ^ 64) }
/-- All 128 bits. -/
def Val.nat (v : Val) : Nat := v.lo.toNat + v.hi.toNat * 2 ^ 64

/-- A condition (06 R117, 08 R178): COND, WHICH and the recorded values; a value the spec does not state is none. -/
structure Raised where
  cond  : Nat
  which : Nat
  v0    : Option Word
  v1    : Option Word
  deriving DecidableEq, Repr

/-- What a station makes of one element: the element it takes in flush and mark modes, the flags those modes set, and
the condition, if one is raised. -/
structure NumRes where
  v      : Val
  flags  : Nat
  raised : Option Raised
  deriving DecidableEq, Repr

/-- CORE_NUMF bits of conditions (06 R119). -/
def flagIOV : Nat := 0x100
def flagDRANGE : Nat := 0x200
def flagDINV : Nat := 0x1000
def flagDOV : Nat := 0x2000

/-- A plain result. -/
def NumRes.ok (v : Val) : NumRes := { v := v, flags := 0, raised := none }
/-- A condition whose flush result is null. -/
def NumRes.bad (flag cond which : Nat) (v0 v1 : Option Word) : NumRes :=
  { v := Val.nul, flags := flag, raised := some { cond := cond, which := which, v0 := v0, v1 := v1 } }

/-- ALU0 and ALU1 (06 R116, R120); `two` says that operand b is present. -/
def aluStation (op : Nat) (a b p : Val) (two : Bool) : NumRes :=
  match op with
  | 0x30 => .ok (if !p.null && p.lo != 0 then (if a.null then .nul else .nar a.lo)
                 else if b.null then .nul else .nar b.lo)
  | 0x31 => .ok (if a.null then (if b.null then .nul else .nar b.lo) else .nar a.lo)
  | 0x32 => .ok (.nar (if a.null then 1 else 0))
  | _ =>
    if a.null || (two && b.null) then .ok .nul
    else match aluInt op a.lo b.lo with
      | some (v, false) => .ok (.nar v)
      | some (_, true) => .bad flagIOV 1 3 (some a.lo) (if two then some b.lo else none)
      | none => .ok .nul

/-- DIV at width W (06 R127). -/
def divStation (op w : Nat) (a b : Val) : NumRes :=
  if a.null || b.null then .ok .nul
  else
    let signedOp := op % 2 = 0
    let inRange := fun (x : Word) =>
      if signedOp then decide (-(2 ^ (w - 1) : Int) ≤ x.toInt) && decide (x.toInt < (2 ^ (w - 1) : Int))
      else decide (x.toNat < 2 ^ w)
    let no := fun (k : Nat) => NumRes.bad flagDRANGE 2 k (some a.lo) (some b.lo)
    if !inRange a.lo then no 0
    else if !inRange b.lo then no 1
    else if b.lo = 0 then no 3
    else match op with
      | 0 => if a.lo.toInt = -(2 ^ (w - 1) : Int) && b.lo.toInt = -1 then no 3
             else .ok (.nar (wordOfInt (Int.tdiv a.lo.toInt b.lo.toInt)))
      | 1 => .ok (.nar (BitVec.ofNat 64 (a.lo.toNat / b.lo.toNat)))
      | 2 => .ok (.nar (wordOfInt (Int.tmod a.lo.toInt b.lo.toInt)))
      | _ => .ok (.nar (BitVec.ofNat 64 (a.lo.toNat % b.lo.toNat)))

/-! ## Packed decimal (06 R129 to R133) -/

/-- The digits of `n` nibbles of `v` as a number; none if one is above 9. -/
def digitsOf : Nat → Nat → Option Nat
  | 0, _ => some 0
  | n + 1, v =>
    if v % 16 ≤ 9 then (digitsOf n (v / 16)).map fun r => v % 16 + 10 * r else none

/-- A packed decimal operand of `nd` digits; `exact` accepts sign codes A, B and E (06 R130). -/
def decRead (nd : Nat) (exact : Bool) (v : Nat) : Option Int :=
  match digitsOf nd (v / 16) with
  | none => none
  | some d =>
    match v % 16 with
    | 0xC => some d
    | 0xF => some d
    | 0xD => some (-(d : Int))
    | 0xA => if exact then some d else none
    | 0xE => if exact then some d else none
    | 0xB => if exact then some (-(d : Int)) else none
    | _ => none

/-- `n` digits of a number as nibbles. -/
def nibblesOf : Nat → Nat → Nat
  | 0, _ => 0
  | n + 1, d => d % 10 + 16 * nibblesOf n (d / 10)

/-- A packed decimal result: the low `nd` digits with the sign (06 R131). -/
def decBits (nd : Nat) (i : Int) : Nat :=
  let d := i.natAbs % 10 ^ nd
  16 * nibblesOf nd d + (if i < 0 && d ≠ 0 then 0xD else 0xC)

/-- A decimal operand of DCM: P8 or P16. -/
def decOperand (wide exact : Bool) (v : Val) : Option Int :=
  if wide then decRead 31 exact v.nat else decRead 15 exact v.lo.toNat

/-- a ÷ 10^k rounded by RD: 0 truncates, 1 half away from zero, 2 half to even (06 R133). -/
def decShift (rd k : Nat) (i : Int) : Int :=
  let m := 10 ^ k
  let q := i.natAbs / m
  let r := i.natAbs % m
  let up := match rd with
    | 0 => false
    | 1 => decide (m ≤ 2 * r)
    | _ => decide (m < 2 * r) || (decide (m = 2 * r) && decide (q % 2 = 1))
  let q := if up then q + 1 else q
  if i < 0 then -(q : Int) else q

/-- The low `l` bytes of a value in reverse order. -/
def revBytes (l v : Nat) : Nat := natOf (bytesOf l v).reverse

/-- Operand widths of a DCM operation: a wide, b wide, b present; the operations that read no decimal stand apart. -/
def dcmShape (op : Nat) : Option (Bool × Bool × Bool) :=
  match op with
  | 0x00 => some (false, false, true)
  | 0x01 => some (false, false, true)
  | 0x02 => some (true, true, true)
  | 0x03 => some (true, true, true)
  | 0x04 => some (false, false, true)
  | 0x05 => some (true, false, true)
  | 0x08 => some (false, false, false)
  | 0x09 => some (true, false, false)
  | 0x0A => some (false, false, false)
  | 0x0B => some (true, false, false)
  | 0x0C => some (false, false, false)
  | 0x0D => some (true, false, false)
  | 0x10 => some (false, false, false)
  | 0x11 => some (true, false, false)
  | 0x13 => some (true, false, false)
  | 0x14 => some (true, false, false)
  | 0x15 => some (true, true, true)
  | 0x16 => some (false, false, true)
  | _ => none

/-- DCM (06 R130 to R133): `k` RESCALE's K, `rd` its RD, `l` REVB's L. -/
def dcmStation (op : Nat) (k : Int) (rd l : Nat) (exact : Bool) (a b : Val) : NumRes :=
  match dcmShape op with
  | none =>
    if a.null then .ok .nul
    else match op with
      | 0x12 => .ok (.wid (decBits 31 a.lo.toInt))
      | 0x18 => .ok (.nar (BitVec.ofNat 64 (revBytes l a.lo.toNat)))
      | 0x19 => .ok (.wid (revBytes l a.nat))
      | _ => .ok .nul
  | some (wa, wb, two) =>
    if a.null || (two && b.null) then .ok .nul
    else match decOperand wa exact a with
      | none => .bad flagDINV 4 0 (some a.lo) (some (if wa then a.hi else 0))
      | some x =>
        match (if two then decOperand wb exact b else some 0) with
        | none => .bad flagDINV 4 1 (some b.lo) (some (if wb then b.hi else 0))
        | some y =>
          let overflow := NumRes.bad flagDOV 5 3 (some a.lo) (if two then some b.lo else none)
          let p8 := fun (i : Int) => if i.natAbs < 10 ^ 15 then .ok (.nar (BitVec.ofNat 64 (decBits 15 i))) else overflow
          let p16 := fun (i : Int) => if i.natAbs < 10 ^ 31 then .ok (.wid (decBits 31 i)) else overflow
          let cmp := NumRes.ok (.nar (if x < y then -1 else if x = y then 0 else 1))
          match op with
          | 0x00 => p8 (x + y)
          | 0x01 => p8 (x - y)
          | 0x02 => p16 (x + y)
          | 0x03 => p16 (x - y)
          | 0x04 => p16 (x * y)
          | 0x05 => p16 (x * y)
          | 0x08 => p8 (-x)
          | 0x09 => p16 (-x)
          | 0x0A => p8 x.natAbs
          | 0x0B => p16 x.natAbs
          | 0x0C => p8 x
          | 0x0D => p16 x
          | 0x10 => p16 x
          | 0x11 => p8 x
          | 0x13 => if fitsI64 x then .ok (.nar (wordOfInt x)) else overflow
          | 0x14 => if 0 ≤ k then p16 (x * (10 ^ k.toNat : Nat)) else p16 (decShift rd (-k).toNat x)
          | _ => cmp

/-! ## Multiply-add (06 R134, R135) -/

/-- MAC; `three` says that operand c is present. -/
def macStation (op : Nat) (fmt : Bool) (rm : Nat) (a b c : Val) (three : Bool) : NumRes :=
  if a.null || b.null || (three && c.null) then .ok .nul
  else
    let fp := fun (minus : Bool) =>
      let r := (fmtOf fmt).fma minus rm a.lo.toNat b.lo.toNat c.lo.toNat
      { v := .nar (BitVec.ofNat 64 r.v), flags := r.flags, raised := none : NumRes }
    match op with
    | 0x00 => .ok (.nar (a.lo * b.lo))
    | 0x01 => .ok (.nar (mulHiS a.lo b.lo))
    | 0x02 => .ok (.nar (mulHiU a.lo b.lo))
    | 0x03 => .ok (.nar (a.lo * b.lo + c.lo))
    | 0x04 =>
      let r := a.lo.toInt * b.lo.toInt + c.lo.toInt
      if fitsI64 r then .ok (.nar (wordOfInt r)) else .bad flagIOV 1 3 (some a.lo) (some b.lo)
    | 0x06 => .ok (.wid (ofSigned 128 (a.lo.toInt * b.lo.toInt)))
    | 0x07 => .ok (.wid (a.lo.toNat * b.lo.toNat))
    | 0x10 => fp false
    | 0x11 => fp true
    | _ => .ok .nul

/-! ## The FPU (06 R121 to R126) -/

/-- An FPU operation on bit patterns; `exact` handles subnormals exactly. -/
def fpuOp (op : Nat) (f : Fmt) (rm : Nat) (exact : Bool) (a b : Nat) : FpRes :=
  match op with
  | 0x00 => f.add exact rm a b
  | 0x01 => f.sub exact rm a b
  | 0x02 => f.mul exact rm a b
  | 0x03 => f.div exact rm a b
  | 0x04 => f.sqrt exact rm a
  | 0x05 => f.min a b
  | 0x06 => f.max a b
  | 0x07 => f.abs a
  | 0x08 => { v := f.neg a, flags := 0 }
  | 0x10 => f.ofInt rm (toSigned 64 a)
  | 0x11 => f.ofInt rm a
  | 0x12 => f.toI64 exact rm a
  | 0x13 => widenFp exact a
  | 0x14 => narrowFp exact rm a
  | _ => f.toIntegral exact rm a

/-- Operand b is present. -/
def fpuTwo (op : Nat) : Bool := op ≤ 0x03 || op = 0x05 || op = 0x06
/-- The operation computes with its operands, so that a subnormal one is a condition (06 R117). -/
def fpuChecks (op : Nat) : Bool := !(0x05 ≤ op && op ≤ 0x08) && op ≠ 0x10 && op ≠ 0x11
/-- The format an operation reads its operands in. -/
def fpuIn (op : Nat) (f : Fmt) : Fmt := match op with
  | 0x13 => fp32
  | 0x14 => fp64
  | _ => f

/-- FPU0 and FPU1. -/
def fpuStation (op : Nat) (fmt : Bool) (rm : Nat) (exact : Bool) (a b : Val) : NumRes :=
  let two := fpuTwo op
  if a.null || (two && b.null) then .ok .nul
  else
    let f := fmtOf fmt
    let g := fpuIn op f
    let r := fpuOp op f rm exact a.lo.toNat b.lo.toNat
    let cond : Option Raised :=
      if exact || !fpuChecks op then none
      else if g.isSub a.lo.toNat then some { cond := 3, which := 0, v0 := some a.lo, v1 := none }
      else if two && g.isSub b.lo.toNat then some { cond := 3, which := 1, v0 := some b.lo, v1 := none }
      else if r.flags.testBit 5 then
        some { cond := 3, which := 3, v0 := some a.lo, v1 := if two then some b.lo else none }
      else none
    { v := .nar (BitVec.ofNat 64 r.v), flags := r.flags, raised := cond }

/-! ## Comparisons (07 R139 to R141) -/

/-- The order of two values in a type: none where a comparison is unordered. -/
def cmpKey (ty l : Nat) (v : Val) : Option Int :=
  match ty with
  | 0 => some v.lo.toInt
  | 1 => some v.lo.toNat
  | 2 => if fp64.isNan v.lo.toNat then none
         else if v.lo.toNat % 2 ^ 63 = 0 then some 0 else some (fp64.key v.lo.toNat + b2n (v.lo.getLsbD 63))
  | 3 => if fp32.isNan v.lo.toNat then none
         else if v.lo.toNat % 2 ^ 31 = 0 then some 0
         else some (fp32.key (v.lo.toNat % 2 ^ 32) + b2n (v.lo.getLsbD 31))
  | 4 => some (revBytes l v.lo.toNat)
  | _ => some (revBytes l v.nat)

/-- The comparison of SEL on values that are not null (07 R139, R140). -/
def selCompare (op ty l : Nat) (a b c : Val) : Bool :=
  match cmpKey ty l a, cmpKey ty l b, cmpKey ty l c with
  | some x, some y, some z =>
    match op with
    | 0 => x = y
    | 1 => x ≠ y
    | 2 => x < y
    | 3 => x ≤ y
    | 4 => y < x
    | 5 => y ≤ x
    | 6 => y ≤ x && x ≤ z
    | _ => y ≤ x && x < z
  | some x, some y, none =>
    match op with
    | 0 => x = y
    | 1 => x ≠ y
    | 2 => x < y
    | 3 => x ≤ y
    | 4 => y < x
    | 5 => y ≤ x
    | _ => false
  | _, _, _ => op = 1

/-- A predicate's truth: none is unknown (07 R138). -/
def Val.truth (v : Val) : Option Bool := if v.null then none else some (v.lo != 0)

/-- A predicate's element. -/
def predVal : Option Bool → Val
  | none => .nul
  | some true => .nar 1
  | some false => .nar 0

/-- Three-valued AND. -/
def and3 : Option Bool → Option Bool → Option Bool
  | some false, _ => some false
  | _, some false => some false
  | some true, some true => some true
  | _, _ => none
/-- Three-valued OR. -/
def or3 : Option Bool → Option Bool → Option Bool
  | some true, _ => some true
  | _, some true => some true
  | some false, some false => some false
  | _, _ => none
/-- Three-valued NOT. -/
def not3 (x : Option Bool) : Option Bool := x.map not

/-- SEL (07 R139, R141). -/
def selStation (op ty l cmb : Nat) (a b c p : Val) : Val :=
  let r : Option Bool :=
    match op with
    | 8 => some a.null
    | 9 => a.truth
    | _ =>
      if a.null || b.null || (6 ≤ op && c.null) then none else some (selCompare op ty l a b c)
  predVal (match cmb with
    | 0 => r
    | 1 => and3 r p.truth
    | 2 => or3 r p.truth
    | _ => and3 r (not3 p.truth))

/-! ## The key hash (07 R144, R145) -/

/-- mix. -/
def hashMix (x : Word) : Word :=
  let x := x ^^^ (x >>> 33)
  let x := x * 0x8C3A61D5F2E94B17
  x ^^^ (x >>> 29)

/-- HASH1. -/
def hash1 (k0 seed : Word) : Word := hashMix (k0 ^^^ seed)
/-- HASH2. -/
def hash2 (k0 k1 seed : Word) : Word := hashMix (hashMix (k0 ^^^ seed) ^^^ k1)

/-- HSH: `wide` says that a carries both key words. -/
def hshStation (op : Nat) (seed : Word) (wide : Bool) (a b : Val) : Val :=
  match op with
  | 0 => if a.null then .nul else .nar (hash1 a.lo seed)
  | _ =>
    if a.null || (!wide && b.null) then .nul
    else .nar (hash2 a.lo (if wide then a.hi else b.lo) seed)

end Sys2Proof.Machine
end

