-- ==== Sys2Proof/Machine/ChainWord.lean ====
section
/-! DEFINITION. The chain word (08 R162 to R168): station parcels, operands, wires; stream, decode and table descriptors
(05 R88, R108; 07 R146); and every check at launch in its order (08 R169, R170). -/

namespace Sys2Proof.Machine

/-! ## Descriptors -/

/-- Bits `hi` to `lo` of an S register. -/
def dbits (d : Desc) (hi lo : Nat) : Nat := bits d.toNat hi lo

def dBase (d : Desc) : Nat := dbits d 63 0
/-- KIND: 0 LINEAR, 1 STRIDED, 2 STRUCT, 3 PACKED, 4 RLE, 5 SCATTER, 6 ATOMIC. -/
def dKind (d : Desc) : Nat := dbits d 66 64
def dEsize (d : Desc) : Nat := dbits d 69 67
/-- Element size in bytes. -/
def dE (d : Desc) : Nat := 2 ^ dEsize d
def dSext (d : Desc) : Bool := d.getLsbD 70
def dPhys (d : Desc) : Bool := d.getLsbD 71
def dStride (d : Desc) : Int := toSigned 32 (dbits d 103 72)
/-- BITS of PACKED: 0 means 64. -/
def dBits (d : Desc) : Nat := if dbits d 109 104 = 0 then 64 else dbits d 109 104
def dOnull (d : Desc) : Nat := dbits d 111 110
def dRaCap (d : Desc) : Nat := dbits d 123 116
def dAop (d : Desc) : Nat := dbits d 127 124
def dAux (d : Desc) : Nat := dbits d 191 128
def dNullmap (d : Desc) : Nat := dbits d 255 192
/-- QOS, carried with every transaction of the stream (05 R88). -/
def dQos (d : Desc) : BitVec 4 := d.extractLsb' 112 4
/-- QOS of a table (07 R146). -/
def tQos (d : Desc) : BitVec 4 := d.extractLsb' 224 4

/-- Field `f` of a STRUCT's table (05 R95). -/
def sfEntry (d : Desc) (f : Nat) : Nat := bits (dAux d) (16 * f + 15) (16 * f)
def sfSize (d : Desc) (f : Nat) : Nat := bits (sfEntry d f) 14 12
def sfOff (d : Desc) (f : Nat) : Nat := bits (sfEntry d f) 11 0
def sfSext (d : Desc) (f : Nat) : Bool := bitN (sfEntry d f) 15
def sfPresent (d : Desc) (f : Nat) : Bool := sfSize d f ≠ 7
/-- The present fields of a STRUCT. -/
def sfPresents (d : Desc) : List Nat := (upto 4).filter (sfPresent d)
/-- The largest size among the present fields. -/
def sfLargest (d : Desc) : Nat := (sfPresents d).foldl (fun m f => max m (2 ^ sfSize d f)) 1

/-- The stations of one family. -/
inductive Kind where
  | inp
  | out
  | dec
  | sel
  | cpt
  | alu
  | fpu
  | div
  | dcm
  | mac
  | hsh
  | prb
  | acc
  deriving DecidableEq, Repr

/-- The family of a station code (08 R164). -/
def kindOf (stn : Nat) : Option Kind :=
  match stn with
  | 0x00 => some .inp
  | 0x01 => some .inp
  | 0x02 => some .inp
  | 0x03 => some .inp
  | 0x04 => some .out
  | 0x05 => some .out
  | 0x06 => some .dec
  | 0x07 => some .sel
  | 0x08 => some .cpt
  | 0x09 => some .alu
  | 0x0A => some .alu
  | 0x0B => some .fpu
  | 0x0C => some .fpu
  | 0x0D => some .div
  | 0x0E => some .dcm
  | 0x0F => some .mac
  | 0x10 => some .hsh
  | 0x11 => some .prb
  | 0x12 => some .acc
  | _ => none

/-! ## Station parcels -/

/-- A station parcel: its 16-bit parcels, header first. -/
abbrev StnParcel := List Parcel

/-- Length of a station parcel from its header. -/
def hdrLen (h : Parcel) : Nat := (h.extractLsb' 4 4).toNat + 1
/-- STOP. -/
def hdrStop (h : Parcel) : Bool := h.getLsbD 15

/-- Splits parcels into at most `n` station parcels; whether one of them has STOP. -/
def splitStations : Nat → List Parcel → List StnParcel × Bool
  | 0, _ => ([], false)
  | n + 1, ps =>
    match ps with
    | [] => ([], false)
    | h :: _ =>
      let p := ps.take (hdrLen h)
      if hdrStop h then ([p], true)
      else
        let (r, ok) := splitStations n (ps.drop (hdrLen h))
        (p :: r, ok)

/-- Bits of parcel `i` of a station parcel. -/
def pbits (p : StnParcel) (i hi lo : Nat) : Nat := bits ((p[i]?).getD 0).toNat hi lo

/-- The 64-bit immediate in parcels `i` to `i + 3`, least significant first (08 R167). -/
def immAt (p : StnParcel) (i : Nat) : Word :=
  BitVec.ofNat 64 (pbits p i 15 0 + pbits p (i + 1) 15 0 * 2 ^ 16 + pbits p (i + 2) 15 0 * 2 ^ 32
    + pbits p (i + 3) 15 0 * 2 ^ 48)

/-- A station parcel, read by its station's layout (08 R168). -/
structure Stn where
  code : Nat
  kind : Kind
  exm  : Nat
  len  : Nat
  op   : Nat
  sreg : Nat
  /-- Operand fields a, b, c and the fourth (SEL's p, CPT's p, PRB's E or PAY). -/
  a    : Nat
  b    : Nat
  c    : Nat
  p    : Nat
  /-- Modifiers: SEL CMB; FPU and MAC FMT; DIV W; DCM K; PRB OUTSEL; IN FIELD; ACC CA0. -/
  m1   : Nat
  /-- SEL TYPE; FPU and MAC RM; DCM RD; ACC CA1. -/
  m2   : Nat
  /-- SEL L − 1; DCM L − 1; ACC OP1. -/
  m3   : Nat
  /-- ACC: the second slot is used. -/
  v1   : Bool
  /-- ACC: group form. -/
  group : Bool
  /-- The immediate (IMMB of SEL, the seed of HSH) and IMMC of SEL. -/
  imm  : Word
  immc : Word
  /-- Every reserved bit is 0. -/
  rsvOk : Bool
  deriving DecidableEq, Repr

/-- Reads a station parcel of a known station. -/
def decodeStn (k : Kind) (p : StnParcel) : Stn :=
  let f := fun i hi lo => pbits p i hi lo
  let z := fun i hi lo => pbits p i hi lo == 0
  let s : Stn :=
    { code := f 0 14 10, kind := k, exm := f 0 9 8, len := p.length, op := 0, sreg := 0, a := 0, b := 0, c := 0, p := 0,
      m1 := 0, m2 := 0, m3 := 0, v1 := false, group := false, imm := 0, immc := 0, rsvOk := z 0 3 0 }
  let num : Stn := { s with op := f 1 15 10, a := f 1 9 5, b := f 1 4 0, c := f 2 15 11, imm := immAt p 3 }
  match k with
  | .inp => { s with sreg := f 1 15 13, m1 := f 1 12 11, rsvOk := s.rsvOk && z 1 10 0 }
  | .out => { s with sreg := f 1 15 13, a := f 1 12 8, b := f 1 7 3, rsvOk := s.rsvOk && z 1 2 0 }
  | .dec => { s with sreg := f 1 15 13, a := f 1 12 8, rsvOk := s.rsvOk && z 1 7 0 }
  | .sel =>
    { s with op := f 1 15 12, a := f 1 11 7, b := f 1 6 2, m1 := f 1 1 0, c := f 2 15 11, p := f 2 10 6, m2 := f 2 5 3,
             m3 := f 3 15 12, imm := immAt p 4, immc := immAt p 8, rsvOk := s.rsvOk && z 2 2 0 && z 3 11 0 }
  | .cpt => { s with p := f 1 15 11, a := f 1 10 6, b := f 1 5 1, rsvOk := s.rsvOk && z 1 0 0 }
  | .alu => { num with rsvOk := s.rsvOk && z 2 10 0 }
  | .fpu => { num with m1 := f 2 10 10, m2 := f 2 9 8, rsvOk := s.rsvOk && z 2 7 0 }
  | .mac => { num with m1 := f 2 10 10, m2 := f 2 9 8, rsvOk := s.rsvOk && z 2 7 0 }
  | .div => { num with m1 := f 2 10 9, rsvOk := s.rsvOk && z 2 8 0 }
  | .dcm =>
    if num.op = 0x14 then { num with m1 := f 2 10 5, m2 := f 2 4 3, rsvOk := s.rsvOk && z 2 2 0 }
    else if num.op = 0x18 || num.op = 0x19 then { num with m3 := f 2 10 7, rsvOk := s.rsvOk && z 2 6 0 }
    else { num with rsvOk := s.rsvOk && z 2 10 0 }
  | .hsh => { num with c := 0, imm := if p.length = 7 then immAt p 3 else 0, rsvOk := s.rsvOk && z 2 15 0 }
  | .prb =>
    { s with op := f 1 15 12, sreg := f 1 11 9, m1 := f 1 8 6, a := f 2 15 11, b := f 2 10 6, c := f 2 5 1,
             p := f 3 15 11, rsvOk := s.rsvOk && z 1 5 0 && z 2 0 0 && z 3 10 0 }
  | .acc =>
    if f 1 15 15 = 1 then
      { s with group := true, op := f 1 14 10, a := f 1 9 5, b := f 1 4 0, sreg := f 2 15 13,
               rsvOk := s.rsvOk && z 2 12 0 }
    else
      let v1 := f 1 1 1 = 1
      { s with op := f 1 14 10, a := f 1 9 5, m1 := f 1 4 2, v1 := v1, m3 := f 2 14 10, b := f 2 9 5, m2 := f 2 4 2,
               rsvOk := s.rsvOk && z 1 0 0 && z 2 15 15 && z 2 1 0 && (v1 || z 2 15 0) }

/-! ## Operands -/

/-- What an operand field is to its operation. -/
inductive Use where
  | needed
  | optional
  | unused
  deriving DecidableEq, Repr

/-- The code besides a wire that a field admits. -/
inductive Special where
  | none
  | imm
  | immc
  | pos
  deriving DecidableEq, Repr

/-- The width a field accepts. -/
inductive Want where
  | any
  | narrow
  | wide
  deriving DecidableEq, Repr

/-- One operand field. -/
structure Oper where
  code : Nat
  use  : Use
  sp   : Special
  want : Want
  deriving DecidableEq, Repr

/-- Whether the operation of an ALU uses b (06 R120). -/
def aluUsesB (op : Nat) : Bool := !([0x04, 0x05, 0x06, 0x07, 0x14, 0x24, 0x25, 0x26, 0x27, 0x32, 0x33].contains op)
/-- The OP values of the ALU. -/
def aluOps : List Nat :=
  [0x00, 0x01, 0x02, 0x03, 0x04, 0x05, 0x06, 0x07, 0x08, 0x09, 0x0A, 0x0B, 0x10, 0x11, 0x12, 0x13, 0x14, 0x18, 0x19,
   0x1A, 0x1B, 0x20, 0x21, 0x24, 0x25, 0x26, 0x27, 0x30, 0x31, 0x32, 0x33]
/-- The OP values of the FPU. -/
def fpuOps : List Nat := [0, 1, 2, 3, 4, 5, 6, 7, 8, 0x10, 0x11, 0x12, 0x13, 0x14, 0x15]
/-- DCM: widths of a and b (none: absent) and whether b may be the immediate; none for a reserved OP (06 R132). -/
def dcmOperands (op : Nat) : Option (Bool × Option (Bool × Bool)) :=
  match op with
  | 0x00 => some (false, some (false, true))
  | 0x01 => some (false, some (false, true))
  | 0x02 => some (true, some (true, false))
  | 0x03 => some (true, some (true, false))
  | 0x04 => some (false, some (false, true))
  | 0x05 => some (true, some (false, true))
  | 0x08 => some (false, none)
  | 0x09 => some (true, none)
  | 0x0A => some (false, none)
  | 0x0B => some (true, none)
  | 0x0C => some (false, none)
  | 0x0D => some (true, none)
  | 0x10 => some (false, none)
  | 0x11 => some (true, none)
  | 0x12 => some (false, none)
  | 0x13 => some (true, none)
  | 0x14 => some (true, none)
  | 0x15 => some (true, some (true, false))
  | 0x16 => some (false, some (false, true))
  | 0x18 => some (false, none)
  | 0x19 => some (true, none)
  | _ => none
/-- The OP values of MAC. -/
def macOps : List Nat := [0, 1, 2, 3, 4, 6, 7, 0x10, 0x11]
/-- MAC uses operand c. -/
def macUsesC (op : Nat) : Bool := op = 3 || op = 4 || op = 0x10 || op = 0x11
/-- The reductions of ACC and whether they take a wide operand (07 R156). -/
def accOps : List (Nat × Want) :=
  [(0, .any), (1, .any), (2, .narrow), (3, .any), (4, .any), (5, .any), (8, .narrow), (9, .narrow), (0xA, .narrow),
   (0xB, .narrow), (0xC, .narrow), (0xD, .narrow)]

/-- Needed if the flag holds, else unused. -/
def useIf (b : Bool) : Use := if b then .needed else .unused

/-- Payload words of a table descriptor (07 R146). -/
def tPayw (d : Desc) : Nat := dbits d 221 220
def tKeyw (d : Desc) : Bool := d.getLsbD 219

/-- The operand fields of a station under the operation it names. -/
def Stn.opers (s : Stn) (d : Desc) : List Oper :=
  let o := fun code use sp want => ({ code := code, use := use, sp := sp, want := want } : Oper)
  match s.kind with
  | .inp => []
  | .out =>
    let idx := dKind d = 5 || dKind d = 6
    [o s.a .needed .none (if dEsize d = 4 then .wide else .narrow), o s.b (useIf idx) .none .narrow]
  | .dec => [o s.a .needed .none .narrow]
  | .sel =>
    let b16 := s.m2 = 5
    let w : Want := if b16 then .wide else .narrow
    let cmpOp := s.op ≤ 7
    let wa : Want := if s.op = 8 then .any else if s.op = 9 then .narrow else w
    [o s.a .needed .none wa, o s.b (useIf cmpOp) (if b16 then .none else .imm) w,
     o s.c (useIf (s.op = 6 || s.op = 7)) (if b16 then .none else .immc) w, o s.p (useIf (s.m1 ≠ 0)) .none .narrow]
  | .cpt => [o s.p .needed .none .narrow, o s.a .needed .pos .any, o s.b .optional .pos .any]
  | .alu =>
    [o s.a .needed .none .narrow, o s.b (useIf (aluUsesB s.op)) .imm .narrow,
     o s.c (useIf (s.op = 0x30)) .none .narrow]
  | .fpu =>
    [o s.a .needed .none .narrow, o s.b (useIf (s.op ≤ 3 || s.op = 5 || s.op = 6)) .imm .narrow,
     o s.c .unused .none .narrow]
  | .div => [o s.a .needed .none .narrow, o s.b .needed .imm .narrow, o s.c .unused .none .narrow]
  | .dcm =>
    let (wa, wb) := (dcmOperands s.op).getD (false, none)
    let w := fun (b : Bool) => if b then Want.wide else Want.narrow
    [o s.a .needed .none (w wa),
     match wb with
     | none => o s.b .unused .none .narrow
     | some (wide, imm) => o s.b .needed (if imm then .imm else .none) (w wide),
     o s.c .unused .none .narrow]
  | .mac =>
    [o s.a .needed .none .narrow, o s.b .needed .none .narrow, o s.c (useIf (macUsesC s.op)) .imm .narrow]
  | .hsh =>
    if s.op = 0 then [o s.a .needed .none .narrow, o s.b .unused .none .narrow]
    else [o s.a .needed .none (if s.b = 0 then .wide else .narrow), o s.b .optional .none .narrow]
  | .prb =>
    if s.op = 3 then [o s.a .needed .none .narrow, o s.b .unused .none .narrow, o s.c .unused .none .narrow,
      o s.p .unused .none .narrow]
    else
      let e := s.op = 1 || (s.op = 2 && tPayw d ≠ 0)
      [o s.a .needed .none .narrow, o s.b .needed .none (if s.c = 0 then .any else .narrow),
       o s.c .optional .none .narrow, o s.p (useIf e) .none (if s.op = 2 then .any else .narrow)]
  | .acc =>
    if s.group then [o s.a .needed .none .narrow, o s.b (useIf (s.op ≠ 0x12)) .none .narrow]
    else
      [o s.a .needed .none ((alookup s.op accOps).getD .any),
       o s.b (useIf s.v1) .none ((alookup s.m3 accOps).getD .any)]

/-- The operand fields name the immediate. -/
def Stn.names (s : Stn) (code : Nat) : Bool :=
  match s.kind with
  | .inp => false
  | .out => s.a = code || s.b = code
  | .dec => s.a = code
  | _ => s.a = code || s.b = code || s.c = code || s.p = code

/-- LEN is the length the operation needs (08 R167, R168); `d` is the descriptor of its S register. -/
def Stn.lenOk (s : Stn) (d : Desc) : Bool :=
  match s.kind with
  | .inp => s.len = 2
  | .out => s.len = 2
  | .dec => s.len = 2
  | .cpt => s.len = 2
  | .sel => s.len = (if s.names 30 then 12 else if s.names 29 then 8 else 4)
  | .hsh => s.len = 3 || s.len = 7
  | .prb =>
    if s.op = 1 then s.len = 4
    else if s.op = 2 then s.len = (if tPayw d = 0 then 3 else 4)
    else if s.op = 0 || s.op = 3 then s.len = 3
    else s.len = 3 || s.len = 4
  | .acc => s.len = 3
  | _ => s.len = (if s.names 29 then 7 else 3)

/-- No reserved operation, modifier or unused modifier is set (08 R168, R170 RESERVED).  SEL NULLP and PRED ignore TYPE
(07 R139). -/
def Stn.modsOk (s : Stn) (d : Desc) : Bool :=
  match s.kind with
  | .inp => dKind d = 2 || s.m1 = 0
  | .out => true
  | .dec => true
  | .cpt => true
  | .sel =>
    s.op ≤ 9 && (8 ≤ s.op || s.m2 ≤ 5)
      && (if s.op ≤ 7 && s.m2 = 4 then s.m3 ≤ 7 else (s.op ≤ 7 && s.m2 = 5) || s.m3 = 0)
      && (!s.names 30 || s.names 29 || s.imm = 0)
  | .alu => aluOps.contains s.op
  | .fpu =>
    fpuOps.contains s.op && (!(s.op = 0x13 || s.op = 0x14) || s.m1 = 0)
      && (s.op ≤ 4 || s.op = 0x10 || s.op = 0x11 || s.op = 0x12 || s.op = 0x14 || s.op = 0x15 || s.m2 = 0)
  | .div => s.op ≤ 3
  | .dcm => (dcmOperands s.op).isSome && (s.op ≠ 0x14 || (s.m1 ≠ 32 && s.m2 ≠ 3)) && (s.op ≠ 0x18 || s.m3 ≤ 7)
  | .mac => macOps.contains s.op && (0x10 ≤ s.op || (s.m1 = 0 && s.m2 = 0))
  | .hsh => s.op ≤ 1
  | .prb => s.op ≤ 3 && (if s.op ≤ 1 then s.m1 ≤ 4 else s.m1 = 0)
  | .acc =>
    if s.group then 0x10 ≤ s.op && s.op ≤ 0x13
    else (alookup s.op accOps).isSome && (!s.v1 || (alookup s.m3 accOps).isSome)

/-! ## Wires (08 R165) -/

/-- A wire: who produces it, its width and its domain. -/
structure Wire where
  prod : Nat
  /-- CPT's second wire. -/
  snd  : Bool
  wide : Bool
  comp : Bool
  deriving DecidableEq, Repr

/-- The wire that an operand code names, given the wires so far. -/
def wireAt (ws : List Wire) (code : Nat) : Option Wire := if code = 0 then none else ws[code - 1]?

/-- The operand is a wide wire. -/
def wideAt (ws : List Wire) (code : Nat) : Bool :=
  match wireAt ws code with
  | some w => w.wide
  | none => false

/-- The operand is a compacted wire. -/
def compAt (ws : List Wire) (code : Nat) : Bool :=
  match wireAt ws code with
  | some w => w.comp
  | none => false

/-- Every operand code of a station. -/
def Stn.codes (s : Stn) : List Nat :=
  match s.kind with
  | .inp => []
  | .out => [s.a, s.b]
  | .dec => [s.a]
  | _ => [s.a, s.b, s.c, s.p]

/-- A station's inputs are compacted: some wire of it is. -/
def Stn.compacted (s : Stn) (ws : List Wire) : Bool := s.codes.any (compAt ws)

/-- The result wire is wide (06 R115, 07 R149); `d` is the descriptor of its S register. -/
def Stn.wideOut (s : Stn) (d : Desc) : Bool :=
  match s.kind with
  | .inp => (dKind d = 0 || dKind d = 1) && dEsize d = 4
  | .mac => s.op = 6 || s.op = 7
  | .dcm => [0x02, 0x03, 0x04, 0x05, 0x09, 0x0B, 0x0D, 0x10, 0x12, 0x14, 0x19].contains s.op
  | .prb => s.op ≤ 1 && s.m1 = 3
  | _ => false

/-- The wires a station produces. -/
def Stn.wires (s : Stn) (i : Nat) (d : Desc) (ws : List Wire) : List Wire :=
  match s.kind with
  | .out => []
  | .acc => []
  | .cpt =>
    { prod := i, snd := false, wide := wideAt ws s.a, comp := true } ::
      (if s.b = 0 then [] else [{ prod := i, snd := true, wide := wideAt ws s.b, comp := true }])
  | .inp => [{ prod := i, snd := false, wide := s.wideOut d, comp := false }]
  | .dec => [{ prod := i, snd := false, wide := false, comp := false }]
  | _ => [{ prod := i, snd := false, wide := s.wideOut d, comp := s.compacted ws }]

/-- The S register of a station: the descriptor it names. -/
def descOf (sregs : Vector Desc 8) (s : Stn) : Desc :=
  match fin? 8 s.sreg with
  | some i => sregs[i]
  | none => 0

/-- Numbers the wires in parcel order: for each station the wires that stand before it, then its own. -/
def wireTable (sregs : Vector Desc 8) : Nat → List Wire → List Stn → List (Stn × List Wire)
  | _, _, [] => []
  | i, ws, s :: t => (s, ws) :: wireTable sregs (i + 1) (ws ++ s.wires i (descOf sregs s) ws) t

/-- All wires of a chain word. -/
def allWires (sregs : Vector Desc 8) : Nat → List Wire → List Stn → List Wire
  | _, ws, [] => ws
  | i, ws, s :: t => allWires sregs (i + 1) (ws ++ s.wires i (descOf sregs s) ws) t

/-! ## Checks of one station (08 R170) -/

/-- BAD_WIRE of one operand, given the wires before it. -/
def Oper.bad (o : Oper) (ws : List Wire) : Bool :=
  if o.code = 0 then o.use = .needed
  else if o.use = .unused then false
  else if 1 ≤ o.code && o.code ≤ 17 then (wireAt ws o.code).isNone
  else match o.sp with
    | .pos => o.code ≠ 28
    | .imm => o.code ≠ 29
    | .immc => o.code ≠ 30
    | .none => true

/-- WIDTH of one operand.
Log entry 26 (DEDUCED). -/
def Oper.badWidth (o : Oper) (ws : List Wire) : Bool :=
  o.code ≠ 0 &&
    (match o.want with
    | .any => false
    | .narrow => wideAt ws o.code
    | .wide => !wideAt ws o.code)

/-- RESERVED. -/
def Stn.badReserved (s : Stn) (d : Desc) : Bool :=
  !s.rsvOk || s.exm = 3 || !s.modsOk d || (s.opers d).any fun o => o.use = .unused && o.code ≠ 0

/-- BAD_WIRE; `all` gives the stations, to find the producer of DEC's wire.
Log entry 26 (DEDUCED). -/
def Stn.badWire (s : Stn) (d : Desc) (ws : List Wire) (all : List Stn) (sregs : Vector Desc 8) : Bool :=
  (s.opers d).any (·.bad ws)
    || (match s.kind with
      | .dec =>
        match wireAt ws s.a with
        | none => true
        | some w =>
          match all[w.prod]? with
          | none => true
          | some q => q.kind ≠ .inp || !(dKind (descOf sregs q) = 3 || dKind (descOf sregs q) = 4)
      | .hsh => s.op = 1 && s.b = 0 && !wideAt ws s.a
      | .acc => !s.group && s.v1 && s.m1 = s.m2
      | _ => false)

/-- DOMAIN (04 R75). -/
def Stn.badDomain (s : Stn) (ws : List Wire) : Bool :=
  let cs := s.codes.filter fun c => (wireAt ws c).isSome
  match s.kind with
  | .cpt => cs.any (compAt ws)
  | .dec => cs.any (compAt ws)
  | _ => cs.any (compAt ws) && cs.any (!compAt ws ·)

/-- Reserved fields of a stream descriptor are 0 (05 R88). -/
def descFieldsOk (d : Desc) (out : Bool) : Bool :=
  let k := dKind d
  let strided := k = 1 || k = 2 || k = 5 || k = 6
  let sized := k = 0 || k = 1 || k = 5 || k = 6
  (sized || dEsize d = 0) && dEsize d ≤ 4
    && (!dSext d || (!out && (k = 0 || k = 1) && dEsize d ≤ 2))
    && (strided || dbits d 103 72 = 0)
    && (k = 3 || dbits d 109 104 = 0)
    && (if out then dOnull d ≤ 1 else dOnull d = 0)
    && (!out || dRaCap d = 0)
    && (if k = 6 then dAop d ≤ 2 else dAop d = 0)
    && (k = 2 || k = 4 || k = 5 || k = 6 || dAux d = 0)
    && (!out || dOnull d = 1 || dNullmap d = 0)

/-- A stream descriptor keeps 05 R91; `scan` says that an output is in the scan domain, `fields` the fields that input
stations select of a STRUCT. -/
def streamDescOk (d : Desc) (out scan levelK : Bool) (fields : List Nat) : Bool :=
  let k := dKind d
  let kindOk := if out then k = 0 || k = 1 || k = 5 || k = 6 else k ≤ 4
  let size := if k = 2 then sfLargest d else if k = 3 || k = 4 then 8 else dE d
  kindOk && descFieldsOk d out && dBase d % size = 0
    && (!(k = 1 || k = 2 || k = 5 || k = 6) || dStride d % (size : Int) = 0)
    && (k ≠ 2 || dStride d ≠ 0)
    && (!(k = 5 || k = 6) || (decide (0 < dStride d) && 1 ≤ dAux d))
    && (k ≠ 6 || dEsize d = 3)
    && (dOnull d ≠ 1 || (out && scan && (k = 0 || k = 1) && dNullmap d ≠ 0))
    && !(dPhys d && levelK)
    && (k ≠ 2 ||
      (sfPresent d 0 && sfPresent d 1 && (!sfPresent d 3 || sfPresent d 2)
        && (upto 4).all (fun f => !(4 ≤ sfSize d f && sfSize d f ≤ 6))
        && (sfPresents d).all (fun f => sfOff d f % 2 ^ sfSize d f = 0)
        && fields.all (fun f => sfPresent d f) && fields.eraseDups.length = fields.length))

/-- A decode descriptor keeps 05 R108.
Log entry 27 (DEDUCED). -/
def decDescOk (d : Desc) : Bool :=
  let fmt := dbits d 143 142
  dbits d 255 144 = 0 && (fmt ≠ 2 || dbits d 127 64 % 8 = 0)

/-- The stations that read a wire.
Log entry 27 (DEDUCED). -/
def consumersOf (sts : List Stn) (wire : Nat) : List Stn := sts.filter fun q => q.codes.contains wire

/-- DESCRIPTOR of one station.
Log entry 27 (DEDUCED). -/
def Stn.badDesc (s : Stn) (ws : List Wire) (sts : List Stn) (sregs : Vector Desc 8) (levelK : Bool) : Bool :=
  let d := descOf sregs s
  match s.kind with
  | .inp =>
    let fields := (sts.filter fun q => q.kind = .inp && q.sreg = s.sreg).map (·.m1)
    !streamDescOk d false true levelK (if dKind d = 2 then fields else [])
      || ((dKind d = 3 || dKind d = 4) &&
        match consumersOf sts (ws.length + 1) with
        | [q] => q.kind ≠ .dec || (if dKind d = 4 then dbits (descOf sregs q) 143 142 ≠ 3
                                   else dbits (descOf sregs q) 143 142 = 3)
        | _ => true)
  | .out => !streamDescOk d true (!s.compacted ws) levelK []
  | .dec => !decDescOk d
  | .acc =>
    s.group &&
      (dKind d ≠ 6 || !streamDescOk d true (!s.compacted ws) levelK []
        || dAop d ≠ (if s.op = 0x11 then 1 else 0) || (s.op = 0x13 && decide (dStride d < 16)))
  | _ => false

/-- TABLE of a PRB station (07 R148). -/
def Stn.badTable (s : Stn) (ws : List Wire) (sregs : Vector Desc 8) (levelK : Bool) : Bool :=
  if s.kind ≠ .prb then false
  else
    let d := descOf sregs s
    let key2 := s.c ≠ 0 || wideAt ws s.b
    let phys := d.getLsbD 222
    let elog := dbits d 218 213
    if s.op = 3 then
      dbits d 63 0 ≠ 0 || dbits d 167 128 ≠ 0 || dbits d 221 208 ≠ 0 || d.getLsbD 223 || dbits d 255 228 ≠ 0
        || dbits d 127 64 % 8 ≠ 0 || (phys && levelK)
    else
      d.getLsbD 223 || dbits d 255 236 ≠ 0
        || tPayw d = 3
        || dbits d 212 208 < 1 || 25 < dbits d 212 208 || 40 < elog
        || (s.op = 2 && !(dbits d 167 128 ≤ dbits d 207 168 && dbits d 207 168 ≤ 2 ^ elog))
        || dbits d 63 0 % 8 ≠ 0 || dbits d 127 64 % 64 ≠ 0 || (phys && levelK)
        || tKeyw d ≠ key2
        || (s.op = 2 && tPayw d = 2 && !wideAt ws s.p)
        || (s.op ≤ 1 && (match s.m1 with
            | 1 => tPayw d < 1
            | 2 => tPayw d < 2
            | 3 => tPayw d < 2
            | _ => false))

/-! ## The launch's own figures -/

/-- A parcel makes the chain non-restartable (08 R173). -/
def Stn.nonRestart (s : Stn) (sregs : Vector Desc 8) : Bool :=
  match s.kind with
  | .out => dKind (descOf sregs s) = 6
  | .acc => s.group
  | .prb => s.op = 2
  | _ => false

/-- Buffers a parcel reserves (04 R63); a STRUCT stream counts once, with its first station. -/
def Stn.reserve (s : Stn) (i : Nat) (sts : List Stn) (sregs : Vector Desc 8) (sl : Nat) : Nat :=
  let d := descOf sregs s
  match s.kind with
  | .inp =>
    if dKind d = 2 && ((sts.take i).any fun q => q.kind = .inp && q.sreg = s.sreg) then 0 else 16
  | .out =>
    match dKind d with
    | 6 => 16
    | 5 => max 16 ((sl * (dE d + 8) + 511) / 512)
    | _ => max 16 ((sl * dE d + 511) / 512)
  | .acc => if s.group then 16 else 0
  | _ => 0

/-- The launch's reservation. -/
def reservation (sts : List Stn) (sregs : Vector Desc 8) (sl : Nat) : Nat :=
  ((sts.zipIdx).map fun p => p.1.reserve p.2 sts sregs sl).foldl (· + ·) 0

/-- A failed check: CORE_LCHK's CODE, STN and PARCEL. -/
structure LaunchFail where
  code   : Nat
  stn    : Nat
  parcel : Nat
  deriving DecidableEq, Repr

/-- CORE_LCHK of a failure.
Log entry 25 (DEDUCED). -/
def LaunchFail.lchk (f : LaunchFail) : Half := BitVec.ofNat 32 (f.stn <<< 16 + f.parcel <<< 12 + f.code)

/-- The first station that fails a check.
Log entry 45 (DEDUCED). -/
def firstBad {α : Type} (code : Nat) (stnOf : α → Nat) (bad : α → Bool) : Nat → List α → Option LaunchFail
  | _, [] => none
  | i, a :: t =>
    if bad a then some { code := code, stn := stnOf a, parcel := i } else firstBad code stnOf bad (i + 1) t

/-- BAD_STATION: a reserved code, or one that stands before. -/
def badStation (ps : List StnParcel) : Nat → List Nat → List StnParcel → Option LaunchFail
  | _, _, [] => none
  | i, seen, p :: t =>
    let c := pbits p 0 14 10
    if (kindOf c).isNone || seen.contains c then some { code := 2, stn := c, parcel := i }
    else badStation ps (i + 1) (c :: seen) t

/-- The stations of station parcels whose codes are all good. -/
def stationsOf (ps : List StnParcel) : List Stn :=
  ps.filterMap fun p => (kindOf (pbits p 0 14 10)).map fun k => decodeStn k p

/-- Reserved bits of the launch options (04).
Log entry 45 (DEDUCED). -/
def optionsReserved (o : Word) : Bool := bits o.toNat 47 41 ≠ 0 || bits o.toNat 63 57 ≠ 0

/-- The checks of 08 R170, in their order: the first that fails. `ps`, `stop`: the station parcels read.
Log entries 25 (DEDUCED), 45 (DEDUCED). -/
def launchCheck (ps : List StnParcel) (stop : Bool) (opts : Word) (sregs : Vector Desc 8) (sl : Nat) (levelK : Bool)
    (markCfg : Half) : Option LaunchFail :=
  if !stop then some { code := 1, stn := 0, parcel := 0 }
  else
    let sts := stationsOf ps
    let rows := (wireTable sregs 0 [] sts).zipIdx
    let chk := fun (code : Nat) (bad : (Stn × List Wire) × Nat → Bool) =>
      firstBad code (fun (r : (Stn × List Wire) × Nat) => r.1.1.code) bad 0 rows
    let nonRestart := sts.any (·.nonRestart sregs)
    let n := bits opts.toNat 40 0
    (badStation ps 0 [] ps)
    <|> chk 3 (fun r => !r.1.1.lenOk (descOf sregs r.1.1))
    <|> (if optionsReserved opts then some { code := 4, stn := 0, parcel := 0 } else none)
    <|> chk 4 (fun r => r.1.1.badReserved (descOf sregs r.1.1))
    <|> chk 5 (fun r => r.1.1.badWire (descOf sregs r.1.1) r.1.2 sts sregs)
    <|> chk 6 (fun r => (r.1.1.opers (descOf sregs r.1.1)).any (·.badWidth r.1.2))
    <|> chk 7 (fun r => r.1.1.badDomain r.1.2)
    <|> chk 8 (fun r => r.1.1.badDesc r.1.2 sts sregs levelK)
    <|> chk 9 (fun r => r.1.1.badTable r.1.2 sregs levelK)
    <|> chk 10 (fun r => nonRestart && r.1.1.exm = 0)
    <|> chk 11 (fun r => r.1.1.exm = 2 && decide (32768 < bits markCfg.toNat 14 0 + bits markCfg.toNat 30 16))
    <|> (if 2 ^ 40 < n then some { code := 12, stn := 0, parcel := 0 } else none)
    <|> (if 1024 < reservation sts sregs sl then some { code := 13, stn := 0, parcel := 0 } else none)

/-- The stations of a captured launch. -/
def Launch.stations (l : Launch) : List Stn := stationsOf (splitStations 16 l.word).1
/-- The wires of a captured launch. -/
def Launch.wires (l : Launch) : List Wire := allWires l.sregs 0 [] l.stations
/-- The launch is non-restartable. -/
def Launch.nonRestart (l : Launch) : Bool := l.stations.any (·.nonRestart l.sregs)
/-- Strips of the launch (04 R65). -/
def Launch.strips (l : Launch) : Nat := (l.n + l.sl - 1) / l.sl

end Sys2Proof.Machine
end

