-- ==== Sys2Proof/Machine/Tlb.lean ====
section
/-! DEFINITION. Address translation in one core (12 R243 to R251): entries, lookups, checks, and the operations of
CORE_TLB_CMD on the core's own TLBs. -/

namespace Sys2Proof.Machine

/-- Page size code of a tag. -/
def psOf (tag : Word) : Nat := (tag.extractLsb' 8 2).toNat

/-- log2 of the page size of a code: 16, 21, 30 or 36. -/
def pageBits (ps : Nat) : Nat :=
  match ps with
  | 0 => 16
  | 1 => 21
  | 2 => 30
  | _ => 36

/-- What a TLB write of TAG and DATA leaves: an entry, or none where 12 R244 makes it invalid. -/
def tlbEntryOf (tag data : Word) : Option TlbEntry :=
  let b := pageBits (psOf tag)
  let low := fun (w : Word) => bits w.toNat (b - 1) 16 ≠ 0 && 16 < b
  if data.getLsbD 0 && data.getLsbD 1 && !data.getLsbD 2 && bits data.toNat 15 10 = 0
      && bits tag.toNat 15 10 = 0 && bits tag.toNat 7 0 = 0 && !low tag && !low data then
    some { tag := tag, data := data }
  else none

/-- The entry covers an address. -/
def TlbEntry.covers (e : TlbEntry) (v : Word) : Bool :=
  let b := pageBits (psOf e.tag)
  v.toNat >>> b = e.tag.toNat >>> b

/-- The entry is global (GLB). -/
def TlbEntry.glb (e : TlbEntry) : Bool := e.data.getLsbD 9

/-- The entry of the smallest page size. -/
def smallest : List TlbEntry → Option TlbEntry
  | [] => none
  | e :: t =>
    match smallest t with
    | none => some e
    | some x => if psOf e.tag ≤ psOf x.tag then some e else some x

/-- A first-level lookup: the lowest lock slot wins, then the smallest page (12 R246). -/
def lookupFirst {k : Nat} (lock : Vector (Option TlbEntry) 4) (fill : Vector (Option TlbEntry) k) (v : Word) :
    Option TlbEntry :=
  match (lock.toList.filterMap id).find? (·.covers v) with
  | some e => some e
  | none => smallest ((fill.toList.filterMap id).filter (·.covers v))

/-- The set of a page in the second-level TLB (12 R245). -/
def l2Set (ps : Nat) (v : Word) : Nat := (v.toNat >>> pageBits ps) % 512

/-- V of a way's data word. -/
def TlbEntry.valid (e : TlbEntry) : Bool := e.data.getLsbD 0

/-- The way's words with V cleared. -/
def TlbEntry.drop (e : TlbEntry) : TlbEntry := { e with data := e.data &&& ~~~(1 : Word) }

/-- A second-level lookup: the four sets of the address at once. -/
def Core.lookupL2 (c : Core) (v : Word) : Option TlbEntry :=
  smallest ((c.l2.filter fun p => p.2.valid && p.2.covers v && p.1 / 8 = l2Set (psOf p.2.tag) v).map (·.2))

/-- The entry after a fill entry, round robin (12 R245). -/
def after {k : Nat} (i : Fin k) : Fin k := ⟨(i.val + 1) % k, Nat.mod_lt _ (Nat.lt_of_le_of_lt (Nat.zero_le _) i.isLt)⟩

/-- A fill of the instruction TLB's next entry. -/
def Core.fillI (c : Core) (e : TlbEntry) : Core := { c with ifill := c.ifill.set c.inext (some e), inext := after c.inext }

/-- A fill of the data TLB's next entry. -/
def Core.fillD (c : Core) (e : TlbEntry) : Core := { c with dfill := c.dfill.set c.dnext (some e), dnext := after c.dnext }

/-- A first-level lookup of a port. -/
def Core.first (c : Core) (instr : Bool) (v : Word) : Option TlbEntry :=
  if instr then lookupFirst c.ilock c.ifill v else lookupFirst c.dlock c.dfill v

/-- A port's lookup: a first-level miss that hits in the second level copies the entry (12 R246). -/
def Core.lookup (c : Core) (instr : Bool) (v : Word) : Core × Option TlbEntry :=
  match c.first instr v with
  | some e => (c, some e)
  | none =>
    match c.lookupL2 v with
    | none => (c, none)
    | some e => (if instr then c.fillI e else c.fillD e, some e)

/-- The kinds of access that a page is checked for. -/
inductive AccKind where
  | read
  | write
  | atomic
  | fetch
  deriving DecidableEq, Repr

/-- The first check of 12 R247 that fails, as INFO of PROT: 4 level, 1 R, 2 W, 3 X.
Log entry 67 (DEDUCED). -/
def protFail (levelK : Bool) (k : AccKind) (data : Word) : Option Nat :=
  if levelK && !data.getLsbD 6 then some 4
  else match k with
    | .read => if data.getLsbD 3 then none else some 1
    | .write => if data.getLsbD 4 then none else some 2
    | .atomic => if !data.getLsbD 4 then some 2 else if !data.getLsbD 3 then some 1 else none
    | .fetch => if data.getLsbD 5 then none else some 3

/-- The translated address: OA over the page's offset bits (12 R243). -/
def TlbEntry.target (e : TlbEntry) (v : Word) : Word :=
  let b := pageBits (psOf e.tag)
  BitVec.ofNat 64 ((e.data.toNat >>> b) <<< b + v.toNat % 2 ^ b)

/-- Where an entry leads an address; a host address above bit 51 reaches nothing: none (12 R243). -/
def State.targetOf (s : State) (e : TlbEntry) (v : Word) : Option Phys :=
  let a := e.target v
  if e.data.getLsbD 8 then (if a.toNat < 2 ^ 52 then some (.host a) else none) else some (s.route a)

/-! ## CORE_TLB_CMD (12 R249) -/

/-- What a way holds after it is written: the words themselves, or with V cleared where 12 R244 makes it invalid. -/
def wayOf (tag data : Word) : TlbEntry := (tlbEntryOf tag data).getD (TlbEntry.drop { tag := tag, data := data })

/-- WRITE_L2 on the core: a valid entry with the same VPN and PS is replaced, else the chosen way is written. -/
def Core.writeL2 (c : Core) (way : Nat) (wsel : Bool) : Core :=
  let set := l2Set (psOf c.tlbTag) c.tlbTag
  let same := c.l2.find? fun p =>
    p.2.valid && decide (p.1 / 8 = set) && decide (psOf p.2.tag = psOf c.tlbTag)
      && decide (p.2.tag.toNat >>> 16 = c.tlbTag.toNat >>> 16)
  let idx := match same with
    | some p => p.1
    | none => set * 8 + (if wsel then way else c.victim.toNat)
  let kept := c.l2.filter fun p => p.1 ≠ idx
  let l2 := kept.takeWhile (fun p => decide (p.1 < idx)) ++ [(idx, wayOf c.tlbTag c.tlbData)]
    ++ kept.dropWhile (fun p => decide (p.1 < idx))
  { c with l2 := l2, hit := same.isSome, victim := if wsel then c.victim else c.victim + 1 }

/-- READ_L2: a way of the selected set is copied into TAG and DATA.
Log entry 75 (DEDUCED). -/
def Core.readL2 (c : Core) (way : Nat) : Core :=
  let e := (alookup (l2Set (psOf c.tlbTag) c.tlbTag * 8 + way) c.l2).getD { tag := 0, data := 0 }
  { c with tlbTag := e.tag, tlbData := e.data, hit := e.valid }

/-- An entry that an invalidation covers. -/
def Inval.hits (i : Inval) (e : TlbEntry) : Bool :=
  match i with
  | .va v => e.covers v
  | .user => !e.glb
  | .all => true

/-- The invalidation in the core's own TLBs; lock slots are kept. -/
def Core.invalidate (c : Core) (i : Inval) : Core :=
  { c with
    ifill := c.ifill.map (·.filter (!i.hits ·))
    dfill := c.dfill.map (·.filter (!i.hits ·))
    l2 := c.l2.map fun p => (p.1, if i.hits p.2 then p.2.drop else p.2) }

/-- A page of a strip map that an invalidation covers. -/
def Inval.hitsPage (i : Inval) (p : PageMap) : Bool := i.hits { tag := p.tag, data := p.data }

/-- An issued strip of the core's chain uses a page that the invalidation covers (12 R255).
Log entry 47 (DEDUCED). -/
def Chain.usesPage (c : Chain) (i : Inval) : Bool :=
  match c.run with
  | none => false
  | some r => r.strips.any fun t => t.map.any i.hitsPage

/-- The chain's own translations that are dropped at once: the map of the strip in Translate and PRB's footprint.  The
strip translates again. -/
def Chain.dropMaps (c : Chain) : Chain :=
  { c with run := c.run.map fun r => { r with
      trans := r.trans.map fun t => { t with map := [], done := false }
      prbMap := none } }

/-- INVAL_VA, INVAL_USER and INVAL_ALL on core `n`. -/
def State.tlbInval (s : State) (n : CoreId) (i : Inval) : State :=
  let s := s.modCore n (·.invalidate i)
  match chainOf n with
  | none => s
  | some c =>
    let s := s.modChain c Chain.dropMaps
    if s.chains[c].usesPage i then s.modCore n fun k => { k with invals := k.invals ++ [i] } else s

/-- CLEAR_LOCKS. -/
def Core.clearLocks (c : Core) : Core :=
  { c with ilock := Vector.replicate 4 none, dlock := Vector.replicate 4 none }

/-- WRITE_ILOCK. -/
def Core.writeIlock (c : Core) (slot : Fin 4) : Core :=
  { c with ilock := c.ilock.set slot (tlbEntryOf c.tlbTag c.tlbData) }

/-- WRITE_DLOCK. -/
def Core.writeDlock (c : Core) (slot : Fin 4) : Core :=
  { c with dlock := c.dlock.set slot (tlbEntryOf c.tlbTag c.tlbData) }

/-- CORE_TLB_STAT (12 R250): ON reads 1. -/
def Core.tlbStat (c : Core) : Word :=
  BitVec.ofNat 64 (c.wakes.toNat <<< 32 + 1 <<< 16 + c.victim.toNat <<< 5 + b2n c.hit <<< 4)

end Sys2Proof.Machine
end

