-- ==== Sys2Proof/Machine/Chain.lean ====
section
/-! DEFINITION. A chain as its sequencer and firmware see it: its registers (04, 05, 06, 08), its launches, its
reservation (04 R63, R64), its stop (04 R85) and the answers to an abort (08 R179 to R181). -/

namespace Sys2Proof.Machine

/-- Event source of a chain that stopped (11 R240). -/
def chainEvent (c : ChainId) : Nat := c.val

/-- The chain is idle (04 R82). -/
def Chain.idle (c : Chain) : Bool := c.run.isNone && c.queued.isNone && c.drains.isEmpty

/-- CST.STATE: 0 idle, 1 running, 2 stopping, 3 halted. -/
def Chain.stateCode (c : Chain) : Nat :=
  if c.exc then 3 else if c.stopReq then 2 else if c.idle then 0 else 1

/-- CST (04).  DRAINING shows 15 where more strips drain.
Log entry 105 (DESIGN CHOICE). -/
def Chain.cst (c : Chain) : Half :=
  let nr := match c.run with
    | some r => r.launch.nonRestart
    | none => false
  BitVec.ofNat 32 (b2n c.queued.isSome <<< 16 + (min c.drains.length 15) <<< 8 + b2n c.stopReq <<< 7
    + b2n c.exc <<< 6 + b2n nr <<< 5 + b2n c.lwait <<< 4 + c.stateCode)

/-- Effective strip length (04 R66). -/
def Chain.stripLen (c : Chain) : Nat := 2 ^ (12 + c.gang.toNat)

/-- SL. -/
def Chain.slReg (c : Chain) : Half := BitVec.ofNat 32 (0xC <<< 28 + c.gang.toNat <<< 24 + c.stripLen)

/-! ## Buffers (04 R63, R64; 05 R106, R107) -/

/-- Reserved buffers of stream `i`. -/
def Chain.reservedOf (c : Chain) (i : Fin 6) : Nat := (c.resv.map fun r => r.per[i]).foldl (· + ·) 0

/-- Changes the buffers held by stream `i` and its peak. -/
def Chain.setHeld (c : Chain) (i : Fin 6) (n : Nat) : Chain :=
  { c with held := c.held.set i n, peak := c.peak.set i (max n c.peak[i]) }

/-- The six streams. -/
def streams6 : List (Fin 6) := [0, 1, 2, 3, 4, 5]

/-- Buffers of each stream that a launch reserves (04 R63). -/
def Launch.perStream (l : Launch) : Vector Nat 6 :=
  let sts := l.stations
  (sts.zipIdx).foldl (fun v p =>
    if p.1.kind = .inp || p.1.kind = .out then
      match fin? 6 p.1.code with
      | some i => v.set i (p.1.reserve p.2 sts l.sregs l.sl)
      | none => v
    else v) (Vector.replicate 6 0)

/-- The pool takes back `n` unreserved buffers. -/
def State.poolReturn (s : State) (k : ClusterId) (n : Nat) : State := s.modPool k fun p => { p with free := p.free + n }

/-- Gives a launch its whole reservation.
Log entry 50 (DEDUCED). -/
def State.grant (s : State) (c : ChainId) (l : Launch) (need : Nat) : State :=
  let per := l.perStream
  let s := s.modPool (clusterOf c) fun p => { p with free := p.free - need, reserved := p.reserved + need }
  s.modChain c fun h =>
    let h := { h with
      lwait := false
      resv := h.resv ++ [{ serial := l.serial, total := need, per := per }]
      run := h.run.map fun r => { r with granted := true } }
    streams6.foldl (fun h i => h.setHeld i (h.held[i] + per[i])) h

/-- Returns reservations whose launch has ended and whose drains are accepted, to the pool. -/
def State.dropResv (s : State) (c : ChainId) : State :=
  let h := s.chains[c]
  let live := fun (r : Resv) =>
    (match h.run with
    | some x => x.launch.serial == r.serial
    | none => false) || h.drains.any (·.serial == r.serial)
  let gone := h.resv.filter (!live ·)
  gone.foldl (fun s r =>
    let s := s.modPool (clusterOf c) fun p => { p with free := p.free + r.total, reserved := p.reserved - r.total }
    s.modChain c fun h => streams6.foldl (fun h i => h.setHeld i (h.held[i] - r.per[i]))
      { h with resv := h.resv.filter (·.serial ≠ r.serial) }) s

/-- The lines of a stream that a strip has or is fetching. -/
def Strip.linesHeld (t : Strip) (stream : Nat) : List Nat :=
  ((t.lines.filter (·.stream = stream)).map (·.va.toNat)) ++ (t.asked.filter (·.1 = stream)).map (·.2)

/-- Blocks of lines that a strip holds of a stream. -/
def Strip.blocks (t : Strip) (stream : Nat) : Nat := ((t.linesHeld stream).map (· / 512)).eraseDups.length

/-- Bytes of held and draining output of stream `i`. -/
def Chain.outBytes (c : Chain) (i : Nat) : Nat :=
  let held := match c.run with
    | none => 0
    | some r => (r.strips.map fun t =>
        ((t.held.filter (·.stream = i)).map (·.room)).foldl (· + ·) 0).foldl (· + ·) 0
  let drain := (c.drains.map fun d =>
    ((d.writes.filter (·.stream = i)).map (·.room)).foldl (· + ·) 0).foldl (· + ·) 0
  held + drain

/-- Buffers of stream `i` in use: lines of an input that are being fetched or not yet consumed, those of one aligned 512 B block of
one strip in one buffer; held and draining output.
Log entry 79 (DESIGN CHOICE). -/
def Chain.inUse (c : Chain) (i : Fin 6) : Nat :=
  if i.val < 4 then
    match c.run with
    | none => 0
    | some r =>
      (r.strips.map (·.blocks i.val)).foldl (· + ·) 0
  else (c.outBytes i.val + 511) / 512

/-- Returns to the pool what a stream holds beyond its reservation and does not use: strips were discarded (05 R107). -/
def State.trimStream (s : State) (c : ChainId) (i : Fin 6) : State :=
  let h := s.chains[c]
  let keep := max (h.reservedOf i) (h.inUse i)
  if keep < h.held[i] then
    (s.poolReturn (clusterOf c) (h.held[i] - keep)).modChain c (·.setHeld i keep)
  else s

/-- Buffers of an input stream that the strips after the oldest one use. -/
def Chain.laterUse (c : Chain) (i : Fin 6) : Nat :=
  match c.run with
  | none => 0
  | some r => if i.val < 4 then ((r.strips.drop 1).map (·.blocks i.val)).foldl (· + ·) 0 else 0

/-- Buffers of stream `i` that came free since state `s0` go back to the pool beyond the reservation, which stays whole for the
oldest strip (05 R106). -/
def State.trimFreed (s0 s : State) (c : ChainId) (i : Fin 6) : State :=
  let h := s.chains[c]
  let keep := max (max (h.reservedOf i + h.laterUse i) (h.inUse i)) (h.held[i] - (s0.chains[c].inUse i - h.inUse i))
  if keep < h.held[i] then
    (s.poolReturn (clusterOf c) (h.held[i] - keep)).modChain c (·.setHeld i keep)
  else s

/-- The same for all six streams. -/
def State.freedSince (s0 s : State) (c : ChainId) : State := streams6.foldl (fun s i => s0.trimFreed s c i) s

/-- The same for all six streams. -/
def State.trim (s : State) (c : ChainId) : State := streams6.foldl (fun s i => s.trimStream c i) s

/-! ## Launches -/

/-- Every launch up to the serial `n` has ended (04 R83). -/
def Chain.hasEnded (c : Chain) (n : Nat) : Bool :=
  (match c.run with
  | some r => n < r.launch.serial
  | none => true) &&
  (match c.queued with
  | some l => n < l.serial
  | none => true)

/-- Loads of CAn whose earlier launches have ended take effect (04 R80). -/
def Chain.applyCaLoads (c : Chain) : Chain :=
  let due := c.caLoads.filter fun p => c.hasEnded p.1
  due.foldl (fun c p => { c with ca := c.ca.set p.2.1 p.2.2 })
    { c with caLoads := c.caLoads.filter fun p => !c.hasEnded p.1 }

/-- The running launch ends (04 R62): its input data are dropped, later loads of CAn take effect, and its buffers go
back once its drains are accepted. -/
def State.endLaunch (s : State) (c : ChainId) : State :=
  let k := clusterOf c
  let s := s.modPool k fun p => { p with waiting := p.waiting.filter (· ≠ c) }
  let s := s.modChain c fun h =>
    Chain.applyCaLoads { h with run := none, lwait := false }
  (s.dropResv c).trim c

/-- A queued launch is discarded: it never begins (04 R62, R85). -/
def State.dropQueued (s : State) (c : ChainId) : State :=
  s.modChain c fun h => Chain.applyCaLoads { h with queued := none }

/-- The accumulators that a launch clears as it begins. -/
def Chain.caClear (c : Chain) (mask : BitVec 8) : Chain :=
  ([0, 1, 2, 3, 4, 5, 6, 7] : List (Fin 8)).foldl (fun (c : Chain) (i : Fin 8) =>
    if mask.getLsbD i then
      { c with ca := c.ca.set i 0, cas := c.cas &&& ~~~((0xF : Half) <<< (4 * i.val)) }
    else c) c

/-- A run at its start. -/
def Run.start (l : Launch) (need : Nat) : Run :=
  { launch := l, need := need, granted := false, nextK := 0, trans := none, strips := [], dict := [], again := none,
    prbMap := none, inserted := 0 }

/-- A queued launch begins (04 R61 to R64, R78; 08 R183): one whose reservation does not fit, or that finds launches of its cluster
waiting, waits behind them; one of no elements takes no reservation.
Log entry 50 (DEDUCED). -/
def State.launchBegin (s : State) (c : ChainId) : State :=
  let h := s.chains[c]
  match h.run, h.queued with
  | none, some l =>
    if h.stopReq || h.exc || h.excHeld || h.cause.isSome then s
    else
      let need := reservation l.stations l.sregs l.sl
      let s := s.modChain c fun h =>
        let h := h.caClear l.caClear
        { h with queued := none, run := some (Run.start l need), opa := 0, opb := 0, markCnt := 0, peak := h.held }
      if l.n = 0 then s.endLaunch c
      else if s.pools[clusterOf c].waiting.isEmpty && need ≤ s.pools[clusterOf c].free then s.grant c l need
      else
        (s.modPool (clusterOf c) fun p => { p with waiting := p.waiting ++ [c] }).modChain c fun h =>
          { h with lwait := true }
  | _, _ => s

/-- The oldest waiting launch of a cluster gets its whole reservation, if it is free (04 R64).
Log entry 50 (DEDUCED). -/
def State.reservationGrant (s : State) (k : ClusterId) : State :=
  match s.pools[k].waiting with
  | [] => s
  | c :: rest =>
    match s.chains[c].run with
    | none => s.modPool k fun p => { p with waiting := rest }
    | some r =>
      if r.need ≤ s.pools[k].free then
        (s.modPool k fun p => { p with waiting := rest }).grant c r.launch r.need
      else s

/-! ## Stopping (04 R85) -/

/-- A stop request that finds none in progress: the queued launch is discarded, and every strip but the `keep` oldest issued
ones; a restarted strip stands for the oldest issued one (08 R181).  With no such strip the launch ends.
Log entry 49 (DEDUCED). -/
def State.beginStop (s : State) (c : ChainId) (keep : Nat) : State :=
  let s := (s.dropQueued c).modChain c fun h =>
    { h with
      stopReq := true
      run := h.run.map fun r => { r with
        trans := if r.strips.isEmpty then r.trans.filter (·.restarted) else none
        strips := r.strips.take keep } }
  match s.chains[c].run with
  | none => s.modChain c fun h => { h with cause := none }
  | some r =>
    if r.trans.isSome then s
    else
      let s := s.modChain c fun h => { h with cause := none }
      if r.strips.isEmpty then s.endLaunch c else s.trim c

/-- ABANDON (08 R180): a stop with no strip to finish.
Log entry 48 (DEDUCED). -/
def State.abandon (s : State) (c : ChainId) : State :=
  let s := (s.dropQueued c).modChain c fun h => { h with exc := false, stopReq := true, cause := none }
  s.endLaunch c

/-- A stop request from the sequencer or from firmware; a halted chain takes ABANDON (08 R181), and a request during a
stop joins it. -/
def State.requestStop (s : State) (c : ChainId) : State :=
  let h := s.chains[c]
  if h.exc then s.abandon c
  else if h.stopReq then s
  else s.beginStop c 1

/-- CORE_TLB_SCTL ABANDON: the strip that waits in Translate never issues, and the issued ones run to their end (12 R255). -/
def State.abandonTranslate (s : State) (c : ChainId) : State :=
  let s := s.modChain c fun h => { h with cause := none, run := h.run.map fun r => { r with trans := none } }
  if s.chains[c].stopReq then
    match s.chains[c].run with
    | some r => if r.strips.isEmpty then s.endLaunch c else s
    | none => s
  else s.beginStop c 2

/-- After a stop every drain is accepted: the chain goes idle and raises its chain-stopped event.
Log entry 49 (DEDUCED). -/
def State.chainStopped (s : State) (c : ChainId) : State :=
  let h := s.chains[c]
  if h.stopReq && h.run.isNone && h.drains.isEmpty then
    (s.modChain c fun h => { h with stopReq := false }).raise (chainEvent c)
  else s

/-- An access failure (05 R99, 08 R177): strip `i` and every younger one are discarded and not restarted, and the chain
stops.
Log entries 36 (DEDUCED), 49 (DEDUCED). -/
def State.accessFailure (s : State) (c : ChainId) (i : Nat) : State :=
  let h := s.chains[c]
  match h.run with
  | none => s
  | some r =>
    if i < r.strips.length then
      let s := s.modChain c fun h => { h with
        failed := true
        run := h.run.map fun r => { r with trans := none, strips := r.strips.take i } }
      if s.chains[c].stopReq then
        (if i = 0 then s.endLaunch c else s.trim c)
      else s.beginStop c 1
    else s

/-- Launch positions of strip `k`: first and one past the last (04 R65). -/
def Launch.span (l : Launch) (k : Nat) : Nat × Nat := (k * l.sl, min ((k + 1) * l.sl) l.n)

/-- Active positions of strip `k`. -/
def Launch.sizeOf (l : Launch) (k : Nat) : Nat := (l.span k).2 - (l.span k).1

/-! ## Answers to an abort (08 R179, R180) -/

/-- RESTART and REPLAY: the aborted strip enters Translate again.  Its index is `nextK`.
Log entry 48 (DEDUCED). -/
def State.restart (s : State) (c : ChainId) (replay flushOnce : Bool) : State :=
  let h := s.chains[c]
  if !h.exc then s
  else s.modChain c fun h => { h with
    exc := false
    run := h.run.map fun r => { r with
      trans := some { k := r.nextK, map := [], done := false, waiting := false, replay := replay, flushOnce := flushOnce,
                      restarted := true, opa := h.opa.toNat, opb := h.opb.toNat, act := r.launch.sizeOf r.nextK, dir := [] }
      nextK := r.nextK + 1 } }

/-- A write of CORE_EXCTL.
Log entry 48 (DEDUCED). -/
def State.exctl (s : State) (c : ChainId) (v : Half) : State :=
  if !s.chains[c].exc then s
  else match (v.extractLsb' 0 2).toNat with
    | 1 => s.restart c false (v.getLsbD 8)
    | 2 => s.restart c true (v.getLsbD 8)
    | 3 => s.abandon c
    | _ => s

/-- CLR_MSC (04 R73, 06 R119). -/
def State.clrMsc (s : State) (c : ChainId) : State :=
  if s.chains[c].stateCode = 0 then s.modChain c fun h => { h with msc := 0, numf := 0, replays := 0 } else s

/-- A write of CORE_CHAIN_CTL: CLR_MSC, judged by CST.STATE as the write finds it, STOP and FLUSH_Q.
Log entry 28 (DEDUCED). -/
def State.chainCtl (s : State) (c : ChainId) (v : Half) : State :=
  let s := if v.getLsbD 2 then s.clrMsc c else s
  let s := if v.getLsbD 0 then s.requestStop c else s
  if v.getLsbD 1 then s.dropQueued c else s

/-! ## The chain window (04, 05, 06, 08) -/

/-- The accumulator and half that an offset of the chain window names. -/
def caOf (off : Nat) : Option (Fin 8 × Bool) :=
  if 0x100 ≤ off && off < 0x180 && off % 8 = 0 then
    (fin? 8 ((off - 0x100) / 16)).map fun i => (i, off % 16 = 8)
  else none

/-- The width in bytes of the register at an offset of the chain window; none if the offset starts no register. -/
def chainRegWidth (off : Nat) : Option Nat :=
  match off with
  | 0x000 => some 4
  | 0x004 => some 4
  | 0x008 => some 8
  | 0x010 => some 4
  | 0x014 => some 4
  | 0x018 => some 8
  | 0x020 => some 8
  | 0x028 => some 4
  | 0x030 => some 8
  | 0x038 => some 8
  | 0x040 => some 8
  | 0x048 => some 8
  | 0x050 => some 4
  | 0x058 => some 4
  | 0x05C => some 4
  | 0x200 => some 4
  | 0x204 => some 4
  | 0x208 => some 4
  | 0x20C => some 4
  | 0x210 => some 4
  | 0x214 => some 4
  | 0x218 => some 4
  | 0x21C => some 4
  | _ => if (caOf off).isSome then some 8 else none

/-- Reads a register of the chain window. -/
def Chain.read (c : Chain) (off : Nat) : Word :=
  match off with
  | 0x000 => c.slReg.setWidth 64
  | 0x004 => c.cst.setWidth 64
  | 0x008 => c.msc.setWidth 64
  | 0x010 => c.cas.setWidth 64
  | 0x014 => if c.stopReq then 1 else 0
  | 0x018 => c.opa.setWidth 64
  | 0x020 => c.opb.setWidth 64
  | 0x028 => c.lchk.setWidth 64
  | 0x030 => c.exs
  | 0x038 => c.expos
  | 0x040 => c.exval0
  | 0x048 => c.exval1
  | 0x058 => c.markCfg.setWidth 64
  | 0x05C => c.markCnt.setWidth 64
  | 0x218 => c.numf.setWidth 64
  | 0x21C => c.replays.setWidth 64
  | _ =>
    match caOf off with
    | some (i, hi) => if hi then c.ca[i].extractLsb' 64 64 else c.ca[i].extractLsb' 0 64
    | none =>
      if 0x200 ≤ off && off < 0x218 && off % 4 = 0 then
        match fin? 6 ((off - 0x200) / 4) with
        | some i => BitVec.ofNat 64 (c.peak[i] <<< 16 + c.held[i])
        | none => 0
      else 0

/-- CORE_NUMF's W1C bits. -/
def numfMask : Half := 0x0001333F

/-- Writes a register of the chain window; fields of type RO keep their values. -/
def State.chainWrite (s : State) (c : ChainId) (off : Nat) (v : Word) : State :=
  let h : Half := v.setWidth 32
  match off with
  | 0x000 => s.modChain c fun k => { k with gang := h.extractLsb' 24 2 }
  | 0x014 => s.chainCtl c h
  | 0x050 => s.exctl c h
  | 0x058 => s.modChain c fun k => { k with markCfg := h &&& 0x7FFF7FFF }
  | 0x218 => s.modChain c fun k => { k with numf := k.numf &&& ~~~(h &&& numfMask) }
  | _ => s

/-- A register of the chain window whose fields are not all RO (10 R227). -/
def chainWritable (off : Nat) : Bool := [0x000, 0x014, 0x050, 0x058, 0x218].contains off

/-- The registers that level K may write (10 R227). -/
def chainWritableK (off : Nat) : Bool := [0x000, 0x050, 0x058, 0x218].contains off

end Sys2Proof.Machine
end

