-- ==== Sys2Proof/Machine/Operands.lean ====
section
/-! DEFINITION. The forms of a sequencer instruction (10 R205, R206): which fields each operation uses and what they must
hold (R210 order 3), which registers it reads and writes (R210 order 4, 09 R192), and its effective address (R212). -/

namespace Sys2Proof

/-- CRO of rdch and wrch: parcel bits 10:1. -/
def Fields.cro (f : Fields) : Nat := f.ra.toNat * 32 + f.rb.toNat

/-- MOD.POST. -/
def Fields.post (f : Fields) : Bool := f.md.getLsbD 3

/-- A two-parcel or longer encoding (LEN code 1 or 2). -/
def Fields.long (f : Fields) : Bool := f.len ≠ 0

/-- The four-parcel encoding. -/
def Fields.hasImm (f : Fields) : Bool := f.len = 2

/-- Parcels of an instruction. -/
def Fields.parcels (f : Fields) : Nat :=
  match f.len.toNat with
  | 0 => 1
  | 1 => 2
  | _ => 4

/-- IMM, sign-extended. -/
def Fields.simm (f : Fields) : Word := f.imm.signExtend 64

/-- Bytes of ld.d and st.d. -/
def Fields.size (f : Fields) : Nat := 2 ^ (f.md.extractLsb' 0 2).toNat

end Sys2Proof

namespace Sys2Proof.Machine

/-- What a register field holds. -/
inductive FieldUse where
  /-- Reserved: 0. -/
  | zero
  | a
  | d
  | x
  | s
  /-- The operand written "b": a register at two parcels, 0 at four. -/
  | bA
  | bD
  /-- An accumulator number 0 to 7. -/
  | n
  /-- Any value: a part of CRO (R227). -/
  | any
  deriving DecidableEq, Repr

/-- The form of an operation. -/
structure Form where
  /-- LEN codes that it accepts. -/
  lens : List Nat
  rd   : FieldUse
  ra   : FieldUse
  rb   : FieldUse
  /-- MOD bits that may be set. -/
  md   : Nat
  deriving DecidableEq, Repr

/-- The D-unit operations that take two operands. -/
def dTwo : List Nat := [0x00, 0x01, 0x08, 0x09, 0x0A, 0x0B, 0x10, 0x11, 0x12, 0x13, 0x18, 0x19, 0x1A, 0x1B, 0x20, 0x21,
  0x28, 0x29, 0x2A, 0x34, 0x35, 0x36]
/-- The D-unit operations that take one operand. -/
def dOne : List Nat := [0x04, 0x06, 0x14, 0x24, 0x25, 0x26, 0x27, 0x33]

/-- The forms of the A unit (R212). -/
def formA (op : Nat) : Option Form :=
  let f := fun lens rd ra rb md => some ({ lens := lens, rd := rd, ra := ra, rb := rb, md := md } : Form)
  match op with
  | 0x01 => f [1, 2] .a .a .bA 0
  | 0x02 => f [1, 2] .a .a .bA 0
  | 0x03 => f [1, 2] .a .a .bA 0
  | 0x05 => f [1] .a .d .zero 0
  | 0x06 => f [2] .a .zero .zero 0
  | 0x10 => f [1, 2] .d .a .zero 0xF
  | 0x11 => f [1, 2] .a .a .zero 8
  | 0x12 => f [1, 2] .x .a .zero 8
  | 0x13 => f [1, 2] .s .a .zero 8
  | 0x18 => f [1, 2] .d .a .zero 0xB
  | 0x19 => f [1, 2] .a .a .zero 8
  | 0x1A => f [1, 2] .x .a .zero 8
  | 0x20 => f [1, 2] .zero .a .zero 8
  | 0x21 => f [1, 2] .zero .a .zero 8
  | 0x22 => f [0] .zero .zero .zero 0
  | 0x23 => f [0] .zero .zero .zero 0
  | 0x28 => f [1, 2] .d .a .d 0
  | 0x29 => f [1, 2] .d .a .d 0
  | _ => none

/-- The forms of the D unit (R216, R217). -/
def formD (op : Nat) : Option Form :=
  let f := fun lens rd ra rb md => some ({ lens := lens, rd := rd, ra := ra, rb := rb, md := md } : Form)
  if dTwo.contains op then f [1, 2] .d .d .bD 0
  else if dOne.contains op then f [1] .d .d .zero 0
  else if 0x2C ≤ op && op ≤ 0x2F then f [1, 2] .d .d .bD 1
  else if op = 0x38 || op = 0x39 then f [2] .d .zero .zero 0
  else if op = 0x3A then f [1] .d .a .zero 0
  else none

/-- The forms of the X unit (R218, R219). -/
def formX (op : Nat) : Option Form :=
  let f := fun lens rd ra rb md => some ({ lens := lens, rd := rd, ra := ra, rb := rb, md := md } : Form)
  match op with
  | 0x00 => f [1, 2] .x .a .a 3
  | 0x01 => f [1, 2] .x .a .a 2
  | 0x02 => f [1] .x .x .x 0
  | 0x03 => f [1] .x .x .x 0
  | 0x04 => f [1] .x .d .zero 1
  | 0x05 => f [1] .x .d .d 0
  | 0x06 => f [1] .d .x .zero 0
  | 0x07 => f [1] .d .x .zero 0
  | 0x08 => f [1] .x .zero .zero 0
  | 0x09 => f [1] .x .x .zero 0
  | _ => none

/-- The forms of the B unit (R220). -/
def formB (op : Nat) : Option Form :=
  let f := fun lens rd ra rb md => some ({ lens := lens, rd := rd, ra := ra, rb := rb, md := md } : Form)
  match op with
  | 0x00 => f [0] .zero .zero .zero 0
  | 0x01 => f [2] .zero .zero .zero 0
  | 0x02 => f [2] .zero .d .d 0xF
  | 0x03 => f [2] .d .zero .zero 0
  | 0x04 => f [2] .a .zero .zero 0
  | 0x05 => f [1] .zero .a .zero 0
  | 0x06 => f [1] .a .a .zero 0
  | 0x08 => f [0] .zero .zero .zero 0xF
  | 0x09 => f [0] .zero .zero .zero 0
  | 0x0A => f [0] .zero .zero .zero 0
  | 0x0B => f [1] .d .zero .zero 7
  | 0x0C => f [1] .zero .d .zero 7
  | _ => none

/-- The forms of the V unit (R225, R227). -/
def formV (op : Nat) : Option Form :=
  let f := fun lens rd ra rb md => some ({ lens := lens, rd := rd, ra := ra, rb := rb, md := md } : Form)
  match op with
  | 0x00 => f [1] .zero .a .d 0
  | 0x01 => f [0] .zero .zero .zero 0
  | 0x02 => f [0] .zero .zero .zero 0
  | 0x04 => f [1] .d .any .any 0
  | 0x05 => f [1] .d .any .any 0
  | 0x08 => f [1] .n .x .zero 0
  | 0x09 => f [1] .x .n .zero 0
  | 0x10 => f [1] .s .d .zero 3
  | 0x11 => f [1] .s .a .zero 3
  | 0x12 => f [1] .d .s .zero 3
  | 0x13 => f [1] .s .s .zero 0
  | 0x14 => f [1] .s .zero .zero 0
  | _ => none

/-- The form of a slot's operation; none where the OP value is reserved. -/
def SlotI.form (i : SlotI) : Option Form :=
  match i.unit.toNat with
  | 0 => formA i.op.toNat
  | 1 => formD i.op.toNat
  | 2 => formX i.op.toNat
  | 3 => formB i.op.toNat
  | 4 => formV i.op.toNat
  | _ => none

/-- A field holds what its use admits. -/
def FieldUse.ok (u : FieldUse) (len : Nat) (v : Nat) : Bool :=
  match u with
  | .zero => v = 0
  | .a => v < 16
  | .d => true
  | .x => v < 8
  | .s => v < 8
  | .bA => if len = 1 then decide (v < 16) else decide (v = 0)
  | .bD => if len = 1 then true else decide (v = 0)
  | .n => v < 8
  | .any => true

/-- The checks of R210 order 3 on one instruction. -/
def SlotI.wellFormed (i : SlotI) : Bool :=
  let f := i.f
  match i.form with
  | none => false
  | some m =>
    let len := f.len.toNat
    m.lens.contains len
      && (f.md.toNat &&& m.md) = f.md.toNat
      && (!f.long || (!f.rsv && m.rd.ok len f.rd.toNat && m.ra.ok len f.ra.toNat && m.rb.ok len f.rb.toNat))
      && (match i.unit.toNat, i.op.toNat with
        | 0, 0x11 => !(f.post && f.rd = f.ra)
        | 3, 0x02 => (f.md.extractLsb' 0 3).toNat ≤ 5 && (!f.md.getLsbD 3 || f.rb = 0)
        | 4, 0x04 => (chainRegWidth (4 * f.cro)).isSome
        | 4, 0x05 => (chainRegWidth (4 * f.cro)).isSome
        | _, _ => true)

/-! ## Registers read and written -/

/-- The register of a class that a field names. -/
def regA (v : BitVec 5) : RegRef := .a ⟨v.toNat % 16, by omega⟩
def regD (v : BitVec 5) : RegRef := .d ⟨v.toNat % 32, by omega⟩
def regX (v : BitVec 5) : RegRef := .x ⟨v.toNat % 8, by omega⟩
def regS (v : BitVec 5) : RegRef := .s ⟨v.toNat % 8, by omega⟩

/-- The register that a field names under its use. -/
def FieldUse.reg (u : FieldUse) (len : Nat) (v : BitVec 5) : List RegRef :=
  match u with
  | .a => [regA v]
  | .d => [regD v]
  | .x => [regX v]
  | .s => [regS v]
  | .bA => if len = 1 then [regA v] else []
  | .bD => if len = 1 then [regD v] else []
  | _ => []

/-- The operation names its destination in RD. -/
def SlotI.rdWritten (i : SlotI) : Bool :=
  match i.unit.toNat, i.op.toNat with
  | 0, op => !(op = 0x18 || op = 0x19 || op = 0x1A)
  | 4, 0x05 => false
  | 4, 0x08 => false
  | _, _ => true

/-- The operation also reads what RD names. -/
def SlotI.rdRead (i : SlotI) : Bool :=
  match i.unit.toNat, i.op.toNat with
  | 0, op => op = 0x06 || op = 0x18 || op = 0x19 || op = 0x1A
  | 1, op => op = 0x39
  | 2, op => op = 0x00 || op = 0x01
  | 3, op => op = 0x03
  | 4, op => op = 0x05 || op = 0x10 || op = 0x11
  | _, _ => false

/-- The A registers that a post-modifying access updates. -/
def SlotI.postWrites (i : SlotI) : List RegRef :=
  match i.unit.toNat, i.op.toNat with
  | 0, op => if 0x10 ≤ op && op ≤ 0x21 && i.f.post then [regA i.f.ra] else []
  | 2, op => if (op = 0x00 || op = 0x01) && i.f.md.getLsbD 1 then [regA i.f.ra, regA i.f.rb] else []
  | _, _ => []

/-- The registers that an instruction writes; eret counts as a write of A15 (R223). -/
def SlotI.writes (i : SlotI) : List RegRef :=
  match i.form with
  | none => []
  | some m =>
    (if i.f.long && i.rdWritten then m.rd.reg i.f.len.toNat i.f.rd else []) ++ i.postWrites
      ++ (if i.unit = 3 && i.op = 0x09 then [.a 15] else [])

/-- The registers that an instruction reads. -/
def SlotI.reads (i : SlotI) : List RegRef :=
  match i.form with
  | none => []
  | some m =>
    let len := i.f.len.toNat
    (if i.f.long then
      (if i.rdRead then m.rd.reg len i.f.rd else []) ++ m.ra.reg len i.f.ra
        ++ (if i.unit = 3 && i.op = 0x02 && i.f.md.getLsbD 3 then [] else m.rb.reg len i.f.rb)
    else [])
      ++ (if i.unit = 3 && i.op = 0x09 then [.a 15] else [])

/-- Two instructions of a bundle write the same register (R210 order 4). -/
def writesClash : List SlotI → Bool
  | [] => false
  | i :: t => (t.any fun j => i.writes.any j.writes.contains) || writesClash t

/-- "F only", or a wrch at level K that R227 does not allow (R210 order 6). -/
def SlotI.privileged (i : SlotI) : Bool :=
  match i.unit.toNat, i.op.toNat with
  | 3, 0x09 => true
  | 3, 0x0A => true
  | 3, 0x0C => true
  | 4, 0x05 => !chainWritableK (4 * i.f.cro)
  | _, _ => false

/-! ## Register values -/

/-- A register's value, widened to 256 bits. -/
def Core.reg (c : Core) (t : ThreadId) : RegRef → Desc
  | .a i => c.threads[t].a[i].setWidth 256
  | .d i => c.threads[t].d[i].setWidth 256
  | .x i => c.x[i].setWidth 256
  | .s i => c.s[i]
  | .frame i => match c.threads[t].frame[i] with
    | .got v => v.setWidth 256
    | _ => 0

/-- Writes a register. -/
def Core.setReg (c : Core) (t : ThreadId) (r : RegRef) (v : Desc) : Core :=
  match r with
  | .a i => c.modThread t fun h => { h with a := h.a.set i (v.setWidth 64) }
  | .d i => c.modThread t fun h => { h with d := h.d.set i (v.setWidth 64) }
  | .x i => { c with x := c.x.set i (v.setWidth 128) }
  | .s i => { c with s := c.s.set i v }
  | .frame i => c.modThread t fun h => { h with frame := h.frame.set i (.got (v.setWidth 64)) }

/-- The A register of a field. -/
def Thread.rA (h : Thread) (v : BitVec 5) : Word := h.a[(⟨v.toNat % 16, by omega⟩ : Fin 16)]
/-- The D register of a field. -/
def Thread.rD (h : Thread) (v : BitVec 5) : Word := h.d[(⟨v.toNat % 32, by omega⟩ : Fin 32)]
/-- The X register of a field. -/
def Core.rX (c : Core) (v : BitVec 5) : Wide := c.x[(⟨v.toNat % 8, by omega⟩ : Fin 8)]
/-- The S register of a field. -/
def Core.rS (c : Core) (v : BitVec 5) : Desc := c.s[(⟨v.toNat % 8, by omega⟩ : Fin 8)]

/-- The operand "b" of the A unit. -/
def Thread.bA (h : Thread) (f : Fields) : Word := if f.hasImm then f.simm else h.rA f.rb
/-- The operand "b" of the D unit. -/
def Thread.bD (h : Thread) (f : Fields) : Word := if f.hasImm then f.simm else h.rD f.rb

/-- The effective address of a load, store or atomic (R212). -/
def Thread.ea (h : Thread) (f : Fields) : Word :=
  if f.hasImm && !f.post then h.rA f.ra + f.simm else h.rA f.ra

/-- The base register after a post-modifying access of `size` bytes. -/
def Thread.posted (h : Thread) (f : Fields) (size : Nat) : Word :=
  h.rA f.ra + (if f.hasImm then f.simm else BitVec.ofNat 64 size)

/-- A 64-bit value for a register. -/
def w64 (v : Word) : Desc := v.setWidth 256
/-- A 128-bit value for a register. -/
def w128 (v : Wide) : Desc := v.setWidth 256

/-- A loaded value of `bs`, sign-extended if asked (R212 SEXT). -/
def loadValue (bs : List Byte) (sext : Bool) : Desc :=
  if sext then w64 (wordOfInt (toSigned (8 * bs.length) (natOf bs))) else BitVec.ofNat 256 (natOf bs)

/-- The bytes of this core's posted stores over those of memory at a place, in program order (R213). -/
def forwardStores (loc : Phys) (bs : List Byte) (sts : List Store) : List Byte :=
  sts.foldl (fun bs st =>
    let put := fun (a b : Nat) =>
      (bs.zipIdx).map fun p => if b ≤ a + p.2 && a + p.2 < b + st.bytes.length then
        (st.bytes[a + p.2 - b]?).getD p.1 else p.1
    match loc, st.loc with
    | .here a, .here b => put a b
    | .remote a, .remote b => put a.toNat b.toNat
    | .host a, .host b => put a.toNat b.toNat
    | _, _ => bs) bs

end Sys2Proof.Machine
end

