-- ==== Sys2Proof/Machine/Translate.lean ====
section
/-! DEFINITION. The Translate stage of a strip (05 R92, R98, R104, R105, R419; 12 R253 to R256): footprints, lookups
in the sequencer's second-level TLB, and the stream causes. -/

namespace Sys2Proof.Machine

/-- Bytes of a footprint: a start, which may lie outside the address space, and a length. -/
structure Range where
  lo  : Int
  len : Nat
  deriving DecidableEq, Repr

/-- One stream's part of a footprint. ACCESS: 0 read, 1 write, 2 read and write (12 R254). -/
structure Foot where
  stream : Nat
  ranges : List Range
  access : Nat
  /-- Must resolve to scratch. -/
  atomic : Bool
  phys   : Bool
  deriving DecidableEq, Repr

/-- The stream an input station reads: its own, or that of the first station that names its STRUCT (05 R90). -/
def streamOf (sts : List Stn) (sregs : Vector Desc 8) (s : Stn) : Nat :=
  if s.kind = .inp && dKind (descOf sregs s) = 2 then
    match sts.find? fun q => q.kind = .inp && q.sreg = s.sreg with
    | some q => q.code
    | none => s.code
  else s.code

/-- The address of element `i` of an input stream, and its size; STRUCT takes its field (05 R92).
Log entry 52 (DEDUCED). -/
def elemRange (d : Desc) (field : Nat) (i : Nat) : Range :=
  match dKind d with
  | 1 => { lo := dBase d + dStride d * i, len := dE d }
  | 2 => { lo := dBase d + dStride d * i + sfOff d field, len := 2 ^ sfSize d field }
  | 3 =>
    let w := dBits d
    { lo := dBase d + (i * w / 8 : Nat), len := ((i + 1) * w + 7) / 8 - i * w / 8 }
  | _ => { lo := dBase d + (i * dE d : Nat), len := dE d }

/-- Positions `a` to `b` − 1. -/
def positions (a b : Nat) : List Nat := (upto (b - a)).map (· + a)

/-- The bitmap bytes of positions `a` to `b` − 1 (05 R89). -/
def bitmapRange (d : Desc) (a b : Nat) : List Range :=
  if dNullmap d = 0 then [] else [{ lo := dNullmap d + (a / 8 : Nat), len := (b + 7) / 8 - a / 8 }]

/-- The data bytes of a strip's part of an input stream other than RLE. -/
def inputRanges (d : Desc) (fields : List Nat) (a b : Nat) : List Range :=
  match dKind d with
  | 0 => [{ lo := dBase d + (a * dE d : Nat), len := (b - a) * dE d }]
  | 3 => [{ lo := dBase d + (a * dBits d / 8 : Nat), len := (b * dBits d + 7) / 8 - a * dBits d / 8 }]
  | 1 => (positions a b).map (elemRange d 0)
  | 2 => (positions a b).flatMap fun i => fields.map fun f => elemRange d f i
  | _ => []

/-- Directory entries of the RLE blocks that positions `a` to `b` − 1 touch (05 R109). -/
def dirRange (d : Desc) (a b : Nat) : Range :=
  { lo := dAux d + (8 * (a / 1024) : Nat), len := 8 * ((b - 1) / 1024 - a / 1024 + 2) }

/-- The run words that directory entries name. -/
def runRanges (d : Desc) : List Word → List Range
  | e :: f :: t =>
    (if e.toNat < f.toNat then [{ lo := dBase d + (8 * e.toNat : Nat), len := 8 * (f.toNat - e.toNat) }] else [])
      ++ runRanges d (f :: t)
  | _ => []

/-- Elements of a compacted output from its committed count, clipped at element N − 1 (05 R104). -/
def compactedRange (d : Desc) (n c a : Nat) : List Range :=
  let hi := min (c + a) n
  if hi ≤ c then []
  else if dKind d = 0 then [{ lo := dBase d + (c * dE d : Nat), len := (hi - c) * dE d }]
  else (positions c hi).map fun (i : Nat) => { lo := dBase d + dStride d * i, len := dE d }

/-- SCATTER and ATOMIC: the whole range.
Log entry 52 (DEDUCED). -/
def indexedRange (d : Desc) : List Range := [{ lo := dBase d, len := dAux d * (dStride d).toNat }]

/-- The PRB table's footprint (07 R154); INSERT's buckets must be scratch. -/
def tableFoots (s : Stn) (d : Desc) : List Foot :=
  let phys := d.getLsbD 222
  if s.op = 3 then
    [{ stream := 7, ranges := [{ lo := dbits d 127 64, len := 8 * dbits d 207 168 }], access := 0, atomic := false,
       phys := phys }]
  else
    let acc := if s.op = 2 then 2 else 0
    [{ stream := 7, ranges := [{ lo := dbits d 63 0, len := 8 * 2 ^ dbits d 212 208 }], access := acc,
       atomic := s.op = 2, phys := phys },
     { stream := 7, ranges := [{ lo := dbits d 127 64, len := 64 * 2 ^ dbits d 218 213 }], access := acc,
       atomic := false, phys := phys }]

/-- A strip's footprint but for RLE run words; `opa`, `opb`: committed counts; `act`: active positions of the issued,
uncommitted strips and of this one. -/
def Launch.foots (l : Launch) (k : Nat) (opa opb act : Nat) (withDict withTable : Bool) : List Foot :=
  let sts := l.stations
  let rows := wireTable l.sregs 0 [] sts
  let (a, b) := l.span k
  rows.flatMap fun r =>
    let s := r.1
    let d := descOf l.sregs s
    match s.kind with
    | .inp =>
      let code := streamOf sts l.sregs s
      let data := if dKind d = 4 then [dirRange d a b] else inputRanges d [s.m1] a b
      [{ stream := code, ranges := data ++ bitmapRange d a b, access := 0, atomic := false, phys := dPhys d }]
    | .out =>
      let idx := dKind d = 5 || dKind d = 6
      let data :=
        if idx then indexedRange d
        else if s.compacted r.2 then compactedRange d l.n (if s.code = 4 then opa else opb) act
        else inputRanges d [] a b
      [{ stream := s.code, ranges := data ++ (if dOnull d = 1 then bitmapRange d a b else []),
         access := if dKind d = 6 then 2 else 1, atomic := dKind d = 6, phys := dPhys d }]
    | .dec =>
      if withDict && dbits d 143 142 = 2 then
        let phys := sts.any fun q => q.kind = .inp && dKind (descOf l.sregs q) = 3 && dPhys (descOf l.sregs q)
        [{ stream := 6, ranges := [{ lo := dbits d 127 64, len := 8 * (dbits d 139 128 + 1) }], access := 0,
           atomic := false, phys := phys }]
      else []
    | .prb => if withTable then tableFoots s d else []
    | .acc =>
      if s.group then
        [{ stream := 8, ranges := indexedRange d, access := 2, atomic := true, phys := dPhys d }]
      else []
    | _ => []

/-! ## Lookups -/

/-- The stream whose map a page counts against: DEC's dictionary counts against the encoded input's (05 R104). -/
def mapOwner (sts : List Stn) (sregs : Vector Desc 8) (stream : Nat) : Nat :=
  if stream = 6 then
    match sts.find? fun q => q.kind = .inp && dKind (descOf sregs q) = 3 with
    | some q => q.code
    | none => 6
  else stream

/-- The stream whose map holds the pages of DEC's dictionary. -/
def Launch.dictStream (l : Launch) : Nat := mapOwner l.stations l.sregs 6

/-- What a lookup of a footprint comes to. -/
inductive TRes where
  | ok (map : List PageMap)
  | miss (map : List PageMap) (addr : Word)
  | fault (map : List PageMap) (kind : Nat) (addr : Word)
  deriving DecidableEq, Repr

/-- The region that a translated byte lies in: 0 DDR, 1 scratch, 2 host; none fails the layout check (02 R19). -/
def State.region (s : State) : Phys → Option Nat
  | .here off =>
    match s.place off with
    | .ddr => some 0
    | .scratch => some 1
    | _ => none
  | .remote ga =>
    let off := ga.toNat % 2 ^ 44
    if off < scratchBase then some 0 else if off < scratchBase + scratchSize then some 1 else none
  | .host _ => some 2

/-- KIND of the layout fault of the bytes from `p` to `q`: 2 LAYOUT, 4 ATOMIC_TARGET; none passes.  Every byte between two
regions of one place passes where no hole lies between them: DDR and scratch of another node, and this node's where its
DDR reaches up to scratch (05 R98). -/
def State.layoutFault (s : State) (p q : Phys) (atomic : Bool) : Option Nat :=
  match s.region p, s.region q with
  | some x, some y =>
    let hole := match p with
      | .here _ => decide (s.mem.d ≠ scratchBase)
      | _ => false
    if x ≠ y && hole then some 2 else if atomic && (x ≠ 1 || y ≠ 1) then some 4 else none
  | _, _ => some 2

/-- The page of a map that covers an address. -/
def pageAt (map : List PageMap) (stream : Nat) (v : Word) : Option TlbEntry :=
  (map.find? fun p => p.stream = stream && TlbEntry.covers { tag := p.tag, data := p.data } v).map
    fun p => { tag := p.tag, data := p.data }

/-- KIND of the check of a page that fails (12 R253): level and permissions are PROT. -/
def pageProt (levelK : Bool) (access : Nat) (data : Word) : Bool :=
  (levelK && !data.getLsbD 6) || ((access = 0 || access = 2) && !data.getLsbD 3)
    || ((access = 1 || access = 2) && !data.getLsbD 4)

/-- A map without the page of a stream that an address lies in: a page whose check fails is looked up again (12 R254). -/
def dropPage (map : List PageMap) (stream : Nat) (v : Word) : List PageMap :=
  map.filter fun p => !(p.stream = stream && TlbEntry.covers { tag := p.tag, data := p.data } v)

/-- Looks `n` bytes at `v` up in the map of stream `owner`, page by page, with `fuel` pages left to look at.  A page is looked up before the map's 64
entries are counted, and a fault names the first of the bytes that the page serves.
Log entry 58 (DESIGN CHOICE). -/
def State.lookupRange (s : State) (core : Core) (levelK : Bool) (f : Foot) (owner : Nat) :
    Nat → List PageMap → Nat → Nat → TRes
  | 0, map, v, _ => .fault map 3 (BitVec.ofNat 64 v)
  | fuel + 1, map, v, n =>
    if n = 0 then .ok map
    else
      let va : Word := BitVec.ofNat 64 v
      let go := fun (map : List PageMap) (e : TlbEntry) =>
        if pageProt levelK f.access e.data then TRes.fault (dropPage map owner va) 1 va
        else
          let size := 2 ^ pageBits (psOf e.tag)
          let here := min n (size - v % size)
          match s.targetOf e va, s.targetOf e (BitVec.ofNat 64 (v + here - 1)) with
          | some p, some q =>
            match s.layoutFault p q f.atomic with
            | some k => .fault (dropPage map owner va) k va
            | none => s.lookupRange core levelK f owner fuel map (v + here) (n - here)
          | _, _ => .fault (dropPage map owner va) 2 va
      match pageAt map owner va with
      | some e => go map e
      | none =>
        match core.lookupL2 va with
        | none => .miss map va
        | some e =>
          if 64 ≤ (map.filter (·.stream = owner)).length then .fault map 3 va
          else go (map ++ [{ stream := owner, tag := e.tag, data := e.data }]) e

/-- One range of a footprint: wrap, then its pages, or for PHYS the layout alone.  A fault of the whole range names its start.
Log entry 58 (DESIGN CHOICE). -/
def State.checkRange (s : State) (core : Core) (levelK : Bool) (f : Foot) (owner : Nat)
    (map : List PageMap) (r : Range) : TRes :=
  if r.len = 0 then .ok map
  else if r.lo < 0 || (2 ^ 64 : Int) < r.lo + r.len then .fault map 5 (BitVec.ofInt 64 r.lo)
  else if f.phys then
    let a : Word := BitVec.ofInt 64 r.lo
    let b : Word := BitVec.ofInt 64 (r.lo + r.len - 1)
    match s.layoutFault (s.route a) (s.route b) f.atomic with
    | some k => .fault map k a
    | none => if a.toNat >>> 44 = b.toNat >>> 44 then .ok map else .fault map 2 a
  else s.lookupRange core levelK f owner 66 map r.lo.toNat r.len

/-- The ranges of one stream.
Log entry 46 (DEDUCED). -/
def State.checkRanges (s : State) (core : Core) (levelK : Bool) (f : Foot) (owner : Nat) :
    List PageMap → List Range → TRes
  | map, [] => .ok map
  | map, r :: t =>
    match s.checkRange core levelK f owner map r with
    | .ok map => s.checkRanges core levelK f owner map t
    | x => x

/-- The whole footprint, in order: the first stream that misses or faults, with its ACCESS.
Log entry 46 (DEDUCED). -/
def State.checkFoots (s : State) (core : Core) (l : Launch) : List PageMap → List Foot → TRes × Nat × Nat
  | map, [] => (.ok map, 0, 0)
  | map, f :: t =>
    let own := mapOwner l.stations l.sregs
    match s.checkRanges core l.levelK f (own f.stream) map f.ranges with
    | .ok map => s.checkFoots core l map t
    | x => (x, f.stream, f.access)

/-! ## Reading through a strip map -/

/-- Where an address of a stream leads, by a strip's map, or as a global address when PHYS = 1. -/
def State.streamPhys (s : State) (map : List PageMap) (stream : Nat) (phys : Bool) (v : Word) : Option Phys :=
  if phys then some (s.route v)
  else match pageAt map stream v with
    | some e => s.targetOf e v
    | none => none

/-- The RLE inputs of a launch. -/
def Launch.rleInputs (l : Launch) : List Stn := l.stations.filter fun q => q.kind = .inp && dKind (descOf l.sregs q) = 4

/-- The lines of the directory of an RLE input that strip `k` needs: stream, start and length (05 R109). -/
def Launch.dirRuns (l : Launch) (k : Nat) (q : Stn) : List (Nat × Nat) :=
  let (a, b) := l.span k
  let r := dirRange (descOf l.sregs q) a b
  lineRuns r.lo.toNat r.len

/-- The answer to a directory line, if it has come. -/
def Translating.dirAt (t : Translating) (stream va : Nat) : Option DirLine :=
  t.dir.find? fun d => d.stream = stream && d.va = va && d.ans ≠ .owed

/-- Reads what the strip in Translate lacks of the directory of an RLE input, line by line as the access of any place; `dir`
holds bytes that places outside the device answer at once, and those that are not used are given back.
Log entries 34 (DEDUCED), 59 (DESIGN CHOICE), 107 (DESIGN CHOICE). -/
def State.readDir (s : State) (c : ChainId) (serial : Nat) (t : Translating) (map : List PageMap) (q : Stn) (phys : Bool) :
    List (Nat × Nat) → List Byte → State × List DirLine × List Byte
  | [], dir => (s, [], dir)
  | (va, n) :: rest, dir =>
    match t.dirAt q.code va with
    | some d =>
      let (s, ds, dir) := s.readDir c serial t map q phys rest dir
      (s, d :: ds, dir)
    | none =>
      let line := fun (ans : Reply) => ({ stream := q.code, va := va, n := n, ans := ans } : DirLine)
      match s.streamPhys map q.code phys (BitVec.ofNat 64 va) with
      | none => (s, [line .owed], dir)
      | some loc =>
        let r : Reply := if n ≤ dir.length then .ok (dir.take n) else .owed
        let who : Wanted := .dir c serial s.chains[c].tries t.k q.code va
        let (s, x) := s.reach c.val false who loc n none r
        let dir := match loc with
          | .here _ => dir
          | _ => if x.isSome then dir.drop n else dir
        let (s, ds, dir) := s.readDir c serial t map q phys rest dir
        (s, line (x.getD .owed) :: ds, dir)

/-- Reads what the strip in Translate lacks of the directories of its RLE inputs. -/
def State.readDirs (s : State) (c : ChainId) (l : Launch) (t : Translating) (map : List PageMap) :
    List Stn → List Byte → State × List DirLine
  | [], _ => (s, [])
  | q :: qs, dir =>
    let (s, ds, dir) := s.readDir c l.serial t map q (dPhys (descOf l.sregs q)) (l.dirRuns t.k q) dir
    let (s, es) := s.readDirs c l t map qs dir
    (s, ds ++ es)

/-- The run words' footprint of an RLE input, from its directory's lines. -/
def rleFoot (l : Launch) (ds : List DirLine) (q : Stn) : Foot :=
  let d := descOf l.sregs q
  let bs := (ds.filter (·.stream = q.code)).flatMap fun d => replyBytes d.ans
  { stream := q.code, ranges := runRanges d ((upto (bs.length / 8)).map fun i => wordOf (sliceAt bs (8 * i) 8)), access := 0, atomic := false, phys := dPhys d }

/-- An answer reaches the line of a directory that the strip in Translate waits for.
Log entry 59 (DESIGN CHOICE). -/
def State.dirAnswer (s : State) (c : ChainId) (serial att k stream va : Nat) (r : Reply) : State :=
  if s.chains[c].tries ≠ att then s
  else s.modChain c fun h => { h with run := h.run.map fun x =>
    if x.launch.serial ≠ serial then x
    else { x with trans := x.trans.map fun t =>
      if t.k ≠ k then t
      else { t with dir := t.dir.map fun d =>
        if d.stream = stream && d.va = va && d.ans = .owed then { d with ans := fitReply r (va % 64) d.n } else d } } }

/-! ## The stage -/

/-- CODE of STREAM_MISS and STREAM_FAULT (11 R231). -/
def causeStreamMiss : Nat := 0x0D
def causeStreamFault : Nat := 0x0E

/-- Raises a stream cause and records it (12 R254); the translation waits. -/
def State.streamCause (s : State) (c : ChainId) (map : List PageMap) (kind stream access : Nat) (addr : Word) : State :=
  let code := if kind = 0 then causeStreamMiss else causeStreamFault
  let info := if kind = 0 then stream + access * 16 else kind
  s.modChain c fun h => { h with
    srec := BitVec.ofNat 32 (kind * 256 + access * 64 + stream)
    cause := some { code := BitVec.ofNat 8 code, info := BitVec.ofNat 8 info, addr := addr }
    run := h.run.map fun r => { r with trans := r.trans.map fun t => { t with map := map, waiting := true } } }

/-- Active positions of a chain's issued, uncommitted strips. -/
def Run.active (r : Run) : Nat := (r.strips.map (·.size)).foldl (· + ·) 0

/-- The launch may fetch: with OVERLAP = 0 every drain of an earlier launch has been accepted.
Log entry 35 (DEDUCED). -/
def Chain.mayFetch (h : Chain) (r : Run) : Bool :=
  r.launch.overlap || h.drains.all (·.serial == r.launch.serial)

/-- The strip in Translate cannot be read for: the chain stops as after an access failure (05 R99).
Log entry 59 (DESIGN CHOICE). -/
def State.translateFails (s : State) (c : ChainId) : State :=
  (s.modChain c fun h => { h with failed := true }).abandonTranslate c

/-- Looks the strip in Translate up; `dir` gives directory words that lie outside the device.  The directory of an RLE
input is input (05 R92): it is read when the launch may fetch (04 R72).
Log entries 35 (DEDUCED), 46 (DEDUCED). -/
def State.translate (s : State) (c : ChainId) (dir : List Word) : State :=
  let h := s.chains[c]
  match h.run with
  | none => s
  | some r =>
    match r.trans with
    | none => s
    | some t =>
      let l := r.launch
      let core := s.cores[seqOf c]
      let foots := l.foots t.k t.opa t.opb t.act (t.k = 0) r.prbMap.isNone
      let map0 := t.map ++ (match r.prbMap with
        | some m => if t.map.any (·.stream = 7) then [] else m
        | none => [])
      let stay := fun (s : State) (map : List PageMap) (ds : List DirLine) => s.modChain c fun h => { h with
        run := h.run.map fun r => { r with trans := some { t with map := map, waiting := false, dir := ds } } }
      match s.checkFoots core l map0 foots with
      | (.miss map a, st, acc) => s.streamCause c map 0 st acc a
      | (.fault map k a, st, acc) => s.streamCause c map k st acc a
      | (.ok map, _, _) =>
        if l.stations.any (fun q => q.kind = .inp && dKind (descOf l.sregs q) = 4) && !h.mayFetch r then stay s map t.dir
        else
          let (s, ds) := s.readDirs c l t map l.rleInputs (dir.flatMap fun w => bytesOf 8 w.toNat)
          if ds.any (fun d => d.ans ≠ .owed && !replyGood d.ans) then s.translateFails c
          else if ds.any (·.ans = .owed) then stay s map ds
          else
          match s.checkFoots core l map (l.rleInputs.map (rleFoot l ds)) with
          | (.miss map a, st, acc) => s.streamCause c map 0 st acc a
          | (.fault map k a, st, acc) => s.streamCause c map k st acc a
          | (.ok map, _, _) => s.modChain c fun h => { h with
              run := h.run.map fun r => { r with
                trans := some { t with map := map, done := true, waiting := false }
                prbMap := some (map.filter (·.stream = 7)) } }

/-- A waiting translation looks up again (12 R254). -/
def State.retryTranslate (s : State) (c : ChainId) (dir : List Word) : State :=
  match s.chains[c].run with
  | some r =>
    match r.trans with
    | some t => if t.waiting then s.translate c dir else s
    | none => s
  | none => s

/-- The chain may advance: no abort, nothing held for its sequencer (11 R233), and no stop but for a restarted strip
(08 R181). -/
def Chain.advances (h : Chain) : Bool :=
  !h.exc && h.cause.isNone && !h.excHeld &&
    (!h.stopReq || match h.run with
      | some r => (r.trans.map (·.restarted)).getD false
      | none => false)

/-- STRIP_TRANSLATE: the next strip enters Translate, or one whose map was dropped looks up again. -/
def State.stripTranslate (s : State) (c : ChainId) (dir : List Word) : State :=
  let h := s.chains[c]
  match h.run with
  | none => s
  | some r =>
    if !h.advances || !r.granted then s
    else match r.trans with
      | some t => if t.done || t.waiting then s else s.translate c dir
      | none =>
        if r.nextK < r.launch.strips then
          (s.modChain c fun h => { h with
            run := h.run.map fun r => { r with
              trans := some { k := r.nextK, map := [], done := false, waiting := false, replay := false,
                              flushOnce := false, restarted := false, opa := h.opa.toNat, opb := h.opb.toNat,
                              act := r.active + r.launch.sizeOf r.nextK, dir := [] }
              nextK := r.nextK + 1 } }).translate c dir
        else s

/-- A station of a strip before its first step. -/
def StationRun.start : StationRun := { taken := 0, out1 := [], out2 := [], flight := [], count := 0 }

/-- MSC plus the issued strips has reached 2^40 − 1: the chain stops (04 R73). -/
def State.wrapStop (s : State) (c : ChainId) : State :=
  let h := s.chains[c]
  match h.run with
  | none => s
  | some r =>
    if 2 ^ 40 - 1 ≤ h.msc.toNat + r.strips.length && !h.stopReq then
      (s.modChain c fun h => { h with wrapped := true }).requestStop c
    else s

/-- STRIP_ISSUE (04 R68, R73): not while a strip that was discarded with this one is uncommitted (08 R174). -/
def State.stripIssue (s : State) (c : ChainId) : State :=
  let h := s.chains[c]
  match h.run with
  | none => s
  | some r =>
    match r.trans with
    | none => s
    | some t =>
      let room := if r.launch.nonRestart || r.again = some t.k then r.strips.isEmpty else r.strips.length < 2
      if !(t.done && room && h.advances) then s
      else if 2 ^ 40 - 1 ≤ h.msc.toNat + r.strips.length then s.wrapStop c
      else
        let strip : Strip :=
          { k := t.k, att := h.tries + 1, size := r.launch.sizeOf t.k, map := t.map, lines := [], asked := [], rle := [],
            stations := r.launch.stations.map fun _ => StationRun.start, shadows := [], marks := [], lost := 0,
            flags := 0, abort := none, replay := t.replay, flushOnce := t.flushOnce, held := [], outA := 0, outB := 0 }
        (s.modChain c fun h => { h with
          tries := h.tries + 1
          run := h.run.map fun r => { r with trans := none, strips := r.strips ++ [strip] } }).wrapStop c

end Sys2Proof.Machine
end

