-- ==== Sys2Proof/Machine/Station.lean ====
section
/-! DEFINITION. What the stations of a strip make of their elements: input streams (05 R89 to R95), DEC (05 R108 to R111),
numeric and relational stations (06, 07), held and atomic outputs (05 R100 to R103), PRB (07 R149 to R153) and the
accumulators (07 R156 to R160). -/

namespace Sys2Proof.Machine

/-! ## A strip's buffered lines (05 R94) -/

/-- The aligned 64 B lines that `n` bytes at `v` touch. -/
def linesOf (v n : Nat) : List Nat := (granules 64 v n).map (· * 64)

/-- The bytes of a stream at `v`, once every line of them is there. -/
def Strip.bytes? (t : Strip) (stream v n : Nat) : Option (List Byte) :=
  (upto n).mapM fun k =>
    match t.lines.find? fun b => b.stream = stream && b.va.toNat = (v + k) / 64 * 64 with
    | some b => b.bytes[(v + k) % 64]?
    | none => none

/-- The directory entries of the RLE block of element `i`. -/
def Strip.rleDir (t : Strip) (d : Desc) (stream i : Nat) : Option (Nat × Nat) := do
  let bs ← t.bytes? stream (dAux d + 8 * (i / 1024)) 16
  pure (fieldAt bs 0 8, fieldAt bs 8 8)

/-- The block that a strip's RLE input decodes for element `i`. -/
def Strip.rleAt (t : Strip) (stream i : Nat) : Option RleBlock :=
  t.rle.find? fun b => b.stream = stream && b.block = i / 1024

/-- The run words of a block: none where more than 1,024 make it invalid unread (05 R109). -/
def RleBlock.size (b : RleBlock) : Nat := if b.first < b.stop && b.stop - b.first ≤ 1024 then b.stop - b.first else 0

/-- The data bytes of element `i` of an input, as start and length; of an RLE block that is being decoded, its run words
that are still to come, and of a later one its directory entries and the run words that they name. -/
def Strip.elemBytes (t : Strip) (d : Desc) (field stream i : Nat) : List (Nat × Nat) :=
  let data :=
    if dKind d = 4 then
      match t.rleAt stream i with
      | some b =>
        if b.words.length < b.size then [(dBase d + 8 * (b.first + b.words.length), 8 * (b.size - b.words.length))] else []
      | none =>
        (dAux d + 8 * (i / 1024), 16) ::
          (match t.rleDir d stream i with
          | some (a, b) => if a < b && b - a ≤ 1024 then [(dBase d + 8 * a, 8 * (b - a))] else []
          | none => [])
    else
      let r := elemRange d field i
      [(r.lo.toNat, r.len)]
  data ++ (if dNullmap d = 0 then [] else [(dNullmap d + i / 8, 1)])

/-- The lines of a stream that element `i` of an input needs. -/
def Strip.elemLines (t : Strip) (d : Desc) (field stream i : Nat) : List Nat :=
  (t.elemBytes d field stream i).flatMap fun p => linesOf p.1 p.2

/-- Element `i` has all its lines; an RLE block is decoded once all its run words are taken out of its lines. -/
def Strip.elemReady (t : Strip) (d : Desc) (field stream i : Nat) : Bool :=
  (dKind d ≠ 4 || (t.rleAt stream i).isSome) && (t.elemLines d field stream i).all fun a => t.lines.any fun b => b.stream = stream && b.va.toNat = a

/-- The 64-bit words of bytes. -/
def wordsOf (bs : List Byte) : List Word := (upto (bs.length / 8)).map fun k => wordOf (sliceAt bs (8 * k) 8)

/-- An RLE input takes the block of element `i` out of its lines as they arrive: its directory entries, then its run words
line by line, so that a block never needs more buffers than the launch has reserved (05 R106, R109).
Log entry 60 (DESIGN CHOICE). -/
def Strip.absorb (d : Desc) (stream i : Nat) : Nat → Strip → Strip
  | 0, t => t
  | fuel + 1, t =>
    match t.rleAt stream i with
    | none =>
      match t.rleDir d stream i with
      | none => t
      | some (a, b) =>
        Strip.absorb d stream i fuel { t with
          rle := { stream := stream, block := i / 1024, first := a, stop := b, words := [] }
            :: t.rle.filter (·.stream ≠ stream) }
    | some b =>
      if b.size ≤ b.words.length then t
      else
        let va := dBase d + 8 * (b.first + b.words.length)
        let n := min (8 * (b.size - b.words.length)) (64 - va % 64)
        match t.bytes? stream va n with
        | none => t
        | some bs =>
          Strip.absorb d stream i fuel { t with
            rle := { b with words := b.words ++ wordsOf bs } :: t.rle.filter (·.stream ≠ stream) }

/-- The run that covers element `r` of a block, given its run words.
Log entry 34 (DEDUCED). -/
def runAt : List Word → Nat → Option Word
  | [], _ => none
  | w :: t, r =>
    let len := (w.extractLsb' 0 10).toNat + 1
    if r < len then some (w >>> 10) else runAt t (r - len)

/-- The lengths of run words in all.
Log entry 34 (DEDUCED). -/
def runSum (ws : List Word) : Nat := (ws.map fun w => (w.extractLsb' 0 10).toNat + 1).foldl (· + ·) 0

/-- The value of a narrow or wide element of `n` bytes, extended by `sext` (05 R93). -/
def widen (bs : List Byte) (sext : Bool) : Word × Word :=
  let n := bs.length
  if 8 < n then (wordOf (bs.take 8), wordOf (bs.drop 8))
  else (if sext then wordOfInt (toSigned (8 * n) (natOf bs)) else wordOf bs, 0)

/-- Element `i` of an input stream: value, null bit, and the mark of an invalid RLE block (05 R89, R92, R109). -/
def Strip.inputElem (t : Strip) (d : Desc) (field stream n i : Nat) : Elem :=
  let null :=
    if dNullmap d = 0 then false
    else match t.bytes? stream (dNullmap d + i / 8) 1 with
      | some bs => !bitN (natOf bs) (i % 8)
      | none => false
  let mk := fun (lo hi : Word) (bad : Bool) => ({ pos := i, null := null, lo := lo, hi := hi, bad := bad } : Elem)
  match dKind d with
  | 4 =>
    let blk : Word := BitVec.ofNat 64 (i / 1024)
    match t.rleAt stream i with
    | none => mk 0 blk true
    | some b =>
      if b.stop < b.first || 1024 < b.stop - b.first then mk 0 blk true
      else if 1024 < runSum b.words || runSum b.words < min 1024 (n - i / 1024 * 1024) then mk 0 blk true
      else match runAt b.words (i % 1024) with
        | some v => mk v blk false
        | none => mk 0 blk true
  | 3 =>
    let w := dBits d
    let r := elemRange d 0 i
    match t.bytes? stream r.lo.toNat r.len with
    | some bs => mk (BitVec.ofNat 64 (bits (natOf bs) (i * w % 8 + w - 1) (i * w % 8))) 0 false
    | none => mk 0 0 false
  | _ =>
    let r := elemRange d field i
    match t.bytes? stream r.lo.toNat r.len with
    | some bs =>
      let (lo, hi) := widen bs (if dKind d = 2 then sfSext d field else dSext d)
      mk lo hi false
    | none => mk 0 0 false

/-! ## DEC (05 R109, R110) -/

/-- A raw value of `w` bits extended by SIGNED. -/
def extendBy (signed : Bool) (w : Nat) (v : Word) : Word :=
  if signed then wordOfInt (toSigned w v.toNat) else v

/-- DEC on one element: `w` the width of the raw value, `dict` the table.  CORE_EXVAL1 of its condition is a free value.
Log entries 34 (DEDUCED), 56 (DESIGN CHOICE). -/
def decStation (d : Desc) (w : Nat) (dict : List Word) (e : Elem) : NumRes :=
  let fmt := dbits d 143 142
  let sg := d.getLsbD 140
  if e.null then .ok .nul
  else match fmt with
    | 0 => .ok (.nar (extendBy sg w e.lo))
    | 1 => .ok (.nar (extendBy sg w e.lo + BitVec.ofNat 64 (dbits d 63 0)))
    | 2 =>
      if dbits d 139 128 < e.lo.toNat then .bad 0 8 3 (some e.lo) none
      else if d.getLsbD 141 && e.lo = 0 then .ok .nul
      else .ok (.nar ((dict[e.lo.toNat]?).getD 0))
    | _ =>
      if e.bad then .bad 0 8 3 (some e.hi) none
      else .ok (.nar (extendBy sg 54 e.lo + BitVec.ofNat 64 (dbits d 63 0)))

/-! ## Operands -/

/-- The elements that a wire has carried so far. -/
def Strip.wireElems (t : Strip) (w : Wire) : List Elem :=
  match t.stations[w.prod]? with
  | some r => if w.snd then r.out2 else r.out1
  | none => []

/-- The wires that a station reads. -/
def Stn.ins (s : Stn) (ws : List Wire) : List Wire := s.codes.filterMap (wireAt ws)

/-- The elements that a station can take: as many as every one of its wires has carried. -/
def Strip.arrived (t : Strip) (s : Stn) (ws : List Wire) : Nat :=
  match (s.ins ws).map fun w => (t.wireElems w).length with
  | [] => 0
  | n :: ns => ns.foldl min n

/-- Element `i` of the operand that a code names. -/
def Strip.operand (t : Strip) (s : Stn) (ws : List Wire) (code i : Nat) : Elem :=
  match wireAt ws code with
  | some w => ((t.wireElems w)[i]?).getD { pos := 0, null := true, lo := 0, hi := 0, bad := false }
  | none =>
    { pos := 0, null := code = 0, lo := if code = 29 then s.imm else if code = 30 then s.immc else 0, hi := 0,
      bad := false }

/-- An element's value. -/
def Elem.val (e : Elem) : Val := { null := e.null, lo := e.lo, hi := e.hi }

/-- The launch position of element `i` of a station: that of any of its wires. -/
def Strip.posOf (t : Strip) (s : Stn) (ws : List Wire) (i : Nat) : Nat :=
  match s.ins ws with
  | w :: _ => (((t.wireElems w)[i]?).map (·.pos)).getD 0
  | [] => 0

/-- A station moves at most four elements in a step when an operand or its result is wide, and under GSUMCNT
(05 R112, 06 R114, 07 R161). -/
def Stn.stepWidth (s : Stn) (ws : List Wire) (d : Desc) : Nat :=
  if (s.ins ws).any (·.wide) || s.wideOut d || (s.kind = .acc && s.group && s.op = 0x13) then 4 else 8

/-! ## Exception modes (06 R117, 08 R172) -/

/-- The mode of a parcel in a strip: 0 trap, 1 flush, 2 mark; FLUSH_ONCE turns trap into flush (08 R179). -/
def Stn.mode (s : Stn) (flushOnce : Bool) : Nat := if s.exm = 0 && flushOnce then 1 else s.exm

/-- What a station makes of one element. -/
structure ElemRes where
  out1   : Option Elem
  out2   : Option Elem
  flags  : Nat
  raised : Option Raised
  held   : List HeldElem
  flight : List Flight
  /-- INSERT takes an entry index. -/
  used   : Bool
  deriving DecidableEq, Repr

/-- Nothing. -/
def ElemRes.none : ElemRes :=
  { out1 := .none, out2 := .none, flags := 0, raised := .none, held := [], flight := [], used := false }

/-- A value on a wire at a position. -/
def Val.elem (v : Val) (pos : Nat) : Elem := { pos := pos, null := v.null, lo := v.lo, hi := v.hi, bad := false }

/-- A numeric result under a mode: in trap mode the element goes on as null and leaves no flag. -/
def NumRes.res (r : NumRes) (pos mode : Nat) : ElemRes :=
  let trap := mode = 0 && r.raised.isSome
  { ElemRes.none with
    out1 := some ((if trap then Val.nul else r.v).elem pos), flags := if trap then 0 else r.flags, raised := r.raised }

/-- The index-range condition (05 R101, 07 R153). -/
def rangeCond (x : Word) : Raised := { cond := 6, which := 3, v0 := some x, v1 := some 0 }

/-! ## PRB (07 R149 to R153) -/

/-- The fields of a PRB parcel's table that a search uses. -/
def tElog (d : Desc) : Nat := dbits d 218 213
def tMaxVisit (d : Desc) : Nat := if dbits d 235 228 = 0 then 256 else dbits d 235 228
/-- Address of entry `n`.
Log entry 33 (DEDUCED). -/
def tEntry (d : Desc) (n : Nat) : Word := BitVec.ofNat 64 (dbits d 127 64 + 64 * n)
/-- Address of the bucket of hash `h`. -/
def tBucket (d : Desc) (h : Word) : Word :=
  BitVec.ofNat 64 (dbits d 63 0 + 8 * (h.toNat >>> (64 - dbits d 212 208)))

/-- The result of a search that ends without a match. -/
def prbMiss (outsel : Nat) : Val := if outsel = 0 || outsel = 4 then .nar 0 else .nul

/-- The result of a match on entry `n` with payload words. -/
def prbHit (outsel n : Nat) (p0 p1 : Word) : Val :=
  match outsel with
  | 0 => .nar 1
  | 1 => .nar p0
  | 2 => .nar p1
  | 3 => { null := false, lo := p0, hi := p1 }
  | _ => .nar (BitVec.ofNat 64 (n + 1))

/-- The table-corrupt condition.
Log entry 33 (DEDUCED). -/
def corrupt (v : Nat) : Raised := { cond := 7, which := 3, v0 := some (BitVec.ofNat 64 v), v1 := some 0 }

/-- A flight that has its result. -/
def Flight.finish (f : Flight) (v : Val) : Flight := { f with st := .done (v.elem f.elem.pos) }

/-- A search goes on to the entry that a head or NEXT names, after `visited` entries (07 R150, R153).
Log entry 33 (DEDUCED). -/
def searchStep (d : Desc) (outsel : Nat) (f : Flight) (link : Word) (visited : Nat) : Flight × Option Raised :=
  if link = 0 then (f.finish (prbMiss outsel), none)
  else
    let n := link.toNat - 1
    if 2 ^ tElog d ≤ n then (f.finish .nul, some (corrupt n))
    else if tMaxVisit d ≤ visited then (f.finish .nul, some (corrupt (tMaxVisit d)))
    else ({ f with st := .entry n visited }, none)

/-- What the 64 bytes of a visited entry make of a search. -/
def searchEntry (d : Desc) (outsel : Nat) (f : Flight) (n visited : Nat) (bs : List Byte) : Flight × Option Raised :=
  let w := fun k => wordOf (sliceAt bs (8 * k) 8)
  if w 1 = f.h && w 2 = f.k0 && (!tKeyw d || w 3 = f.k1) then (f.finish (prbHit outsel n (w 4) (w 5)), none)
  else searchStep d outsel f (w 0) (visited + 1)

/-- The bytes of an inserted entry (07 R147). -/
def entryBytes (d : Desc) (f : Flight) : List Byte :=
  let w := fun (x : Word) => bytesOf 8 x.toNat
  w 0 ++ w f.h ++ w f.k0 ++ w (if tKeyw d then f.k1 else 0) ++ w (if tPayw d = 0 then 0 else f.p0)
    ++ w (if tPayw d < 2 then 0 else f.p1) ++ List.replicate 16 0

/-- PRB takes an element: it goes into flight, or has its result at once.  `idx` is the entry that an INSERT takes. -/
def prbTake (s : Stn) (d : Desc) (pos : Nat) (h k0 k1 e : Elem) (wideKey : Bool) (idx : Nat) :
    Flight × Option Raised × Bool :=
  let key1 := if wideKey then k0.hi else k1.lo
  let keyNull := k0.null || (!wideKey && tKeyw d && k1.null)
  let f : Flight :=
    { elem := { pos := pos, null := false, lo := 0, hi := 0, bad := false }, h := h.lo, k0 := k0.lo, k1 := key1,
      p0 := if e.null then 0 else e.lo, p1 := if e.null then 0 else e.hi, st := .head }
  match s.op with
  | 3 =>
    if h.null then (f.finish .nul, none, false)
    else if dbits d 207 168 ≤ h.lo.toNat then (f.finish .nul, some (rangeCond h.lo), false)
    else ({ f with st := .gather }, none, false)
  | 0 => if h.null || keyNull then (f.finish .nul, none, false) else (f, none, false)
  | 1 =>
    if h.null || keyNull || e.null then (f.finish .nul, none, false)
    else if e.lo = 0 then (f.finish (prbMiss s.m1), none, false)
    else
      let n := e.lo.toNat - 1
      if 2 ^ tElog d ≤ n then (f.finish .nul, some (corrupt n), false) else ({ f with st := .next n }, none, false)
  | _ =>
    if h.null || keyNull then (f.finish .nul, none, false)
    else if dbits d 207 168 ≤ idx then (f.finish .nul, some (rangeCond (BitVec.ofNat 64 idx)), false)
    else ({ f with st := .put idx }, none, true)

/-! ## Outputs (05 R100, R101) -/

/-- A held or atomic output takes an element: `i` its index on the wire. -/
def outTake (s : Stn) (d : Desc) (comp : Bool) (pos i : Nat) (v x : Elem) : ElemRes :=
  let bytes := bytesOf (dE d) v.val.nat
  match dKind d with
  | 5 =>
    if v.null || x.null then .none
    else if dAux d ≤ x.lo.toNat then { ElemRes.none with raised := some (rangeCond x.lo) }
    else { ElemRes.none with held :=
      [{ stream := s.code, va := BitVec.ofInt 64 (dBase d + dStride d * x.lo.toNat), idx := i, comp := false,
         bytes := bytes, valid := true, room := dE d + 8 }] }
  | 6 =>
    if v.null || x.null then .none
    else if dAux d ≤ x.lo.toNat then { ElemRes.none with raised := some (rangeCond x.lo) }
    else { ElemRes.none with flight :=
      [{ elem := { pos := pos, null := false, lo := 0, hi := 0, bad := false }, h := 0, k0 := 0, k1 := 0, p0 := 0, p1 := 0,
         st := .atomic (BitVec.ofInt 64 (dBase d + dStride d * x.lo.toNat)) (BitVec.ofNat 4 (dAop d)) v.lo }] }
  | _ =>
    { ElemRes.none with held :=
      [{ stream := s.code, va := BitVec.ofInt 64 (elemRange d 0 pos).lo, idx := i, comp := comp, bytes := bytes,
         valid := !v.null, room := dE d }] }

/-- A group operation takes an element (07 R160). -/
def groupTake (s : Stn) (d : Desc) (pos : Nat) (x v : Elem) : ElemRes :=
  if x.null || (s.op ≠ 0x12 && v.null) then .none
  else if dAux d ≤ x.lo.toNat then { ElemRes.none with raised := some (rangeCond x.lo) }
  else
    let slot := dBase d + dStride d * x.lo.toNat
    let fl := fun (a : Int) (aop : BitVec 4) (w : Word) =>
      ({ elem := { pos := pos, null := false, lo := 0, hi := 0, bad := false }, h := 0, k0 := 0, k1 := 0, p0 := 0, p1 := 0,
         st := .atomic (BitVec.ofInt 64 a) aop w } : Flight)
    { ElemRes.none with flight :=
      match s.op with
      | 0x11 => [fl slot 1 v.lo]
      | 0x12 => [fl slot 0 1]
      | 0x13 => [fl slot 0 v.lo, fl (slot + 8) 0 1]
      | _ => [fl slot 0 v.lo] }

/-! ## Accumulators (07 R156 to R159) -/

/-- A slot before its first element. -/
def Shadow.start (ca : Fin 8) (op : BitVec 5) : Shadow :=
  { ca := ca, op := op, sum := 0, best := none, lanes := Vector.replicate 8 (if op = 2 then some 0 else none),
    nonempty := false, nullSeen := false, ovf := false }

/-- The combination of floating-point reductions (07 R158): SUMF, MINF, MAXF.
Log entry 30 (DEDUCED). -/
def laneOp (op : Nat) (x y : Option Word) : Option Word × Nat :=
  match x, y with
  | none, y => (y, 0)
  | x, none => (x, 0)
  | some a, some b =>
    let r := match op with
      | 2 => fp64.add false 0 a.toNat b.toNat
      | 0xC => fp64.min a.toNat b.toNat
      | _ => fp64.max a.toNat b.toNat
    (some (BitVec.ofNat 64 r.v), r.flags)

/-- The integer that a narrow or wide element is. -/
def elemInt (signed wide : Bool) (e : Elem) : Int :=
  if wide then (if signed then toSigned 128 e.val.nat else e.val.nat)
  else if signed then e.lo.toInt else e.lo.toNat

/-- One slot takes an element of its wire: the shadow, the flags and a condition (07 R157).
Log entry 30 (DEDUCED). -/
def Shadow.take (h : Shadow) (wide : Bool) (lane : Fin 8) (e : Elem) : Shadow × Nat × Option Raised :=
  let op := h.op.toNat
  if e.null then
    ({ h with nullSeen := true, sum := if op = 5 then h.sum + 1 else h.sum }, 0, none)
  else
    let h' := { h with nonempty := true }
    let best := fun (x : Int) (smaller : Bool) =>
      let b := match h.best with
        | none => x
        | some y => if smaller then min y x else max y x
      ({ h' with best := some b }, 0, none)
    match op with
    | 0x00 => ({ h' with sum := h.sum + elemInt true wide e }, 0, none)
    | 0x01 => ({ h' with sum := h.sum + elemInt false wide e }, 0, none)
    | 0x03 =>
      match decOperand wide false e.val with
      | some i => ({ h' with sum := h.sum + i }, 0, none)
      | none =>
        (h, flagDINV, some { cond := 4, which := 0, v0 := some e.lo, v1 := some (if wide then e.hi else 0) })
    | 0x04 => ({ h' with sum := h.sum + 1 }, 0, none)
    | 0x05 => ({ h' with sum := h.sum + 1 }, 0, none)
    | 0x08 => best e.lo.toInt true
    | 0x09 => best e.lo.toInt false
    | 0x0A => best e.lo.toNat true
    | 0x0B => best e.lo.toNat false
    | _ =>
      let r := laneOp op h.lanes[lane] (some e.lo)
      ({ h' with lanes := h.lanes.set lane r.1, ovf := h.ovf || r.2 &&& flagOF ≠ 0 }, r.2, none)

/-- S of 07 R158, with the flags of its combinations.
Log entry 29 (DEDUCED). -/
def laneSum (op : Nat) (p : Vector (Option Word) 8) : Option Word × Nat :=
  let c := fun (x y : Option Word × Nat) =>
    let r := laneOp op x.1 y.1
    (r.1, x.2 ||| y.2 ||| r.2)
  let z := fun (i : Fin 8) => ((p[i], 0) : Option Word × Nat)
  c (c (c (z 0) (z 1)) (c (z 2) (z 3))) (c (c (z 4) (z 5)) (c (z 6) (z 7)))

/-- The value of a CAn that SUMD finds; all zero bits are 0, and other bits that are no decimal give the value `free`.
Log entry 31 (DEDUCED). -/
def decAcc (ca : Wide) (free : Int) : Int := if ca = 0 then 0 else (decRead 31 true ca.toNat).getD free

/-- What a slot leaves in its accumulator at commit: value, CAS bits and CORE_NUMF flags. -/
structure Fold where
  ca    : Wide
  cas   : Nat
  flags : Nat
  deriving DecidableEq, Repr

/-- A slot folds into CAn, whose CAS bits are `cas` (07 R157 to R159).
Log entries 29 (DEDUCED), 30 (DEDUCED), 31 (DEDUCED). -/
def Shadow.fold (h : Shadow) (ca : Wide) (cas : Nat) (free : Int) : Fold :=
  let op := h.op.toNat
  let bitsOf := fun (ovf : Bool) => cas ||| b2n h.nonempty ||| 2 * b2n h.nullSeen ||| 4 * b2n ovf
  let was := cas.testBit 0
  let signed := fun (r : Int) =>
    let out := !(decide (-(2 ^ 127 : Int) ≤ r) && decide (r < (2 ^ 127 : Int)))
    ({ ca := BitVec.ofInt 128 r, cas := bitsOf out, flags := 0 } : Fold)
  let best := fun (cur : Int) (smaller : Bool) =>
    match h.best with
    | none => ({ ca := ca, cas := bitsOf false, flags := 0 } : Fold)
    | some x =>
      let r := if was then (if smaller then min cur x else max cur x) else x
      { ca := BitVec.ofInt 128 r, cas := bitsOf false, flags := 0 }
  match op with
  | 0x00 => signed (ca.toInt + h.sum)
  | 0x04 => signed (ca.toInt + h.sum)
  | 0x05 => signed (ca.toInt + h.sum)
  | 0x01 =>
    let r := (ca.toNat : Int) + h.sum
    { ca := BitVec.ofInt 128 r, cas := bitsOf (decide ((2 ^ 128 : Int) ≤ r)), flags := 0 }
  | 0x03 =>
    if !h.nonempty then { ca := ca, cas := bitsOf false, flags := 0 } else
    let r := decAcc ca free + h.sum
    { ca := BitVec.ofNat 128 (decBits 31 r), cas := bitsOf (decide (10 ^ 31 ≤ r.natAbs)), flags := 0 }
  | 0x08 => best ca.toInt true
  | 0x09 => best ca.toInt false
  | 0x0A => best ca.toNat true
  | 0x0B => best ca.toNat false
  | _ =>
    let s := laneSum op h.lanes
    match s.1 with
    | none => { ca := ca, cas := bitsOf false, flags := s.2 }
    | some x =>
      let r : Option Word × Nat := if was then laneOp op (some (ca.extractLsb' 0 64)) (some x) else (some x, 0)
      let fl := s.2 ||| r.2
      { ca := (r.1.getD 0).setWidth 128, cas := bitsOf (h.ovf || fl &&& flagOF ≠ 0), flags := fl }

/-! ## One element through one station -/

/-- K of RESCALE. -/
def rescaleK (s : Stn) : Int := toSigned 6 s.m1

/-- The width W of DIV. -/
def divWidth (m : Nat) : Nat := match m with
  | 0 => 64
  | 1 => 32
  | 2 => 16
  | _ => 8

/-- The descriptor of the stream that a DEC decodes.
Log entry 31 (DEDUCED). -/
def decSource (l : Launch) (s : Stn) (ws : List Wire) : Desc :=
  match wireAt ws s.a with
  | some w =>
    match l.stations[w.prod]? with
    | some q => descOf l.sregs q
    | none => 0
  | none => 0

/-- What a station, other than an input and ACC's reduction form, makes of element `i` of its wires. `idx` is the entry
that an INSERT takes. -/
def stationElem (l : Launch) (dict : List Word) (t : Strip) (s : Stn) (ws : List Wire) (i idx : Nat) : ElemRes :=
  let d := descOf l.sregs s
  let mode := s.mode t.flushOnce
  let op := fun code => t.operand s ws code i
  let v := fun code => (op code).val
  let pos := t.posOf s ws i
  let val := fun (x : Val) => { ElemRes.none with out1 := some (x.elem pos) }
  match s.kind with
  | .inp => .none
  | .dec => (decStation d (dBits (decSource l s ws)) dict (op s.a)).res pos mode
  | .sel => val (selStation s.op s.m2 (s.m3 + 1) s.m1 (v s.a) (v s.b) (v s.c) (v s.p))
  | .cpt =>
    if (v s.p).truth = some true then
      let pick := fun code =>
        let e := if code = 28 then { pos := pos, null := false, lo := BitVec.ofNat 64 pos, hi := 0, bad := false } else op code
        { e with pos := pos, bad := false }
      { ElemRes.none with out1 := some (pick s.a), out2 := if s.b = 0 then .none else some (pick s.b) }
    else .none
  | .alu => (aluStation s.op (v s.a) (v s.b) (v s.c) (aluUsesB s.op)).res pos mode
  | .fpu => (fpuStation s.op (s.m1 = 1) s.m2 t.replay (v s.a) (v s.b)).res pos mode
  | .div => (divStation s.op (divWidth s.m1) (v s.a) (v s.b)).res pos mode
  | .dcm => (dcmStation s.op (rescaleK s) s.m2 (s.m3 + 1) t.replay (v s.a) (v s.b)).res pos mode
  | .mac => (macStation s.op (s.m1 = 1) s.m2 (v s.a) (v s.b) (v s.c) (macUsesC s.op)).res pos mode
  | .hsh => val (hshStation s.op s.imm (wideAt ws s.a) (v s.a) (v s.b))
  | .prb =>
    let (f, c, used) := prbTake s d pos (op s.a) (op s.b) (op s.c) (op s.p) (wideAt ws s.b) idx
    { ElemRes.none with flight := [f], raised := c, used := used }
  | .out => outTake s d (s.compacted ws) pos i (op s.a) (op s.b)
  | .acc => groupTake s d pos (op s.a) (op s.b)

end Sys2Proof.Machine
end

