-- ==== Sys2Proof/Machine/Strip.lean ====
section
/-! DEFINITION. The life of an issued strip: its steps, the accesses of its stations, its abort, its commit and its drain
(04 R65 to R78, 05 R94 to R107, 08 R174 to R183). -/

namespace Sys2Proof.Machine

/-- Changes strip `i` of a chain's running launch. -/
def State.modStrip (s : State) (c : ChainId) (i : Nat) (g : Strip → Strip) : State :=
  s.modChain c fun h => { h with run := h.run.map fun r => { r with strips := modifyAt g i r.strips } }

/-- The stations of a launch, each with the wires that stand before it. -/
def Launch.rows (l : Launch) : List (Stn × List Wire) := wireTable l.sregs 0 [] l.stations

/-- Elements that station `p` of a strip has taken.
Log entry 32 (DEDUCED). -/
def Strip.takenBy (t : Strip) (p : Nat) : Nat := ((t.stations[p]?).map (·.taken)).getD 0

/-- Positions of the strip that its inputs take: all of them, or after a condition those already taken (08 R175).
Log entry 32 (DEDUCED). -/
def Strip.limit (l : Launch) (t : Strip) : Nat :=
  if t.abort.isNone then t.size
  else (l.stations.zipIdx).foldl (fun m p => if p.1.kind = .inp then max m (t.takenBy p.2) else m) 0

/-- Which stations have let every element of the strip through, in parcel order. -/
def Strip.doneFlags (l : Launch) (t : Strip) : List Bool :=
  (l.rows.zipIdx).foldl (fun done p =>
    let r := (t.stations[p.2]?).getD StationRun.start
    done ++ [if p.1.1.kind = .inp then decide (r.taken = t.limit l)
      else (p.1.1.ins p.1.2).all (fun w => (done[w.prod]?).getD false) && r.flight.isEmpty
        && decide (r.taken = t.arrived p.1.1 p.1.2)]) []

/-- Every element taken has left every station. -/
def Strip.drained (l : Launch) (t : Strip) : Bool := (t.doneFlags l).all id

/-! ## Conditions (08 R175, R183) -/

/-- Marks held for the strips of a chain. -/
def Run.marksHeld (r : Run) : Nat := (r.strips.map (·.marks.length)).foldl (· + ·) 0

/-- The chain's mark queue is full.
Log entry 37 (DEDUCED). -/
def Chain.queueFull (h : Chain) : Bool :=
  match h.run with
  | some r => decide (1024 ≤ r.marksHeld)
  | none => true

/-- The mark-log entry of a condition (08 R183). -/
def markEntry (stn pos : Nat) (r : Raised) : Word :=
  BitVec.ofNat 64 (r.which <<< 50 + r.cond <<< 46 + stn <<< 41 + pos)

/-- The condition that an abort names: the lowest position, then the first parcel.
Log entry 32 (DEDUCED). -/
def Abort.first (a : Abort) : Option Abort → Abort
  | none => a
  | some b => if a.pos < b.pos || (a.pos = b.pos && a.parcel < b.parcel) then a else b

/-- A condition of station parcel `p` in strip `i` takes effect by its mode: 0 trap, 1 flush, 2 mark. -/
def State.condition (s : State) (c : ChainId) (i p : Nat) (stn mode pos : Nat) (r : Raised) : State :=
  match mode with
  | 0 =>
    let fill := fun (s : State) (v : Option Word) =>
      match v with
      | some w => (s, w)
      | none => (s.tick, Config.freeWord s.free)
    let (s, v0) := fill s r.v0
    let (s, v1) := fill s r.v1
    let a : Abort := { pos := pos, parcel := p, stn := BitVec.ofNat 5 stn, cond := BitVec.ofNat 4 r.cond,
                       which := BitVec.ofNat 2 r.which, val0 := v0, val1 := v1 }
    s.modStrip c i fun t => { t with abort := some (a.first t.abort) }
  | 2 =>
    s.modStrip c i fun (t : Strip) =>
      if s.chains[c].queueFull then { t with lost := t.lost + 1 }
      else { t with marks := t.marks ++ [{ pos := pos, parcel := p, entry := markEntry stn pos r }] }
  | _ => s

/-- Several conditions, in order. -/
def State.conditions (s : State) (c : ChainId) (i p stn mode : Nat) (rs : List (Nat × Raised)) : State :=
  rs.foldl (fun s r => s.condition c i p stn mode r.1 r.2) s

/-! ## Steps (04 R76, R77) -/

/-- Elements of a wire that its slowest consumer still has room for.
Log entry 18 (DESIGN CHOICE). -/
def Strip.wireRoom (l : Launch) (t : Strip) (wire len : Nat) (cpt : Bool) : Nat :=
  let cap := if cpt then 64 else 8 + Config.stationQueue
  (l.stations.zipIdx).foldl (fun m p =>
    if p.1.codes.contains wire then min m (cap - (len - t.takenBy p.2)) else m) 8

/-- Room on every wire that a station produces. -/
def Strip.room (l : Launch) (t : Strip) (s : Stn) (ws : List Wire) (r : StationRun) : Nat :=
  let cpt := s.kind = .cpt
  match (s.wires 0 (descOf l.sregs s) ws).length with
  | 0 => 8
  | 1 => t.wireRoom l (ws.length + 1) r.out1.length cpt
  | _ => min (t.wireRoom l (ws.length + 1) r.out1.length cpt) (t.wireRoom l (ws.length + 2) r.out2.length cpt)

/-- Lines of a stream that some element still needs. -/
def Strip.needed (l : Launch) (t : Strip) (stream : Nat) : List Nat :=
  (l.stations.zipIdx).flatMap fun p =>
    if p.1.kind = .inp && streamOf l.stations l.sregs p.1 = stream then
      let a := (l.span t.k).1
      (positions (a + t.takenBy p.2) (a + t.limit l)).flatMap
        (t.elemLines (descOf l.sregs p.1) p.1.m1 stream)
    else []

/-- Each RLE input takes the block of its next element out of the strip's lines. -/
def Strip.absorbAll (l : Launch) (t : Strip) : Strip :=
  (l.stations.zipIdx).foldl (fun t p =>
    let d := descOf l.sregs p.1
    if p.1.kind = .inp && dKind d = 4 && decide (t.takenBy p.2 < t.limit l) then
      Strip.absorb d p.1.code ((l.span t.k).1 + t.takenBy p.2) 140 t
    else t) t

/-- Buffers whose lines every station has consumed are freed (05 R95, R106). -/
def Strip.freeLines (l : Launch) (t : Strip) (stream : Nat) : Strip :=
  let keep := t.needed l stream
  { t with lines := t.lines.filter fun b => b.stream ≠ stream || keep.contains b.va.toNat }

/-- How many elements from index `k` an input has the lines of, at most `n`. -/
def Strip.readyRun (t : Strip) (d : Desc) (field stream first : Nat) : Nat → Nat → Nat
  | 0, _ => 0
  | n + 1, k => if t.elemReady d field stream (first + k) then t.readyRun d field stream first n (k + 1) + 1 else 0

/-- An input station steps. -/
def Strip.stepInput (l : Launch) (t : Strip) (p : Nat) (s : Stn) (ws : List Wire) (r : StationRun) : Strip :=
  let d := descOf l.sregs s
  let stream := streamOf l.stations l.sregs s
  let a := (l.span t.k).1
  let want := min (min (s.stepWidth ws d) (t.room l s ws r)) (t.limit l - r.taken)
  let n := t.readyRun d s.m1 stream a want r.taken
  let es := (upto n).map fun k => t.inputElem d s.m1 stream l.n (a + r.taken + k)
  let t := { t with stations := modifyAt (fun r => { r with taken := r.taken + n, out1 := r.out1 ++ es }) p t.stations }
  (t.absorbAll l).freeLines l stream

/-- The outcome of a station's step before its conditions take effect. -/
structure StepAcc where
  run    : StationRun
  held   : List HeldElem
  flags  : Nat
  raised : List (Nat × Raised)
  shadows : List Shadow
  deriving DecidableEq, Repr

/-- The slots of an ACC parcel in reduction form: accumulator, operation, operand code. -/
def Stn.slots (s : Stn) : List (Fin 8 × BitVec 5 × Nat) :=
  let mk := fun (ca op code : Nat) => ((⟨ca % 8, by omega⟩ : Fin 8), BitVec.ofNat 5 op, code)
  if s.kind = .acc && !s.group then
    mk s.m1 s.op s.a :: (if s.v1 then [mk s.m2 s.m3 s.b] else [])
  else []

/-- The strip's shadows, those of the slots before their first element among them. -/
def Strip.shadowsOf (t : Strip) (s : Stn) : List Shadow :=
  if t.shadows.isEmpty then s.slots.map fun x => Shadow.start x.1 x.2.1 else t.shadows

/-- ACC's reduction slots take element `i`: flags, and the first slot's condition. -/
def accTake (t : Strip) (s : Stn) (ws : List Wire) (i : Nat) (hs : List Shadow) : List Shadow × Nat × Option Raised :=
  (hs.zip s.slots).foldl (fun (acc : List Shadow × Nat × Option Raised) p =>
    let code := p.2.2.2
    let (h, fl, c) := p.1.take (wideAt ws code) ⟨i % 8, by omega⟩ (t.operand s ws code i)
    (acc.1 ++ [h], acc.2.1 ||| fl, acc.2.2 <|> c)) ([], 0, none)

/-- One element more of a station's step. -/
def Strip.stepElem (l : Launch) (dict : List Word) (t : Strip) (s : Stn) (ws : List Wire) (inserted : Nat)
    (acc : StepAcc) : StepAcc :=
  let i := acc.run.taken
  if s.kind = .acc && !s.group then
    let (hs, fl, c) := accTake t s ws i acc.shadows
    { acc with
      run := { acc.run with taken := i + 1 }
      shadows := hs
      flags := acc.flags ||| fl
      raised := acc.raised ++ (c.map fun c => (t.posOf s ws i, c)).toList }
  else
    let d := descOf l.sregs s
    let e := stationElem l dict t s ws i (dbits d 167 128 + inserted + acc.run.count)
    { acc with
      run := { acc.run with
        taken := i + 1
        out1 := acc.run.out1 ++ e.out1.toList
        out2 := acc.run.out2 ++ e.out2.toList
        flight := acc.run.flight ++ e.flight
        count := acc.run.count + b2n e.used }
      held := acc.held ++ e.held
      flags := acc.flags ||| e.flags
      raised := acc.raised ++ (e.raised.map fun c => (t.posOf s ws i, c)).toList }

/-- Results of PRB's oldest flights leave in order, at most `n`. -/
def popDone : Nat → StationRun → StationRun
  | 0, r => r
  | n + 1, r =>
    match r.flight with
    | f :: fs =>
      match f.st with
      | .done e => popDone n { r with out1 := r.out1 ++ [e], flight := fs }
      | _ => r
    | [] => r

/-- Elements of a held output that fit the buffers its stream holds. -/
def Chain.outRoom (h : Chain) (l : Launch) (s : Stn) : Nat :=
  let d := descOf l.sregs s
  match fin? 6 s.code with
  | some i =>
    if dKind d = 6 then 8 else (h.held[i] * 512 - h.outBytes s.code) / (dE d + (if dKind d = 5 then 8 else 0))
  | none => 0

/-- The elements that a station other than an input can take in one step. -/
def Run.stepCount (r : Run) (h : Chain) (t : Strip) (s : Stn) (ws : List Wire) (sr : StationRun) : Nat :=
  let l := r.launch
  let d := descOf l.sregs s
  let base := min (min (s.stepWidth ws d) (t.arrived s ws - sr.taken)) (t.room l s ws sr)
  match s.kind with
  | .dec => if dbits d 143 142 = 2 && r.dict.length ≤ dbits d 139 128 then 0 else base
  | .prb => min base (512 - sr.flight.length)
  | .out => min base (h.outRoom l s)
  | _ => base

/-- A station other than an input steps. -/
def State.stepStation (s : State) (c : ChainId) (i p : Nat) (r : Run) (t : Strip) (q : Stn) (ws : List Wire)
    (sr : StationRun) : State :=
  let l := r.launch
  let sr := if q.kind = .prb then popDone (t.room l q ws sr) sr else sr
  let n := r.stepCount s.chains[c] t q ws sr
  let acc0 : StepAcc := { run := sr, held := [], flags := 0, raised := [],
                          shadows := if q.kind = .acc && !q.group then t.shadowsOf q else t.shadows }
  let acc := (upto n).foldl (fun a _ => t.stepElem l r.dict q ws r.inserted a) acc0
  let wrote := if q.kind = .out && dKind (descOf l.sregs q) ≠ 6 then acc.held.length else 0
  let s := s.modStrip c i fun t => { t with
    stations := modifyAt (fun _ => acc.run) p t.stations
    shadows := acc.shadows
    held := t.held ++ acc.held
    flags := t.flags ||| BitVec.ofNat 32 acc.flags
    outA := if q.code = 4 then t.outA + wrote else t.outA
    outB := if q.code = 5 then t.outB + wrote else t.outB }
  s.conditions c i p q.code (q.mode t.flushOnce) acc.raised

/-- Station `p` may work on strip `i`: the older strip has passed it and is not aborting. -/
def Run.mayStep (r : Run) (i p : Nat) : Bool :=
  if i = 0 then true
  else match r.strips with
    | t :: _ => t.abort.isNone && ((t.doneFlags r.launch)[p]?).getD false
    | [] => false

/-- STATION_STEP. -/
def State.stationStep (s : State) (c : ChainId) (i p : Nat) : State :=
  match s.chains[c].run with
  | none => s
  | some r =>
    match r.strips[i]?, r.launch.rows[p]? with
    | some t, some (q, ws) =>
      let sr := (t.stations[p]?).getD StationRun.start
      if !r.mayStep i p then s
      else if q.kind = .inp then s.freedSince (s.modStrip c i fun t => t.stepInput r.launch p q ws sr) c
      else s.stepStation c i p r t q ws sr
    | _, _ => s

/-! ## Line fills and buffers (05 R94, R99, R106; 04 R72) -/

/-- The input station that a stream's fetches belong to. -/
def Launch.inputOf (l : Launch) (stream : Nat) : Option Stn := l.stations.find? fun q => q.kind = .inp && q.code = stream

/-- The aligned 512 B blocks of the lines that strip `t` needs of a stream and lacks, those before the line `va`; a block that
holds a line of the strip already is left out. -/
def Run.missingBefore (r : Run) (t : Strip) (stream : Nat) (va : Option Nat) : List Nat :=
  let has := fun (a : Nat) => (t.linesHeld stream).any fun b => b / 512 = a / 512
  ((((t.needed r.launch stream).takeWhile fun a => some a ≠ va).filter (!has ·)).map (· / 512)).eraseDups

/-- A line that needs a new buffer may have one: one is left for each earlier line that its strip lacks, and the younger strip
leaves the older one the reservation while that one lacks lines (05 R106).
Log entry 60 (DESIGN CHOICE). -/
def Chain.bufferFor (h : Chain) (r : Run) (t : Strip) (i : Fin 6) (va : Nat) : Bool :=
  decide (h.inUse i + (r.missingBefore t i.val (some va)).length < h.held[i]) &&
    (match r.strips with
    | o :: _ =>
      o.att = t.att || (r.missingBefore o i.val none).isEmpty || decide (t.blocks i.val < h.held[i] - h.reservedOf i)
    | [] => true)

/-- The stream needs the line at `va` and has a buffer for it. -/
def Chain.wantsLine (h : Chain) (r : Run) (t : Strip) (stream : Nat) (va : Nat) : Bool :=
  match fin? 6 stream with
  | none => false
  | some i =>
    decide (stream < 4) && (t.needed r.launch stream).contains va
      && !(t.lines.any fun b => b.stream = stream && b.va.toNat = va)
      && ((t.linesHeld stream).any (fun b => b / 512 = va / 512) || h.bufferFor r t i va)

/-- The fetch of a line by attempt `att` at a strip is under way: it fills a buffer (05 R106).
Log entry 79 (DESIGN CHOICE). -/
def State.lineAsked (s : State) (c : ChainId) (att stream : Nat) (va : Word) : State :=
  s.modChain c fun h => { h with run := h.run.map fun r => { r with strips := r.strips.map fun t =>
    if t.att = att && !(t.asked.contains (stream, va.toNat)) then { t with asked := t.asked ++ [(stream, va.toNat)] } else t } }

/-- A line arrives for attempt `att` at a strip: poisoned data fail the strip. -/
def State.lineArrive (s : State) (c : ChainId) (att stream : Nat) (va : Word) (a : ReadAns) : State :=
  match s.chains[c].run with
  | none => s
  | some r =>
    match (r.strips.zipIdx).find? fun p => p.1.att = att with
    | none => s
    | some (t, i) =>
      if a.poison then s.accessFailure c i
      else if s.chains[c].wantsLine r t stream va.toNat then
        s.freedSince (s.modStrip c i fun t =>
          (({ t with lines := t.lines ++ [{ stream := stream, va := va, bytes := a.bytes }]
                     asked := t.asked.filter (· ≠ (stream, va.toNat)) } : Strip).absorbAll
            r.launch).freeLines r.launch stream) c
      else s

/-- The answer to the fetch of a line. -/
def State.lineReply (s : State) (c : ChainId) (i att stream : Nat) (va : Word) : Reply → State
  | .ok bs => if bs.length = 64 then s.lineArrive c att stream va { bytes := bs, poison := false } else s
  | _ => s.accessFailure c i

/-- STREAM_LINE_FILL.  A line of another node comes by the request that the stream has sent there (14 R292). -/
def State.lineFill (s : State) (c : ChainId) (i stream : Nat) (va : Word) (rep : Reply) : State :=
  let h := s.chains[c]
  match h.run with
  | none => s
  | some r =>
    match r.strips[i]?, r.launch.inputOf stream with
    | some t, some q =>
      if !h.mayFetch r || !h.wantsLine r t stream va.toNat then s
      else match s.streamPhys t.map stream (dPhys (descOf r.launch.sregs q)) va with
        | none => s
        | some loc =>
          match s.reach c.val false (.line c t.att stream va) loc 64 none rep with
          | (s, some x) => s.lineReply c i t.att stream va x
          | (s, none) => if s.sentFor (.line c t.att stream va) then s.lineAsked c t.att stream va else s
    | _, _ => s

/-- Stream `i` of a chain asks for an unreserved buffer (05 R106), for its issued strips.
Log entry 79 (DESIGN CHOICE). -/
def Chain.asks (h : Chain) (i : Fin 6) : Bool :=
  match h.run with
  | none => false
  | some r =>
    r.granted && decide (h.held[i] ≤ h.inUse i) &&
      if i.val < 4 then
        match r.launch.inputOf i.val with
        | none => false
        | some q =>
          let cap := dRaCap (descOf r.launch.sregs q)
          (cap = 0 || decide (h.held[i] < 16 * cap)) && h.mayFetch r &&
            r.strips.any fun t => (t.needed r.launch i.val).any fun va =>
              !(t.linesHeld i.val).contains va
      else
        r.strips.any fun t => (r.launch.rows.zipIdx).any fun p =>
          p.1.1.code = i.val && dKind (descOf r.launch.sregs p.1.1) ≠ 6
            && decide (t.takenBy p.2 < t.arrived p.1.1 p.1.2)

/-- The streams of a cluster in order from position `turn`: chain × 6 + stream. -/
def clusterStreams (k : ClusterId) (turn : Nat) : List (ChainId × Fin 6 × Nat) :=
  (upto 48).map fun j =>
    let x := (turn + j) % 48
    (⟨k.val * 8 + x / 6 % 8, by omega⟩, ⟨x % 6, by omega⟩, x)

/-- BUFFER_GRANT: one unreserved buffer to the next requesting stream.
Log entry 50 (DEDUCED). -/
def State.bufferGrant (s : State) (k : ClusterId) : State :=
  if s.pools[k].free = 0 then s
  else match (clusterStreams k s.pools[k].turn).find? fun x => s.chains[x.1].asks x.2.1 with
    | none => s
    | some (c, i, x) =>
      (s.modPool k fun p => { p with free := p.free - 1, turn := (x + 1) % 48 }).modChain c fun h =>
        h.setHeld i (h.held[i] + 1)

/-! ## Accesses of stations -/

/-- The QOS that a station's transactions carry: its descriptor's, or PRB's table's (05 R88, 07 R146). -/
def Stn.qos (q : Stn) (d : Desc) : BitVec 4 := if q.kind = .prb then tQos d else dQos d

/-- What an access of a station comes to.
Log entry 14 (DESIGN CHOICE). -/
inductive AccAns where
  /-- Nothing yet: the line is being snooped, or the reply does not fit the access. -/
  | wait
  | fail
  | done (bytes : List Byte)
  deriving DecidableEq, Repr

/-- What an answer makes of an access. -/
def accAns : Option Reply → AccAns
  | none => .wait
  | some (.ok bs) => .done bs
  | some _ => .fail

/-- A station reads `n` bytes. -/
def State.stnRead (s : State) (c : ChainId) (got : Bool) (who : Wanted) (map : List PageMap) (stream : Nat) (phys : Bool)
    (va : Word) (n : Nat) (r : Reply) : State × AccAns :=
  match s.streamPhys map stream phys va with
  | none => (s, .wait)
  | some loc =>
    let (s, x) := s.reach c.val got who loc n none r
    (s, accAns x)

/-- A station writes bytes. -/
def State.stnWrite (s : State) (c : ChainId) (got : Bool) (who : Wanted) (map : List PageMap) (stream : Nat) (phys : Bool)
    (va : Word) (bs : List Byte) (r : Reply) : State × AccAns :=
  match s.streamPhys map stream phys va with
  | none => (s, .wait)
  | some loc =>
    match s.reach c.val got who loc bs.length (some [(0, bs)]) r with
    | (s, some (.ok _)) => (s.landed loc [(0, bs)], .done [])
    | (s, x) => (s, accAns x)

/-- The new value of a word under AOP: 0 ADD_I64, 1 ADD_F64, 2 SWAP (05 R102).
Log entry 90 (DEDUCED). -/
def aopFun (aop : BitVec 4) (v old : Word) : Word :=
  match aop.toNat with
  | 0 => old + v
  | 1 => bankAddF64 old v
  | _ => v

/-- A station performs an atomic; the old value is answered.
Log entry 39 (DESIGN CHOICE). -/
def State.stnAtomic (s : State) (c : ChainId) (got : Bool) (who : Wanted) (map : List PageMap) (stream : Nat) (phys : Bool)
    (va : Word) (aop : BitVec 4) (v : Word) (r : Reply) : State × AccAns :=
  match s.streamPhys map stream phys va with
  | none => (s, .wait)
  | some (.here off) =>
    if s.place off = .scratch then
      let (s, a) := s.scratchAtomic c.val off (aopFun aop v)
      (s, if a.poison then .fail else .done a.bytes)
    else (s, .fail)
  | some (.remote ga) =>
    match s.reach c.val got who (.remote ga) 8 none r with
    | (s, some (.ok bs)) => (s.emit (.farAtomic ga aop v), .done bs)
    | (s, x) => (s, accAns x)
  | some (.host _) => (s, .fail)

/-- Replaces flight `j` of station `p` in strip `i`; none removes it. -/
def State.setFlight (s : State) (c : ChainId) (i p j : Nat) (f : Option Flight) : State :=
  s.modStrip c i fun t => { t with
    stations := modifyAt (fun r => { r with flight := match f with
      | some f => modifyAt (fun _ => f) j r.flight
      | none => removeAt j r.flight }) p t.stations }

/-- The stream whose map an access of a station uses, and whether its descriptor has PHYS = 1. -/
def Stn.access (q : Stn) (d : Desc) : Nat × Bool :=
  if q.kind = .prb then (7, d.getLsbD 222) else (if q.kind = .acc then 8 else q.code, dPhys d)

/-- An earlier atomic of the list must come first: one to the same word, whatever page names it, or of the same element
(05 R102, 07 R160). -/
def State.mustWait (s : State) (t : Strip) (q : Stn) (d : Desc) (fs : List Flight) (j : Nat) (f : Flight) : Bool :=
  let at' := fun (a : Word) => s.streamPhys t.map (q.access d).1 (q.access d).2 a
  (fs.take j).any fun g =>
    match f.st, g.st with
    | .atomic a _ _, .atomic b _ _ => decide (at' a = at' b) || f.elem.pos = g.elem.pos
    | _, _ => false

/-- A search's flight moves on, and its condition takes effect.
Log entry 39 (DESIGN CHOICE). -/
def State.flightStep (s : State) (c : ChainId) (i p j : Nat) (q : Stn) (t : Strip) (x : Flight × Option Raised) : State :=
  let s := s.setFlight c i p j (some x.1)
  match x.2 with
  | some r => s.condition c i p q.code (q.mode t.flushOnce) x.1.elem.pos r
  | none => s

/-- A response reaches flight `j` of a station. -/
def State.flightAnswer (s : State) (c : ChainId) (i p j : Nat) (r : Run) (t : Strip) (q : Stn) (f : Flight)
    (rep : Reply) (got : Bool) : State :=
  let d := descOf r.launch.sregs q
  let stream := (q.access d).1
  let phys := (q.access d).2
  let who : Wanted := .flight c t.att p f
  let rd := fun (va : Word) (n : Nat) (k : State → List Byte → State) =>
    match s.stnRead c got who t.map stream phys va n rep with
    | (s, .done bs) => k s bs
    | (s, .fail) => s.accessFailure c i
    | (s, .wait) => s
  let wr := fun (va : Word) (bs : List Byte) (k : State → State) =>
    match s.stnWrite c got who t.map stream phys va bs rep with
    | (s, .done _) => k s
    | (s, .fail) => s.accessFailure c i
    | (s, .wait) => s
  let atm := fun (va : Word) (aop : BitVec 4) (v : Word) (k : State → Word → State) =>
    match s.stnAtomic c got who t.map stream phys va aop v rep with
    | (s, .done bs) => k s (wordOf bs)
    | (s, .fail) => s.accessFailure c i
    | (s, .wait) => s
  match f.st with
  | .head => rd (tBucket d f.h) 8 fun s bs => s.flightStep c i p j q t (searchStep d q.m1 f (wordOf bs) 0)
  | .next n => rd (tEntry d n) 8 fun s bs => s.flightStep c i p j q t (searchStep d q.m1 f (wordOf bs) 0)
  | .entry n visited => rd (tEntry d n) 64 fun s bs => s.flightStep c i p j q t (searchEntry d q.m1 f n visited bs)
  | .gather =>
    rd (BitVec.ofNat 64 (dbits d 127 64 + 8 * f.h.toNat)) 8 fun s bs =>
      s.setFlight c i p j (some (f.finish (.nar (wordOf bs))))
  | .put idx => wr (tEntry d idx) (entryBytes d f) fun s => s.setFlight c i p j (some { f with st := .swap idx })
  | .swap idx =>
    atm (tBucket d f.h) 2 (BitVec.ofNat 64 (idx + 1)) fun s old =>
      s.setFlight c i p j (some { f with st := .link idx old })
  | .link idx old =>
    wr (tEntry d idx) (bytesOf 8 old.toNat) fun s =>
      s.setFlight c i p j (some (f.finish (.nar (BitVec.ofNat 64 (idx + 1)))))
  | .atomic a aop v =>
    atm a aop v fun s _ =>
      (s.setFlight c i p j none).modStrip c i fun t => { t with
        outA := if q.code = 4 then t.outA + 1 else t.outA
        outB := if q.code = 5 then t.outB + 1 else t.outB }
  | .done _ => s

/-- The piece of DEC's dictionary that is read next: its address and its bytes. -/
def dictPiece (d : Desc) (got : Nat) : Nat × Nat :=
  let va := dbits d 127 64 + 8 * got
  (va, min (8 * (dbits d 139 128 + 1 - got)) (64 - va % 64))

/-- A piece of DEC's dictionary is read, in order, once in a launch, through the map of its first strip (05 R104, R111).
Log entry 35 (DEDUCED). -/
def State.dictRead (s : State) (c : ChainId) (i p : Nat) (r : Run) (t : Strip) (q : Stn) (ws : List Wire) (rep : Reply)
    (got : Bool) : State :=
  let d := descOf r.launch.sregs q
  let total := dbits d 139 128 + 1
  let done := r.dict.length
  if dbits d 143 142 ≠ 2 || total ≤ done || t.k ≠ 0 || !s.chains[c].mayFetch r then s
  else
    let (va, n) := dictPiece d done
    match s.stnRead c got (.dict c t.att p) t.map r.launch.dictStream (dPhys (decSource r.launch q ws)) (BitVec.ofNat 64 va) n rep with
    | (s, .done bs) => s.modChain c fun h => { h with run := h.run.map fun r => { r with dict := r.dict ++ wordsOf bs } }
    | (s, .fail) => s.accessFailure c i
    | (s, .wait) => s

/-- STATION_ACCESS_RESPONSE; `got` says that `rep` is the answer to an access that was sent before. -/
def State.stationAnswer (s : State) (c : ChainId) (i p j : Nat) (rep : Reply) (got : Bool) : State :=
  match s.chains[c].run with
  | none => s
  | some r =>
    match r.strips[i]?, r.launch.rows[p]? with
    | some t, some (q, ws) =>
      if q.kind = .dec then s.dictRead c i p r t q ws rep got
      else
        let fs := ((t.stations[p]?).map (·.flight)).getD []
        match fs[j]? with
        | some f =>
          if !got && s.mustWait t q (descOf r.launch.sregs q) fs j f then s else s.flightAnswer c i p j r t q f rep got
        | none => s
    | _, _ => s

/-! ## Abort (08 R174 to R178) -/

/-- CORE_EXS of an abort. -/
def exsOf (t : Strip) (a : Abort) : Word :=
  BitVec.ofNat 64 (a.parcel <<< 52 + b2n t.replay <<< 51 + a.which.toNat <<< 49 + a.cond.toNat <<< 45
    + a.stn.toNat <<< 40 + t.k)

/-- STRIP_ABORT. -/
def State.stripAbort (s : State) (c : ChainId) : State :=
  let h := s.chains[c]
  match h.run with
  | none => s
  | some r =>
    match r.strips with
    | [] => s
    | t :: _ =>
      match t.abort with
      | none => s
      | some a =>
        if !t.drained r.launch then s
        else
          let s := s.modChain c fun h => { h with
            exs := exsOf t a
            expos := BitVec.ofNat 64 a.pos
            exval0 := a.val0
            exval1 := a.val1
            cause := none
            run := h.run.map fun r => { r with
              strips := [], trans := none, nextK := t.k
              again := if r.strips.length = 2 then some (t.k + 1) else r.again } }
          if h.stopReq then s.endLaunch c
          else (s.modChain c fun h => { h with exc := true, excHeld := true }).trim c

/-! ## Commit (04 R67, R73, R78; 06 R119; 08 R183) -/

/-- Writes a word of DMEM from another side than the core's data port; its check bits are good again. -/
def Core.dmemPut (k : Core) (w : Nat) (v : Word) : Core :=
  { k with dmem := writeCells k.dmem (8 * w) (bytesOf 8 v.toNat), badWords := k.badWords.filter (· ≠ 0x4000 + w), soft := k.soft.filter (· ≠ 0x4000 + w) }

/-- Marks in ascending position, and for one position in parcel order.
Log entry 37 (DEDUCED). -/
def markInsert (m : Mark) : List Mark → List Mark
  | [] => [m]
  | x :: t => if m.pos < x.pos || (m.pos = x.pos && m.parcel < x.parcel) then m :: x :: t else x :: markInsert m t

/-- The strip's marks go to the log.
Log entry 37 (DEDUCED). -/
def State.writeMarks (s : State) (c : ChainId) (cfg : Half) (t : Strip) : State :=
  let base := (cfg.extractLsb' 0 15).toNat
  let len := (cfg.extractLsb' 16 15).toNat
  let written := (s.chains[c].markCnt.extractLsb' 0 16).toNat
  let lost := (s.chains[c].markCnt.extractLsb' 16 16).toNat
  let ms := t.marks.foldl (fun l m => markInsert m l) []
  let fit := ms.take (len - written)
  let s := (fit.zipIdx).foldl (fun s p =>
    s.modCore (seqOf c) fun k => k.dmemPut (base + written + p.2) p.1.entry) s
  s.modChain c fun h => { h with
    markCnt := BitVec.ofNat 32 ((min 0xFFFF (lost + t.lost + (ms.length - fit.length))) <<< 16 + written + fit.length) }

/-- Splits bytes at 64 B lines. -/
def lineChunks : Nat → Nat → List Byte → List (Nat × List Byte)
  | 0, _, _ => []
  | fuel + 1, v, bs =>
    match bs with
    | [] => []
    | _ => (v, bs.take (64 - v % 64)) :: lineChunks fuel (v + (64 - v % 64)) (bs.drop (64 - v % 64))

/-- The write's end, by its distance from its first byte. -/
def HeldWrite.len (w : HeldWrite) : Nat := w.parts.foldl (fun m p => max m (p.1 + p.2.length)) 0

/-- Two places of one 64 B line: the lower one, and their distances from it. -/
def sameLine (p q : Phys) : Option (Phys × Nat × Nat) :=
  let low := fun (a b : Nat) (mk : Nat → Phys) => if a / 64 = b / 64 then some (mk (min a b), a - min a b, b - min a b) else none
  match p, q with
  | .here a, .here b => low a b .here
  | .remote a, .remote b => low a.toNat b.toNat fun n => .remote (BitVec.ofNat 64 n)
  | .host a, .host b => low a.toNat b.toNat fun n => .host (BitVec.ofNat 64 n)
  | _, _ => none

/-- The byte that several writes, oldest first, leave at distance `o`. -/
def byteOf (ps : List (Nat × List Byte)) (o : Nat) : Option Byte :=
  ps.foldl (fun m p => if p.1 ≤ o && o < p.1 + p.2.length then p.2[o - p.1]? else m) none

/-- The bytes of several writes within a line, oldest first, as runs without a gap in rising order.
Log entry 38 (DESIGN CHOICE). -/
def runsOf (ps : List (Nat × List Byte)) : List (Nat × List Byte) :=
  (upto 64).foldr (fun o rs => match byteOf ps o with
    | none => rs
    | some b => match rs with
      | (a, bs) :: t => if a = o + 1 then (o, b :: bs) :: t else (o, [b]) :: (a, bs) :: t
      | [] => [(o, [b])]) []

/-- Two writes to one line as one write; a message to another node carries bytes without a gap (16 R335), so there they are one
only when no gap lies between them.
Log entry 38 (DESIGN CHOICE). -/
def joinTwo (w x : HeldWrite) : Option HeldWrite :=
  match sameLine w.loc x.loc with
  | none => none
  | some (p, a, b) =>
    let by' := fun (k : Nat) (ps : List (Nat × List Byte)) => ps.map fun q => (k + q.1, q.2)
    let rs := runsOf (by' a w.parts ++ by' b x.parts)
    let gap := match p with
      | .remote _ => decide (1 < rs.length)
      | _ => false
    if gap then none else some { w with loc := p, parts := rs, room := w.room + x.room }

/-- Held elements of one line make one write (05 R94).
Log entry 38 (DESIGN CHOICE). -/
def joinWrites : List HeldWrite → List HeldWrite
  | [] => []
  | w :: t =>
    match joinWrites t with
    | [] => [w]
    | x :: r =>
      match joinTwo w x with
      | some y => y :: r
      | none => w :: x :: r

/-- The bitmap bytes of a strip's output (05 R103).
Log entry 51 (DEDUCED). -/
def bitmapBytes (valid : List Bool) : List Byte :=
  (upto ((valid.length + 7) / 8)).map fun j =>
    BitVec.ofNat 8 (((upto 8).map fun k => if (valid[8 * j + k]?).getD false then 2 ^ k else 0).foldl (· + ·) 0)

/-- The writes of a strip's output station; `count` is OPA or OPB.
Log entries 38 (DESIGN CHOICE), 51 (DEDUCED). -/
def State.outWrites (s : State) (l : Launch) (t : Strip) (q : Stn) (count : Nat) : List HeldWrite :=
  let d := descOf l.sregs q
  let mine := t.held.filter (·.stream = q.code)
  let at' := fun (v : Nat) (bs : List Byte) (room : Nat) =>
    (s.streamPhys t.map q.code (dPhys d) (BitVec.ofNat 64 v)).map fun p =>
      ({ stream := q.code, loc := p, parts := [(0, bs)], room := room, qos := dQos d } : HeldWrite)
  let data := mine.filterMap fun e =>
    let va := if e.comp then (BitVec.ofInt 64 (elemRange d 0 (count + e.idx)).lo).toNat else e.va.toNat
    at' va e.bytes e.room
  let bitmap :=
    if dOnull d = 1 then
      let bs := bitmapBytes (mine.map (·.valid))
      (lineChunks (bs.length + 1) (dNullmap d + (l.span t.k).1 / 8) bs).filterMap fun p => at' p.1 p.2 0
    else []
  (if dKind d = 5 then data else joinWrites data) ++ bitmap

/-- One slot folds at commit. -/
def State.foldSlot (s : State) (c : ChainId) (h : Shadow) : State :=
  let k := s.chains[c]
  let i := h.ca.val
  let cas := (k.cas.toNat >>> (4 * i)) % 16
  let f := h.fold k.ca[h.ca] cas (Config.freeNat s.free)
  let s := if h.op = 3 then s.tick else s
  s.modChain c fun k => { k with
    ca := k.ca.set h.ca f.ca
    cas := (k.cas &&& ~~~((0xF : Half) <<< (4 * i))) ||| (BitVec.ofNat 32 (f.cas % 16)) <<< (4 * i)
    numf := k.numf ||| BitVec.ofNat 32 f.flags }

/-- Elements that PRB has inserted in a strip. -/
def Strip.insertedBy (l : Launch) (t : Strip) : Nat :=
  (l.stations.zipIdx).foldl (fun n p =>
    if p.1.kind = .prb && p.1.op = 2 then n + ((t.stations[p.2]?).map (·.count)).getD 0 else n) 0

/-- STRIP_COMMIT. -/
def State.stripCommit (s : State) (c : ChainId) : State :=
  let h := s.chains[c]
  match h.run with
  | none => s
  | some r =>
    match r.strips with
    | [] => s
    | t :: rest =>
      if t.abort.isSome || !t.drained r.launch then s
      else
        let l := r.launch
        let writes := l.stations.flatMap fun q =>
          if q.kind = .out then s.outWrites l t q (if q.code = 4 then h.opa.toNat else h.opb.toNat) else []
        let shadows := match l.stations.find? fun q => q.kind = .acc && !q.group with
          | some q => t.shadowsOf q
          | none => []
        let s := shadows.foldl (fun s x => s.foldSlot c x) s
        let s := s.writeMarks c l.markCfg t
        let s := s.modChain c fun h => { h with
          msc := h.msc + 1
          opa := h.opa + BitVec.ofNat 41 t.outA
          opb := h.opb + BitVec.ofNat 41 t.outB
          numf := h.numf ||| t.flags ||| (if t.replay then 0x10000 else 0)
          replays := if t.replay && h.replays ≠ 0xFFFFFFFF then h.replays + 1 else h.replays
          drains := if writes.isEmpty then h.drains else h.drains ++ [{ serial := l.serial, writes := writes }]
          run := h.run.map fun r => { r with strips := rest, inserted := r.inserted + t.insertedBy l } }
        let s0 := s
        let s := s.modChain c fun h => { h with run := h.run.map fun r => { r with
          again := if r.again = some (t.k + 1) then none else r.again } }
        if (h.stopReq && rest.isEmpty) || l.strips ≤ t.k + 1 then s.endLaunch c else s0.freedSince s c

/-! ## Drain (04 R70) -/

/-- The word-granules of a write. -/
def HeldWrite.words (w : HeldWrite) : Option (Bool × List Nat) :=
  match w.loc with
  | .here a => some (false, w.parts.flatMap fun p => granules 8 (a + p.1) p.2.length)
  | .remote a => some (true, w.parts.flatMap fun p => granules 8 (a.toNat + p.1) p.2.length)
  | .host _ => none

/-- Two writes reach one 8-byte word, or one line of host memory (15 R312). -/
def HeldWrite.meets (v w : HeldWrite) : Bool :=
  match v.loc, w.loc with
  | .host a, .host b => (granules 64 a.toNat v.len).any (granules 64 b.toNat w.len).contains
  | _, _ =>
    match v.words, w.words with
    | some (x, p), some (y, q) => x = y && p.any q.contains
    | _, _ => false

/-- The oldest drain loses write `i`; a drain without writes is done, and what it held goes back. -/
def State.drainDone (s : State) (c : ChainId) (i : Nat) : State :=
  let u := s.modChain c fun h => { h with drains := match h.drains with
    | [] => []
    | d :: t =>
      let ws := removeAt i d.writes
      if ws.isEmpty then t else { d with writes := ws } :: t }
  s.freedSince (u.dropResv c) c

/-- A drain's write fails: the chain stops (05 R99).
Log entry 36 (DEDUCED). -/
def State.drainFailed (s : State) (c : ChainId) (i : Nat) : State :=
  (((s.drainDone c i).modChain c fun h => { h with failed := true })).requestStop c

/-- The answer to write `i` of the oldest drain. -/
def State.drainReply (s : State) (c : ChainId) (i : Nat) (w : HeldWrite) : Reply → State
  | .ok _ => (s.landed w.loc w.parts).drainDone c i
  | _ => s.drainFailed c i

/-- A write of the oldest drain has an earlier one of its stream before it at the same word (04 R70); of host memory, at the
same line (15 R312). -/
def Drain.behind (d : Drain) (i : Nat) (w : HeldWrite) : Bool :=
  (d.writes.take i).any fun v =>
    (v.stream = w.stream || match w.loc with
      | .host _ => true
      | _ => false) && v.meets w

/-- DRAIN_ACCEPT: write `i` of the oldest drain.  A write to another node is accepted by the answer to the request that the
chain has sent there (14 R292). -/
def State.drainAccept (s : State) (c : ChainId) (i : Nat) (rep : Reply) : State :=
  match s.chains[c].drains with
  | [] => s
  | d :: _ =>
    match d.writes[i]? with
    | none => s
    | some w =>
      if d.behind i w then s
      else match s.reach c.val false (.drain c w) w.loc w.len (some w.parts) rep with
        | (s, some x) => s.drainReply c i w x
        | (s, none) => s

end Sys2Proof.Machine
end

