-- ==== Sys2Proof/Machine/Trap.lean ====
section
/-! DEFINITION. Data accesses of a core, trap entry, halting and the asynchronous causes (09 R184 to R191, 11 R229 to R239,
12 R247). -/

namespace Sys2Proof.Machine

/-! ## Causes (11 R231) -/

def codeInterrupt : Nat := 0x01
def codeSoftware : Nat := 0x02
def codeIllegal : Nat := 0x03
def codeBundle : Nat := 0x04
def codePrivilege : Nat := 0x05
def codeAlign : Nat := 0x06
def codeBus : Nat := 0x07
def codeDeferred : Nat := 0x08
def codeMem : Nat := 0x09
def codeItlb : Nat := 0x0A
def codeDtlb : Nat := 0x0B
def codeProt : Nat := 0x0C
def codeChain : Nat := 0x10
def codeStrip : Nat := 0x11
def codeStack : Nat := 0x12

/-- A cause: CODE, INFO and the address that its entry records. -/
structure Cause where
  code : Nat
  info : Nat
  addr : Option Word
  deriving DecidableEq, Repr

/-! ## STATUS (10 R204) -/

/-- STATUS.IE. -/
def Thread.ie (t : Thread) : Bool := t.status.getLsbD 0
/-- STATUS.LEVEL: true for K. -/
def Thread.levelK (t : Thread) : Bool := t.status.getLsbD 1
/-- The core is in barrel mode: BARREL of thread 0.
Log entry 63 (DEDUCED). -/
def Core.barrel (c : Core) : Bool := c.threads[(0 : ThreadId)].status.getLsbD 2
/-- SP. -/
def Thread.sp (t : Thread) : Word := t.a[15]

/-- CORE_CFG.DETERM, as it is in force (09 R195). -/
def Core.determ (c : Core) : Bool := c.mode.getLsbD 4
/-- The data cache is on. -/
def Core.dcacheOn (c : Core) : Bool := c.mode.getLsbD 1 && !c.determ
/-- The instruction cache is on. -/
def Core.icacheOn (c : Core) : Bool := c.mode.getLsbD 0 && !c.determ
/-- Branch-target prefetch is on. -/
def Core.btpOn (c : Core) : Bool := c.mode.getLsbD 2 && !c.determ
/-- Dual issue is on; barrel mode does not use it (09 R196). -/
def Core.dualOn (c : Core) : Bool := c.mode.getLsbD 3 && !c.determ && !c.barrel

/-- A value of CORE_CFG comes into force: a cache that it turns off is emptied (09 R185, R195). -/
def Core.setMode (c : Core) (v : Half) : Core :=
  let c := { c with mode := v, cfgDue := none }
  { c with icache := if c.icacheOn then c.icache else [], dcache := if c.dcacheOn then c.dcache else [] }

/-- A bundle ends: a value of CORE_CFG that was due comes into force (09 R195). -/
def Core.bundleOver (c : Core) : Core :=
  match c.cfgDue with
  | some v => c.setMode v.value
  | none => c

/-- A bundle boundary at which no bundle has ended: a value of CORE_CFG that another source wrote comes into force; the core's
own waits for the end of its bundle (09 R195).
Log entry 75 (DEDUCED). -/
def Core.boundary (c : Core) : Core :=
  match c.cfgDue with
  | some v => if v.own then c else c.setMode v.value
  | none => c

/-! ## A bundle that is given up (09 R192) -/

/-- The thread stands at a bundle boundary: nothing is left of a bundle that decode was reading. -/
def Thread.clear (h : Thread) : Thread :=
  { h with latch := [], waited := false, prev := none, hold := false, frame := Vector.replicate 2 .unread }

/-- The load reads a word of eret's frame. -/
def Load.ofFrame (l : Load) : Bool := match l.dest with
  | .frame _ => true
  | _ => false

/-- The bundle of thread `t` is given up: the frame reads of an eret in it have no taker any more. -/
def Core.giveUpBundle (c : Core) (t : ThreadId) : Core :=
  { c.modThread t Thread.clear with loads := c.loads.filter fun l => !(decide (l.thread = t) && l.ofFrame) }

/-- The bundles of all threads are given up. -/
def Core.giveUpBundles (c : Core) : Core :=
  { c with threads := c.threads.map Thread.clear, loads := c.loads.filter fun l => !l.ofFrame }

/-! ## Barrel mode (09 R196, R197) -/

/-- BARREL goes from 0 to 1: each of threads 1 to 3 that CORE_THR_PC enables starts, at level F (09 R197). -/
def Core.barrelOn (c : Core) : Core :=
  ([0, 1, 2] : List (Fin 3)).foldl (fun (c : Core) (i : Fin 3) =>
    let t : ThreadId := ⟨i.val + 1, by omega⟩
    if c.thrPc[i].getLsbD 0 then
      c.modThread t fun h => {
        h.clear with pc := c.thrPc[i] &&& ~~~(1 : Word), status := h.status &&& 1 ||| 4, buf := none, live := true }
    else c) c

/-- BARREL goes from 1 to 0: threads 1 to 3 stop and leave their next PC in CORE_THR_PC. -/
def Core.barrelOff (c : Core) : Core :=
  ([0, 1, 2] : List (Fin 3)).foldl (fun (c : Core) (i : Fin 3) =>
    let t : ThreadId := ⟨i.val + 1, by omega⟩
    { (c.giveUpBundle t).modThread t fun h => { h with live := false } with
      thrPc := c.thrPc.set i (c.threads[t].pc &&& ~~~(1 : Word) ||| c.thrPc[i] &&& 1) }) c

/-- Sets BARREL, which is one bit of the core: it stands in thread 0's STATUS (09 R197).
Log entry 63 (DEDUCED). -/
def Core.setBarrel (c : Core) (b : Bool) : Core :=
  let was := c.barrel
  let c := c.modThread 0 fun h => { h with status := h.status &&& 3 ||| (if b then 4 else 0) }
  if !was && b then c.barrelOn else if was && !b then c.barrelOff else c

/-- Writes STATUS of thread `t`.
Log entry 63 (DEDUCED). -/
def Core.writeStatus (c : Core) (t : ThreadId) (v : Word) : Core :=
  (c.modThread t fun h => { h with status := v &&& 3 ||| h.status &&& 4 }).setBarrel (v.getLsbD 2)

/-! ## Data accesses -/

/-- Bytes of DMEM and of IMEM. -/
def dmemSize : Nat := 0x40000
def imemSize : Nat := 0x20000

/-- Where a data access leads. -/
inductive DataLoc where
  | dmem (a : Nat)
  | far (loc : Phys) (cached : Bool)
  deriving DecidableEq, Repr

/-- INFO of DTLB_MISS.
Log entry 66 (DEDUCED). -/
def missInfo : AccKind → Nat
  | .write => 1
  | .atomic => 2
  | _ => 0

/-- The offset of a remote address lies in scratch. -/
def remoteScratch (ga : Word) : Bool :=
  let off := ga.toNat % 2 ^ 44
  scratchBase ≤ off && off < scratchBase + scratchSize

/-- The checks that follow translation, in the order of 12 R247; `va` is the effective address.
Log entries 66 (DEDUCED), 104 (DEDUCED). -/
def State.reachCheck (s : State) (levelK : Bool) (k : AccKind) (va : Word) (p : Phys) : Option Cause :=
  let bus : Cause := { code := codeBus, info := 0, addr := some va }
  match p with
  | .here off =>
    match s.place off with
    | .nothing => some bus
    | .csr =>
      if k = .atomic then some bus
      else if levelK then some { code := codePrivilege, info := 0, addr := some (s.global off) } else none
    | .ddr => if k = .atomic then some bus else none
    | .scratch => none
  | .remote ga =>
    if k = .atomic && !remoteScratch ga then some bus
    else if levelK && csrBase ≤ ga.toNat % 2 ^ 44 then some { code := codePrivilege, info := 0, addr := some ga }
    else none
  | .host _ => if k = .atomic then some bus else none

/-- What a translated access comes to: the core with its first-level TLBs filled, and the place or the cause.
Log entry 67 (DEDUCED). -/
def State.translateData (s : State) (c : Core) (levelK : Bool) (k : AccKind) (va : Word) :
    Core × Except Cause (Phys × Bool) :=
  match c.lookup false va with
  | (c, none) => (c, .error { code := codeDtlb, info := missInfo k, addr := some va })
  | (c, some e) =>
    match protFail levelK k e.data with
    | some i => (c, .error { code := codeProt, info := i, addr := some va })
    | none =>
      match s.targetOf e va with
      | none => (c, .error { code := codeBus, info := 0, addr := some va })
      | some p =>
        match s.reachCheck levelK k va p with
        | some x => (c, .error x)
        | none => (c, .ok (p, e.data.getLsbD 7))

/-- Words of `n` bytes of DMEM at `a` with a double-bit error.
Log entries 69 (DEDUCED), 91 (DESIGN CHOICE). -/
def Core.dmemBad (c : Core) (a n : Nat) : Option Nat :=
  (granules 8 a n).find? fun w => (0x4000 + w) ∈ c.badWords

/-- A load, store or atomic of `n` bytes at `ea` (09 R184, 10 R213, R214). -/
def State.dataAccess (s : State) (c : Core) (levelK : Bool) (k : AccKind) (ea : Word) (n : Nat) :
    Core × Except Cause DataLoc :=
  if ea.toNat % n ≠ 0 then (c, .error { code := codeAlign, info := 0, addr := some ea })
  else if ea.toNat < dmemSize then
    if n < 8 then (c, .error { code := codeAlign, info := 0, addr := some ea })
    else if k = .atomic then (c, .error { code := codeBus, info := 0, addr := some ea })
    else match (if k = .read then c.dmemBad ea.toNat n else none) with
      | some w => (c, .error { code := codeMem, info := 1, addr := some (BitVec.ofNat 64 (8 * w)) })
      | none => (c, .ok (.dmem ea.toNat))
  else match s.translateData c levelK k ea with
    | (c, .error x) => (c, .error x)
    | (c, .ok (p, cb)) =>
      let local' := match p with
        | .here off => s.place off = .ddr || s.place off = .scratch
        | _ => false
      (c, .ok (.far p (cb && local' && c.dcacheOn)))

/-- Words of `n` bytes of DMEM at `a` with a single-bit error, which the read corrects.
Log entry 91 (DESIGN CHOICE). -/
def Core.dmemSoft (c : Core) (a n : Nat) : List Nat := ((granules 8 a n).map (· + 0x4000)).filter (· ∈ c.soft)

/-- Single-bit errors are corrected and raise the core's corrected-error event (09 R188, 11 R240). -/
def State.fixWords (s : State) (n : CoreId) (ws : List Nat) : State :=
  if ws.isEmpty then s
  else (s.modCore n fun c => { c with soft := c.soft.filter (· ∉ ws) }).raise (0x44 + n.val)

/-- Words that are written whole have good check bits again.
Log entry 69 (DEDUCED). -/
def Core.freshWords (c : Core) (ws : List Nat) : Core :=
  { c with badWords := c.badWords.filter (· ∉ ws), soft := c.soft.filter (· ∉ ws) }

/-- Writes bytes of DMEM from the data port.
Log entry 69 (DEDUCED). -/
def Core.dmemStore (c : Core) (a : Nat) (bs : List Byte) : Core :=
  { c.freshWords ((granules 8 a bs.length).map (· + 0x4000)) with dmem := writeCells c.dmem a bs }

/-! ## Caches (09 R185) -/

/-- Puts a line first; its set keeps four lines.
Log entry 16 (DESIGN CHOICE). -/
def cachePut (l : CacheLine) (ls : List CacheLine) : List CacheLine :=
  let rest := ls.filter (·.line ≠ l.line)
  let same := rest.filter fun x => Config.cacheSet x.line = Config.cacheSet l.line
  match same.drop 3 with
  | [] => l :: rest
  | drop => l :: rest.filter fun x => !drop.contains x

/-- The line of a cache. -/
def cacheFind (ls : List CacheLine) (line : Nat) : Option CacheLine := ls.find? (·.line = line)

/-- A store updates a line that is present. -/
def Core.cacheStore (c : Core) (loc : Phys) (bs : List Byte) : Core :=
  match loc with
  | .here off =>
    { c with dcache := c.dcache.map fun l =>
        if l.line = off / 64 then { l with bytes := spliceAt l.bytes (off % 64) bs } else l }
  | _ => c

/-- Posts a store (09 R191). -/
def Core.post (c : Core) (t : ThreadId) (loc : Phys) (va : Word) (bs : List Byte) : Core :=
  { c.cacheStore loc bs with
    stores := c.stores ++ [{ thread := t, loc := loc, va := va, bytes := bs, seq := c.seq,
                              levelK := c.threads[t].levelK }]
    seq := c.seq + 1 }

/-! ## Stopping (09 R198) -/

/-- A core that has been told to stop reads STATE 0 once its long operations are over and its posted stores are
accepted.
Log entry 76 (DEDUCED). -/
def Core.settle (c : Core) : Core :=
  if !c.ctl.getLsbD 0 && c.loads.isEmpty && c.stores.isEmpty && c.divider.isNone then { c with stat := 0 } else c

/-! ## Entry (11 R234 to R237) -/

/-- The core's cycle count goes on by `n`.
Log entry 11 (DESIGN CHOICE). -/
def Core.cycles (c : Core) (n : Nat) : Core := { c with cycle := c.cycle + BitVec.ofNat 64 n }

/-- Branch-target prefetch finds the word of `a` and the one after it in IMEM or in the instruction cache (09 R193). -/
def State.prefetched (s : State) (c : Core) (a : Word) : Bool :=
  c.btpOn &&
    if a.toNat < imemSize then true
    else match c.first true a with
      | none => false
      | some e =>
        match s.targetOf e a with
        | some (.here off) =>
          c.icache.any (fun l => l.line = off / 64) && c.icache.any fun l => l.line = (off + 8) / 64
        | _ => false

/-- The fetch buffer at a target that is not the next address in sequence (09 R189, R193). -/
def State.targetBuf (s : State) (c : Core) (a : Word) : Option Nat :=
  if s.prefetched c a then some (a.toNat / 8) else none

/-- CYCLE goes on by a count that the spec does not state: what a wait that an entry cuts off, or a bundle that faults, had
taken, and what a core that was stopped let pass.
Log entry 11 (DESIGN CHOICE). -/
def State.cyclesFree (s : State) (n : CoreId) : State := (s.modCore n (·.cycles (Config.freeNat s.free))).tick

/-- A core halts: STATE 3, EVT_HALT and the core-halted event (11 R236). -/
def State.haltCore (s : State) (n : CoreId) (t : ThreadId) (reason : Nat) : State :=
  let s := s.modCore n fun c => { c.giveUpBundles with stat := 3 }
  let s := { s with evt := { s.evt with
    halt := cellSet s.evt.halt n.val (BitVec.ofNat 32 (t.val <<< 8 + reason)) } }
  s.raise (0x20 + n.val)

/-- The places of the two words of a frame at `sp`: in DMEM, or translated for a write.
Log entry 65 (DEDUCED). -/
def State.pushPlace (s : State) (c : Core) (levelK : Bool) (a : Word) : Core × Option DataLoc :=
  match s.dataAccess c levelK .write a 8 with
  | (c, .ok l) => (c, some l)
  | (c, .error _) => (c, none)

/-- Entry has room for its pushes: each of the two words outside DMEM is a posted store.
Log entry 65 (DEDUCED). -/
def Core.entryRoom (c : Core) (t : ThreadId) : Bool :=
  let sp := c.threads[t].sp
  let far := fun (a : Word) => b2n (decide (dmemSize ≤ a.toNat))
  far (sp - 16) + far (sp - 8) = 0 || decide (c.stores.length + far (sp - 16) + far (sp - 8) ≤ 8)

/-- One push: a word of DMEM, or a posted store.
Log entry 65 (DEDUCED). -/
def Core.push (c : Core) (t : ThreadId) (a v : Word) : DataLoc → Core
  | .dmem x => c.dmemStore x (bytesOf 8 v.toNat)
  | .far loc _ => c.post t loc a (bytesOf 8 v.toNat)

/-- A sequencer of a KERNEL_RUN has executed trap with MOD = 0: its kernel has ended, and D0 is kept for
INLINE_RESULT (03 R416, 10 R222). -/
def State.kernelEnd (s : State) (n : CoreId) (t : ThreadId) : State :=
  { s with aci := { s.aci with cmds := s.aci.cmds.map fun k =>
      if k.started && (k.phase == .running) && fieldAt k.entry 0 1 = 0x10 && (fieldAt k.entry 32 4).testBit n.val
          && (alookup n.val k.ends).isNone then
        let low := ((upto 32).find? fun i => (fieldAt k.entry 32 4).testBit i) == some n.val
        { k with
          ends := k.ends ++ [(n.val, SeqEnd.normal)]
          inline := if low then s.cores[n].threads[t].d[0] else k.inline }
      else k } }

/-- Trap entry of thread `t` of core `n` for a cause, resuming at `era` (11 R234).
Log entry 65 (DEDUCED). -/
def State.trapEntry (s : State) (n : CoreId) (t : ThreadId) (x : Cause) (era : Word) : State :=
  let s := match x.addr with
    | some a => { s with evt := { s.evt with taddr := cellSet s.evt.taddr (n.val * 4 + t.val) a } }
    | none => s
  let h := s.cores[n].threads[t]
  let slim := s.cores[n].slim.toNat
  let r := if 1024 ≤ slim then slim - 1024 else 0
  let sp := h.sp
  let set := fun (s : State) (info code : Nat) =>
    s.modThread n t fun h => { h with cause := BitVec.ofNat 64 (info % 256 * 256 + code) }
  let s := s.modCore n fun c => (c.giveUpBundle t).modThread t fun h => { h with era := era &&& ~~~(1 : Word), est := h.status }
  let s := set s x.info x.code
  if sp.toNat % 8 ≠ 0 then s.haltCore n t 1
  else if sp.toNat < r + 16 then s.haltCore n t 2
  else
    let s := if sp.toNat < slim + 16 then set s x.code codeStack else s
    let (c, p0) := s.pushPlace s.cores[n] h.levelK (sp - 16)
    let (c, p1) := s.pushPlace c h.levelK (sp - 8)
    let s := s.modCore n fun _ => c
    match p0, p1 with
    | some l0, some l1 =>
      let s := if x.code = codeSoftware && x.info = 0 && h.levelK then s.kernelEnd n t else s
      let det := match l0 with
        | .dmem _ => c.determ
        | _ => false
      let buf := s.targetBuf c (c.evb &&& ~~~(1 : Word))
      let s := s.modCore n fun c =>
        (((c.push t (sp - 16) (era &&& ~~~(1 : Word)) l0).push t (sp - 8) h.status l1).modThread t fun h =>
          { h with
            a := h.a.set 15 (sp - 16)
            status := h.status &&& 4
            pc := c.evb &&& ~~~(1 : Word)
            buf := buf }).cycles (if det then 3 else 3 + Config.freeNat s.free)
      if det then s else s.tick
    | _, _ => s.haltCore n t 3

/-- Entry for a precise fault of the bundle at pc, which is over (11 R234, 09 R195). -/
def State.faultEntry (s : State) (n : CoreId) (t : ThreadId) (x : Cause) : State :=
  ((s.cyclesFree n).modCore n (·.bundleOver)).trapEntry n t x s.cores[n].threads[t].pc

/-! ## Asynchronous causes (11 R232, R233) -/

/-- An asynchronous cause that is due. -/
inductive Due where
  | deferred (d : Deferred)
  | stream (x : StreamCause)
  | strip (cond : Nat)
  | interrupt (line : Nat)
  deriving DecidableEq, Repr

/-- The cause that a thread takes next, if its STATUS.IE allows one (11 R233); stream causes and interrupts are thread
0's (09 R196). -/
def State.due (s : State) (n : CoreId) (t : ThreadId) : Option Due :=
  let c := s.cores[n]
  if !c.threads[t].ie then none
  else match c.deferred.find? (·.thread = t) with
    | some d => some (.deferred d)
    | none =>
      if t ≠ 0 then none
      else
        let chain : Option Due :=
          match chainOf n with
          | none => none
          | some k =>
            match s.chains[k].cause with
            | some x => some (.stream x)
            | none => if s.chains[k].excHeld then some (.strip (s.chains[k].exs.extractLsb' 45 4).toNat) else none
        match chain with
        | some x => some x
        | none => if s.anyLine n then some (.interrupt (lowestBit (s.lines n))) else none

/-- Removes the first deferred error of a thread. -/
def dropDeferred (t : ThreadId) : List Deferred → List Deferred
  | [] => []
  | d :: l => if d.thread = t then l else d :: dropDeferred t l

/-- Takes a due cause at the boundary before the bundle at pc: a waiting bundle is abandoned (09 R192). -/
def State.takeDue (s : State) (n : CoreId) (t : ThreadId) (x : Due) : State :=
  let era := s.cores[n].threads[t].pc
  let s := (if s.cores[n].threads[t].waited then s.cyclesFree n else s).modCore n Core.boundary
  match x with
  | .deferred d =>
    (s.modCore n fun c => { c with deferred := dropDeferred t c.deferred }).trapEntry n t
      { code := codeDeferred, info := d.info.toNat, addr := some d.addr } era
  | .stream x =>
    let s := match chainOf n with
      | some k => s.modChain k fun h => { h with cause := none }
      | none => s
    s.trapEntry n t { code := x.code.toNat, info := x.info.toNat, addr := some x.addr } era
  | .strip cond =>
    let s := match chainOf n with
      | some k => s.modChain k fun h => { h with excHeld := false }
      | none => s
    s.trapEntry n t { code := codeStrip, info := cond, addr := none } era
  | .interrupt l => s.trapEntry n t { code := codeInterrupt, info := l, addr := none } era

/-- The core runs, no stop is asked of it, and thread `t` of it runs (09 R198). -/
def Core.runs (c : Core) (t : ThreadId) : Bool := decide (c.stat = 1) && c.ctl.getLsbD 0 && c.threads[t].live

/-- TRAP_ENTRY: at a bundle boundary, or from a waiting bundle, a held cause is taken.
Log entry 61 (DESIGN CHOICE). -/
def State.asyncEntry (s : State) (n : CoreId) (t : ThreadId) : State :=
  let c := s.cores[n]
  let h := c.threads[t]
  if c.runs t && (h.latch.isEmpty || h.waited) then
    match s.due n t with
    | some x => if c.entryRoom t then s.takeDue n t x else s
    | none => s
  else s

/-- WFI_WAKE: an asserted line ends STATE 2 (10 R224).
Log entry 77 (DEDUCED). -/
def State.wfiWake (s : State) (n : CoreId) : State :=
  if s.cores[n].stat = 2 && s.cores[n].ctl.getLsbD 0 && s.anyLine n then
    let s := (s.modCore n fun c => { c with stat := 1 }).modCore n (·.cycles (Config.freeNat s.free))
    s.tick.asyncEntry n 0
  else s

end Sys2Proof.Machine
end

