-- ==== Sys2Proof/Machine/CoreMem.lean ====
section
/-! DEFINITION. How long operations of a core end (09 R191): what a load, an atomic, a posted store or a fetch does once
memory or the outside has answered it. -/

namespace Sys2Proof.Machine

/-- CCLK is stopped, by a clock switch (17 R356) or with every other clock. -/
def State.cclkStopped (s : State) : Bool := s.plls[(0 : PllId)].switching || s.clocksOff

/-- Bytes that a load or an atomic returns. -/
def LoadKind.size : LoadKind → Nat
  | .read n _ => n
  | .chainAcc _ _ => 16
  | _ => 8

/-- A long operation that is not a chain-register read. -/
def LoadKind.isMem : LoadKind → Bool
  | .chainReg _ _ => false
  | .chainAcc _ _ => false
  | _ => true

/-- The outstanding load of a number. -/
def Core.loadOf (c : Core) (seq : Nat) : Option Load := c.loads.find? (·.seq = seq)

/-- A load ends with a value. -/
def Core.endLoad (c : Core) (l : Load) (v : Desc) : Core :=
  ({ c with loads := c.loads.filter (·.seq ≠ l.seq) }.setReg l.thread l.dest v).settle

/-- A frame read has failed: eret knows no value of that word.
Log entry 68 (DESIGN CHOICE). -/
def Core.failFrame (c : Core) (l : Load) : Core :=
  match l.dest with
  | .frame i => c.modThread l.thread fun h => { h with frame := h.frame.set i .failed }
  | _ => c

/-- A load ends without one: its register keeps its value, and a deferred error waits (10 R211, 11 R233).
Log entry 163 (DEDUCED). -/
def Core.failLoad (c : Core) (l : Load) (info : BitVec 8) : Core :=
  Core.settle { c.failFrame l with
    loads := c.loads.filter (·.seq ≠ l.seq)
    deferred := c.deferred ++ [{ thread := l.thread, info := info, addr := l.va }] }

/-- The value that a load's bytes give its register. -/
def LoadKind.value (k : LoadKind) (bs : List Byte) : Desc :=
  match k with
  | .read _ sext => loadValue bs sext
  | _ => loadValue bs false

/-- The bytes of a load end it. -/
def State.loadBytes (s : State) (n : CoreId) (l : Load) (bs : List Byte) : State :=
  s.modCore n fun c => c.endLoad l (l.kind.value bs)

/-- INFO of DEFERRED for an answer that is no data (11 R231). -/
def replyInfo : Reply → BitVec 8
  | .poison => 2
  | .hostError => 3
  | _ => 1

/-- An answer from outside the device ends a load; data of another length leaves it waiting. -/
def State.loadReply (s : State) (n : CoreId) (l : Load) (r : Reply) : State :=
  match r with
  | .ok bs =>
    if bs.length = l.kind.size then
      let s := match l.kind, l.loc with
        | .aadd v, .remote ga => s.emit (.farAtomic ga 0 v)
        | .aswp v, .remote ga => s.emit (.farAtomic ga 2 v)
        | _, _ => s
      s.loadBytes n l bs
    else s
  | .owed => s
  | r => s.modCore n fun c => c.failLoad l (replyInfo r)

/-- The bytes of the core's posted stores that fall in a line, over those that memory gave (10 R213). -/
def overStores (line : Nat) (bs : List Byte) (sts : List Store) : List Byte :=
  forwardStores (.here (line * 64)) bs sts

/-- The 64 B line of a load's place answers it: a cached miss fills the data cache (09 R185). -/
def State.loadLine (s : State) (n : CoreId) (l : Load) (off : Nat) (a : ReadAns) : State :=
  if a.poison then s.modCore n fun c => c.failLoad l 2
  else
    let s := s.loadBytes n l (sliceAt a.bytes (off % 64) l.kind.size)
    s.modCore n fun c =>
      if l.cached && c.dcacheOn then
        { c with dcache := cachePut { line := off / 64, bytes := overStores (off / 64) a.bytes c.stores } c.dcache }
      else c

/-- A held DDR read of a core is served. -/
def State.loadServed (s : State) (n : CoreId) (seq : Nat) (a : ReadAns) : State :=
  match s.cores[n].loadOf seq with
  | none => s
  | some l =>
    match l.loc with
    | .here off => s.loadLine n l off a
    | _ => s

/-- The oldest posted store has been accepted. -/
def State.storeDone (s : State) (n : CoreId) : State := s.modCore n fun c => Core.settle { c with stores := c.stores.tail }

/-- The oldest posted store has failed: a deferred error waits.
Log entry 163 (DEDUCED). -/
def State.storeFail (s : State) (n : CoreId) (info : BitVec 8) : State :=
  s.modCore n fun c => match c.stores with
    | [] => c
    | x :: t => Core.settle { c with stores := t, deferred := c.deferred ++ [{ thread := x.thread, info := info, addr := x.va }] }

/-- An answer from outside ends the oldest posted store. -/
def State.storeReply (s : State) (n : CoreId) (r : Reply) : State :=
  match s.cores[n].stores, r with
  | [], _ => s
  | x :: _, .ok _ =>
    (s.storeDone n).landed x.loc [(0, x.bytes)]
  | _, .owed => s
  | _, r => s.storeFail n (replyInfo r)

/-! ## Instruction fetch (10 R211) -/

/-- The bundle at pc takes a precise fault because the fetch of one of its words failed, once its pushes have room; a due
asynchronous cause comes first (11 R233).  A failed fetch ahead of the bundle changes nothing: a bundle has at most 40 bytes
(10 R208).
Log entry 74 (DEDUCED). -/
def State.fetchFault (s : State) (n : CoreId) (t : ThreadId) (va : Word) (x : Cause) : State :=
  let c := s.cores[n]
  let h := c.threads[t]
  if !c.entryRoom t || !c.runs t || 40 ≤ (va - h.pc).toNat then s
  else if h.latch.isEmpty || h.waited then
    match s.due n t with
    | some d => s.takeDue n t d
    | none => s.faultEntry n t x
  else s.faultEntry n t x

/-- The cause of a failed fetch at `va`. -/
def fetchCause (va : Word) : Reply → Cause
  | .poison => { code := codeMem, info := 2, addr := some va }
  | _ => { code := codeBus, info := 0, addr := some va }

/-- An answer to a fetch at `va` from a place outside the device. -/
def State.fetchReply (s : State) (n : CoreId) (t : ThreadId) (va : Word) (r : Reply) : State :=
  match r with
  | .ok _ => s
  | .owed => s
  | r => s.fetchFault n t va (fetchCause va r)

/-- A line of local memory answers a fetch: it fills the instruction cache when the page is cacheable. -/
def State.fetchLine (s : State) (n : CoreId) (t : ThreadId) (va : Word) (off : Nat) (cb : Bool) (a : ReadAns) : State :=
  if a.poison then s.fetchFault n t va (fetchCause va .poison)
  else s.modCore n fun c =>
    if cb && c.icacheOn then { c with icache := cachePut { line := off / 64, bytes := a.bytes } c.icache } else c

/-- Where a fetch at `va` leads, and whether its page is cacheable; none where the fetch has a fault of its own or needs no
response. -/
def State.fetchPlace (s : State) (c : Core) (levelK : Bool) (va : Word) : Core × Option (Phys × Bool) :=
  if va.toNat < imemSize then (c, none)
  else match c.lookup true va with
    | (c, none) => (c, none)
    | (c, some e) =>
      match protFail levelK .fetch e.data, s.targetOf e va with
      | none, some p => (c, if (s.reachCheck levelK .fetch va p).isNone then some (p, e.data.getLsbD 7) else none)
      | _, _ => (c, none)

/-- A line of DDR that a fetch waited for arrives; a fetch that no longer leads there drops it. -/
def State.fetchServed (s : State) (n : CoreId) (t : ThreadId) (va : Word) (line : Nat) (a : ReadAns) : State :=
  let (c, p) := s.fetchPlace s.cores[n] s.cores[n].threads[t].levelK va
  match p with
  | some (.here off, cb) => if off / 64 = line then (s.modCore n fun _ => c).fetchLine n t va off cb a else s
  | _ => s

/-! ## Answers (15 R310, R311; 16 R336) -/

/-- Index of the strip whose attempt has number `att`. -/
def Chain.stripAt (h : Chain) (att : Nat) : Option Nat :=
  match h.run with
  | none => none
  | some r => r.strips.findIdx? (·.att = att)

/-- The flights of a station of a strip. -/
def Chain.flightsAt (h : Chain) (i p : Nat) : List Flight :=
  match h.run with
  | none => []
  | some r =>
    match r.strips[i]? with
    | none => []
    | some t => ((t.stations[p]?).map (·.flight)).getD []

/-- The access is a core's: a load, a posted store or a fetch. -/
def Wanted.ofCore : Wanted → Bool
  | .load _ _ => true
  | .store _ => true
  | .fetch _ _ _ => true
  | _ => false

/-- An answer waits for a core whose clock is stopped (17 R356).
Log entry 164 (DESIGN CHOICE). -/
def State.delay (s : State) (x : Late) : State := { s with chip := { s.chip with late := s.chip.late ++ [x] } }

/-- An answer acts on the access that it is for; an answer that nothing waits for any more is dropped. -/
def State.answerNow (s : State) (w : Wanted) (r : Reply) : State :=
  let strip := fun (c : ChainId) (att : Nat) (g : Nat → State) => match s.chains[c].stripAt att with
    | some i => g i
    | none => s
  match w with
  | .load n seq =>
    match s.cores[n].loadOf seq with
    | some l => s.loadReply n l (fitReply r l.loc.low l.kind.size)
    | none => s
  | .store n => s.storeReply n r
  | .fetch n t va => s.fetchReply n t va r
  | .line c att stream va => strip c att fun i => s.lineReply c i att stream va r
  | .drain c w =>
    match s.chains[c].drains with
    | [] => s
    | d :: _ =>
      match d.writes.findIdx? (· = w) with
      | some i => s.drainReply c i w r
      | none => s
  | .flight c att parcel f => strip c att fun i =>
    match (s.chains[c].flightsAt i parcel).findIdx? (· = f) with
    | some j => s.stationAnswer c i parcel j r true
    | none => s
  | .dict c att parcel => strip c att fun i => s.stationAnswer c i parcel 0 r true
  | .dir c serial att k stream va => s.dirAnswer c serial att k stream va r
  | .fw m handle wr ptr line => s.fwAnswer m handle wr ptr line r
  | .entry handle => s.entryAnswer handle r

/-- An answer reaches the access that it is for; it waits for a core whose clock is stopped (17 R356).
Log entry 164 (DESIGN CHOICE). -/
def State.answer (s : State) (w : Wanted) (r : Reply) : State :=
  if w.ofCore && s.cclkStopped then s.delay (.reply w r) else s.answerNow w r

/-- What a line of memory does to the access of a core that it answers. -/
def State.lineNow (s : State) (w : Wanted) (line : Nat) (a : ReadAns) : State :=
  match w with
  | .load n seq => s.loadServed n seq a
  | .store n => s.storeDone n
  | .fetch n t va => s.fetchServed n t va line a
  | _ => s

/-- An answer that waited for CCLK acts. -/
def State.lateNow (s : State) : Late → State
  | .reply w r => s.answerNow w r
  | .line w line bs p => s.lineNow w line { bytes := bs, poison := p }

/-- The answers that wait for a core act, once CCLK runs.
Log entry 164 (DESIGN CHOICE). -/
def State.flushLate (s : State) : State :=
  if s.cclkStopped then s
  else s.chip.late.foldl (fun s x => s.lateNow x) { s with chip := { s.chip with late := [] } }

end Sys2Proof.Machine
end

