-- ==== Sys2Proof/Machine/CoreCtl.lean ====
section
/-! DEFINITION. The registers of a CORE_ instance (02 R27, 09, 12 R248 to R250, 14): starting and stopping a core, its modes,
its doorbells, its TLB commands, its windows. -/

namespace Sys2Proof.Machine

/-! ## Starting and stopping (09 R198, 11 R236) -/

/-- RUN goes from 0 to 1: thread 0 starts at CORE_ENTRY at the level that CORE_CTL.LEVEL gives.
Log entries 76 (DEDUCED), 162 (DESIGN CHOICE). -/
def State.coreStart (s : State) (n : CoreId) : State :=
  let s := (s.cyclesFree n).modCore n fun c => { c.boundary.giveUpBundle 0 with stat := 1 }.modThread 0 fun h => { h with
    pc := c.entry
    status := (h.status &&& ~~~(2 : Word)) ||| (if c.ctl.getLsbD 1 then 2 else 0)
    buf := none
    live := true }
  { s with evt := { s.evt with halt := cellSet s.evt.halt n.val 0 } }

/-- RUN goes from 1 to 0: the core stops at the bundle boundary at which it stands; a waiting bundle, and one that decode
is still reading, are abandoned.
Log entry 76 (DEDUCED). -/
def State.coreStop (s : State) (n : CoreId) : State :=
  s.modCore n fun c => c.boundary.giveUpBundles.settle

/-- A write of CORE_CTL. -/
def State.coreCtl (s : State) (n : CoreId) (v : Half) : State :=
  let was := s.cores[n].ctl.getLsbD 0
  let s := s.modCore n fun c => { c with ctl := v &&& 3 }
  if !was && v.getLsbD 0 then s.coreStart n
  else if was && !v.getLsbD 0 then s.coreStop n
  else s

/-- No bundle of the core is under way. -/
def Core.atBoundary (c : Core) : Bool := c.threads.all fun h => h.latch.isEmpty && !h.waited

/-- A write of CORE_CFG: the core's own acts from the second bundle after the writing one, another source's at the core's
next bundle boundary (09 R195).
Log entry 75 (DEDUCED). -/
def Core.writeCfg (c : Core) (v : Half) (own : Bool) : Core :=
  let c := { c with cfg := v &&& 0x1F }
  if !own && c.atBoundary then c.setMode (v &&& 0x1F)
  else { c with cfgDue := some { value := v &&& 0x1F, own := own } }

/-- The writer's bit of CORE_DB_PEND (09 R200). -/
def ringBit : Src → Nat
  | .core n => n.val
  | _ => 63

/-- A ring of core `n` (09 R200). -/
def Core.ring (c : Core) (src : Src) : Core := { c with dbPend := c.dbPend ||| (1 : Word) <<< ringBit src }

/-- The bits of the doorbell registers. -/
def doorbellMask : Word := 0x8000000FFFFFFFFF

/-! ## CORE_TLB_CMD (12 R248, R249) -/

/-- A write of CORE_TLB_CMD; a waiting stream translation retries after WRITE_L2, with the directory words given.
Log entry 75 (DEDUCED). -/
def State.tlbCmd (s : State) (n : CoreId) (v : Half) (dir : List Word) : State :=
  let way := (v.extractLsb' 20 4).toNat
  let slot := (v.extractLsb' 12 4).toNat
  if v &&& 0xFF070FF0 ≠ 0 || 8 ≤ way || 4 ≤ slot then s
  else match (v.extractLsb' 0 4).toNat with
    | 1 =>
      let s := s.modCore n fun c => c.writeL2 way (v.getLsbD 19)
      match chainOf n with
      | some c => s.retryTranslate c dir
      | none => s
    | 2 => s.modCore n fun c => c.writeIlock ⟨slot % 4, by omega⟩
    | 3 => s.modCore n fun c => c.writeDlock ⟨slot % 4, by omega⟩
    | 4 => s.tlbInval n (.va s.cores[n].tlbTag)
    | 5 => s.tlbInval n .user
    | 6 => s.tlbInval n .all
    | 7 => s.modCore n Core.clearLocks
    | 8 => s.modCore n (·.readL2 way)
    | _ => s

/-- A write of CORE_TLB_SCTL (12 R254, R255): ignored while no translation waits. -/
def State.sctl (s : State) (c : ChainId) (v : Half) (dir : List Word) : State :=
  let waits := match s.chains[c].run with
    | some r => match r.trans with
      | some t => t.waiting
      | none => false
    | none => false
  if !waits then s
  else match (v.extractLsb' 0 2).toNat with
    | 1 => s.retryTranslate c dir
    | 2 => s.abandonTranslate c
    | _ => s

/-! ## The instance's registers -/

/-- Bytes of the register that starts at an offset of instance `n`; none if no register starts there. -/
def coreRegWidth (n : CoreId) (off : Nat) : Option Nat :=
  if off < 0x60000 then (if off % 8 = 0 then some 8 else none)
  else if off < 0x80000 then none
  else if off < 0x80800 then (if n.val < 32 then chainRegWidth (off - 0x80000) else none)
  else match off with
    | 0x80800 => some 8
    | 0x80808 => some 8
    | 0x80810 => some 4
    | 0x80814 => if n.val < 32 then some 4 else none
    | 0x80818 => some 8
    | 0x80820 => if n.val < 32 then some 4 else none
    | 0x90000 => some 4
    | 0x90004 => some 4
    | 0x90008 => some 4
    | 0x90010 => some 8
    | 0x90020 => some 8
    | 0x90028 => some 8
    | 0x90030 => some 8
    | 0x90100 => some 4
    | 0x90108 => some 8
    | 0x90110 => some 8
    | _ => none

/-- The chain of instance `n`, with a value for an instance that has none. -/
def State.ofChain {α : Type} (s : State) (n : CoreId) (none' : α) (g : Chain → α) : α :=
  match chainOf n with
  | some c => g s.chains[c]
  | none => none'

/-- Reads a register of instance `n` at its offset.  A word with a double-bit error is not used: a window read of it
returns a free value.
Log entries 28 (DEDUCED), 69 (DEDUCED). -/
def State.coreRegRead (s : State) (n : CoreId) (off : Nat) : State × Word :=
  let c := s.cores[n]
  if off < 0x60000 then
    let s := if off / 8 ∈ c.soft then s.fixWords n [off / 8] else s
    if off / 8 ∈ c.badWords then (s.tick, Config.freeWord s.free)
    else if off < 0x20000 then (s, wordOf (readCells c.imem off 8))
    else (s, wordOf (readCells c.dmem (off - 0x20000) 8))
  else if off < 0x80800 then (s, s.ofChain n 0 fun h => h.read (off - 0x80000))
  else (s, match off with
    | 0x80800 => c.tlbTag &&& 0xFFFFFFFFFFFF0300
    | 0x80808 => c.tlbData &&& 0xFFFFFFFFFFFF03FB
    | 0x80818 => c.tlbStat
    | 0x80820 => s.ofChain n 0 fun h => h.srec.setWidth 64
    | 0x90000 => c.cfg.setWidth 64
    | 0x90004 => c.ctl.setWidth 64
    | 0x90008 => BitVec.ofNat 64 (b2n c.barrel <<< 8 + c.stat.toNat)
    | 0x90010 => c.entry
    | 0x90020 => c.thrPc[0]
    | 0x90028 => c.thrPc[1]
    | 0x90030 => c.thrPc[2]
    | 0x90108 => c.dbPend
    | 0x90110 => c.dbEn
    | _ => 0)

/-- Writes a register of instance `n` at its offset. -/
def State.coreRegWrite (s : State) (n : CoreId) (off : Nat) (v : Word) (src : Src) (dir : List Word) : State :=
  let h : Half := v.setWidth 32
  if off < 0x60000 then
    s.modCore n fun c =>
      let c := c.freshWords [off / 8]
      if off < 0x20000 then { c with imem := writeCells c.imem off (bytesOf 8 v.toNat) }
      else { c with dmem := writeCells c.dmem (off - 0x20000) (bytesOf 8 v.toNat) }
  else if off < 0x80800 then
    match chainOf n with
    | some c => s.chainWrite c (off - 0x80000) v
    | none => s
  else match off with
    | 0x80800 => s.modCore n fun c => { c with tlbTag := v }
    | 0x80808 => s.modCore n fun c => { c with tlbData := v }
    | 0x80810 => s.tlbCmd n h dir
    | 0x80814 =>
      match chainOf n with
      | some c => s.sctl c h dir
      | none => s
    | 0x90000 => s.modCore n (·.writeCfg h (src == .core n))
    | 0x90004 => s.coreCtl n h
    | 0x90010 => s.modCore n fun c => { c with entry := v &&& ~~~(1 : Word) }
    | 0x90020 => s.modCore n fun c => { c with thrPc := c.thrPc.set 0 v }
    | 0x90028 => s.modCore n fun c => { c with thrPc := c.thrPc.set 1 v }
    | 0x90030 => s.modCore n fun c => { c with thrPc := c.thrPc.set 2 v }
    | 0x90100 => if h.getLsbD 0 then s.modCore n (·.ring src) else s
    | 0x90108 => s.modCore n fun c => { c with dbPend := c.dbPend &&& ~~~(v &&& doorbellMask) }
    | 0x90110 => s.modCore n fun c => { c with dbEn := v &&& doorbellMask }
    | _ => s

/-- TLB_INVAL_EFFECT: invalidations whose pages no issued strip uses any more take effect (12 R255).
Log entry 47 (DEDUCED). -/
def execTlbInvalEffect (n : CoreId) (s : State) : Outcome :=
  let keep := s.cores[n].invals.filter fun i => s.ofChain n false fun h => h.usesPage i
  .next (s.modCore n fun c => { c with invals := keep })

end Sys2Proof.Machine
end

