-- ==== Sys2Proof/Machine/Clock.lean ====
section
/-! DEFINITION. The loops' registers (17 R353 to R356): coasting, CLK_PLL, and the writes that switch a clock. -/

namespace Sys2Proof.Machine

/-! ## Loops (17 R355, R356) -/

/-- The loop has no source: it takes CLKIN, and CLKIN is absent. -/
def State.sourceGone (s : State) (k : PllId) : Bool := !s.plls[k].ref && !s.chip.clkin

/-- A loop coasts: LOSS and COAST are set, LOCK clears, and its event is raised as LOSS goes to 1. -/
def State.pllCoast (s : State) (k : PllId) : State :=
  let was := s.plls[k].loss
  let s := s.modPll k fun p => { p with loss := true, coast := true, lock := false }
  if was then s else s.raise (0x2A0 + k)

/-- The DDR controllers of a DPLL. -/
def ctrlsOf (k : PllId) : List CtrlId := (List.finRange 16).filter fun n => dpllOf n = k

/-- POSTDIV as it reads: a reserved value, above 64, reads as zero (00 R10).
Log entry 109 (DESIGN CHOICE). -/
def Pll.postdivRead (p : Pll) : Nat := if p.postdiv.toNat ≤ 64 then p.postdiv.toNat else 0

/-- The register's value. -/
def Pll.word (p : Pll) : Word :=
  BitVec.ofNat 64 (b2n p.loss <<< 31 + b2n p.coast <<< 30 + b2n p.lock <<< 29 + b2n p.ref <<< 24 + p.mult.toNat <<< 16
    + p.postdivRead)

/-- A write that acts: LOSS is cleared by a 1; a change of POSTDIV alone is a quick switch, a change of REF or MULT or a
write while the loop coasts a relock; the domain stops, and the controllers of a DPLL enter self-refresh.
Log entry 150 (DEDUCED). -/
def State.pllAct (s : State) (k : PllId) (v : Half) : State :=
  let p := s.plls[k]
  let mult : Byte := v.extractLsb' 16 8
  let post : Byte := v.extractLsb' 0 8
  let relock := p.coast || p.ref != v.getLsbD 24 || p.mult != mult
  let switch := relock || p.postdiv != post
  let s := s.modPll k fun p => { p with
    loss := p.loss && !v.getLsbD 31
    ref := v.getLsbD 24, mult := mult, postdiv := post
    switching := switch, relock := relock, lock := p.lock && !relock }
  if switch then
    (ctrlsOf k).foldl (fun s n => s.modDdr n fun d => if d.state = 2 then { d with state := 3 } else d) s
  else s

/-- A write of CLK_PLL[k]; during a switch it is held.
Log entry 150 (DEDUCED). -/
def State.pllWrite (s : State) (k : PllId) (v : Half) : State :=
  if s.plls[k].switching then s.modPll k fun p => { p with held := p.held ++ [v] } else s.pllAct k v

/-- The writes held behind a switch act, up to one that switches again. -/
def State.pllHeld (s : State) (k : PllId) : List Half → State
  | [] => s
  | v :: t =>
    if s.plls[k].switching then s.modPll k fun p => { p with held := v :: t } else (s.pllAct k v).pllHeld k t

end Sys2Proof.Machine
end

