-- ==== Sys2Proof/Machine/Ddr.lean ====
section
/-! DEFINITION. Scratch banks and DDR controllers (chapter 13): bring-up, self-refresh, refresh rate, patrol scrub, and
one request at a bank. -/

namespace Sys2Proof.Machine

/-! ## Bring-up (13 R268 to R271, 02 R21) -/

/-- Firmware runs. -/
def State.firmware (s : State) : Bool := s.chip.phase == .firmware

/-- DDR_INIT.STATE. -/
def State.ddrInit (s : State) : Nat := (s.mem.init.extractLsb' 0 3).toNat

/-- The speeds of 13 R268 in MT/s, by their SPEED code; the first three are DDR5's, the others MRDIMM's. -/
def speeds : List Nat := [4800, 5600, 6400, 8000, 8800]

/-- The SPEED code at which a module can run: the fastest of its type that is no faster than its rating (13 R268, R269);
none for a module that is slower than every one.
Log entry 82 (DEDUCED). -/
def dimmCode (d : Dimm) : Option Nat :=
  ((if d.kind == .mrdimm then [4, 3] else [2, 1, 0]) : List Nat).find? fun i => speeds.getD i 0 ≤ d.speed

/-- A module within the limits of 13 R268 and R269. -/
def dimmSupported (d : Dimm) : Bool :=
  (dimmCode d).isSome && d.ecc && (d.width = 4 || d.width = 8) && (d.density = 16 || d.density = 24 || d.density = 32)
    && (d.ranks = 1 || d.ranks = 2) &&
  match d.kind with
  | .rdimm => d.stack = 1 && decide (16 ≤ d.gib) && decide (d.gib ≤ 128)
  | .rdimm3ds => (d.stack = 2 || d.stack = 4 || d.stack = 8) && decide (128 ≤ d.gib) && decide (d.gib ≤ 512)
  | .mrdimm => d.stack = 1 && decide (32 ≤ d.gib) && decide (d.gib ≤ 256)
  | .other => false

/-- The modules of the 16 controllers' slots as found. -/
def allSlots (slots : List (Slot × Slot)) : List (Slot × Slot) := (upto 16).map fun i => slots.getD i (.empty, .empty)

/-- The readable modules, slot 0 before slot 1. -/
def dimmsOf (slots : List (Slot × Slot)) : List Dimm :=
  (allSlots slots).flatMap fun p => [p.1, p.2].filterMap fun x => match x with
    | .dimm d => some d
    | _ => none

/-- Type, capacity, width, density, ranks and stack agree (13 R270). -/
def dimmsAlike (a b : Dimm) : Bool :=
  a.kind = b.kind && a.gib = b.gib && a.width = b.width && a.density = b.density && a.ranks = b.ranks
    && a.stack = b.stack

/-- The population breaks R21 or R270. -/
def populationBroken (slots : List (Slot × Slot)) : Bool :=
  let ss := allSlots slots
  let two := ss.map fun p => p.2 != .empty
  ss.any (fun p => p.1 == .empty) || !(two.all id || two.all (!·)) ||
  match dimmsOf slots with
  | [] => true
  | d :: t => t.any fun e => !dimmsAlike d e

/-- Some module is unsupported; an MRDIMM in slot 1 is outside the rows of 13 R269. -/
def unsupportedModule (slots : List (Slot × Slot)) : Bool :=
  (dimmsOf slots).any fun d => !dimmSupported d

/-- Two MRDIMMs at one controller (13 R269). -/
def pairedMrdimm (slots : List (Slot × Slot)) : Bool :=
  (allSlots slots).any fun p => match p.2 with
    | .dimm d => d.kind == .mrdimm
    | _ => false

/-- The speed every controller runs at (13 R269). -/
def speedOf (ds : List Dimm) : Nat :=
  ds.foldl (fun v d => min v ((dimmCode d).getD 0)) 4

/-- D of a population: its capacity in bytes, at most 16 TiB − 1 GiB (02 R18). -/
def capacityOf (ds : List Dimm) : Nat := min ((ds.map (·.gib)).foldl (· + ·) 0 * 2 ^ 30) (2 ^ 44 - 2 ^ 30)

/-- MULT of a DPLL for a SPEED code; POSTDIV is 6 (17 R353). -/
def dpllMult (speed : Nat) : Nat := ([36, 42, 48, 60, 66] : List Nat).getD speed 48

/-- Firmware sets every DPLL to the SPEED that bring-up selects (17 R353): writes of CLK_PLL that keep REF, under 17 R356. No
controller runs yet. -/
def State.setDplls (s : State) (speed : Nat) : State :=
  ([2, 3, 4, 5] : List PllId).foldl (fun s k =>
    s.pllWrite k (BitVec.ofNat 32 (b2n s.plls[k].ref <<< 24 + dpllMult speed <<< 16 + 6))) s

/-- Where a byte of DDR stands (13 R272, 02 R20). -/
structure DramPlace where
  ctrl : CtrlId
  sub  : Nat
  /-- Slot, physical rank and 3DS chip ID, which the rank index holds. -/
  slot : Nat
  rank : Nat
  chip : Nat
  row  : Nat
  col  : Nat
  bg   : Nat
  bank : Nat
  /-- Byte in the 64 B burst. -/
  byte : Nat
  deriving DecidableEq, Repr

/-- log2 of the ranks on one subchannel of modules of a kind, in one or two slots. -/
def rankBits (d : Dimm) (two : Bool) : Nat := Nat.log2 (d.ranks * d.stack * (if two then 2 else 1))

/-- The place of the byte at `within` of controller `n`, for a population of such modules (13 R272). -/
def dramPlace (d : Dimm) (two : Bool) (n : CtrlId) (within : Nat) : DramPlace :=
  let c := if d.width = 4 then 7 else 6
  let k := rankBits d two
  let b := within >>> 7
  let col := b >>> 5 % 2 ^ c
  let rank := b >>> (5 + c) % 2 ^ k
  let row := b >>> (5 + c + k)
  let s := b2n two
  let r := Nat.log2 d.ranks
  { ctrl := n, sub := within >>> 6 % 2
    slot := rank % 2 ^ s, rank := rank >>> s % 2 ^ r, chip := rank >>> (s + r)
    row := row, col := col, bg := (b ^^^ row) % 8, bank := (b >>> 3 ^^^ row >>> 3) % 4
    byte := within % 64 }

/-- The place of the byte at a DDR offset of this device; none until a population has been accepted. -/
def State.dramAt (s : State) (off : Nat) : Option DramPlace :=
  s.mem.dimm.map fun d => dramPlace d.1 d.2 (ddrSplit off).1 (ddrSplit off).2

/-- DDR_INIT from its fields.
Log entry 83 (DEDUCED). -/
def initWord (state reason failed speed : Nat) : Half :=
  BitVec.ofNat 32 (speed <<< 24 + failed <<< 8 + reason <<< 4 + state)

/-- Bit s: a module is present in slot s. -/
def slotBits (p : Slot × Slot) : BitVec 2 := BitVec.ofNat 2 (b2n (p.1 != .empty) + 2 * b2n (p.2 != .empty))

/-- DDR_BRINGUP: firmware reads every SPD and checks the population; it starts training, or refuses. Which of REASON 1
and 2 a population that earns both gets is a free value.
Log entries 82 (DEDUCED), 83 (DEDUCED). -/
def execDdrBringup (slots : List (Slot × Slot)) (s : State) : Outcome :=
  if !s.firmware || s.ddrInit ≠ 0 then .next s
  else
    let ss := allSlots slots
    let s := (List.finRange 16).foldl (fun s n => s.modDdr n fun d => { d with slots := slotBits (ss.getD n.val (.empty, .empty)) }) s
    let refuse := fun (s : State) (reason : Nat) => { s with mem := { s.mem with init := initWord 4 reason 0 0 } }
    if ss.any fun p => p.1 == .unreadable || p.2 == .unreadable then .next (refuse s 3)
    else
      let broken := populationBroken slots
      let unsup := unsupportedModule slots
      if (broken && unsup) || (pairedMrdimm slots && !broken && !unsup) then
        .next (refuse s (if Config.freeBool s.free then 1 else 2)).tick
      else if broken then .next (refuse s 1)
      else if unsup then .next (refuse s 2)
      else
        let ds := dimmsOf slots
        let s := ((List.finRange 16).foldl (fun s n => s.modDdr n fun d => { d with state := 1 }) s).setDplls (speedOf ds)
        .next { s with mem := { s.mem with
          init := initWord 2 0 0 (speedOf ds), dNext := capacityOf ds
          dimm := ds.head?.map fun d => (d, decide (16 < ds.length)) } }

/-- Every controller trains, and has its clock. -/
def State.training (s : State) : Bool :=
  s.ddrInit = 2 && s.ddr.all (·.state = 1) && (List.finRange 16).all fun n => !s.ctrlStopped n

/-- DDR_TRAINING_DONE: `failed` names the controllers that failed to train.
Log entry 83 (DEDUCED). -/
def execDdrTrainingDone (failed : BitVec 16) (s : State) : Outcome :=
  if !s.training then .next s
  else if failed = 0 then
    .next ((List.finRange 16).foldl (fun s n => s.modDdr n fun d => { d with state := 2 }) s)
  else
    let s := (List.finRange 16).foldl (fun (s : State) n =>
      let bad := failed.getLsbD n.val
      let s := s.modDdr n fun d => { d with state := if bad then 4 else 0 }
      if bad then s.raise (0x104 + 16 * n) else s) s
    .next { s with mem := { s.mem with init := initWord 5 4 failed.toNat (bits s.mem.init.toNat 27 24) } }

/-- DDR_ZEROING_DONE: DDR holds zeros with good check bits, and D is reported; a controller whose clock is stopped has not zeroed
its part (17 R357).
Log entry 83 (DEDUCED). -/
def execDdrZeroingDone (s : State) : Outcome :=
  if s.ddrInit = 2 && s.ddr.all (·.state = 2) && (List.finRange 16).all fun n => !s.ctrlStopped n then
    .next { s with mem := { s.mem with
      cells := clearCells s.mem.cells 0 s.mem.dNext
      badDdr := []
      softDdr := []
      ddrBack := []
      d := s.mem.dNext
      init := initWord 3 0 0 (bits s.mem.init.toNat 27 24) } }
  else .next s

/-! ## Self-refresh, refresh rate, scrub (13 R274, R275, R277) -/

/-- DDR_SR_ENTRY: a controller that has been idle for IDLE_US µs.
Log entry 84 (DEDUCED). -/
def execDdrSrEntry (n : CtrlId) (s : State) : Outcome :=
  let d := s.ddr[n]
  if s.ddrInit = 3 && d.state = 2 && !s.ctrlStopped n && d.srCfg.extractLsb' 0 16 ≠ 0 then .next (s.modDdr n fun d => { d with state := 3 })
  else .next s

/-- DDR_SR_EXIT: a request reaches a controller in self-refresh; the refresh-rate indications it reads are `sub0` and
`sub1`. -/
def execDdrSrExit (n : CtrlId) (sub0 sub1 : Bool) (s : State) : Outcome :=
  if s.ctrlStopped n then .next s else .next (s.srExit n (sub0 || sub1))

/-- REFRESH_RATE_POLL, every 16 ms: whether a rank of each subchannel asks for doubled refresh. -/
def execRefreshRatePoll (n : CtrlId) (sub0 sub1 : Bool) (s : State) : Outcome :=
  if s.ddr[n].state = 2 && !s.ctrlStopped n then .next (s.refreshRate n (sub0 || sub1)) else .next s

/-- DDR_SCRUB: patrol scrub reads the line at DDR offset `offset` of controller n.
Log entry 44 (DESIGN CHOICE). -/
def execDdrScrub (n : CtrlId) (offset : Nat) (found : EccFind) (device : BitVec 4) (s : State) : Outcome :=
  if s.mem.d ≤ offset then .fault .noSuchDdr
  else if (ddrSplit offset).1 ≠ n || s.ddr[n].state ≠ 2 || s.ctrlStopped n || !s.ddr[n].scrub.getLsbD 0 then .next s
  else
    let bad := s.poisoned (offset / 64 * 64) 64
    if bad || found == .uncorrectable then .next ((s.poisonAt (offset / 64 * 64) 64).ddrUncorrectable offset true device)
    else if found == .corrected || offset / 64 ∈ s.mem.softDdr then
      .next ({ s with mem := { s.mem with softDdr := natIns (offset / 64) s.mem.softDdr } }.checkDdr [offset / 64])
    else .next s

/-! ## Scratch (13 R260 to R264) -/

/-- The word at a local offset is in scratch. -/
def inScratch (off n : Nat) : Bool := decide (scratchBase ≤ off) && decide (off + n ≤ scratchBase + scratchSize)

/-- SCRATCH_SCRUB: patrol scrub reads the word at local offset `offset`.
Log entry 44 (DESIGN CHOICE). -/
def execScratchScrub (offset : Nat) (found : EccFind) (s : State) : Outcome :=
  let w := offset / 8
  if !inScratch (w * 8) 8 then .fault .noSuchScratch
  else if !s.scr.scrub.getLsbD 0 || s.clocksOff then .next s
  else if s.poisoned (w * 8) 8 || found == .uncorrectable then
    .next ((s.poisonAt (w * 8) 8).scrUncorrectable (w * 8 - scratchBase) true)
  else if found == .corrected || w ∈ s.scr.soft then
    .next ({ s with scr := { s.scr with soft := natIns w s.scr.soft } }.scrCorrected.owe w)
  else .next s

/-- SCRATCH_WRITE_BACK: the corrected word is stored, unless a request has written it meanwhile.
Log entry 44 (DESIGN CHOICE). -/
def execScratchWriteBack (offset : Nat) (s : State) : Outcome :=
  let w := offset / 8
  if !inScratch (w * 8) 8 then .fault .noSuchScratch
  else if w ∈ s.scr.writeBack then
    .next { s with scr := { s.scr with soft := s.scr.soft.filter (· ≠ w), writeBack := s.scr.writeBack.filter (· ≠ w) } }
  else .next s

/-- Bytes that a bank request covers. -/
def bankSpan : BankOp → Nat
  | .read n => n
  | .write bs => bs.length
  | _ => 8

/-- The words that a bank request reads: all of a read's and an atomic's, those that a write covers in part. -/
def bankReads (off : Nat) : BankOp → List Nat
  | .write bs => partGranules 8 off bs.length
  | op => granules 8 off (bankSpan op)

/-- What a check of the first word that the request reads finds, beside what the bank holds already.
Log entry 80 (DEDUCED). -/
def State.bankFound (s : State) (off : Nat) (op : BankOp) (found : EccFind) : State :=
  match bankReads off op, found with
  | w :: _, .uncorrectable => s.poisonAt (w * 8) 8
  | w :: _, .corrected => { s with scr := { s.scr with soft := natIns w s.scr.soft } }
  | _, _ => s

/-- A master of the scratch banks is a core or a chain whose unit is gated, and its ports carry no traffic (13 R267, 17 R367). -/
def State.masterGated (s : State) (m : Fin 71) : Bool :=
  if m.val < 32 then s.pwr.gated.getLsbD m.val else m.val < 68 && s.pwr.gated.getLsbD (m.val - 32)

/-- SCRATCH_REQUEST: a bank performs a request of master `m`, delivered after `wait` bank cycles, to its end.
Log entry 44 (DESIGN CHOICE). -/
def execScratchRequest (m : Fin 71) (wait offset : Nat) (op : BankOp) (found : EccFind) (s : State) : Outcome :=
  if !inScratch offset (bankSpan op) then .fault .noSuchScratch
  else if s.clocksOff || s.masterGated m then .next s
  else
    let s := ((s.bankCount m wait).bankFound offset op found).checkScratch (bankReads offset op)
    let bad := (bankReads offset op).any (· ∈ s.mem.badScratch)
    let old := s.memRead offset (bankSpan op)
    let atomic := fun (v : Word) =>
      let s' := if bad then s else s.memWrite offset (bytesOf 8 v.toNat)
      Host.Outcome.next (s'.emit (.bankRsp m old bad))
    match op with
    | .read _ => .next (s.emit (.bankRsp m old bad))
    | .write bs => .next (s.memWrite offset bs)
    | .addI64 v => atomic (wordOf old + v)
    | .addF64 v => atomic (bankAddF64 (wordOf old) v)
    | .swap v => atomic v

end Sys2Proof.Machine
end

