-- ==== Sys2Proof/Machine/Aci.lean ====
section
/-! DEFINITION. The Amtik Command Interface (03): enabling and resetting it, its doorbells, fetching, cancelling, checking and
starting commands. -/

namespace Sys2Proof.Machine

/-- Firmware serves the ACI: it runs, its clock runs, and the ACI is ready. -/
def State.serving (s : State) : Bool :=
  s.firmware && !s.cclkStopped && s.aci.ready && !s.aci.resetting && !s.aci.fatal

/-- What EVT_ROUTE reads as: a reserved CORE, 36 to 63, reads as zero (00 R10).
Log entry 109 (DESIGN CHOICE). -/
def routeWord (v : Half) : Half := if 36 ≤ (v.extractLsb' 24 6).toNat then v &&& 0xC0FFFFFF else v

/-- Writes EVT_ROUTE of source `src`; HOST_EN going to 1 on a pending source sends its message (11 R241).
Log entry 109 (DESIGN CHOICE). -/
def State.setRoute (s : State) (src : Nat) (v : Half) : State :=
  let old := cellGet s.evt.route src
  let v := v &&& 0xFFFC07FF
  let s := { s with evt := { s.evt with route := cellSet s.evt.route src v } }
  if !old.getLsbD 30 && v.getLsbD 30 && s.pendingSrc src then s.msix (v.extractLsb' 0 11).toNat else s

/-- The event sources that the ACI routes to the host (11 R242). -/
def aciSources : List Nat := [0x80, 0x81, 0x82, 0x83, 0x84, 0x85, 0x86, 0x87]

/-! ## Enable (03 R38, R43) -/

/-- Every address of `n` bytes at `a` is a valid host address (03 R50, 15 R311).
Log entry 93 (DEDUCED). -/
def State.hostValid (s : State) (a n : Nat) : Bool := decide (a + n ≤ 2 ^ 52) && !s.cacheLinks.isEmpty

/-- A ring of `2^log2` entries of `size` bytes meets 03 R38.
Log entry 93 (DEDUCED). -/
def State.ringOk (s : State) (dev : Bool) (base : Nat) (log2 size : Nat) : Bool :=
  1 ≤ log2 && log2 ≤ 16 && base % 4096 = 0 &&
    (if dev then decide (base + size * 2 ^ log2 ≤ s.mem.d) else s.hostValid base (size * 2 ^ log2))

/-- A pair as it is created (03 R41, R417). -/
def Pair.new (gen : BitVec 4) (sqLog2 cqLog2 : Nat) (dev : Bool) (sqBase cqBase : Word)
    (vector weight coalCount coalTime : Nat) : Pair where
  gen := gen
  sqLog2 := sqLog2
  cqLog2 := cqLog2
  dev := dev
  sqBase := sqBase
  cqBase := cqBase
  vector := vector
  weight := weight
  sqHead := 0
  sqTail := 0
  cqHead := 0
  cqNext := 0
  phase := true
  tag := 0
  halted := false
  deleting := false
  coalCount := coalCount
  coalTime := coalTime
  counted := 0
  entry := none

/-- ACI_READY: firmware has checked the configuration. -/
def execAciReady (s : State) : Outcome :=
  let a := s.aci
  let sq := (a.aqCfg.extractLsb' 0 5).toNat
  let cq := (a.aqCfg.extractLsb' 8 5).toNat
  let dev := a.aqCfg.getLsbD 16
  let vec := (a.aqCfg.extractLsb' 17 11).toNat
  if !s.firmware || s.cclkStopped || !a.enable || a.ready || a.resetting || a.failed then .next s
  else if s.ringOk dev a.sqBase.toNat sq 64 && s.ringOk dev a.cqBase.toNat cq 32 && sq ≤ cq then
    let gen := a.aqGen + 1
    let s := { s with aci := { a with
      aqGen := gen
      gens := cellSet a.gens 0 gen
      pairs := [(0, Pair.new gen sq cq dev a.sqBase a.cqBase vec 1 0 0)]
      ready := true } }
    .next (aciSources.foldl (fun s i => s.setRoute i (BitVec.ofNat 32 (2 ^ 30 + vec))) s)
  else .next ({ s with aci := { a with failed := true } }.aciError 3 0)

/-- STATUS codes (03 R50). -/
def stOk : BitVec 16 := 0x0000
def stCancelled : BitVec 16 := 0x0001
def stNotStarted : BitVec 16 := 0x0002
def stBadOpcode : BitVec 16 := 0x0010
def stBadField : BitVec 16 := 0x0011
def stBadHandle : BitVec 16 := 0x0012
def stNotNegotiated : BitVec 16 := 0x0013
def stNoVersion : BitVec 16 := 0x0014
def stAdminOnly : BitVec 16 := 0x0015
def stBusy : BitVec 16 := 0x0016
def stNoFeature : BitVec 16 := 0x0017
def stAccess : BitVec 16 := 0x0018
def stKernel : BitVec 16 := 0x0020
def stChain : BitVec 16 := 0x0021
def stImage : BitVec 16 := 0x0030
def stSettings : BitVec 16 := 0x0031
def stCal : BitVec 16 := 0x0032
def stDivergent : BitVec 16 := 0x0040
def stRejected : BitVec 16 := 0x0041
def stInternal : BitVec 16 := 0x00FF

/-- A command finishes with a status alone. -/
def State.finishWith (s : State) (h : Half) (st : BitVec 16) : State :=
  s.finish h { status := st, detail := 0, milestones := 0, result := 0 }

/-- A command finishes with SUCCESS and a result. -/
def State.finishOk (s : State) (h : Half) (result : Word) : State :=
  s.finish h { status := stOk, detail := 0, milestones := 0, result := result }

/-! ## Stopping kernels (03 R45, R52, R57, R416) -/

/-- A KERNEL_RUN's sequencers. -/
def Cmd.cores (c : Cmd) : List CoreId := (List.finRange 36).filter fun n => (c.at 32 4).testBit n.val

/-- How sequencer `n` of a KERNEL_RUN ended, if it has. -/
def Cmd.endOf (c : Cmd) (n : CoreId) : Option SeqEnd := alookup n.val c.ends

/-- Firmware stops the chain beside core `n` (04 R85); an idle chain stops at once (03 R57). -/
def State.restChain (s : State) (n : CoreId) : State :=
  match chainOf n with
  | some c => if s.chains[c].idle then (s.requestStop c).chainStopped c else s.requestStop c
  | none => s

/-- Clears CORE_CTL.RUN of core `n`. -/
def State.clearRun (s : State) (n : CoreId) : State := s.coreCtl n (s.cores[n].ctl &&& ~~~(1 : Half))

/-- Firmware stops a KERNEL_RUN: each kernel that runs is ended, and each chain stops at its next strip commit.  When it is
for another sequencer's failure, and not `all` chains, the launches of a sequencer that has ended by trap 0 run on (R416). -/
def State.stopKernel (s : State) (c : Cmd) (all : Bool) : State :=
  let leave := fun (n : CoreId) => c.rested.testBit n.val || (!all && c.endOf n = some .normal)
  let s := if c.started then
      c.cores.foldl (fun s n => if leave n then s.clearRun n else (s.clearRun n).restChain n) s
    else s
  s.modCmd c.handle fun k => { k with
    rested := if c.started then (c.cores.filter fun n => !leave n).foldl (fun b n => b ||| 2 ^ n.val) k.rested else k.rested
    ends := k.ends ++ (c.cores.filter fun n => (c.endOf n).isNone).map fun n => (n.val, SeqEnd.stopped) }

/-- The leaf with which the page table of a run maps an address: of the largest page that is aligned and lies wholly within
a range (12 R413). -/
def mapLeaf (rs : List MapRange) (v : Word) : Option TlbEntry :=
  match rs.find? fun r => r.base ≤ v.toNat && v.toNat < r.base + r.size with
  | none => none
  | some r =>
    let page := fun (ps : Nat) => v.toNat >>> pageBits ps <<< pageBits ps
    match [3, 2, 1, 0].find? fun ps => r.base ≤ page ps && page ps + 2 ^ pageBits ps ≤ r.base + r.size with
    | none => none
    | some ps => some { tag := BitVec.ofNat 64 (page ps + ps <<< 8), data := BitVec.ofNat 64 (page ps) ||| r.bits }

/-- Causes that the runtime answers by a refill, where its page table maps the address: the misses (12 R256).  A fetch of a
page without X then takes PROT.
Log entry 166 (DEDUCED). -/
def State.refills (s : State) (c : Cmd) (n : CoreId) (code : Nat) : Bool :=
  [codeItlb, codeDtlb, causeStreamMiss].contains code && (mapLeaf c.table (cellGet s.evt.taddr (n.val * 4))).isSome

/-- How a sequencer stands when firmware looks: it runs, it has ended, or it is in the runtime after a trap that a handler of
the kernel may recover. -/
inductive SeqLook where
  | runs
  | ended (e : SeqEnd)
  | trapped (cause : BitVec 16)
  deriving DecidableEq, Repr

/-- How sequencer `n` stands: PROT has no handler (12 R256).
Log entry 167 (DESIGN CHOICE). -/
def State.seqLook (s : State) (c : Cmd) (n : CoreId) : SeqLook :=
  let k := s.cores[n]
  let h := k.threads[(0 : ThreadId)]
  let code := (h.cause.extractLsb' 0 8).toNat
  if k.stat = 3 then .ended .halted
  else if k.stat = 0 then .ended .stopped
  else if h.levelK || code = codeInterrupt || code = codeSoftware || code = 0 || s.refills c n code then .runs
  else if code = codeProt then .ended (.faulted (h.cause.extractLsb' 0 16))
  else .trapped (h.cause.extractLsb' 0 16)

/-- Firmware looks at sequencer `n` of a KERNEL_RUN.  Whether the runtime has ended the kernel of one in a trap is a free
value: a handler may take the trap, and the runtime takes its time (03 R416; 08 R182; 12 R256).
Log entry 167 (DESIGN CHOICE). -/
def State.noteEnd (s : State) (h : Half) (n : CoreId) : State :=
  let put := fun (s : State) (e : SeqEnd) => s.modCmd h fun k => { k with ends := k.ends ++ [(n.val, e)] }
  match s.cmd h with
  | none => s
  | some c =>
    if (c.endOf n).isSome then s
    else match s.seqLook c n with
      | .runs => s
      | .ended e => put s e
      | .trapped x => (if Config.freeBool s.free then put s (.faulted x) else s).tick

/-- The sequencers of a KERNEL_RUN that have ended since firmware last looked. -/
def State.noteEnds (s : State) (c : Cmd) : State := c.cores.foldl (fun s n => s.noteEnd c.handle n) s

/-! ## Reset (03 R45) -/

/-- ACI_CTRL.ENABLE goes from 1 to 0. -/
def State.aciDisable (s : State) : State :=
  let s := aciSources.foldl (fun s i => s.setRoute i (cellGet s.evt.route i &&& ~~~((1 : Half) <<< 30))) s
  let kernels := s.aci.cmds.filter fun c => c.phase == .running && c.op = 0x10
  let s := kernels.foldl (fun s c => s.stopKernel c true) s
  { s with
    aci := { s.aci with
      enable := false, failed := false, resetting := s.aci.ready, pairs := [], cancels := [], marked := [],
      cmds := kernels.filterMap fun c => s.cmd c.handle, readyQ := [], version := none, features := 0, grant := none, roundQid := 0, roundTaken := 0 }
    xl := { s.xl with survey := none, proposals := s.xl.proposals.map fun p => { p with handle := none } } }

/-- A write of ACI_CTRL. -/
def State.aciCtrl (s : State) (v : Half) : State :=
  if v.getLsbD 0 then { s with aci := { s.aci with enable := true } }
  else if s.aci.enable then
    if s.aci.resetting then { s with aci := { s.aci with enable := false } } else s.aciDisable
  else s

/-- The chain beside core `n` is idle and its stop is over. -/
def State.chainAtRest (s : State) (n : CoreId) : Bool := s.ofChain n true fun h => h.idle && !h.stopReq

/-- The sequencers of a KERNEL_RUN issue nothing more: every long operation, an atomic among them, has ended, and every store
that they made is accepted (01 R13). -/
def State.coresAtRest (s : State) (ns : List CoreId) : Bool :=
  ns.all fun n => (s.cores[n].stat = 0 || s.cores[n].stat = 3) && s.cores[n].stores.isEmpty && s.cores[n].loads.isEmpty

/-- ACI_RESET_COMPLETE: the chains have stopped and the sequencers have ended. -/
def execAciResetComplete (s : State) : Outcome :=
  let ns := (s.aci.cmds.map Cmd.cores).flatten
  if s.aci.resetting && ns.all (fun n => s.cores[n].stat = 0 && s.chainAtRest n) then
    .next { s with aci := { s.aci with resetting := false, ready := false, cmds := [] } }
  else .next s

/-! ## Doorbells and cancels (03 R57, R417) -/

/-- The commands of a pair that are written and not fetched are flushed: each completes with
CANCELLED_BEFORE_START, and a mark of a cancel on it goes with it.
Log entry 142 (DESIGN CHOICE). -/
def State.flushWritten (s : State) (q : Nat) : Nat → State
  | 0 => s
  | n + 1 =>
    match s.pair q with
    | none => s
    | some p =>
      let h := p.handle q p.tag
      let s := s.modPair q fun p => { p with sqHead := (p.sqHead + 1) % p.sqDepth, tag := p.tag + 1, entry := none }
      let s := { s with aci := { s.aci with
        cmds := s.aci.cmds ++ [Cmd.new q h []], marked := s.aci.marked.filter (· ≠ h) } }
      (s.finishWith h stNotStarted).flushWritten q n

/-- A write of ACI_SQ_TAIL; what it adds to a pair that DELETE_QP is flushing is flushed too (03 R48, R58). -/
def State.sqTail (s : State) (q : Nat) (v : Half) : State :=
  let x := (v.extractLsb' 0 16).toNat
  match s.pair q with
  | some p =>
    if p.sqDepth ≤ x then s.aciError 0 q
    else
      let p := { p with sqTail := x }
      let s := s.modPair q fun _ => p
      if p.deleting && !p.halted then (s.flushWritten q p.waiting).aciSettle else s
  | none => s.aciError 0 q

/-- A write of ACI_CQ_HEAD: the new head may not pass the slot of the next record. -/
def State.cqHead (s : State) (q : Nat) (v : Half) : State :=
  let x := (v.extractLsb' 0 16).toNat
  match s.pair q with
  | some p =>
    if p.cqDepth ≤ x || p.unread < (x + p.cqDepth - p.cqHead) % p.cqDepth then s.aciError 0 q
    else (s.modPair q fun p => { p with cqHead := x }).aciSettle
  | none => s.aciError 0 q

/-- A full-width write of ACI_CANCEL. -/
def State.cancelWrite (s : State) (h : Half) : State :=
  if s.aci.resetting then s
  else if 256 ≤ s.aci.cancels.length then
    let s' := { s with aci := { s.aci with dropped := true } }
    if s.aci.dropped then s' else s'.raise 0x87
  else { s with aci := { s.aci with cancels := s.aci.cancels ++ [h] } }

/-- Opcodes that are long and may be cancelled after they start (03 R51, R57). -/
def cancellable (op : Nat) : Bool := [0x10, 0x11, 0x12, 0x20, 0x30, 0x31].contains op

/-- A cancel of a command that has started; a KERNEL_RUN is past it once every sequencer that it names has ended, halted
ones and those that the runtime has ended among them (03 R57, R416). -/
def State.cancelRunning (s : State) (c : Cmd) : State :=
  if !cancellable c.op then s
  else if c.op = 0x10 then
    let s := if c.started then s.noteEnds c else s
    match s.cmd c.handle with
    | none => s
    | some c =>
      if c.started && c.cores.all fun n => (c.endOf n).isSome then s
      else (s.stopKernel c true).modCmd c.handle fun k => { k with cancelled := true }
  else s.modCmd c.handle fun k => { k with cancelled := true }

/-- One cancel of the FIFO (03 R57).
Log entry 131 (DEDUCED). -/
def State.cancelOne (s : State) (h : Half) : State :=
  let q := (h.extractLsb' 24 8).toNat
  match s.pair q with
  | none => s
  | some p =>
    if p.gen ≠ h.extractLsb' 20 4 then s
    else if (h.extractLsb' 0 20 - p.tag).toNat < p.waiting then
      { s with aci := { s.aci with marked := s.aci.marked ++ [h] } }
    else match s.cmd h with
      | none => s
      | some c =>
        match c.phase with
        | .ready => s.finishWith h stNotStarted
        | .running => s.cancelRunning c
        | .finished => s

/-- The dispatcher takes what is in the cancel FIFO.
Log entry 131 (DEDUCED). -/
def State.takeCancels (s : State) : State :=
  let hs := s.aci.cancels
  hs.foldl (fun s h => s.cancelOne h) { s with aci := { s.aci with cancels := [] } }

/-! ## Fetching (03 R40, R42, R46, R47) -/

/-- Commands of a pair that are outstanding: not completed, or with a record that the host has not consumed. -/
def State.outstanding (s : State) (q : Nat) (p : Pair) : Nat :=
  (s.aci.cmds.filter (·.samePair (p.handle q 0))).length + p.unread

/-- A pair has an entry that R40 lets firmware fetch. -/
def State.fetchable (s : State) (q : Nat) (p : Pair) : Bool :=
  !p.halted && !p.deleting && 0 < p.waiting && s.outstanding q p + 1 < p.cqDepth

/-- Inserts a number into a rising list, with its pair. -/
def insPair (x : Nat × Pair) : List (Nat × Pair) → List (Nat × Pair)
  | [] => [x]
  | y :: t => if x.1 ≤ y.1 then x :: y :: t else y :: insPair x t

/-- A pair with nothing to fetch is passed over at once: the visit of the round to it is over (03 R42). -/
def State.endVisit (s : State) : State :=
  let goes := match s.pair s.aci.roundQid with
    | some p => s.fetchable s.aci.roundQid p
    | none => false
  if goes then s else { s with aci := { s.aci with roundTaken := 8 } }

/-- The pair that is fetched next, and whether the round's visit to it goes on.
Log entries 107 (DESIGN CHOICE), 132 (DEDUCED). -/
def State.nextFetch (s : State) : Option (Nat × Bool) :=
  let ps := (s.aci.pairs.filter fun x => s.fetchable x.1 x.2).foldl (fun l x => insPair x l) []
  let others := ps.filter fun x => x.1 ≠ 0
  if ps.any (·.1 = 0) then some (0, true)
  else match others.find? fun x => x.1 = s.aci.roundQid && s.aci.roundTaken < x.2.weight with
    | some x => some (x.1, true)
    | none =>
      match others.find? fun x => s.aci.roundQid < x.1 with
      | some x => some (x.1, false)
      | none => others.head?.map fun x => (x.1, false)

/-- Firmware has read the entry at a pair's head (03 R47): TAG and SQ head go on; a mismatch of its handle, and a cancel
that came first, complete it. -/
def State.takeEntry (s : State) (q : Nat) (p : Pair) (e : List Byte) : State :=
  let h := p.handle q p.tag
  let c := Cmd.new q h e
  let cancelled := s.aci.marked.contains h
  let s := s.modPair q fun p => { p with sqHead := (p.sqHead + 1) % p.sqDepth, tag := p.tag + 1, entry := none }
  let s := { s with aci := { s.aci with
    cmds := s.aci.cmds ++ [c], marked := s.aci.marked.filter (· ≠ h) } }
  if cancelled then s.finishWith h stNotStarted
  else if c.at 4 4 ≠ h.toNat then
    s.finish h { status := stBadHandle, detail := h, milestones := 0, result := 0 }
  else s

/-- SQ_FETCH: the pair's entry, or the answer of host memory for it; PREPARE_OFF ends fetching (19 R405).
Log entries 130 (DEDUCED), 132 (DEDUCED). -/
def execSqFetch (q : Byte) (r : Reply) (s : State) : Outcome :=
  if !s.serving || s.chip.preparing then .next s
  else
    let s := s.takeCancels.endVisit
    match s.nextFetch with
    | none => .next s.aciSettle
    | some (n, same) =>
      if n ≠ q.toNat then .next s.aciSettle
      else match s.pair n with
        | none => .next s
        | some p =>
          let a := p.sqBase.toNat + 64 * p.sqHead
          let round := fun (s : State) =>
            if n = 0 then s
            else if same then { s with aci := { s.aci with roundTaken := s.aci.roundTaken + 1 } }
            else { s with aci := { s.aci with roundQid := n, roundTaken := 1 } }
          let loc : Phys := if p.dev then .here a else .host (BitVec.ofNat 64 a)
          match s.reach 64 p.entry.isSome (.entry (p.handle n p.tag)) loc 64 none (p.entry.getD r) with
          | (s, none) => .next s
          | (s, some (.ok bs)) => .next ((round s).takeEntry n p bs).endVisit.aciSettle
          | (s, some _) => .next (s.haltPair n).aciSettle

/-! ## Checks (03 R44, R50, R51, R55, R56) -/

/-- A command's opcode as the table gives it: minor version, admin, number of pointers, and its fields as (first byte,
length). -/
structure OpInfo where
  since  : Nat
  admin  : Bool
  ptrs   : Nat
  fields : List (Nat × Nat)
  deriving DecidableEq, Repr

/-- The opcode table of 03 R51. -/
def opInfo (op : Nat) : Option OpInfo :=
  match op with
  | 0x01 => some { since := 0, admin := true, ptrs := 0, fields := [(16, 2), (18, 16), (36, 4)] }
  | 0x02 => some { since := 0, admin := false, ptrs := 1, fields := [(16, 8)] }
  | 0x03 => some { since := 0, admin := true, ptrs := 0, fields :=
      [(16, 2), (18, 1), (19, 1), (20, 2), (22, 1), (23, 1), (24, 8), (32, 8), (40, 1), (42, 2)] }
  | 0x04 => some { since := 0, admin := true, ptrs := 0, fields := [(16, 2)] }
  | 0x05 => some { since := 0, admin := true, ptrs := 0, fields := [(16, 2), (18, 1), (20, 2)] }
  | 0x10 => some { since := 0, admin := false, ptrs := 3, fields :=
      [(16, 8), (24, 4), (28, 4), (32, 4), (36, 4), (40, 8), (48, 8)] }
  | 0x11 => some { since := 0, admin := false, ptrs := 2, fields := [(16, 8), (24, 8), (32, 8)] }
  | 0x12 => some { since := 0, admin := false, ptrs := 1, fields := [(16, 8), (24, 8), (32, 8)] }
  | 0x20 => some { since := 0, admin := true, ptrs := 1, fields := [(16, 8), (24, 4), (28, 4)] }
  | 0x21 => some { since := 0, admin := true, ptrs := 0, fields := [(16, 1), (17, 1)] }
  | 0x22 => some { since := 0, admin := true, ptrs := 1, fields := [(16, 8), (24, 4), (28, 1)] }
  | 0x23 => some { since := 0, admin := true, ptrs := 1, fields := [(16, 8), (24, 4)] }
  | 0x24 => some { since := 0, admin := true, ptrs := 0, fields := [] }
  | 0x25 => some { since := 0, admin := true, ptrs := 1, fields := [(16, 8), (24, 4)] }
  | 0x26 => some { since := 1, admin := true, ptrs := 1, fields := [(16, 8), (24, 4)] }
  | 0x30 => some { since := 0, admin := true, ptrs := 1, fields := [(16, 8), (24, 4), (28, 4)] }
  | 0x31 => some { since := 1, admin := true, ptrs := 1, fields := [(16, 8), (24, 4)] }
  | 0x32 => some { since := 1, admin := true, ptrs := 0, fields := [(16, 8)] }
  | 0x40 => some { since := 0, admin := true, ptrs := 0, fields := [(16, 2), (18, 1), (20, 4)] }
  | 0x41 => some { since := 0, admin := true, ptrs := 0, fields := [] }
  | _ => none

/-- The range that a pointer and its length cover is valid (03 R50): `host` is its HOSTPTR bit.
Log entry 148 (DESIGN CHOICE). -/
def State.rangeValid (s : State) (host : Bool) (a n : Nat) : Bool :=
  if n = 0 then true
  else if host then s.hostValid a n
  else
    let last := a + n - 1
    if 2 ^ 64 ≤ last then false
    else if a >>> 44 = s.nodeId then
      let x := s.place (a % 2 ^ 44)
      last >>> 44 = s.nodeId && (x == .ddr || x == .scratch) && s.place (last % 2 ^ 44) == x
    else
      let lo := a % 2 ^ 44
      let hi := last % 2 ^ 44
      a >>> 44 = last >>> 44 &&
        (decide (hi < scratchBase) || (decide (scratchBase ≤ lo) && decide (hi < scratchBase + scratchSize)))

/-- Byte `i` of an entry, or its field, breaks the rules: its offset when `ok` fails. -/
def offend (i : Nat) (ok : Bool) : List Nat := if ok then [] else [i]

/-- Pointer `k` at byte `i` of a command for `n` bytes. -/
def State.ptrCheck (s : State) (c : Cmd) (i k n align : Nat) : List Nat :=
  offend i (c.at i 8 % align = 0 && s.rangeValid (c.hostptr.testBit k) (c.at i 8) n)

/-- The ranges of two pointers of one space overlap. -/
def rangesMeet (a b n : Nat) : Bool := decide (0 < n) && decide (a < b + n) && decide (b < a + n)

/-- COAL_COUNT and COAL_TIME meet 03 R59. -/
def coalOk (count time : Nat) : Bool := count ≤ 1 || time ≠ 0

/-- Offsets of the opcode's own fields that break its rules (03 R51, 18 R382, R390, 16 R343).
Log entry 169 (DEDUCED). -/
def State.fieldCheck (s : State) (c : Cmd) : List Nat :=
  match c.op with
  | 0x01 => offend 36 (c.at 36 4 < 64)
  | 0x02 => s.ptrCheck c 16 0 4096 4096
  | 0x03 =>
    let sq := c.at 18 1
    let cq := c.at 19 1
    offend 16 (decide (1 ≤ c.at 16 2) && decide (c.at 16 2 ≤ 255)) ++ offend 18 (1 ≤ sq && sq ≤ 16)
      ++ offend 19 (1 ≤ cq && cq ≤ 16 && sq ≤ cq) ++ offend 20 (c.at 20 2 < 2048)
      ++ offend 22 (1 ≤ c.at 22 1 && c.at 22 1 ≤ 8) ++ offend 23 (c.at 23 1 ≤ 1)
      ++ offend 24 (s.ringOk (c.at 23 1 = 1) (c.at 24 8) sq 64) ++ offend 32 (s.ringOk (c.at 23 1 = 1) (c.at 32 8) cq 32)
      ++ offend 40 (coalOk (c.at 40 1) (c.at 42 2))
  | 0x04 => offend 16 (c.at 16 2 ≠ 0 && (s.pair (c.at 16 2)).isSome)
  | 0x05 => offend 16 (s.pair (c.at 16 2)).isSome ++ offend 18 (coalOk (c.at 18 1) (c.at 20 2))
  | 0x10 =>
    s.ptrCheck c 16 0 (c.at 24 4) 64 ++ offend 24 (c.at 24 4 ≤ imemSize) ++ offend 28 (2 * c.at 28 4 < c.at 24 4)
      ++ offend 32 (c.at 32 4 ≠ 0) ++ offend 36 (c.at 36 4 % 8 = 0 && c.at 36 4 ≤ 4096)
      ++ s.ptrCheck c 40 1 (c.at 36 4) 1
  | 0x11 =>
    let n := c.at 32 8
    s.ptrCheck c 16 0 n 1
      ++ offend 16 (!(c.hostptr.testBit 0 == c.hostptr.testBit 1 && rangesMeet (c.at 16 8) (c.at 24 8) n))
      ++ s.ptrCheck c 24 1 n 1 ++ offend 32 (n % 64 = 0 && n ≤ 2 ^ 44)
  | 0x12 => s.ptrCheck c 16 0 (c.at 24 8) 1 ++ offend 24 (c.at 24 8 % 8 = 0 && c.at 24 8 ≤ 2 ^ 44)
  | 0x20 =>
    s.ptrCheck c 16 0 (c.at 24 4) 1 ++ offend 24 (c.at 24 4 % 4096 = 0)
      ++ offend 28 (c.at 28 4 % 4096 = 0 && c.at 28 4 + c.at 24 4 ≤ 0x200000)
  | 0x21 => offend 16 (c.at 16 1 ≤ 1) ++ offend 17 (c.at 17 1 ≤ 1)
  | 0x22 => s.ptrCheck c 16 0 (c.at 24 4) 1 ++ offend 28 (c.at 28 1 ≤ 1)
  | 0x23 => s.ptrCheck c 16 0 (c.at 24 4) 1
  | 0x25 => s.ptrCheck c 16 0 (c.at 24 4) 1
  | 0x26 => s.ptrCheck c 16 0 (c.at 24 4) 1
  | 0x30 => s.ptrCheck c 16 0 (c.at 24 4) 1
  | 0x31 => s.ptrCheck c 16 0 (c.at 24 4) 1
  | 0x40 => offend 16 (c.at 16 2 < 0x2000) ++ offend 18 (c.at 18 1 ≤ 1)
  | _ => []

/-- Offsets that break the rules of the header and of the reserved bytes (03 R44, R50, R55).
Log entries 131 (DEDUCED), 147 (DESIGN CHOICE). -/
def State.headerCheck (s : State) (c : Cmd) (o : OpInfo) : List Nat :=
  let flags := 2 + b2n (s.aci.features.getLsbD 4) + 4 * b2n (s.aci.features.getLsbD 5)
  let used := fun (i : Nat) => o.fields.any fun f => f.1 ≤ i && i < f.1 + f.2
  offend 1 (c.flags &&& (255 - flags) = 0) ++ offend 2 (c.hostptr >>> o.ptrs = 0) ++ offend 3 (c.at 3 1 = 0)
    ++ ((upto 56).map (· + 8)).filter fun i => !used i && c.at i 1 ≠ 0

/-- Smallest of a list of numbers. -/
def least : List Nat → Option Nat
  | [] => none
  | a :: t => match least t with
    | none => some a
    | some b => some (min a b)

/-- The opcode's own refusals, after its fields (03 R51, R56).
Log entry 130 (DEDUCED). -/
def State.stateCheck (s : State) (c : Cmd) : Option (BitVec 16) :=
  let feat := fun (i : Nat) => s.aci.features.getLsbD i
  match c.op with
  | 0x01 => if s.aci.pairs.any (·.1 ≠ 0) then some stBusy else none
  | 0x03 =>
    if (s.pair (c.at 16 2)).isSome then some stBusy
    else if feat (if c.at 23 1 = 1 then 1 else 0) then none else some stNoFeature
  | 0x20 => if s.aci.cmds.any (fun k => k.phase == .running && k.op = 0x21) then some stBusy else none
  | 0x26 => if feat 3 then none else some stNoFeature
  | 0x40 =>
    if s.aci.grant.isSome then some stBusy else if c.at 18 1 = 1 && !feat 2 then some stNoFeature else none
  | 0x41 => if s.aci.grant.isSome then none else some stBadField
  | _ => none

/-- The status and DETAIL of a command that fails its checks.
Log entry 130 (DEDUCED). -/
def State.checkCmd (s : State) (c : Cmd) : Option (BitVec 16 × Half) :=
  match opInfo c.op with
  | none => some (stBadOpcode, 0)
  | some o =>
    let early := match s.aci.version with
      | none => if c.op = 0x01 || c.op = 0x02 then none else some stNotNegotiated
      | some v => if v.2 < o.since then some stBadOpcode else none
    match early with
    | some x => some (x, 0)
    | none =>
      if o.admin && c.qid ≠ 0 then some (stAdminOnly, 0)
      else match least (s.headerCheck c o ++ s.fieldCheck c) with
        | some i => some (stBadField, BitVec.ofNat 32 i)
        | none => (s.stateCheck c).map fun x => (x, 0)

/-! ## Dispatch (03 R57) -/

/-- A COPY or FILL that is committed is assigned chains that no KERNEL_RUN holds, which are free but for that, and
firmware clears their MSC (03 R52, 04 R73).
Log entry 134 (DEDUCED). -/
def State.assignChains (s : State) (c : Cmd) : State :=
  if c.op ≠ 0x11 && c.op ≠ 0x12 then s
  else
    let free := (upto 32).filter fun i => !s.heldChains.testBit i
    let pick := Config.freeNat s.free
    let some := free.filter fun i => pick.testBit i
    let chosen := if some.isEmpty then free.take 1 else some
    let s := ((List.finRange 32).filter fun x => chosen.contains x.val).foldl (fun s x => s.clrMsc x) s.tick
    s.modCmd c.handle fun k => { k with chains := chosen.foldl (fun m i => m + 2 ^ i) 0 }

/-- COMMAND_DISPATCH: select a ready command, look at the cancel FIFO once more, commit it.
Log entry 130 (DEDUCED). -/
def execCommandDispatch (s : State) : Outcome :=
  if !s.serving then .next s
  else
    let s := s.aciSettle
    match s.aci.readyQ with
    | [] => .next s.takeCancels.aciSettle
    | h :: _ =>
      let s := s.takeCancels
      match s.cmd h with
      | none => .next s.aciSettle
      | some c =>
        if !(c.phase == .ready) then .next s.aciSettle
        else match s.checkCmd c with
          | some (st, d) =>
            .next (s.finish h { status := st, detail := d, milestones := 0, result := 0 }).aciSettle
          | none => .next ((s.assignChains c).modCmd h fun c => { c with phase := .running }).aciSettle

/-- A committed command of an opcode that firmware works on. -/
def State.running (s : State) (h : Half) (op : Nat) : Option Cmd :=
  if s.serving then
    match s.cmd h with
    | some c => if c.phase == .running && c.op = op then some c else none
    | none => none
  else none

/-! ## Coalescing and the grant (03 R54, R59) -/

/-- COAL_TIME_EXPIRY: the oldest counted record of a CQ has waited COAL_TIME. -/
def execCoalTimeExpiry (q : Byte) (s : State) : Outcome :=
  match s.pair q.toNat with
  | some p => if 0 < p.counted && p.coalTime ≠ 0 then .next (s.cqInterrupt q.toNat) else .next s
  | none => .next s

/-- DIAG_GRANT_EXPIRY: LIMIT_MS is over. -/
def execDiagGrantExpiry (s : State) : Outcome :=
  match s.aci.grant with
  | some g => if g.limitMs ≠ 0 then .next { s with aci := { s.aci with grant := none } } else .next s
  | none => .next s

end Sys2Proof.Machine
end

