-- ==== Sys2Proof/Machine/AciExec.lean ====
section
/-! DEFINITION. What the commands of the ACI do (03 R51 to R58, R415, R416), but for those on the flash and on the fabric:
versions, queue pairs, kernels, copies, the diagnostic grant. -/

namespace Sys2Proof.Machine

/-! ## What firmware reads and writes for a command (03 R50) -/

/-- What a read or write by firmware comes to: done (with the bytes read), waiting for the answer of some line, or failed.
Log entry 14 (DESIGN CHOICE). -/
inductive FwAns where
  | done (bs : List Byte)
  | wait
  | fail
  deriving DecidableEq, Repr

/-- The part of the answer of a place outside the device that holds the `n` bytes at `off`; none where it ends before. -/
def replyPart (r : Reply) (off n : Nat) : Reply :=
  match r with
  | .ok bs => if off + n ≤ bs.length then .ok (sliceAt bs off n) else .owed
  | r => r

/-- The line of an access of a command as it stands before it is sent: `n` bytes at `a`, or `data` written there. -/
def State.ioLine (s : State) (m : Nat) (c : Cmd) (wr : Bool) (ptr a n : Nat) (data : List Byte) (ans : Reply) : FwIo where
  m := m
  wr := wr
  ptr := ptr
  line := a / 64
  loc := if c.hostptr.testBit ptr then .host (BitVec.ofNat 64 a) else s.route (BitVec.ofNat 64 a)
  n := n
  data := data
  ans := ans

/-- One line of an access of a command takes its place among the accesses to it (15 R306): `r` is what a place outside the
device answers.  A line that has its answer keeps it.
Log entries 107 (DESIGN CHOICE), 136 (DESIGN CHOICE). -/
def State.ioStep (s : State) (c : Cmd) (e : FwIo) (r : Reply) : State × FwIo :=
  let e := (c.ioAt e.wr e.ptr e.line).getD e
  if e.ans ≠ .owed then (s, e)
  else
    let (s, x) := s.reach e.m false (.fw e.m c.handle e.wr e.ptr e.line) e.loc e.n (if e.wr then some [(0, e.data)] else none) r
    let e := { e with ans := x.getD .owed }
    match e.wr, x with
    | true, some (.ok _) => (s.landed e.loc [(0, e.data)], e)
    | _, _ => (s, e)

/-- The lines of an access, each with the answer that a place outside the device gives it, in order. -/
def State.ioSteps (s : State) (c : Cmd) : List (FwIo × Reply) → State × List FwIo
  | [] => (s, [])
  | (e, r) :: t =>
    let (s, e) := s.ioStep c e r
    let (s, es) := s.ioSteps c t
    (s, e :: es)

/-- What the lines of an access come to: it waits while one has no answer, and fails when one has failed. -/
def ioAns (es : List FwIo) : FwAns :=
  if es.any fun e => e.ans = .owed then .wait
  else if es.all fun e => replyGood e.ans then .done (es.flatMap fun e => replyBytes e.ans)
  else .fail

/-- The lines of an access as the command keeps them: while it waits. -/
def State.keepIo (s : State) (c : Cmd) (wr : Bool) (ptr : Nat) (es : List FwIo) : State :=
  if es.isEmpty && c.io.isEmpty then s
  else s.modCmd c.handle fun k => { k with io := (k.io.filter fun e => !(e.wr == wr && e.ptr = ptr)) ++ es }

/-- The outcome of an access from its lines; those of one that waits are kept. -/
def State.endIo (s : State) (c : Cmd) (wr : Bool) (ptr : Nat) (es : List FwIo) : State × FwAns :=
  match ioAns es with
  | .wait => (s.keepIo c wr ptr es, .wait)
  | x => (s.keepIo c wr ptr [], x)

/-- Scratch master `m` reads `n` bytes for pointer `k` of a command at address `a`, line by line: MC0 for firmware's own
accesses, a chain for those of COPY and FILL (13 R267); `r` is the answer of host memory or of another node.
Log entry 136 (DESIGN CHOICE). -/
def State.readBy (s : State) (m : Nat) (c : Cmd) (k a n : Nat) (r : Reply) : State × FwAns :=
  let (s, es) := s.ioSteps c ((lineRuns a n).map fun x => (s.ioLine m c false k x.1 x.2 [] .owed, replyPart r (x.1 - a) x.2))
  s.endIo c false k es

/-- Scratch master `m` writes bytes for pointer `k` of a command at address `a`, line by line.
Log entry 136 (DESIGN CHOICE). -/
def State.writeBy (s : State) (m : Nat) (c : Cmd) (k a : Nat) (bs : List Byte) (r : Reply) : State × FwAns :=
  let (s, es) := s.ioSteps c ((lineRuns a bs.length).map fun x =>
    (s.ioLine m c true k x.1 x.2 (sliceAt bs (x.1 - a) x.2) .owed, r))
  match s.endIo c true k es with
  | (s, .done _) => (s, .done [])
  | x => x

/-- What a command has read by a pointer is kept while something else of it has to wait. -/
def State.keepRead (s : State) (m : Nat) (c : Cmd) (k a : Nat) (bs : List Byte) : State :=
  s.keepIo c false k ((lineRuns a bs.length).map fun x => s.ioLine m c false k x.1 x.2 [] (.ok (sliceAt bs (x.1 - a) x.2)))

/-- Firmware, on MC0, reads for a command.
Log entry 136 (DESIGN CHOICE). -/
def State.fwRead (s : State) (c : Cmd) (k a n : Nat) (r : Reply) : State × FwAns := s.readBy 64 c k a n r

/-- Firmware, on MC0, writes for a command.
Log entry 136 (DESIGN CHOICE). -/
def State.fwWrite (s : State) (c : Cmd) (k a : Nat) (bs : List Byte) (r : Reply) : State × FwAns := s.writeBy 64 c k a bs r

/-- A command ends: its record is written when it can be.
Log entry 9 (DESIGN CHOICE). -/
def done (s : State) : Outcome := .next s.aciSettle

/-! ## Versions and identity (03 R53, R55, R56) -/

/-- Highest set bit of a number below 2^16. -/
def topBit (v : Nat) : Nat := ((upto 16).filter fun i => v.testBit i).foldl max 0

/-- The features that version 1.`minor` enables of those asked for. -/
def featuresAt (minor req : Nat) : Nat := req &&& (if minor = 0 then 0x07 else if minor = 1 then 0x0F else 0x3F)

/-- NEGOTIATE. B0 firmware knows major 1 up to minor 2.
Log entry 170 (DEDUCED). -/
def execNegotiate (handle : Half) (s : State) : Outcome :=
  match s.running handle 0x01 with
  | none => .next s
  | some c =>
    let common := c.at 16 2 &&& 2
    if common = 0 then done (s.finishWith handle stNoVersion)
    else
      let major := topBit common
      let minor := min (c.at (18 + major) 1) 2
      let f := featuresAt minor (c.at 36 4)
      let s := { s with aci := { s.aci with version := some (major, minor), features := BitVec.ofNat 32 f } }
      done (s.finishOk handle (BitVec.ofNat 64 (f <<< 32 + major <<< 8 + minor)))

/-- ID_DEVICE and ID_PKG of stepping B0 (00 R3). -/
def idDevice : Nat := 0xD7072040
def idPkg : Nat := 0x1729019B

/-- VERSION of the running image (18 R379). -/
def State.fwVersion (s : State) : List Byte := sliceAt (if s.chip.slot then s.flash.slots[1] else s.flash.slots[0]) 8 32

/-- The 4,096 bytes that IDENTIFY writes.
Log entry 137 (DEDUCED). -/
def State.identity (s : State) : List Byte :=
  let z := List.replicate 4096 (0 : Byte)
  let put := fun (bs : List Byte) (i n v : Nat) => spliceAt bs i (bytesOf n v)
  let z := put z 0 4 idDevice
  let z := put z 4 4 idPkg
  let z := put z 8 8 s.chip.serial.toNat
  let z := put z 16 8 s.mem.d
  let z := put z 24 2 2
  let z := put z 27 1 2
  let z := put z 44 4 0x3F
  let z := put z 48 1 (b2n s.chip.slot)
  let z := put z 49 1 (b2n s.chip.provisional + 2 * b2n s.chip.unreadable + 4 * b2n (!s.chip.calPresent))
  let z := put z 56 8 s.xl.epoch.toNat
  spliceAt z 64 s.fwVersion

/-- IDENTIFY; `w` is the answer of a buffer outside the device.
Log entry 137 (DEDUCED). -/
def execIdentify (handle : Half) (w : Reply) (s : State) : Outcome :=
  match s.running handle 0x02 with
  | none => .next s
  | some c =>
    match s.fwWrite c 0 (c.at 16 8) s.identity w with
    | (s, .wait) => .next s
    | (s, .fail) => done (s.finishWith handle stAccess)
    | (s, .done _) => done (s.finishOk handle 0)

/-! ## Queue pairs (03 R47, R58, R59) -/

/-- CREATE_QP. -/
def execCreateQp (handle : Half) (s : State) : Outcome :=
  match s.running handle 0x03 with
  | none => .next s
  | some c =>
    let q := c.at 16 2
    if (s.pair q).isSome then done (s.finishWith handle stBusy)
    else
    let gen := cellGet s.aci.gens q + 1
    let p := Pair.new gen (c.at 18 1) (c.at 19 1) (c.at 23 1 = 1) (BitVec.ofNat 64 (c.at 24 8))
      (BitVec.ofNat 64 (c.at 32 8)) (c.at 20 2) (c.at 22 1) (c.at 40 1) (c.at 42 2)
    let s := { s with aci := { s.aci with gens := cellSet s.aci.gens q gen, pairs := aset q p s.aci.pairs } }
    done (s.finishOk handle (gen.setWidth 64))

/-- The pair that a command names is gone when firmware comes to it: BAD_FIELD at its QID field (03 R49, R51). -/
def State.noPair (s : State) (handle : Half) : State :=
  s.finish handle { status := stBadField, detail := 16, milestones := 0, result := 0 }

/-- DELETE_QP: fetching stops, commands are cancelled; it completes once every record of the pair has been written. -/
def execDeleteQp (handle : Half) (s : State) : Outcome :=
  match s.running handle 0x04 with
  | none => .next s
  | some c =>
    let q := c.at 16 2
    match s.pair q with
    | none => done (s.noPair handle)
    | some p =>
      if p.deleting then done s
      else
        let s := s.modPair q fun p => { p with deleting := true }
        let mine := s.aci.cmds.filter fun k => k.samePair (p.handle q 0)
        let s := mine.foldl (fun s k => match k.phase with
          | .ready => s.finishWith k.handle stNotStarted
          | .running => s.cancelRunning k
          | .finished => s) s
        done (s.flushWritten q p.waiting)

/-- SET_COALESCE: the conditions are judged again with the new values. -/
def execSetCoalesce (handle : Half) (s : State) : Outcome :=
  match s.running handle 0x05 with
  | none => .next s
  | some c =>
    let q := c.at 16 2
    if (s.pair q).isNone then done (s.noPair handle)
    else
    let s := s.modPair q fun p => { p with coalCount := c.at 18 1, coalTime := c.at 20 2 }
    let met := match s.pair q with
      | some p => p.coalMet
      | none => false
    let s := if met then s.cqInterrupt q else s
    done (s.finishOk handle 0)

/-! ## The diagnostic grant (03 R54) -/

/-- DIAG_OPEN.
Log entry 135 (DEDUCED). -/
def execDiagOpen (handle : Half) (s : State) : Outcome :=
  match s.running handle 0x40 with
  | none => .next s
  | some c =>
    if s.aci.grant.isSome then done (s.finishWith handle stBusy)
    else
      let g : Grant := { blocks := BitVec.ofNat 16 (c.at 16 2), write := c.at 18 1 = 1, limitMs := c.at 20 4 }
      done ({ s with aci := { s.aci with grant := some g } }.finishOk handle 0)

/-- DIAG_CLOSE.
Log entry 135 (DEDUCED). -/
def execDiagClose (handle : Half) (s : State) : Outcome :=
  match s.running handle 0x41 with
  | none => .next s
  | some _ =>
    if s.aci.grant.isSome then done ({ s with aci := { s.aci with grant := none } }.finishOk handle 0)
    else done (s.finishWith handle stBadField)

/-! ## COPY and FILL (03 R51, R52) -/

/-- Bytes of a milestone of COPY and FILL. -/
def pieceBytes : Nat := 0x100000

/-- The milestones of a finished copy of `n` bytes.  Whether a last piece shorter than 1 MiB counts as one is a free
value.
Log entry 134 (DEDUCED). -/
def State.wholeMilestones (s : State) (n : Nat) : State × Nat :=
  if n % pieceBytes = 0 then (s, n / pieceBytes)
  else (s.tick, n / pieceBytes + b2n (Config.freeBool s.free))

/-- The lengths of the pieces that `n` bytes are moved in, by offset. -/
def pieces (n : Nat) : List (Nat × Nat) :=
  (upto ((n + pieceBytes - 1) / pieceBytes)).map fun i => (i * pieceBytes, min pieceBytes (n - i * pieceBytes))

/-- The chain that moves the next piece: one of those assigned to the command, which one is free; the one that it waits with.
Log entry 134 (DEDUCED). -/
def State.copyMaster (s : State) (c : Cmd) : State × Nat :=
  match c.io with
  | e :: _ => (s, e.m)
  | [] =>
    let cs := (upto 32).filter fun i => c.chains.testBit i
    (s.tick, cs.getD (Config.freeNat s.free % cs.length) 0)

/-- A copy's progress: the state, pieces done in all, whether one failed, and whether one has to wait. -/
structure CopyRun where
  s       : State
  did     : Nat
  failed  : Bool
  stalled : Bool

/-- Moves pieces in order up to the first that fails or has to wait; `src` gives a piece's bytes.  What has been read of a piece
that cannot be written yet is kept.
Log entry 134 (DEDUCED). -/
def copyPieces (keep : State → Nat → Nat → List Byte → State) (c : Cmd) (dstPtr dst : Nat) (accepted : Reply)
    (src : State → Cmd → Nat → Nat → Nat → State × FwAns)
    (x : CopyRun) : List (Nat × Nat) → CopyRun
  | [] => x
  | (o, n) :: t =>
    let (s, m) := x.s.copyMaster c
    match src s c m o n with
    | (s, .fail) => { s := s, did := x.did, failed := true, stalled := false }
    | (s, .wait) => { s := s, did := x.did, failed := false, stalled := true }
    | (s, .done bs) =>
      match s.writeBy m c dstPtr (dst + o) bs accepted with
      | (s, .done _) =>
        copyPieces keep { c with io := [] } dstPtr dst accepted src
          { s := s, did := x.did + 1, failed := false, stalled := false } t
      | (s, .fail) => { s := s, did := x.did, failed := true, stalled := false }
      | (s, .wait) => { s := keep s m o bs, did := x.did, failed := false, stalled := true }

/-- A COPY or FILL ends after the pieces that were moved; `want` is how many pieces it was to move. -/
def State.endCopy (s : State) (c : Cmd) (n did : Nat) (failed : Bool) : State :=
  if failed then s.finish c.handle { status := stAccess, detail := 0, milestones := did, result := 0 }
  else if c.cancelled then s.finish c.handle { status := stCancelled, detail := 0, milestones := did, result := 0 }
  else
    let (s, m) := s.wholeMilestones n
    s.finish c.handle { status := stOk, detail := 0, milestones := m, result := 0 }

/-- The pieces that a command still moves: all that it has not moved, or, after a cancel, those before the milestone at which it
stops; a piece that it waits in is moved whole. -/
def Cmd.todo (c : Cmd) (n stopAt : Nat) : List (Nat × Nat) :=
  let last := max (min stopAt (n / pieceBytes)) (c.milestones + b2n (!c.io.isEmpty))
  (if c.cancelled then (pieces n).take last else pieces n).drop c.milestones

/-- What a COPY or FILL comes to after the pieces that it could move: it ends, or waits with its progress.
Log entry 134 (DEDUCED). -/
def State.copyEnds (c : Cmd) (n : Nat) (x : CopyRun) : Outcome :=
  if x.stalled then .next (x.s.modCmd c.handle fun k => { k with milestones := x.did })
  else done (x.s.endCopy c n x.did x.failed)

/-- COPY: `r` holds the source's bytes when it lies outside the device (fewer of them when the rest failed), `accepted`
the answer of a destination outside; a cancelled command stops after `stopAt` milestones.
Log entry 134 (DEDUCED). -/
def execCopy (handle : Half) (stopAt : Nat) (r accepted : Reply) (s : State) : Outcome :=
  match s.running handle 0x11 with
  | none => .next s
  | some c =>
    let n := c.at 32 8
    let src := c.at 16 8
    let read := fun (s : State) (c : Cmd) (m o k : Nat) =>
      let part := match r with
        | .ok bs => if o + k ≤ bs.length then Reply.ok (sliceAt bs o k) else .hostError
        | x => x
      s.readBy m c 0 (src + o) k part
    let keep := fun (s : State) (m o : Nat) (bs : List Byte) => s.keepRead m c 0 (src + o) bs
    State.copyEnds c n (copyPieces keep c 1 (c.at 24 8) accepted read
      { s := s, did := c.milestones, failed := false, stalled := false } (c.todo n stopAt))

/-- FILL.
Log entry 134 (DEDUCED). -/
def execFill (handle : Half) (stopAt : Nat) (accepted : Reply) (s : State) : Outcome :=
  match s.running handle 0x12 with
  | none => .next s
  | some c =>
    let n := c.at 24 8
    let gen := fun (s : State) (_ : Cmd) (_ _ k : Nat) =>
      (s, FwAns.done (List.replicate (k / 8) (bytesOf 8 (c.at 32 8))).flatten)
    State.copyEnds c n (copyPieces (fun s _ _ _ => s) c 0 (c.at 16 8) accepted gen
      { s := s, did := c.milestones, failed := false, stalled := false } (c.todo n stopAt))

end Sys2Proof.Machine
end

