-- ==== Sys2Proof/Machine/Sha.lean ====
section
/-! DEFINITION. The digests that the spec names by their standard: SHA-256 and SHA-384 (FIPS 180-4; 16 R344, 18 R379, R380) and
CRC-32 (IEEE 802.3; 18 R377).  The constants are the standards' (PRESUMED, log entry 40). -/

namespace Sys2Proof.Machine

/-- The 80 round constants of SHA-384.
Log entry 40 (PRESUMED). -/
def shaK512 : List (BitVec 64) :=
  [0x428A2F98D728AE22, 0x7137449123EF65CD, 0xB5C0FBCFEC4D3B2F, 0xE9B5DBA58189DBBC,
   0x3956C25BF348B538, 0x59F111F1B605D019, 0x923F82A4AF194F9B, 0xAB1C5ED5DA6D8118,
   0xD807AA98A3030242, 0x12835B0145706FBE, 0x243185BE4EE4B28C, 0x550C7DC3D5FFB4E2,
   0x72BE5D74F27B896F, 0x80DEB1FE3B1696B1, 0x9BDC06A725C71235, 0xC19BF174CF692694] ++
  [0xE49B69C19EF14AD2, 0xEFBE4786384F25E3, 0x0FC19DC68B8CD5B5, 0x240CA1CC77AC9C65,
   0x2DE92C6F592B0275, 0x4A7484AA6EA6E483, 0x5CB0A9DCBD41FBD4, 0x76F988DA831153B5,
   0x983E5152EE66DFAB, 0xA831C66D2DB43210, 0xB00327C898FB213F, 0xBF597FC7BEEF0EE4,
   0xC6E00BF33DA88FC2, 0xD5A79147930AA725, 0x06CA6351E003826F, 0x142929670A0E6E70] ++
  [0x27B70A8546D22FFC, 0x2E1B21385C26C926, 0x4D2C6DFC5AC42AED, 0x53380D139D95B3DF,
   0x650A73548BAF63DE, 0x766A0ABB3C77B2A8, 0x81C2C92E47EDAEE6, 0x92722C851482353B,
   0xA2BFE8A14CF10364, 0xA81A664BBC423001, 0xC24B8B70D0F89791, 0xC76C51A30654BE30,
   0xD192E819D6EF5218, 0xD69906245565A910, 0xF40E35855771202A, 0x106AA07032BBD1B8] ++
  [0x19A4C116B8D2D0C8, 0x1E376C085141AB53, 0x2748774CDF8EEB99, 0x34B0BCB5E19B48A8,
   0x391C0CB3C5C95A63, 0x4ED8AA4AE3418ACB, 0x5B9CCA4F7763E373, 0x682E6FF3D6B2B8A3,
   0x748F82EE5DEFB2FC, 0x78A5636F43172F60, 0x84C87814A1F0AB72, 0x8CC702081A6439EC,
   0x90BEFFFA23631E28, 0xA4506CEBDE82BDE9, 0xBEF9A3F7B2C67915, 0xC67178F2E372532B] ++
  [0xCA273ECEEA26619C, 0xD186B8C721C0C207, 0xEADA7DD6CDE0EB1E, 0xF57D4F7FEE6ED178,
   0x06F067AA72176FBA, 0x0A637DC5A2C898A6, 0x113F9804BEF90DAE, 0x1B710B35131C471B,
   0x28DB77F523047D84, 0x32CAAB7B40C72493, 0x3C9EBE0A15C9BEBC, 0x431D67C49C100D4C,
   0x4CC5D4BECB3E42B6, 0x597F299CFC657E2A, 0x5FCB6FAB3AD6FAEC, 0x6C44198C4A475817]

/-- The 64 round constants of SHA-256.
Log entry 40 (PRESUMED). -/
def shaK256 : List (BitVec 32) :=
  [0x428A2F98, 0x71374491, 0xB5C0FBCF, 0xE9B5DBA5, 0x3956C25B, 0x59F111F1,
   0x923F82A4, 0xAB1C5ED5, 0xD807AA98, 0x12835B01, 0x243185BE, 0x550C7DC3,
   0x72BE5D74, 0x80DEB1FE, 0x9BDC06A7, 0xC19BF174] ++
  [0xE49B69C1, 0xEFBE4786, 0x0FC19DC6, 0x240CA1CC, 0x2DE92C6F, 0x4A7484AA,
   0x5CB0A9DC, 0x76F988DA, 0x983E5152, 0xA831C66D, 0xB00327C8, 0xBF597FC7,
   0xC6E00BF3, 0xD5A79147, 0x06CA6351, 0x14292967] ++
  [0x27B70A85, 0x2E1B2138, 0x4D2C6DFC, 0x53380D13, 0x650A7354, 0x766A0ABB,
   0x81C2C92E, 0x92722C85, 0xA2BFE8A1, 0xA81A664B, 0xC24B8B70, 0xC76C51A3,
   0xD192E819, 0xD6990624, 0xF40E3585, 0x106AA070] ++
  [0x19A4C116, 0x1E376C08, 0x2748774C, 0x34B0BCB5, 0x391C0CB3, 0x4ED8AA4A,
   0x5B9CCA4F, 0x682E6FF3, 0x748F82EE, 0x78A5636F, 0x84C87814, 0x8CC70208,
   0x90BEFFFA, 0xA4506CEB, 0xBEF9A3F7, 0xC67178F2]

/-- The initial hash value of SHA-384. -/
def shaH384 : List (BitVec 64) :=
  [0xCBBB9D5DC1059ED8, 0x629A292A367CD507, 0x9159015A3070DD17, 0x152FECD8F70E5939,
   0x67332667FFC00B31, 0x8EB44A8768581511, 0xDB0C2E0D64F98FA7, 0x47B5481DBEFA4FA4]

/-- The initial hash value of SHA-256. -/
def shaH256 : List (BitVec 32) :=
  [0x6A09E667, 0xBB67AE85, 0x3C6EF372, 0xA54FF53A,
   0x510E527F, 0x9B05688C, 0x1F83D9AB, 0x5BE0CD19]

/-- A word from bytes, highest first. -/
def beWord (w : Nat) (bs : List Byte) : BitVec w := BitVec.ofNat w (bs.foldl (fun a b => a * 256 + b.toNat) 0)

/-- The bytes of a number, highest first. -/
def beBytes (n v : Nat) : List Byte := (bytesOf n v).reverse

/-- `bs` in blocks of `n` bytes, with `k` blocks at most. -/
def blocks (n : Nat) : Nat → List Byte → List (List Byte)
  | 0, _ => []
  | k + 1, bs => if bs.isEmpty then [] else bs.take n :: blocks n k (bs.drop n)

/-- A message padded to blocks of `n` bytes, its length in bits in the last `l` bytes. -/
def shaPad (n l : Nat) (bs : List Byte) : List Byte :=
  let z := (2 * n - (bs.length + 1 + l) % n) % n
  bs ++ [(0x80 : Byte)] ++ List.replicate z 0 ++ beBytes l (8 * bs.length)

/-- The eight words of a hash in progress. -/
structure Hash8 (w : Nat) where
  a : BitVec w
  b : BitVec w
  c : BitVec w
  d : BitVec w
  e : BitVec w
  f : BitVec w
  g : BitVec w
  h : BitVec w
  deriving DecidableEq, Repr

/-- A hash value from its eight words. -/
def hash8 {w : Nat} (l : List (BitVec w)) : Hash8 w :=
  { a := l.getD 0 0, b := l.getD 1 0, c := l.getD 2 0, d := l.getD 3 0, e := l.getD 4 0, f := l.getD 5 0
    g := l.getD 6 0, h := l.getD 7 0 }

/-- Word-by-word sum. -/
def Hash8.add {w : Nat} (x y : Hash8 w) : Hash8 w :=
  { a := x.a + y.a, b := x.b + y.b, c := x.c + y.c, d := x.d + y.d, e := x.e + y.e, f := x.f + y.f, g := x.g + y.g
    h := x.h + y.h }

/-- One round, with the functions of its size. -/
def shaRound {w : Nat} (s0 s1 : BitVec w → BitVec w) (x : Hash8 w) (kw : BitVec w) : Hash8 w :=
  let t1 := x.h + s1 x.e + ((x.e &&& x.f) ^^^ (~~~x.e &&& x.g)) + kw
  let t2 := s0 x.a + ((x.a &&& x.b) ^^^ (x.a &&& x.c) ^^^ (x.b &&& x.c))
  { a := t1 + t2, b := x.a, c := x.b, d := x.c, e := x.d + t1, f := x.e, g := x.f, h := x.g }

/-- The message schedule, last word first. -/
def shaSchedule {w : Nat} (s0 s1 : BitVec w → BitVec w) : Nat → List (BitVec w) → List (BitVec w)
  | 0, l => l
  | n + 1, l => shaSchedule s0 s1 n ((s1 (l.getD 1 0) + l.getD 6 0 + s0 (l.getD 14 0) + l.getD 15 0) :: l)

/-- One block of SHA-384. -/
def sha384Block (x : Hash8 64) (b : List Byte) : Hash8 64 :=
  let w0 := (blocks 8 16 b).map (beWord 64)
  let ws := (shaSchedule (fun v => v.rotateRight 1 ^^^ v.rotateRight 8 ^^^ v >>> (7 : Nat))
    (fun v => v.rotateRight 19 ^^^ v.rotateRight 61 ^^^ v >>> (6 : Nat)) 64 w0.reverse).reverse
  x.add ((List.zipWith (· + ·) shaK512 ws).foldl
    (shaRound (fun v => v.rotateRight 28 ^^^ v.rotateRight 34 ^^^ v.rotateRight 39)
      (fun v => v.rotateRight 14 ^^^ v.rotateRight 18 ^^^ v.rotateRight 41)) x)

/-- One block of SHA-256. -/
def sha256Block (x : Hash8 32) (b : List Byte) : Hash8 32 :=
  let w0 := (blocks 4 16 b).map (beWord 32)
  let ws := (shaSchedule (fun v => v.rotateRight 7 ^^^ v.rotateRight 18 ^^^ v >>> (3 : Nat))
    (fun v => v.rotateRight 17 ^^^ v.rotateRight 19 ^^^ v >>> (10 : Nat)) 48 w0.reverse).reverse
  x.add ((List.zipWith (· + ·) shaK256 ws).foldl
    (shaRound (fun v => v.rotateRight 2 ^^^ v.rotateRight 13 ^^^ v.rotateRight 22)
      (fun v => v.rotateRight 6 ^^^ v.rotateRight 11 ^^^ v.rotateRight 25)) x)

/-- The bytes of a hash value. -/
def Hash8.bytes {w : Nat} (x : Hash8 w) : List Byte :=
  ([x.a, x.b, x.c, x.d, x.e, x.f, x.g, x.h].map fun v => beBytes (w / 8) v.toNat).flatten

/-- SHA-384: 48 bytes.
Log entry 40 (PRESUMED). -/
def sha384 (bs : List Byte) : List Byte :=
  let m := shaPad 128 16 bs
  (((blocks 128 (m.length / 128) m).foldl sha384Block (hash8 shaH384)).bytes).take 48

/-- SHA-256: 32 bytes.
Log entry 40 (PRESUMED). -/
def sha256 (bs : List Byte) : List Byte :=
  let m := shaPad 64 8 bs
  ((blocks 64 (m.length / 64) m).foldl sha256Block (hash8 shaH256)).bytes

/-- One byte of CRC-32: reflected polynomial 0x04C1_1DB7. -/
def crc32Byte (c : Nat) (b : Byte) : Nat :=
  (upto 8).foldl (fun c _ => if c.testBit 0 then (c >>> 1) ^^^ 0xEDB88320 else c >>> 1) (c ^^^ b.toNat)

/-- CRC-32 of bytes, initial value and final XOR 0xFFFF_FFFF.
Log entry 40 (PRESUMED). -/
def crc32 (bs : List Byte) : Nat := (bs.foldl crc32Byte 0xFFFFFFFF) ^^^ 0xFFFFFFFF

end Sys2Proof.Machine
end

