-- ==== Sys2Proof/Machine/Ecdsa.lean ====
section
/-! DEFINITION. The signature of a firmware image (18 R379, R380): verification of ECDSA over the curve P-384 with SHA-384, as
FIPS 186-5 defines it.  The curve's constants and the checks of a key and of a signature are the standard's (PRESUMED, log
entry 22). -/

namespace Sys2Proof.Machine

/-- The prime of the curve's field.
Log entry 22 (PRESUMED). -/
def p384 : Nat := 2 ^ 384 - 2 ^ 128 - 2 ^ 96 + 2 ^ 32 - 1

/-- The order of the base point.
Log entry 22 (PRESUMED). -/
def n384 : Nat := 0xFFFFFFFFFFFFFFFFFFFFFFFFFFFFFFFFFFFFFFFFFFFFFFFFC7634D81F4372DDF581A0DB248B0A77AECEC196ACCC52973

/-- The coefficient b of y² = x³ − 3x + b.
Log entry 22 (PRESUMED). -/
def b384 : Nat := 0xB3312FA7E23EE7E4988E056BE3F82D19181D9C6EFE8141120314088F5013875AC656398D8A2ED19D2A85C8EDD3EC2AEF

/-- A point in Jacobian coordinates, (x / z², y / z³); z = 0 is the point at infinity. -/
structure Jac where
  x : Nat
  y : Nat
  z : Nat
  deriving DecidableEq, Repr

/-- The base point.
Log entry 22 (PRESUMED). -/
def g384 : Jac :=
  { x := 0xAA87CA22BE8B05378EB1C71EF320AD746E1D3B628BA79B9859F741E082542A385502F25DBF55296C3A545E3872760AB7
    y := 0x3617DE4A96262C6F5D9E98BF9292DC29F8F41DBD289A147CE9DA3113B5F0B8C00A60B1CE1D7E819D7A431D7C90EA0E5F
    z := 1 }

/-- Field operations. -/
def mulP (a b : Nat) : Nat := a * b % p384
def subP (a b : Nat) : Nat := (a + (p384 - b % p384)) % p384

/-- a to the power e modulo m, by the lowest `fuel` bits of e. -/
def powMod (m : Nat) : Nat → Nat → Nat → Nat → Nat
  | 0, acc, _, _ => acc
  | fuel + 1, acc, a, e => powMod m fuel (if e % 2 = 1 then acc * a % m else acc) (a * a % m) (e / 2)

/-- The inverse modulo a prime of 384 bits. -/
def invMod (m a : Nat) : Nat := powMod m 384 1 (a % m) (m - 2)

/-- Twice a point. -/
def Jac.double (a : Jac) : Jac :=
  let d := mulP a.z a.z
  let g := mulP a.y a.y
  let b := mulP a.x g
  let h := mulP 3 (mulP (subP a.x d) (a.x + d))
  let x := subP (mulP h h) (mulP 8 b)
  { x := x, y := subP (mulP h (subP (mulP 4 b) x)) (mulP 8 (mulP g g)), z := mulP (mulP 2 a.y) a.z }

/-- The sum of two points. -/
def Jac.add (a b : Jac) : Jac :=
  if a.z = 0 then b
  else if b.z = 0 then a
  else
    let za := mulP a.z a.z
    let zb := mulP b.z b.z
    let u := mulP a.x zb
    let h := subP (mulP b.x za) u
    let s := mulP a.y (mulP b.z zb)
    let r := subP (mulP b.y (mulP a.z za)) s
    if h = 0 then (if r = 0 then a.double else { x := 1, y := 1, z := 0 })
    else
      let hh := mulP h h
      let k := mulP h hh
      let v := mulP u hh
      let x := subP (subP (mulP r r) k) (mulP 2 v)
      { x := x, y := subP (mulP r (subP v x)) (mulP s k), z := mulP h (mulP a.z b.z) }

/-- u times a point and w times another, by the lowest `fuel` bits of both, highest first. -/
def mulPair (u w : Nat) (a b ab : Jac) : Nat → Jac → Jac
  | 0, acc => acc
  | fuel + 1, acc =>
    let acc := acc.double
    mulPair u w a b ab fuel (match u.testBit fuel, w.testBit fuel with
      | true, true => acc.add ab
      | true, false => acc.add a
      | false, true => acc.add b
      | false, false => acc)

/-- A number from bytes, highest first. -/
def beNat (bs : List Byte) : Nat := bs.foldl (fun a b => a * 256 + b.toNat) 0

/-- The public key that 97 bytes hold in uncompressed form: 0x04, X, Y, a point of the curve.
Log entry 22 (PRESUMED). -/
def publicKey (key : List Byte) : Option Jac :=
  let x := beNat (sliceAt key 1 48)
  let y := beNat (sliceAt key 49 48)
  if fieldAt key 0 1 = 4 && x < p384 && y < p384 && mulP y y = (mulP x (mulP x x) + (p384 - mulP 3 x) + b384) % p384 then
    some { x := x, y := y, z := 1 }
  else none

/-- A signature r, s of 96 bytes over a message verifies under a key (FIPS 186-5).
Log entry 22 (PRESUMED). -/
def signatureHolds (key msg sig : List Byte) : Bool :=
  let r := beNat (sliceAt sig 0 48)
  let s := beNat (sliceAt sig 48 48)
  match publicKey key with
  | none => false
  | some q =>
    if r = 0 || n384 ≤ r || s = 0 || n384 ≤ s then false
    else
      let w := invMod n384 s
      let e := beNat (sha384 msg)
      let pt := mulPair (e * w % n384) (r * w % n384) g384 q (g384.add q) 384 { x := 1, y := 1, z := 0 }
      pt.z ≠ 0 && mulP pt.x (mulP (invMod p384 pt.z) (invMod p384 pt.z)) % n384 = r

end Sys2Proof.Machine
end

