-- ==== Sys2Proof/Machine/Image.lean ====
section
/-! DEFINITION. What stands in the flash (18 R376 to R396): records of entries, firmware images, settings, the calibration
set, the boot control record and the wear area. -/

namespace Sys2Proof.Machine

/-! ## Records of entries (16 R343) -/

/-- `n` bytes of a flash area from index `i`; what was never programmed reads as erased. -/
def flashSlice (bs : List Byte) (i n : Nat) : List Byte :=
  let t := (bs.drop i).take n
  t ++ List.replicate (n - t.length) 0xFF

/-- A flash area with bytes programmed from index `i`. -/
def flashPut (bs : List Byte) (i : Nat) (new : List Byte) : List Byte :=
  bs.take i ++ List.replicate (i - bs.length) (0xFF : Byte) ++ new ++ bs.drop (i + new.length)

/-- Every byte is 0. -/
def zeros (bs : List Byte) : Bool := bs.all fun b => b = 0

/-- A length rounded up to a multiple of 8. -/
def pad8 (n : Nat) : Nat := (n + 7) / 8 * 8

/-- The entries of a record, keys strictly ascending and at least `low`; none if they are not well formed. -/
def parseEntries : Nat → Nat → List Byte → Option (List (Nat × List Byte))
  | 0, _, bs => if bs.isEmpty then some [] else none
  | fuel + 1, low, bs =>
    if bs.isEmpty then some []
    else
      let key := fieldAt bs 0 2
      let len := fieldAt bs 4 4
      let val := (bs.drop 8).take len
      let rest := bs.drop (8 + len)
      if bs.length < 8 + pad8 len || key < low || fieldAt bs 2 2 ≠ 0 || !zeros (rest.take (pad8 len - len)) then none
      else match parseEntries fuel (key + 1) (bs.drop (8 + pad8 len)) with
        | some t => some ((key, val) :: t)
        | none => none

/-- The entries after a header of `hdr` bytes. -/
def entriesOf (hdr : Nat) (bs : List Byte) : Option (List (Nat × List Byte)) :=
  parseEntries (bs.length / 8 + 1) 0 (bs.drop hdr)

/-- An entry's bytes. -/
def entryBytesOf (e : Nat × List Byte) : List Byte :=
  bytesOf 2 e.1 ++ bytesOf 2 0 ++ bytesOf 4 e.2.length ++ e.2 ++ List.replicate (pad8 e.2.length - e.2.length) 0

/-! ## Firmware images (18 R379, R380) -/

/-- The sizes of a header: of section `k` of the IMEM kind, and of the DMEM kind. -/
def imemSection (im : List Byte) (k : Nat) : Nat := fieldAt im (48 + 4 * k) 4
def dmemSection (im : List Byte) (k : Nat) : Nat := fieldAt im (64 + 4 * k) 4

/-- Sum of a list of numbers. -/
def sumNat (l : List Nat) : Nat := l.foldl (· + ·) 0

/-- LENGTH of an image. -/
def imageLength (im : List Byte) : Nat := fieldAt im 4 4

/-- ENTRY of an image, in parcels. -/
def imageEntry (im : List Byte) : Nat := fieldAt im 44 4

/-- The highest settings schema of an image. -/
def imageSchema (im : List Byte) : Nat := fieldAt im 40 2

/-- The image at the start of a slot is valid (18 R380), for the key hash that is fused.
Log entry 22 (PRESUMED). -/
def imageValid (keyHash slot : List Byte) : Bool :=
  let im := flashSlice slot 0 4096
  let n := imageLength im
  let isz := (upto 4).map (imemSection im)
  let dsz := (upto 4).map (dmemSection im)
  let key := sliceAt im 128 97
  fieldAt im 0 4 = 1 && 1 ≤ imageSchema im && zeros (sliceAt im 42 2) && zeros (sliceAt im 225 7)
    && zeros (im.drop 328)
    && (isz ++ dsz).all (fun v => v % 8 = 0) && isz.all (fun v => v ≤ 0x20000)
    && dsz.getD 0 0 ≤ 0x3F000 && (dsz.drop 1).all (fun v => v ≤ 0x40000)
    && n = sumNat isz + sumNat dsz && n ≤ 0x200000 - 4096 && 2 * imageEntry im < isz.getD 0 0
    && decide (sha384 key = keyHash) && signatureHolds key (im.take 232) (sliceAt im 232 96)
    && decide (sha384 (flashSlice slot 4096 n) = sliceAt im 80 48)

/-- Offset of section `k` of a kind in the image: IMEM 0 to 3, then DMEM 0 to 3. -/
def sectionAt (im : List Byte) (dmem : Bool) (k : Nat) : Nat :=
  4096 + sumNat ((upto (if dmem then 4 else k)).map (imemSection im))
    + (if dmem then sumNat ((upto k).map (dmemSection im)) else 0)

/-! ## The layout of the flash (18 R377) -/

/-- The areas of the flash. -/
inductive FlashArea where
  | boot (copy : Fin 2)
  | cal
  | wear (copy : Fin 2)
  | settings
  | slot (b : Bool)
  | fabric (copy : Fin 2)
  deriving DecidableEq, Repr

/-- Flash offset of an area. -/
def FlashArea.base : FlashArea → Nat
  | .boot c => 0x1000 * c.val
  | .cal => 0x10000
  | .wear c => 0x20000 + 0x1000 * c.val
  | .settings => 0x100000
  | .slot b => if b then 0x400000 else 0x200000
  | .fabric c => if c = 0 then 0x4000000 else 0x9000000

/-- Bytes of an area. -/
def FlashArea.size : FlashArea → Nat
  | .boot _ => 0x1000
  | .cal => 0x10000
  | .wear _ => 0x1000
  | .settings => 0x100000
  | .slot _ => 0x200000
  | .fabric _ => 0x5000000

/-- The 64-byte mark that follows a committed record: GENERATION, LENGTH and the record's CRC (18 R388). The places of the
three fields in it are the model's.
Log entry 129 (DESIGN CHOICE). -/
def commitMark (g : Generation) : List Byte :=
  bytesOf 8 g.number.toNat ++ bytesOf 4 g.record.length ++ bytesOf 4 (crc32 g.record) ++ List.replicate 48 0

/-- What stands in an area. Each record of the settings store begins at its sector.
Log entry 129 (DESIGN CHOICE). -/
def Flash.get (f : Flash) : FlashArea → List Byte
  | .boot c => f.boot[c]
  | .cal => f.cal
  | .wear c => f.wear[c]
  | .settings => f.store.foldl (fun bs x => flashPut bs (4096 * x.sector) (x.record ++ x.mark)) []
  | .slot b => if b then f.slots[1] else f.slots[0]
  | .fabric c => f.fabric[c]

/-- The byte at an offset of the flash: of the area that it lies in; a reserved offset is never written, and reads as
erased. -/
def Flash.byteAt (f : Flash) (off : Nat) : Byte :=
  let areas : List FlashArea :=
    [.boot 0, .boot 1, .cal, .wear 0, .wear 1, .settings, .slot false, .slot true, .fabric 0, .fabric 1]
  match areas.find? fun a => a.base ≤ off && off < a.base + a.size with
  | some a => (f.get a).getD (off - a.base) 0xFF
  | none => 0xFF

/-- Of two copies, the valid one with the higher count: its index and contents. -/
def newerCopy {α : Type} (count : α → Nat) : Option α → Option α → Option (Bool × α)
  | some a, some b => if count b ≤ count a then some (false, a) else some (true, b)
  | some a, none => some (false, a)
  | none, some b => some (true, b)
  | none, none => none

/-- The copy to write when `at'` is the valid copy with the higher count: the other one, or the first. -/
def otherCopy {α : Type} : Option (Bool × α) → Fin 2
  | some (false, _) => 1
  | _ => 0

/-! ## The boot control record (18 R378, R381) -/

/-- The 16 bytes of a copy. -/
def bootBytes (b : BootCtl) : List Byte :=
  let head := bytesOf 4 b.seq.toNat ++ bytesOf 1 (b2n b.active) ++ bytesOf 1 b.valid.toNat ++ List.replicate 6 0
  head ++ bytesOf 4 (crc32 head)

/-- What a copy says, if it is valid: its CRC matches and its reserved bytes and bits are 0. -/
def bootDecode (bs : List Byte) : Option BootCtl :=
  if bs.length < 16 || fieldAt bs 12 4 ≠ crc32 (bs.take 12) || !zeros (sliceAt bs 6 6) || 1 < fieldAt bs 4 1
      || 3 < fieldAt bs 5 1 then none
  else some { seq := BitVec.ofNat 32 (fieldAt bs 0 4), active := fieldAt bs 4 1 = 1, valid := BitVec.ofNat 2 (fieldAt bs 5 1) }

/-- The valid copy with the higher SEQ: its index and contents. -/
def Flash.bootCopy (f : Flash) : Option (Bool × BootCtl) :=
  newerCopy (·.seq.toNat) (bootDecode f.boot[0]) (bootDecode f.boot[1])

/-- ACTIVE and VALID as the ROM and firmware take them. -/
def Flash.bootChoice (f : Flash) : Bool × BitVec 2 :=
  match f.bootCopy with
  | some (_, b) => (b.active, b.valid)
  | none => (false, 3)

/-- Writes the boot control record over the older or invalid copy.
Log entry 138 (DEDUCED). -/
def Flash.bootWrite (f : Flash) (active : Bool) (valid : BitVec 2) : Flash :=
  let seq := match f.bootCopy with
    | some (_, b) => b.seq + 1
    | none => 1
  { f with boot := f.boot.set (otherCopy f.bootCopy) (bootBytes { seq := seq, active := active, valid := valid }) }

/-- The bit of a slot in VALID. -/
def slotBit (slot : Bool) : BitVec 2 := if slot then 2 else 1

/-- A slot's bytes. -/
def Flash.slotOf (f : Flash) (slot : Bool) : List Byte := f.get (.slot slot)

/-- Replaces a slot's bytes, of which the slot's area holds 2 MiB. -/
def Flash.setSlot (f : Flash) (slot : Bool) (bytes : List Byte) : Flash :=
  let bs := bytes.take (FlashArea.slot slot).size
  if slot then { f with slots := f.slots.set 1 bs } else { f with slots := f.slots.set 0 bs }

/-! ## Settings (18 R385 to R389) -/

/-- A value of a settings record: the entry of a key. -/
def settingOf (es : List (Nat × List Byte)) (key : Nat) : Option (List Byte) := alookup key es

/-- VMIN_MV that a record leaves; above VMAX_MV it is taken as VMAX_MV (17 R361).
Log entry 139 (DEDUCED). -/
def settingsVmin (es : List (Nat × List Byte)) : Nat :=
  match settingOf es 3 with
  | some v => min (fieldAt v 0 2) (fieldAt v 2 2)
  | none => 700

/-- Highest CCLK in MHz at a VCORE of `mv` (17 R359). -/
def cclkLimit (mv : Nat) : Nat := if mv < 800 then 1600 else if mv < 850 then 1800 else 2000

/-- MULT and POSTDIV of CPLL and BPLL meet 17 R353, R354 and R359. -/
def clocksOk (v : List Byte) (vmin : Nat) : Bool :=
  let m0 := fieldAt v 0 1
  let p0 := fieldAt v 1 1
  let m1 := fieldAt v 2 1
  let p1 := fieldAt v 3 1
  let vco := fun (m p : Nat) => 32 ≤ m && m ≤ 80 && 1 ≤ p && p ≤ 64
  vco m0 p0 && vco m1 p1
    && 200 * p0 ≤ 100 * m0 && 100 * m0 ≤ 2000 * p0
    && 100 * p1 ≤ 100 * m1 && 100 * m1 ≤ 400 * p1
    && m0 * p1 % (m1 * p0) = 0 && 2 ≤ m0 * p1 / (m1 * p0) && m0 * p1 / (m1 * p0) ≤ 5
    && 100 * m0 ≤ cclkLimit vmin * p0

/-- An entry of schema 1 has its LEN and a value within its register's range (18 R386, R387).
Log entry 139 (DEDUCED). -/
def setting1Ok (es : List (Nat × List Byte)) (e : Nat × List Byte) : Bool :=
  let v := e.2
  let u8 := fun (i : Nat) => fieldAt v i 1
  let u16 := fun (i : Nat) => fieldAt v i 2
  let n := v.length
  match e.1 with
  | 0x0001 => n = 1 && u8 0 ≤ 5
  | 0x0002 => n = 4 && 350 ≤ u16 0 && u16 0 ≤ 700 && u16 0 ≤ u16 2 && u16 2 ≤ 900
  | 0x0003 => n = 4 && 700 ≤ u16 0 && u16 0 ≤ 900 && 700 ≤ u16 2 && u16 2 ≤ 900
  | 0x0004 => n = 2
  | 0x0005 => n = 4 && clocksOk v (settingsVmin es)
  | 0x0006 => n = 4 && 1 ≤ u16 0 && 1 ≤ u8 2 && u8 3 ≤ 3
  | 0x0007 => n = 3 && u8 2 ≤ 1
  | 0x0008 => n = 4 && u8 1 ≤ 3 && 1 ≤ u16 2 && u16 2 ≤ 4095
  | 0x0009 => n = 4
  | 0x000A => n = 1
  | _ => false

/-- Firmware that knows schemas up to `schema` parses a record (18 R385, R387): its entries.
Log entries 20 (DESIGN CHOICE), 139 (DEDUCED). -/
def parseSettings (schema : Nat) (bs : List Byte) : Option (List (Nat × List Byte)) :=
  let sc := fieldAt bs 4 2
  if bs.length < 32 || fieldAt bs 0 4 ≠ bs.length || bs.length % 8 ≠ 0 || 65536 < bs.length
      || sc = 0 || schema < sc || fieldAt bs 6 2 ≠ 0 || !zeros (sliceAt bs 16 16) then none
  else match entriesOf 32 bs with
    | none => none
    | some es =>
      if es.all fun e => setting1Ok es e || (1 < sc && 10 < e.1 && Config.settingsKey sc e.1 e.2) then some es else none

/-- A record's bytes. -/
def settingsRecord (schema gen : Nat) (es : List (Nat × List Byte)) : List Byte :=
  let body := (es.map entryBytesOf).flatten
  bytesOf 4 (32 + body.length) ++ bytesOf 2 schema ++ bytesOf 2 0 ++ bytesOf 8 gen ++ List.replicate 16 0 ++ body

/-- A record with its GENERATION set. -/
def withGeneration (bs : List Byte) (gen : Nat) : List Byte := spliceAt bs 8 (bytesOf 8 gen)

/-- Sectors that a record and its mark take. -/
def storeSectors (record : List Byte) : Nat := (record.length + 64 + 4095) / 4096

/-- The generation that a record of the store is, if it is committed: its mark is that of its bytes. -/
def Stored.generation (x : Stored) : Option Generation :=
  let g : Generation := { number := BitVec.ofNat 64 (fieldAt x.record 8 8), record := x.record }
  if x.mark = commitMark g then some g else none

/-- The newest committed record of the store, and the one before it.
Log entry 129 (DESIGN CHOICE). -/
def Flash.committed (f : Flash) : List Stored := (f.store.filter fun x => x.generation.isSome).reverse.take 2

/-- The newest generation of the store, and the older one (18 R388). -/
def Flash.newest (f : Flash) : Option Generation := f.committed[0]?.bind (·.generation)
def Flash.older (f : Flash) : Option Generation := f.committed[1]?.bind (·.generation)

/-- The first sector of the next record: after the newest, or the store's first where the record does not fit there.
Log entry 129 (DESIGN CHOICE). -/
def Flash.nextSector (f : Flash) (bs : List Byte) : Nat :=
  let n := match f.committed[0]? with
    | some x => x.sector + storeSectors x.record
    | none => 0
  if n + storeSectors bs ≤ 256 then n else 0

/-- A record, with what stands of its mark, is appended after the newest: what stood in the sectors that it needs is erased.
They hold neither of the two newest generations: a record takes at most 17 of 256 sectors.
Log entry 129 (DESIGN CHOICE). -/
def Flash.append (f : Flash) (bs mark : List Byte) : Flash :=
  let n := f.nextSector bs
  { f with store := (f.store.filter fun x => x.sector + storeSectors x.record ≤ n || n + storeSectors bs ≤ x.sector)
      ++ [{ sector := n, record := bs, mark := mark }] }

/-- A record commits as the store's newest generation: the record, then its mark. -/
def Flash.commitSettings (f : Flash) (gen : Word) (bs : List Byte) : Flash :=
  f.append bs (commitMark { number := gen, record := bs })

/-- Number of the next generation. -/
def Flash.nextGeneration (f : Flash) : Word :=
  match f.newest with
  | some g => g.number + 1
  | none => 1

/-! ## Calibration (18 R391, R392) -/

/-- Bytes of a calibration set. -/
def calLength : Nat := 3280

/-- The set is present: its entries.
Log entry 140 (DEDUCED). -/
def calEntries (serial : Word) (area : List Byte) : Option (List (Nat × List Byte)) :=
  let bs := area.take calLength
  if bs.length ≠ calLength || fieldAt bs 0 4 ≠ calLength || fieldAt bs 4 2 ≠ 1 || fieldAt bs 6 2 ≠ 0
      || fieldAt bs 8 8 ≠ serial.toNat || !zeros (sliceAt bs 20 12)
      || crc32 (spliceAt bs 16 (bytesOf 4 0)) ≠ fieldAt bs 16 4 then none
  else match entriesOf 32 bs with
    | none => none
    | some es =>
      if es.map (fun e => (e.1, e.2.length)) = [(1, 128), (2, 256), (3, 2048), (4, 768), (5, 8)] then some es else none

/-! ## The wear area (17 R366, 18 R395) -/

/-- The 20 bytes of a copy. -/
def wearBytes (w : WearCopy) : List Byte :=
  let head := bytesOf 8 w.seconds.toNat ++ bytesOf 8 w.seq.toNat
  head ++ bytesOf 4 (crc32 head)

/-- What a copy says, if its CRC matches. -/
def wearDecode (bs : List Byte) : Option WearCopy :=
  if bs.length < 20 || fieldAt bs 16 4 ≠ crc32 (bs.take 16) then none
  else some { seconds := BitVec.ofNat 64 (fieldAt bs 0 8), seq := BitVec.ofNat 64 (fieldAt bs 8 8) }

/-- The valid copy with the higher SEQ: its index and contents. -/
def Flash.wearCopy (f : Flash) : Option (Bool × WearCopy) :=
  newerCopy (·.seq.toNat) (wearDecode f.wear[0]) (wearDecode f.wear[1])

/-- Writes a total over the older or invalid copy.
Log entry 160 (DEDUCED). -/
def Flash.wearWrite (f : Flash) (seconds : Word) : Flash :=
  let seq := match f.wearCopy with
    | some (_, w) => w.seq + 1
    | none => 1
  { f with wear := f.wear.set (otherCopy f.wearCopy) (wearBytes { seconds := seconds, seq := seq }) }

end Sys2Proof.Machine
end

