-- ==== Sys2Proof/Machine/FabricRecord.lean ====
section
/-! DEFINITION. Fabric settings records (16 R343), their digest (R344), and the routing tables that every device computes
from them (R332). -/

namespace Sys2Proof.Machine

/-! ## Records -/

/-- A roster device: its SERIAL and its NODE in XL_NODE layout. -/
structure Member where
  serial : Word
  node   : Half
  deriving DecidableEq, Repr

/-- A listed link between two nodes, as XL_NODE words. -/
structure FLink where
  a  : Half
  pa : Nat
  b  : Half
  pb : Nat
  deriving DecidableEq, Repr

/-- What a record says. -/
structure Fabric where
  entries : List (Nat × List Byte)
  roster  : List Member
  links   : List FLink
  /-- VER_FLOOR: major, minor. -/
  floor   : Nat × Nat
  hb      : Option Half
  atomics : Bool
  remote  : Bool
  deriving DecidableEq, Repr

/-- 16-byte items of a value. -/
def items16 (v : List Byte) : List (List Byte) := (upto (v.length / 16)).map fun i => sliceAt v (16 * i) 16

/-- A roster item. -/
def memberOf (v : List Byte) : Member := { serial := BitVec.ofNat 64 (fieldAt v 0 8), node := BitVec.ofNat 32 (fieldAt v 8 4) }

/-- A link item. -/
def flinkOf (v : List Byte) : FLink :=
  { a := BitVec.ofNat 32 (fieldAt v 0 4), pa := fieldAt v 4 1, b := BitVec.ofNat 32 (fieldAt v 8 4), pb := fieldAt v 5 1 }

/-- Consecutive items of a list are in a relation. -/
def chainOk {α : Type} (r : α → α → Bool) : List α → Bool
  | [] => true
  | [_] => true
  | a :: b :: t => r a b && chainOk r (b :: t)

/-- A ROSTER value is well formed: ascending SERIALs, unique assigned nodes, group 0x000 not used. -/
def rosterOk (v : List Byte) : Bool :=
  let ms := (items16 v).map memberOf
  v.length % 16 = 0 && (items16 v).all (fun x => fieldAt x 12 4 = 0)
    && chainOk (fun a b => decide (a.serial.toNat < b.serial.toNat)) ms
    && ms.all (fun m => m.node.extractLsb' 0 12 = 1 && m.node.toNat >>> 20 ≠ 0)
    && decide ((ms.map (·.node)).eraseDups.length = ms.length)

/-- A LINKS value is well formed. -/
def linksOk (v : List Byte) : Bool :=
  let ls := (items16 v).map flinkOf
  v.length % 16 = 0 && (items16 v).all (fun x => fieldAt x 6 2 = 0 && fieldAt x 12 4 = 0)
    && ls.all (fun l => decide (l.a.toNat < l.b.toNat) && l.pa ≤ 7 && l.pb ≤ 7)
    && chainOk (fun x y => decide (x.a.toNat * 256 + x.pa < y.a.toNat * 256 + y.pa)) ls

/-- An entry is known and well formed, or optional. -/
def fabricEntryOk (e : Nat × List Byte) : Bool :=
  let v := e.2
  match e.1 with
  | 0x0001 => rosterOk v
  | 0x0002 => linksOk v
  | 0x0003 => v.length = 8 && zeros (v.drop 2)
  | 0x0004 => v.length = 8 && zeros (v.drop 4)
  | 0x0101 => v.length = 8 && zeros (v.drop 1)
  | 0x0102 => v.length = 8 && zeros (v.drop 1)
  | k => 0x8000 ≤ k

/-- Largest record: 64 MiB. -/
def fabricMax : Nat := 0x4000000

/-- Parses a record (16 R343); none is the FORMAT failure of R345. -/
def parseFabric (bs : List Byte) : Option Fabric :=
  if bs.length < 16 || fieldAt bs 0 4 ≠ bs.length || bs.length % 8 ≠ 0 || fabricMax < bs.length
      || fieldAt bs 4 2 ≠ 1 || !zeros (sliceAt bs 6 10) then none
  else match entriesOf 16 bs with
    | none => none
    | some es =>
      if !es.all fabricEntryOk then none
      else
        let val := fun (k : Nat) => (alookup k es).getD []
        let flag := fun (k : Nat) => match alookup k es with
          | some v => decide (fieldAt v 0 1 = 1)
          | none => true
        some
          { entries := es
            roster := (items16 (val 1)).map memberOf
            links := (items16 (val 2)).map flinkOf
            floor := (fieldAt (val 3) 1 1, fieldAt (val 3) 0 1)
            hb := (alookup 4 es).map fun v => BitVec.ofNat 32 (fieldAt v 0 4)
            atomics := flag 0x101
            remote := flag 0x102 }

/-- Half of the digest: the ROUTE entries, or the SERVICE entries (16 R344). -/
def digestHalf (es : List (Nat × List Byte)) (service : Bool) : Word :=
  BitVec.ofNat 64 (fieldAt (sha256 ((es.filter fun e => e.1.testBit 8 == service).map entryBytesOf).flatten) 0 8)

/-- The two halves. -/
def Fabric.digest (f : Fabric) : Vector Word 2 := #v[digestHalf f.entries false, digestHalf f.entries true]

/-- The roster device of a SERIAL. -/
def Fabric.member (f : Fabric) (serial : Word) : Option Member := f.roster.find? (·.serial = serial)

/-- B0 knows version 1.1, which meets VER_FLOOR. -/
def Fabric.floorMet (f : Fabric) : Bool := f.floor.1 < 1 || (f.floor.1 = 1 && f.floor.2 ≤ 1)

/-- A record's bytes from its entries. -/
def fabricRecord (es : List (Nat × List Byte)) : List Byte :=
  let body := (es.map entryBytesOf).flatten
  bytesOf 4 (16 + body.length) ++ bytesOf 2 1 ++ List.replicate 10 0 ++ body

/-! ## Routing tables (16 R332) -/

/-- The number of a node: group and member. -/
def nodeNum (n : Half) : Nat := n.toNat >>> 12

/-- The links as hops from one node: port and neighbour. -/
def Fabric.hops (f : Fabric) (a : Nat) : List (Nat × Nat) :=
  let roster := f.roster.map fun m => nodeNum m.node
  (f.links.flatMap fun l =>
    (if nodeNum l.a = a then [(l.pa, nodeNum l.b)] else []) ++ (if nodeNum l.b = a then [(l.pb, nodeNum l.a)] else [])).filter
    fun h => roster.contains h.2

/-- Nodes at each BFS distance: `fuel` more levels from a frontier.
Log entry 123 (DEDUCED). -/
def Fabric.bfs (f : Fabric) : Nat → Nat → List Nat → List (Nat × Nat) → List (Nat × Nat)
  | 0, _, _, seen => seen
  | fuel + 1, d, front, seen =>
    let next := ((front.flatMap fun a => (f.hops a).map (·.2)).filter fun b => (alookup b seen).isNone).eraseDups
    if next.isEmpty then seen else f.bfs fuel (d + 1) next (seen ++ next.map fun b => (b, d + 1))

/-- L(n) of each node; a node that no link reaches stands beyond every other.
Log entry 123 (DEDUCED). -/
def Fabric.levels (f : Fabric) : List (Nat × Nat) :=
  match f.roster.head? with
  | none => []
  | some root =>
    let r := nodeNum root.node
    let n := f.roster.length
    let seen := f.bfs n 0 [r] [(r, 0)]
    f.roster.map fun m => (nodeNum m.node, (alookup (nodeNum m.node) seen).getD n)

/-- Lexicographic order of (L, node). -/
def below (lv : List (Nat × Nat)) (b a : Nat) : Bool :=
  let lb := (alookup b lv).getD 0
  let la := (alookup a lv).getD 0
  lb < la || (lb = la && b < a)

/-- Inserts a node into a list in (L, node) order. -/
def insNode (lv : List (Nat × Nat)) (x : Nat) : List Nat → List Nat
  | [] => [x]
  | y :: t => if below lv x y then x :: y :: t else y :: insNode lv x t

/-- Smallest of some numbers, if there is one. -/
def minOf (l : List Nat) : Option Nat := l.foldl (fun m v => some (match m with
  | none => v
  | some x => min x v)) none

/-- Down(a) for destination `d`, of the nodes that have one. `ord` rises in (L, node). -/
def Fabric.down (f : Fabric) (lv : List (Nat × Nat)) (ord : List Nat) (d : Nat) : List (Nat × Nat) :=
  ord.reverse.foldl (fun acc a =>
    if a = d then (a, 0) :: acc
    else match minOf ((f.hops a).filterMap fun h => if below lv h.2 a then none else alookup h.2 acc) with
      | some v => (a, v + 1) :: acc
      | none => acc) []

/-- Cost(a), of the nodes that have one. -/
def Fabric.cost (f : Fabric) (lv : List (Nat × Nat)) (ord : List Nat) (down : List (Nat × Nat)) : List (Nat × Nat) :=
  ord.foldl (fun acc a =>
    match alookup a down with
    | some v => (a, v) :: acc
    | none =>
      match minOf ((f.hops a).filterMap fun h => if below lv h.2 a then alookup h.2 acc else none) with
      | some v => (a, v + 1) :: acc
      | none => acc) []

/-- The port with the least key, the lowest port among equals: `l` lists (key, port). -/
def bestPort (l : List (Nat × Nat)) : Option Nat :=
  (l.foldl (fun (m : Option (Nat × Nat)) x => some (match m with
    | none => x
    | some y => if x.1 < y.1 || (x.1 = y.1 && x.2 < y.2) then x else y)) none).map (·.2)

/-- The table entry of node `own` for destination `d`.
Log entry 123 (DEDUCED). -/
def Fabric.entry (f : Fabric) (lv : List (Nat × Nat)) (ord : List Nat) (own d : Nat) : Half :=
  let down := f.down lv ord d
  let cost := f.cost lv ord down
  let hs := f.hops own
  let isUp := fun (h : Nat × Nat) => below lv h.2 own
  let primary := match alookup own down with
    | some v => bestPort (hs.filterMap fun h => if !isUp h && alookup h.2 down == some (v - 1) then some (0, h.1) else none)
    | none => bestPort (hs.filterMap fun h => if isUp h then (alookup h.2 cost).map fun c => (c, h.1) else none)
  match primary with
  | none => 0
  | some p =>
    let det := bestPort (hs.filterMap fun h =>
      if h.1 = p then none
      else if isUp h then (alookup h.2 cost).map fun c => (c + 1, h.1)
      else (alookup h.2 down).map fun c => (c + 1, h.1))
    match det with
    | some q => BitVec.ofNat 32 (3 <<< 30 + q <<< 4 + p)
    | none => BitVec.ofNat 32 (1 <<< 31 + p)

/-- The tables of node `own`: (group, entry) and (member, entry). -/
def Fabric.tables (f : Fabric) (own : Nat) : List (Nat × Half) × List (Nat × Half) :=
  let lv := f.levels
  let nodes := f.roster.map fun m => nodeNum m.node
  let ord := nodes.foldl (fun l x => insNode lv x l) []
  let entryTo := fun (d : Nat) => if d = own then (0 : Half) else f.entry lv ord own d
  let groups := (nodes.map (· / 256)).eraseDups
  let first := fun (g : Nat) => (minOf (nodes.filter fun x => x / 256 = g)).getD 0
  (groups.map fun g => (g, entryTo (first g)),
    (nodes.filter fun x => x / 256 = own / 256).map fun x => (x % 256, entryTo x))

/-- Fills a bank of a table of `size` entries. -/
def fillBank (t : Regs 32) (bank size : Nat) (es : List (Nat × Half)) : Regs 32 :=
  es.foldl (fun t e => cellSet t (bank * size + e.1) e.2) (t.filter fun c => c.1 / size ≠ bank)

/-- Computes the tables of this device from a record into a bank (16 R345, 18 R394). -/
def State.computeTables (s : State) (f : Fabric) (bank : Nat) : State :=
  let (gs, ms) := match f.member s.chip.serial with
    | some m => f.tables (nodeNum m.node)
    | none => ([], [])
  { s with xl := { s.xl with grt := fillBank s.xl.grt bank 4096 gs, mrt := fillBank s.xl.mrt bank 256 ms } }

/-! ## The fabric area (18 R394) -/

/-- The 32-byte header of a copy, with a value for its CRC field. -/
def fabricHeader (c : FabricCopy) (crc : Nat) : List Byte :=
  bytesOf 4 c.record.length ++ bytesOf 2 1 ++ bytesOf 2 0 ++ bytesOf 4 c.node.toNat ++ bytesOf 4 0
    ++ bytesOf 8 c.epoch.toNat ++ bytesOf 4 crc ++ bytesOf 4 0

/-- The bytes of a copy. Its LENGTH is the record's.
Log entry 129 (DESIGN CHOICE). -/
def fabricBytes (c : FabricCopy) : List Byte := fabricHeader c (crc32 (fabricHeader c 0 ++ c.record)) ++ c.record

/-- What a copy says, if it is valid: FORMAT is 1, the other bytes are 0 and its CRC matches. -/
def fabricDecode (bs : List Byte) : Option FabricCopy :=
  let c : FabricCopy := {
    node := BitVec.ofNat 32 (fieldAt bs 8 4), epoch := BitVec.ofNat 64 (fieldAt bs 16 8)
    record := (bs.drop 32).take (fieldAt bs 0 4) }
  if bs.length < 32 + fieldAt bs 0 4 || bs.length < 32
      || bs.take 32 ≠ fabricHeader c (crc32 (fabricHeader c 0 ++ c.record)) then none
  else some c

/-- The valid copy with the higher EPOCH: its index and contents. -/
def Flash.fabricCopy (f : Flash) : Option (Bool × FabricCopy) :=
  newerCopy (·.epoch.toNat) (fabricDecode f.fabric[0]) (fabricDecode f.fabric[1])

/-- A write of the copy that does not hold the newest stored epoch begins: the copy is erased. -/
def Flash.fabricErase (f : Flash) : Flash := { f with fabric := f.fabric.set (otherCopy f.fabricCopy) [] }

/-- Writes the copy that does not hold the newest stored epoch. -/
def Flash.fabricWrite (f : Flash) (c : FabricCopy) : Flash :=
  { f with fabric := f.fabric.set (otherCopy f.fabricCopy) (fabricBytes c) }

end Sys2Proof.Machine
end

