-- ==== Sys2Proof/Machine/FwExec.lean ====
section
/-! DEFINITION. The commands on the flash (18 R382, R383, R390, R393): firmware slots, settings, calibration. -/

namespace Sys2Proof.Machine

/-- The clock of the flash controller runs (17 R357).
Log entry 141 (DEDUCED). -/
def State.flashOn (s : State) : Bool := s.chip.clkGate.getLsbD 26

/-- Firmware begins to store a committed waymark, in place of one whose write is in progress: the copy that does not hold the newest
stored epoch is erased (18 R394).  Without its clock the flash waits.
Log entry 129 (DESIGN CHOICE). -/
def State.startStore (s : State) (c : FabricCopy) : State :=
  { s with xl := { s.xl with toStore := some c }, flash := if s.flashOn then s.flash.fabricErase else s.flash }

/-- The write of a waymark in progress ends.
Log entries 1 (DESIGN CHOICE), 129 (DESIGN CHOICE), 141 (DEDUCED). -/
def State.endStore (s : State) : State :=
  match s.xl.toStore with
  | none => s
  | some c =>
    if s.flashOn then { s with flash := s.flash.fabricWrite c, xl := { s.xl with toStore := none } } else s

/-- A write of the flash, once the one in progress has ended (18 R377). -/
def State.program (s : State) (f : Flash → Flash) : State :=
  let s := s.endStore
  { s with flash := f s.flash }

/-- Firmware stores the wear total.
Log entry 160 (DEDUCED). -/
def State.storeWear (s : State) : State :=
  let total := s.thm.stored + s.thm.wear
  { s.program (·.wearWrite total) with thm := { s.thm with stored := total, wear := 0 } }

/-- What PREPARE_OFF asked for is done, as far as it is not: the wear total is stored, once the flash has a clock
(19 R405).
Log entries 1 (DESIGN CHOICE), 141 (DEDUCED). -/
def State.storeOff (s : State) : State :=
  if s.chip.preparing && !s.chip.offReady && s.flashOn then
    let s := s.storeWear
    { s with chip := { s.chip with offReady := true } }
  else s

/-- A committed command of an opcode, while the flash can be reached. -/
def State.runningFlash (s : State) (h : Half) (op : Nat) : Option Cmd := if s.flashOn then s.running h op else none

/-- The running image's header. -/
def State.image (s : State) : List Byte := flashSlice (s.flash.slotOf s.chip.slot) 0 4096

/-! ## Firmware slots -/

/-- FW_STAGE begins: the boot control record loses the inactive slot's VALID bit before anything is written.
Log entry 138 (DEDUCED). -/
def execFwStage (handle : Half) (s : State) : Outcome :=
  match s.runningFlash handle 0x20 with
  | none => .next s
  | some c =>
    if c.started then .next s
    else
      let slot := !s.chip.slot
      let (active, valid) := s.flash.bootChoice
      let s := s.program (·.bootWrite (if active == slot then s.chip.slot else active) (valid &&& ~~~slotBit slot))
      if c.at 24 4 = 0 then done (s.finishOk handle 0)
      else .next (s.modCmd handle fun k => { k with started := true })

/-- FW_STAGE_PIECE: the next piece of up to 64 KiB is erased, programmed and read back.  What a failed piece leaves in the
slot is a free value.
Log entry 138 (DEDUCED). -/
def execFwStagePiece (handle : Half) (r : Reply) (readBackOk : Bool) (s : State) : Outcome :=
  match s.runningFlash handle 0x20 with
  | none => .next s
  | some c =>
    let len := c.at 24 4
    let o := 0x10000 * c.milestones
    let n := min 0x10000 (len - o)
    if !c.started then .next s
    else match s.fwRead c 0 (c.at 16 8 + o) n r with
      | (s, .wait) => .next s
      | (s, .fail) =>
        done (s.finish handle { status := stAccess, detail := 0, milestones := c.milestones, result := 0 })
      | (s, .done bs) =>
        let slot := !s.chip.slot
        let put := fun (s : State) (bs : List Byte) =>
          s.program fun f => f.setSlot slot (flashPut (f.slotOf slot) (c.at 28 4 + o) bs)
        if !readBackOk then
          let s := (put s (bytesOf n (Config.freeNat s.free))).tick
          done (s.finish handle { status := stInternal, detail := 0, milestones := c.milestones, result := 0 })
        else
          let s := (put s bs).modCmd handle fun k => { k with milestones := k.milestones + 1 }
          let m := c.milestones + 1
          if c.cancelled then
            done (s.finish handle { status := stCancelled, detail := 0, milestones := m, result := 0 })
          else if len ≤ o + n then
            done (s.finish handle { status := stOk, detail := 0, milestones := m, result := 0 })
          else .next s

/-- FW_ACTIVATE: the slot's image is checked, the boot control record is written; with WHEN = 1 the wear total is stored
and a firmware reset is due.
Log entry 138 (DEDUCED). -/
def execFwActivate (handle : Half) (s : State) : Outcome :=
  match s.runningFlash handle 0x21 with
  | none => .next s
  | some c =>
    let slot := decide (c.at 16 1 = 1)
    let staging := s.aci.cmds.any fun k => k.phase == .running && k.op = 0x20 && !(slot == s.chip.slot)
    if staging || !imageValid s.chip.keyHash (s.flash.slotOf slot) then done (s.finishWith handle stImage)
    else
      let s := s.program fun f => f.bootWrite slot (f.bootChoice.2 ||| slotBit slot)
      let s := s.finishOk handle 0
      if c.at 17 1 = 1 then
        let s := s.aciSettle.storeWear
        .next { s with chip := { s.chip with resetDue := true } }
      else done s

/-! ## Settings -/

/-- SETTINGS_READ; `w` is the answer of a buffer outside the device. -/
def execSettingsRead (handle : Half) (w : Reply) (s : State) : Outcome :=
  match s.runningFlash handle 0x22 with
  | none => .next s
  | some c =>
    match (if c.at 28 1 = 0 then s.flash.newest else s.flash.older) with
    | none => done (s.finishOk handle 0)
    | some g =>
      let bs := g.record.take (c.at 24 4)
      match s.fwWrite c 0 (c.at 16 8) bs w with
      | (s, .wait) => .next s
      | (s, .fail) => done (s.finishWith handle stAccess)
      | (s, .done _) =>
        let ok := (parseSettings (imageSchema s.image) g.record).isSome
        done (s.finish handle
          { status := if ok then stOk else stSettings, detail := 0, milestones := 0, result := BitVec.ofNat 64 bs.length })

/-- A field of a command's entry is refused while the command runs (03 R49). -/
def State.finishBad (s : State) (h : Half) (i : Nat) : State :=
  s.finish h { status := stBadField, detail := BitVec.ofNat 32 i, milestones := 0, result := 0 }

/-- SETTINGS_WRITE: `r` is the answer of a source outside the device.
Log entry 139 (DEDUCED). -/
def execSettingsWrite (handle : Half) (r : Reply) (s : State) : Outcome :=
  match s.runningFlash handle 0x23 with
  | none => .next s
  | some c =>
    match s.fwRead c 0 (c.at 16 8) (c.at 24 4) r with
    | (s, .wait) => .next s
    | (s, .fail) => done (s.finishWith handle stAccess)
    | (s, .done bs) =>
      if 8 ≤ bs.length && fieldAt bs 0 4 ≠ bs.length then done (s.finishBad handle 24)
      else if (parseSettings (imageSchema s.image) bs).isNone || fieldAt bs 8 8 ≠ 0 then done (s.finishBad handle 16)
      else done ({ s with chip := { s.chip with stagedSet := some bs } }.finishOk handle 0)

/-- What SETTINGS_COMMIT commits: the staged record, or the settings in use encoded at the image's SCHEMA, as the next
generation. -/
def State.toCommit (s : State) : Word × List Byte :=
  let gen := s.flash.nextGeneration
  (gen, match s.chip.stagedSet with
    | some b => withGeneration b gen.toNat
    | none => settingsRecord (imageSchema s.image) gen.toNat ((entriesOf 32 s.chip.settings).getD []))

/-- SETTINGS_COMMIT.
Log entry 139 (DEDUCED). -/
def execSettingsCommit (handle : Half) (s : State) : Outcome :=
  match s.runningFlash handle 0x24 with
  | none => .next s
  | some _ =>
    let (gen, bs) := s.toCommit
    let s := { s.program (·.commitSettings gen bs) with
      chip := { s.chip with stagedSet := none, provisional := false, unreadable := false } }
    done (s.finishOk handle gen)

/-! ## Calibration -/

/-- CAL_READ. -/
def execCalRead (handle : Half) (w : Reply) (s : State) : Outcome :=
  match s.runningFlash handle 0x25 with
  | none => .next s
  | some c =>
    if (calEntries s.chip.serial s.flash.cal).isNone then done (s.finishWith handle stCal)
    else
      let bs := (s.flash.cal.take calLength).take (c.at 24 4)
      match s.fwWrite c 0 (c.at 16 8) bs w with
      | (s, .wait) => .next s
      | (s, .fail) => done (s.finishWith handle stAccess)
      | (s, .done _) => done (s.finishOk handle (BitVec.ofNat 64 bs.length))

/-- CAL_WRITE: a set that is not present-valid fails; else the area is erased, programmed and read back.
Log entry 140 (DEDUCED). -/
def execCalWrite (handle : Half) (r : Reply) (readBackOk : Bool) (s : State) : Outcome :=
  match s.runningFlash handle 0x26 with
  | none => .next s
  | some c =>
    match s.fwRead c 0 (c.at 16 8) (c.at 24 4) r with
    | (s, .wait) => .next s
    | (s, .fail) => done (s.finishWith handle stAccess)
    | (s, .done bs) =>
      if c.at 24 4 ≠ calLength then done (s.finishBad handle 24)
      else if (calEntries s.chip.serial bs).isNone then done (s.finishBad handle 16)
      else if readBackOk then done ((s.program fun f => { f with cal := bs }).finishOk handle 0)
      else done ((s.program fun f => { f with cal := [] }).finishWith handle stCal)

/-! ## Power lost during a write (18 R396) -/

/-- A reset cuts a write of the flash short that is in progress for a running command.  Whether one is, and which, is a free value:
CAL_WRITE loses the set, SETTINGS_COMMIT leaves a record without its mark, FW_STAGE a piece of free bytes.
Log entry 159 (DEDUCED). -/
def State.cutWrites (s : State) : State :=
  let runs := fun (op : Nat) => s.aci.cmds.find? fun k => k.phase == .running && k.op = op
  if (runs 0x20).isNone && (runs 0x24).isNone && (runs 0x26).isNone then s
  else
    let f := s.flash
    let slot := !s.chip.slot
    let f := match Config.freeNat s.free % 4, runs 0x20, runs 0x24, runs 0x26 with
      | 1, some c, _, _ =>
        let o := 0x10000 * c.milestones
        let bs := bytesOf (min 0x10000 (c.at 24 4 - o)) (Config.freeNat (s.free + 1))
        if c.started then f.setSlot slot (flashPut (f.slotOf slot) (c.at 28 4 + o) bs) else f
      | 2, _, some _, _ => f.append s.toCommit.2 []
      | 3, _, _, some _ => { f with cal := [] }
      | _, _, _, _ => f
    { s with flash := f }.tick.tick

end Sys2Proof.Machine
end

