-- ==== Sys2Proof/Machine/Frame.lean ====
section
/-! DEFINITION. What a Tchigor link carries: messages and their headers, slots, frames and training frames, byte for byte
(16 R321 to R326, R338).  The model sends one message header in each HDR slot and begins each message in a new frame. -/

namespace Sys2Proof.Machine

/-! ## Slots and channels (16 R324, R328) -/

/-- The model's code for an RDATA response, which has no opcode of its own. -/
def opRdata : BitVec 8 := 0x23

/-- A routed message with its opcode. -/
abbrev Packet := BitVec 8 × Msg

/-- Bytes of data that a message carries. -/
def dataOf (x : Packet) : Nat :=
  match x.1.toNat with
  | 0x02 => x.2.data.length
  | 0x03 => 8
  | 0x20 => x.2.data.length
  | 0x23 => x.2.data.length
  | _ => 0

/-- Slots of 64 B that a message takes: a header but for RDATA, and its data. -/
def slotsOf (x : Packet) : Nat := (if x.1 = opRdata then 0 else 1) + (dataOf x + 63) / 64

/-- A request. -/
def isRequest (opc : BitVec 8) : Bool := decide (opc.toNat < 0x20)

/-- The virtual channel of a message. -/
def vcOf (x : Packet) : Nat :=
  (if isRequest x.1 then 0 else 1) + (if x.2.control then 2 else 0) + (if x.2.layer then 4 else 0)

/-- The VC of a number; management is 8. -/
def vcFin (v : Nat) : Fin 9 := if h : v < 9 then ⟨v, h⟩ else 8

/-- Slots of the receive buffer that B0 advertises for a VC (16 R328). -/
def ownBuffer (v : Nat) : Nat :=
  if v = 0 || v = 4 then 256 else if v = 1 || v = 5 then 1024 else 64

/-- Frames that slots take.
Log entry 110 (DESIGN CHOICE). -/
def framesOf (slots : Nat) : Nat := (slots + 3) / 4

/-! ## CRC-24 (16 R323) -/

/-- One byte of CRC-24: polynomial 0x864CFB, most significant bit first. -/
def crc24Byte (c : Nat) (b : Byte) : Nat :=
  (upto 8).foldl (fun c _ => if c.testBit 23 then ((c <<< 1) ^^^ 0x864CFB) % 2 ^ 24 else (c <<< 1) % 2 ^ 24)
    (c ^^^ (b.toNat <<< 16))

/-- CRC-24 of bytes. -/
def crc24 (bs : List Byte) : Nat := bs.foldl crc24Byte 0xB704CE

/-! ## Headers (16 R325, R338) -/

/-- LEN of a header: the data length − 1, the REASON of a refusal.
Log entry 161 (DESIGN CHOICE). -/
def lenByte (x : Packet) : Nat :=
  if isRequest x.1 then x.2.len - 1
  else if x.1 = 0x22 then x.2.reason
  else if x.1 = 0x20 then x.2.data.length - 1
  else 0

/-- The 16 bytes of a routed message's header. -/
def msgHeader (x : Packet) : List Byte :=
  [x.1, BitVec.ofNat 8 (x.2.qos.toNat + 16 * x.2.aop.toNat + 64 * b2n x.2.ret + 128 * b2n x.2.mc)]
    ++ bytesOf 2 x.2.tid.toNat ++ bytesOf 3 (x.2.src.toNat + 2 ^ 20 * x.2.hops) ++ bytesOf 1 (lenByte x)
    ++ bytesOf 8 x.2.addr.toNat

/-- DELIV of a management opcode (16 R339): 0 LINK, 1 FLOOD, 2 REVERSE, 3 PARENT. -/
def delivOf (opc : BitVec 8) : Nat :=
  match opc.toNat with
  | 0x42 => 3
  | 0x43 => 1
  | 0x44 => 2
  | 0x45 => 1
  | 0x46 => 1
  | 0x49 => 1
  | 0x4A => 2
  | _ => 0

/-- The 16 bytes of a management message's header. -/
def mgtHeader (x : MgtMsg) : List Byte :=
  [x.opc] ++ bytesOf 1 (delivOf x.opc) ++ bytesOf 1 x.h.fhops ++ bytesOf 1 (x.payload.length - 1)
    ++ bytesOf 4 x.h.fseq.toNat ++ bytesOf 8 x.h.origin.toNat

/-- Data slots that a number of bytes takes. -/
def dataSlots (n : Nat) : Nat := (n + 63) / 64

/-- The message that a header on a VC begins, or none where its opcode is reserved or is not of the VC; `last` of its slot,
which may be marked poisoned.
Log entry 161 (DESIGN CHOICE). -/
def headerMsg (vc : Nat) (last poison : Bool) (b : List Byte) : Option RxMsg :=
  let opc := BitVec.ofNat 8 (fieldAt b 0 1)
  let o := opc.toNat
  let len := fieldAt b 7 1
  let at1 := fieldAt b 1 1
  let m : Msg := {
    qos := BitVec.ofNat 4 at1, aop := BitVec.ofNat 2 (at1 / 16), ret := at1.testBit 6, mc := at1.testBit 7
    tid := BitVec.ofNat 16 (fieldAt b 2 2), src := BitVec.ofNat 20 (fieldAt b 4 3), hops := fieldAt b 4 3 / 2 ^ 20
    len := if o < 0x20 then len + 1 else 0, addr := BitVec.ofNat 64 (fieldAt b 8 8), data := []
    poison := poison && last, reason := if o = 0x22 then len else 0
    control := decide (2 ≤ vc % 4), layer := decide (4 ≤ vc) }
  let need := if o = 0x02 || o = 0x20 then len + 1 else if o = 0x03 then 8 else 0
  if vc = 8 then
    if 0x40 ≤ o && o ≤ 0x4A && fieldAt b 1 1 % 4 = delivOf opc then
      some { vc := vc, need := fieldAt b 3 1 + 1, slots := b2n last, body := .mgt { opc := opc, payload := [], h :=
        { fhops := fieldAt b 2 1, fseq := BitVec.ofNat 32 (fieldAt b 4 4), origin := BitVec.ofNat 64 (fieldAt b 8 8) } } }
    else none
  else if (vc % 2 = 0 && 1 ≤ o && o ≤ 3) || (vc % 2 = 1 && 0x20 ≤ o && o ≤ 0x22) then
    some { vc := vc, need := need, slots := b2n last, body := .routed opc m }
  else none

/-- Adds a DATA slot's bytes to the message that takes it. -/
def RxMsg.take (r : RxMsg) (bs : List Byte) : RxMsg :=
  let d := bs.take r.need
  { r with
    need := r.need - d.length
    slots := r.slots + 1
    body := match r.body with
      | .routed opc m => .routed opc { m with data := m.data ++ d }
      | .mgt m => .mgt { m with payload := m.payload ++ d } }

/-! ## Slots (16 R324) -/

/-- A slot of bytes padded with zeros. -/
def padSlot (desc : Nat) (bs : List Byte) : FlitSlot := { desc := BitVec.ofNat 48 desc, bytes := sliceAt bs 0 64 }

/-- The DATA slots of bytes. -/
def dataPieces (mark : Nat) (bs : List Byte) : List FlitSlot :=
  (upto (dataSlots bs.length)).map fun i => padSlot (3 + mark) ((bs.drop (64 * i)).take 64)

/-- The mark of poison that a response other than RDATA carries in its slots' descriptors.
Log entry 161 (DESIGN CHOICE). -/
def poisonMark (m : Msg) : Nat := if m.poison then 2 ^ 47 else 0

/-- The data that a message carries in DATA slots. -/
def carried (x : Packet) : List Byte := sliceAt x.2.data 0 (dataOf x)

/-- The slots of a routed message. -/
def packetSlots (x : Packet) : List FlitSlot :=
  if x.1 = opRdata then
    let d := carried x
    padSlot (2 + 8 * b2n x.2.layer + 16 * x.2.tid.toNat + 2 ^ 20 * (x.2.addr.toNat >>> 44) + 2 ^ 40 * b2n x.2.poison
      + 2 ^ 41 * (dataSlots d.length - 1)) (d.take 64) :: dataPieces 0 (d.drop 64)
  else padSlot (1 + 8 * vcOf x + poisonMark x.2) (msgHeader x) :: dataPieces (poisonMark x.2) (carried x)

/-- The slots of a management message. -/
def mgtSlots (x : MgtMsg) : List FlitSlot := padSlot (1 + 8 * 8) (mgtHeader x) :: dataPieces 0 x.payload

/-! ## Frames (16 R321, R323) -/

/-- Slot `i` of a frame; an absent one is EMPTY. -/
def TxFrame.slot (f : TxFrame) (i : Nat) : FlitSlot := (f.slots[i]?).getD { desc := 0, bytes := List.replicate 64 0 }

/-- The 288 bytes of a frame of kind `kind` with an acknowledgement. -/
def frameBytes (kind : Nat) (f : TxFrame) (ack : BitVec 12) (nak : Bool) : List Byte :=
  let b := (upto 4).flatMap (fun i => (f.slot i).bytes) ++ (upto 4).flatMap (fun i => bytesOf 6 (f.slot i).desc.toNat)
    ++ bytesOf 2 (f.seq.toNat + 4096 * kind) ++ bytesOf 2 (ack.toNat + 4096 * b2n nak) ++ bytesOf 1 (f.cvc + 16 * f.ccnt)
  b ++ bytesOf 3 (crc24 b)

/-- An idle frame. -/
def idleBytes (seq ack : BitVec 12) (nak : Bool) : List Byte :=
  frameBytes 1 { slots := [], seq := seq, cvc := 15, ccnt := 0 } ack nak

/-- Slot 0 of a training frame. -/
def trainSlot (f : TrainFrame) : List Byte :=
  bytesOf 8 f.serial.toNat ++ bytesOf 4 f.node.toNat ++ [f.port, f.lanes.setWidth 8, f.minor, f.major]
    ++ bytesOf 8 f.epoch.toNat ++ bytesOf 8 f.digest0.toNat ++ bytesOf 8 f.digest1.toNat
    ++ f.credits.flatMap (fun c => bytesOf 2 c.toNat)

/-- The bytes of a training frame. -/
def trainBytes (f : TrainFrame) : List Byte :=
  frameBytes 2 { slots := [padSlot 0 (trainSlot f)], seq := 0, cvc := 0, ccnt := 0 } 0 false

/-! ## Received slots -/

/-- Changes one VC of a port. -/
def Tgl.modVc (t : Tgl) (v : Nat) (g : Vc → Vc) : Tgl := { t with vcs := t.vcs.set (vcFin v) (g t.vcs[vcFin v]) }

/-- A slot of a VC is filled. -/
def Tgl.useSlot (t : Tgl) (v : Nat) : Tgl := { t with rxVc := v }.modVc v fun c => { c with used := c.used + 1 }

/-- A slot that holds nothing of a message is free at once. -/
def Tgl.dropSlot (t : Tgl) (v : Nat) : Tgl := { t with rxVc := v }.modVc v fun c => { c with owed := c.owed + 1 }

/-- A message stands in the receive buffer once its data is whole. -/
def Tgl.settle (t : Tgl) (r : RxMsg) : Tgl :=
  if r.need = 0 then { t with rxOpen := none, rx := t.rx ++ [r] } else { t with rxOpen := some r }

/-- A HDR slot's headers; one with a reserved opcode is discarded, and a slot that its last header leaves without a message is
free (16 R324, R326). -/
def Tgl.takeHeaders (t : Tgl) (d : Nat) (bs : List Byte) : Tgl :=
  let v := bits d 6 3
  let n := bits d 8 7
  (upto (n + 1)).foldl (fun (t : Tgl) i =>
    match headerMsg v (i = n) (d.testBit 47) ((bs.drop (16 * i)).take 16) with
    | some r => (if i = n then t.useSlot v else t).settle r
    | none => if i = n then t.dropSlot v else t) { t with rxOpen := none }

/-- An RDATA slot begins a data-class read response. -/
def Tgl.takeRdata (t : Tgl) (d : Nat) (bs : List Byte) : Tgl :=
  let layer := d.testBit 3
  let v := if layer then 5 else 1
  let dest := bits d 39 20
  let m : Msg := {
    qos := 0, aop := 0, ret := false, mc := false, tid := BitVec.ofNat 16 (bits d 19 4), src := BitVec.ofNat 20 dest, hops := 0
    len := 0, addr := BitVec.ofNat 64 (dest <<< 44), data := [], poison := d.testBit 40, reason := 0, control := false
    layer := layer }
  (t.useSlot v).settle
    ({ vc := v, need := 64 * (bits d 42 41 + 1), slots := 0, body := .routed opRdata m : RxMsg }.take bs)

/-- A slot of an accepted frame.
Log entry 110 (DESIGN CHOICE). -/
def Tgl.fillSlot (t : Tgl) (d : Nat) (bs : List Byte) : Tgl :=
  match d % 8 with
  | 1 => t.takeHeaders d bs
  | 2 => t.takeRdata d bs
  | 3 =>
    match t.rxOpen with
    | some r => (t.useSlot t.rxVc).settle (r.take bs)
    | none => t.dropSlot t.rxVc
  | _ => t

/-- The first message of a VC in the receive buffer. -/
def Tgl.firstOf (t : Tgl) (v : Nat) : Option RxMsg := t.rx.find? (·.vc = v)

end Sys2Proof.Machine
end

