-- ==== Sys2Proof/Machine/Tgl.lean ====
section
/-! DEFINITION. The Tchigor link: credits, frames, retry, training (16 R320 to R330), routing and refusals (R327, R331), and
a request at its target's memory (R335). -/

namespace Sys2Proof.Machine

/-! ## Sending (16 R324, R329, R330) -/

/-- The port holds credits for the slots and may have that many more frames unacknowledged (16 R329, R330). -/
def Tgl.room (t : Tgl) (v slots : Nat) : Bool :=
  decide (slots ≤ t.vcs[vcFin v].credit) && decide (t.sent.length + framesOf slots ≤ 128)

/-- The credits of slots are spent at their first transmission. -/
def Tgl.spend (t : Tgl) (v slots : Nat) : Tgl := t.modVc v fun c => { c with credit := c.credit - slots }

/-- Sends a sequenced frame, which awaits acknowledgement. -/
def State.sendFrame (s : State) (p : PortId) (slots : List FlitSlot) (cvc ccnt : Nat) : State :=
  let t := s.tgl[p]
  let f : TxFrame := { slots := slots, seq := t.txSeq, cvc := cvc, ccnt := ccnt }
  (s.modTgl p fun t => { t with txSeq := t.txSeq + 1, sent := t.sent ++ [f] }).emit
    (.tglFrame p (frameBytes 0 f t.rxSeq false))

/-- Sends slots of a VC in frames of their own. -/
def State.sendSlots (s : State) (p : PortId) (v : Nat) (slots : List FlitSlot) : State :=
  (upto (framesOf slots.length)).foldl (fun s i => s.sendFrame p ((slots.drop (4 * i)).take 4) 15 0)
    (s.modTgl p fun t => t.spend v slots.length)

/-- Sends an idle frame with the port's ACK, or as a NAK (16 R323, R330). -/
def State.sendIdle (s : State) (p : PortId) (nak : Bool) : State :=
  let t := s.tgl[p]
  s.emit (.tglFrame p (idleBytes t.txSeq t.rxSeq nak))

/-! ## Relations (16 R342) and refusals (R327) -/

/-- What a port makes of a message when it selects it for a frame. -/
inductive Verdict where
  | pass
  | wait
  | refuse (reason : Nat)
  deriving DecidableEq, Repr

/-- The message needs version 1.1 (16 R322). -/
def needsMinor1 (x : Packet) : Bool := x.1 = 0x03 && (x.2.aop = 1 || x.2.ret)

/-- The relation's verdict, then the version's (16 R331, R342). -/
def Tgl.verdict (t : Tgl) (x : Packet) : Verdict :=
  let ver := if needsMinor1 x && t.minor = 0 then Verdict.refuse 7 else .pass
  match t.rel.toNat with
  | 2 => ver
  | 4 => if x.1 = 0x03 || x.2.control then .refuse 6 else ver
  | 5 => .refuse 6
  | 6 => .refuse 9
  | _ => .wait

/-- What a port makes of a message: in a device in the cul-de-sac it carries none, once its first heartbeat has come
(16 R342, R348). -/
def State.verdict (s : State) (p : PortId) (x : Packet) : Verdict :=
  if s.xl.culdesac && s.tgl[p].rel ≠ 1 then .refuse 9 else s.tgl[p].verdict x

/-- A refused message: the packet, the reason and the port that counts it. -/
structure Refused where
  pkt    : Packet
  reason : Nat
  port   : Option PortId
  deriving DecidableEq, Repr

/-- Marks the request of this device that a sent packet carries. -/
def State.markSent (s : State) (x : Packet) : State :=
  if isRequest x.1 && x.2.src.toNat = s.nodeId then
    { s with xl := { s.xl with remote := s.xl.remote.map fun r =>
        if r.tid = x.2.tid then { r with sent := true } else r } }
  else s

/-- A message is sent on a port. -/
def State.sendPacket (s : State) (p : PortId) (x : Packet) : State :=
  ((s.sendSlots p (vcOf x) (packetSlots x)).markSent x).emit (.tglMsg p x.1 x.2)

/-- One held message of port `p`; `blocked` are the VCs whose earlier message still waits.
Log entry 110 (DESIGN CHOICE). -/
def State.pumpOne (s : State) (p : PortId) (blocked : List Nat) (x : Packet) : State × List Nat × List Refused :=
  let v := vcOf x
  let keep := fun (s : State) => (s.modTgl p fun t => { t with hold := t.hold ++ [x] }, v :: blocked, [])
  if blocked.contains v then keep s
  else match s.verdict p x with
    | .wait => keep s
    | .refuse r => (s, blocked, [{ pkt := x, reason := r, port := some p }])
    | .pass =>
      if s.tgl[p].room v (slotsOf x) then
        (s.sendPacket p x, blocked, [])
      else keep s

/-- Sends what waits at an up port, oldest first in each VC; answers the messages that the port refuses. -/
def State.pump (s : State) (p : PortId) : State × List Refused :=
  if !s.tgl[p].up then (s, [])
  else
    let xs := s.tgl[p].hold
    let s := s.modTgl p fun t => { t with hold := [] }
    let r := xs.foldl (fun (acc : State × List Nat × List Refused) x =>
      let (s, b, l) := acc.1.pumpOne p acc.2.1 x
      (s, b, acc.2.2 ++ l)) (s, [], [])
    (r.1, r.2.2)

/-- Sends the management messages that wait at an up port. -/
def State.pumpMgt (s : State) (p : PortId) : State :=
  if !s.tgl[p].up then s
  else
    let xs := s.tgl[p].mgt
    let s := s.modTgl p fun t => { t with mgt := [] }
    (xs.foldl (fun (acc : State × Bool) x =>
      let slots := 1 + (x.payload.length + 63) / 64
      if acc.2 && acc.1.tgl[p].room 8 slots then
        ((acc.1.sendSlots p 8 (mgtSlots x)).emit (.tglMgt p x.opc x.h x.payload), true)
      else (acc.1.modTgl p fun t => { t with mgt := t.mgt ++ [x] }, false)) (s, true)).1

/-- Sends a management message on a port that is up. -/
def State.mgtSend (s : State) (p : PortId) (opc : BitVec 8) (h : MgtHdr) (payload : List Byte) : State :=
  if s.tgl[p].up then
    (s.modTgl p fun t => { t with mgt := t.mgt ++ [{ opc := opc, h := h, payload := payload }] }).pumpMgt p
  else s

/-- Returns owed credits of each VC in sequenced frames (16 R329). -/
def State.returnCredits (s : State) (p : PortId) : State :=
  if !s.tgl[p].up then s
  else (upto 9).foldl (fun s v =>
    let t := s.tgl[p]
    let owed := min 15 t.vcs[vcFin v].owed
    if owed = 0 || 128 ≤ t.sent.length then s
    else (s.modTgl p fun t => t.modVc v fun c => { c with owed := c.owed - owed }).sendFrame p [] v owed) s

/-- Slots of the receive buffer of VC `v` are free again. -/
def State.freeSlots (s : State) (p : PortId) (v slots : Nat) : State :=
  (s.modTgl p fun t => t.modVc v fun c =>
    { c with used := c.used - min slots c.used, owed := c.owed + min slots c.used }).returnCredits p

/-- A message is taken from port `p`'s receive buffer.
Log entry 124 (DEDUCED). -/
def State.takeRx (s : State) (p : PortId) (r : RxMsg) : State :=
  (s.modTgl p fun t => { t with rx := t.rx.erase r }).freeSlots p r.vc r.slots

/-- The message that stands first in its VC at port `p`, if it is this one (16 R324). -/
def State.arrived (s : State) (p : PortId) (x : Packet) : Option RxMsg :=
  (s.tgl[p].firstOf (vcOf x)).filter fun r => r.body = .routed x.1 x.2

/-! ## Routing (16 R331) -/

/-- The table entry for a node, in the active bank. -/
def State.routeEntry (s : State) (dst : Nat) : Half :=
  let b := b2n s.xl.rtBank
  if dst / 256 = s.nodeId / 256 then cellGet s.xl.mrt (b * 256 + dst % 256)
  else cellGet s.xl.grt (b * 4096 + dst / 256)

/-- The port number in a field of an entry. -/
def portField (e : Half) (lo : Nat) : PortId := ⟨(e.extractLsb' lo 3).toNat, by omega⟩

/-- The port and the layer of a message for a node, or the reason it is refused for. -/
def State.chooseRoute (s : State) (dst : Nat) (layer : Bool) : Except Nat (PortId × Bool) :=
  let e := s.routeEntry dst
  let pri := portField e 0
  let det := portField e 4
  if !e.getLsbD 31 then .error 4
  else if s.tgl[pri].up then .ok (pri, layer)
  else if !layer && e.getLsbD 30 && s.tgl[det].up then .ok (det, true)
  else .error 5

/-- The node that a routed message is for. -/
def dstOf (m : Msg) : Nat := m.addr.toNat >>> 44

/-- A message goes to the port that the tables choose, which sends it, holds it or refuses it.
Log entry 113 (DEDUCED). -/
def State.forward (s : State) (x : Packet) : State × List Refused :=
  match s.chooseRoute (dstOf x.2) x.2.layer with
    | .error r => (s, [{ pkt := x, reason := r, port := none }])
    | .ok (p, layer) =>
      (s.modTgl p fun t => { t with hold := t.hold ++ [(x.1, { x.2 with layer := layer })] }).pump p

/-- The response to a request of another node. -/
def respMsg (m : Msg) (data : List Byte) (poison : Bool) (reason : Nat) : Msg :=
  { m with
    aop := 0, ret := false, mc := false, hops := 0, len := 0
    addr := BitVec.ofNat 64 (m.src.toNat <<< 44 + m.addr.toNat % 2 ^ 44)
    data := data, poison := poison, reason := reason, layer := false }

/-- TGL_REFUSE counts a refusal at its port, and its event is raised when it leaves 0 (16 R351).
Log entry 114 (DEDUCED). -/
def State.countRefuse (s : State) (p : Option PortId) : State :=
  match p with
  | none => s
  | some p =>
    let was := s.tgl[p].refused
    let s := s.modTgl p fun t => { t with refused := satAdd t.refused 1 }
    if was = 0 then s.raise (0x204 + 16 * p) else s

/-- A request of this device is answered: its destination slot gets its bytes back, and what asked for it gets the
answer (14 R292, 16 R336).  An answer that comes too late finds no request (R337). -/
def State.answerTid (s : State) (tid : BitVec 16) (r : Reply) : State :=
  match s.xl.remote.find? (·.tid = tid) with
  | none => s
  | some q =>
    let s := { s with xl := { s.xl with remote := s.xl.remote.filter (·.tid ≠ tid) } }
    (s.leaveSlot q).answer q.who r

/-- A refused message: the refusal goes back to its requester; a refusal that is itself refused is dropped
(16 R327).
Log entry 114 (DEDUCED). -/
def State.refuseOne (s : State) (x : Refused) : State :=
  let s := s.countRefuse x.port
  let m := x.pkt.2
  if x.pkt.1 = 0x22 then s
  else if m.src.toNat = s.nodeId then (if isRequest x.pkt.1 then s.answerTid m.tid .refused else s)
  else
    let (s, rs) := s.forward (0x22, respMsg m [] false x.reason)
    rs.foldl (fun s r => s.countRefuse r.port) s

/-- All refusals of a step. -/
def State.refuseAll (s : State) (rs : List Refused) : State := rs.foldl (fun s x => s.refuseOne x) s

/-- A message is routed onward.
Log entry 113 (DEDUCED). -/
def State.routeOn (s : State) (x : Packet) : State :=
  let (s, rs) := s.forward x
  s.refuseAll rs

/-- What waits at a port is tried again. -/
def State.flushPort (s : State) (p : PortId) : State :=
  let (s, rs) := s.pump p
  ((s.refuseAll rs).pumpMgt p).returnCredits p

/-! ## Link state (16 R320, R333, R342) -/

/-- A port's relation. -/
def State.setRel (s : State) (p : PortId) (r : BitVec 4) : State :=
  if s.tgl[p].rel = r then s else (s.modTgl p fun t => { t with rel := r }).raise (0x202 + 16 * p)

/-- A port can train: enabled, clocked, with CLKIN and out of reset (16 R320, 17 R355, R357). -/
def State.canTrain (s : State) (p : PortId) : Bool :=
  s.tgl[p].en && s.linkClock && s.chip.clkGate.getLsbD (16 + p.val)
    && (s.chip.phase == .rom || s.chip.phase == .recovery || s.chip.phase == .firmware)

/-- This device's training frame on a port (16 R321). -/
def State.ownTraining (s : State) (p : PortId) : TrainFrame where
  serial := s.chip.serial
  node := s.xl.node
  port := BitVec.ofNat 8 p.val
  lanes := s.tgl[p].locked
  major := 1
  minor := 1
  epoch := s.xl.epoch
  digest0 := s.xl.digest[0]
  digest1 := s.xl.digest[1]
  credits := (upto 9).map fun v => BitVec.ofNat 16 (ownBuffer v)

/-- A port begins to train (16 R320): it sends its training frame. Which halves of its lanes have locked is a free value until a
frame of the peer shows it.
Log entry 111 (DEDUCED). -/
def State.startTraining (s : State) (p : PortId) : State :=
  if s.canTrain p && !s.tgl[p].up then
    let s := (s.modTgl p fun t => { t with
      train := none, same := 0, locked := BitVec.ofNat 2 (1 + Config.freeNat s.free % 3) }).tick
    s.emit (.tglFrame p (trainBytes (s.ownTraining p)))
  else s

/-- What stands in the receive buffer of a port that goes down: every message of an accepted frame but a heartbeat, which speaks of
the link; it frees no slot of the link that comes next.
Log entry 124 (DEDUCED). -/
def Tgl.kept (t : Tgl) : List RxMsg :=
  (t.rx.filter fun r => match r.body with
    | .mgt m => m.opc ≠ 0x40
    | .routed _ _ => true).map fun r => { r with slots := 0 }

/-- A port goes down, or notes why it stays down, and begins to train again; messages that wait at it look for another port. -/
def State.tglDown (s : State) (p : PortId) (reason : BitVec 4) : State :=
  let t := s.tgl[p]
  if !t.up then (s.modTgl p fun t => { t with downr := reason, train := none, same := 0, locked := 0 }).startTraining p
  else
    let s := (s.setRel p 0).modTgl p fun t => { t with
      up := false, lanes := 0, major := 0, minor := 0, downr := reason, train := none, same := 0
      vcs := Tgl.reset.vcs, sent := [], nakSent := false, replays := 0, hb := none, ranOut := false
      hold := [], mgt := [], locked := 0, rxOpen := none, rx := t.kept }
    (t.hold.foldl (fun s x => s.routeOn x) (s.raise (0x200 + 16 * p))).startTraining p

/-- A link comes up with the peer's last training frame: on eight lanes where both ends have locked both halves
(16 R320 to R322).
Log entry 111 (DEDUCED). -/
def State.tglUp (s : State) (p : PortId) (f : TrainFrame) : State :=
  let credit := fun (i : Nat) => ((f.credits[i]?).getD 0).toNat
  let s := s.modTgl p fun t => { t with
    up := true, major := 1, minor := if f.minor = 0 then 0 else 1
    lanes := if f.lanes = 3 && t.locked = 3 then 2 else 1
    peer := f.serial, peerNode := f.node
    vcs := Vector.ofFn fun i => { credit := credit i.val, used := 0, owed := 0 }
    txSeq := 0, rxSeq := 0xFFF, sent := [], rxOpen := none, nakSent := false, replays := 0, hb := none, ranOut := false }
  let s := (s.raise (0x200 + 16 * p)).setRel p 1
  let s := if s.tgl[p].lanes = 2 then s else s.raise (0x201 + 16 * p)
  if !s.xl.node.getLsbD 0 && f.node.getLsbD 0 then { s with xl := { s.xl with culdesac := true } } else s

/-- TRAINING_FRAME: the device answers with its own frame; eight identical frames in a row fix the version and the credits.
Log entry 111 (DEDUCED). -/
def execTrainingFrame (p : PortId) (seen : TrainSeen) (s : State) : Outcome :=
  let own := seen.own
  let tf := seen.frame
  if !s.canTrain p || s.tgl[p].up || own = 0 || tf.lanes = 0 then .next s
  else
    let n := if s.tgl[p].train = some tf then s.tgl[p].same + 1 else 1
    let s := s.modTgl p fun t => { t with train := some tf, same := n, locked := own }
    let s := s.emit (.tglFrame p (trainBytes (s.ownTraining p)))
    if n < 8 then .next s
    else if tf.major ≠ 1 then .next (s.tglDown p 4)
    else .next (s.tglUp p tf)

/-- TRAINING_TIMEOUT: fewer than four lanes of either half lock by 100 ms. -/
def execTrainingTimeout (p : PortId) (s : State) : Outcome :=
  if s.canTrain p && !s.tgl[p].up then .next (s.tglDown p 1) else .next s

/-- FEC_LOCK_LOSS. -/
def execFecLockLoss (p : PortId) (s : State) : Outcome :=
  if s.tgl[p].up then .next (s.tglDown p 2) else .next s

/-- HEARTBEAT_MISS. -/
def execHeartbeatMiss (p : PortId) (s : State) : Outcome :=
  if s.tgl[p].up then .next (s.tglDown p 5) else .next s

/-- A write of TGL_CTL.EN (16 R320, Registers). -/
def State.tglCtl (s : State) (p : PortId) (en : Bool) : State :=
  let was := s.tgl[p].en
  let s := s.modTgl p fun t => { t with en := en }
  if was && !en then s.tglDown p 6 else if en && !was then s.startTraining p else s

/-! ## Frames and retry (16 R323, R330) -/

/-- Adds to half of TGL_ERR, which holds at its maximum. -/
def errAdd (r : Word) (hi : Bool) : Word :=
  if hi then (if r.extractLsb' 32 32 = 0xFFFFFFFF then r else r + 0x100000000)
  else if r.extractLsb' 0 32 = 0xFFFFFFFF then r else r + 1

/-- The sender sends again from the first unacknowledged frame; after 16 replays of it the link goes down.
Log entry 112 (DEDUCED). -/
def State.replay (s : State) (p : PortId) : State :=
  let t := s.tgl[p]
  if !t.up || t.sent.isEmpty then s
  else if 16 ≤ t.replays then (s.raise (0x203 + 16 * p)).tglDown p 3
  else t.sent.foldl (fun s f => s.emit (.tglFrame p (frameBytes 0 f t.rxSeq false)))
    (s.modTgl p fun t => { t with replays := t.replays + 1, err := errAdd t.err true })

/-- REPLAY_TIMEOUT. -/
def execReplayTimeout (p : PortId) (s : State) : Outcome := .next (s.replay p)

/-- ACK and NAK of a frame.
Log entry 112 (DEDUCED). -/
def State.takeAck (s : State) (p : PortId) (v : Nat) : State :=
  let t := s.tgl[p]
  let first := (t.txSeq.toNat + 4096 - t.sent.length % 4096) % 4096
  let n := (v % 4096 + 4097 - first) % 4096
  let s := if n ≤ t.sent.length && 0 < n then
      s.modTgl p fun t => { t with sent := t.sent.drop n, replays := 0 }
    else s
  if v.testBit 12 then s.replay p else s

/-- A frame is discarded and counted; the receiver sends its ACK, or NAK, which it sends once until the awaited frame comes.
Log entry 111 (DEDUCED). -/
def State.discardFrame (s : State) (p : PortId) (nak : Bool) : State :=
  (s.modTgl p fun t => { t with nakSent := t.nakSent || nak, err := errAdd t.err false }).sendIdle p (nak && !s.tgl[p].nakSent)

/-- A sequenced frame is accepted: its slots, its credit return, its ACK.
Log entry 111 (DEDUCED). -/
def State.acceptFrame (s : State) (p : PortId) (frame : List Byte) (seq : Nat) : State :=
  let fcw := frame.drop 256
  let cv := fieldAt fcw 28 1
  let s := s.modTgl p fun t =>
    let t := (upto 4).foldl (fun t i => t.fillSlot (fieldAt fcw (6 * i) 6) (sliceAt frame (64 * i) 64)) { t with rxSeq := BitVec.ofNat 12 seq, nakSent := false }
    if cv % 16 < 9 then t.modVc (cv % 16) fun c => { c with credit := c.credit + cv / 16 } else t
  ((s.takeAck p (fieldAt fcw 26 2)).sendIdle p false).flushPort p

/-- FRAME_RECEIVE: `frame` is the 256 B flit and the 32 B control word; the messages that it completes stand in the receive
buffer for the commands that take them. -/
def execFrameReceive (p : PortId) (frame : List Byte) (fecOk : Bool) (s : State) : Outcome :=
  let t := s.tgl[p]
  let fcw := frame.drop 256
  let sk := fieldAt fcw 24 2
  let seq := sk % 4096
  if !t.up then .next s
  else if !fecOk || frame.length ≠ 288 || crc24 (frame.take 285) ≠ fieldAt fcw 29 3 then .next (s.discardFrame p true)
  else if sk / 4096 = 0 then
    let ahead := (seq + 4095 - t.rxSeq.toNat) % 4096
    if ahead = 0 then .next (s.acceptFrame p frame seq)
    else .next (s.discardFrame p (decide (ahead < 2048)))
  else if sk / 4096 = 1 && !t.nakSent then .next ((s.takeAck p (fieldAt fcw 26 2)).flushPort p)
  else .next (s.discardFrame p false)

/-! ## A request at its target's memory (16 R335) -/

/-- The response to a served read. -/
def readResp (m : Msg) (a : ReadAns) : Packet :=
  (if m.control then 0x20 else opRdata, respMsg m a.bytes a.poison 0)

/-- A response of the size that a request's whole response has. -/
def answerTo (x : Packet) : Packet :=
  let m := x.2
  if x.1 = 0x01 then readResp m { bytes := List.replicate m.len 0, poison := false }
  else if x.1 = 0x03 && m.ret then (0x20, respMsg m (List.replicate 8 0) false 0)
  else (0x21, respMsg m [] false 0)

/-- A refusal of a request that this device received. -/
def State.refuseAt (s : State) (x : Packet) (reason : Nat) : State :=
  s.refuseOne { pkt := x, reason := reason, port := none }

/-- The bytes lie in one populated range. -/
def State.populated (s : State) (off n : Nat) : Bool := 0 < n && s.place off == s.place (off + n - 1)

/-- An atomic of the fabric on the scratch word at `off`. A reserved AOP stores a free value.
Log entries 90 (DEDUCED), 114 (DEDUCED). -/
def State.fabricAtomic (s : State) (off : Nat) (m : Msg) : State × ReadAns :=
  if m.aop = 3 then
    let v := Config.freeWord s.free
    s.tick.scratchAtomic 70 off fun _ => v
  else s.scratchAtomic 70 off (aopFun (m.aop.setWidth 4) (wordOf m.data))

/-- The response to a request of another node that memory has served. -/
def State.remoteDone (s : State) (opc : BitVec 8) (m : Msg) (bs : List Byte) (bad : Bool) : State :=
  s.routeOn (if opc = 0x01 then readResp m { bytes := bs, poison := bad } else (0x21, respMsg m [] false 0))

/-- An atomic of another node: its old value, or its acceptance, which is poisoned with the word (13 R263). -/
def State.remoteAtomic (s : State) (x : Packet) (off : Nat) : State :=
  let m := x.2
  if s.place off != .scratch || !s.xl.atomics || off % 8 ≠ 0 then s.refuseAt x 3
  else
    let (s, a) := s.fabricAtomic off m
    s.routeOn (if m.ret then (0x20, respMsg m a.bytes a.poison 0) else (0x21, respMsg m [] a.poison 0))

/-- The line of a request's DDR bytes has been served: its response goes when no line is left (16 R335). -/
def State.remoteServed (s : State) (src : BitVec 20) (tid : BitVec 16) (line : Nat) (a : ReadAns) : State :=
  let mine := fun (h : AtHome) => h.msg.src = src && h.msg.tid = tid && line ∈ h.need
  match s.xl.atHome.find? mine with
  | none => s
  | some h =>
    let h' : AtHome := { h with
      need := h.need.filter (· ≠ line), got := h.got ++ [(line, a.bytes)], bad := h.bad || a.poison }
    let rest := s.xl.atHome.filter fun k => !mine k
    if h'.need.isEmpty then
      let off := h.msg.addr.toNat % 2 ^ 44
      let bs := (granules 64 off h.msg.len).flatMap fun l => (alookup l h'.got).getD []
      { s with xl := { s.xl with atHome := rest } }.remoteDone h.opc h.msg (sliceAt bs (off % 64) h.msg.len) h'.bad
    else { s with xl := { s.xl with atHome := rest ++ [h'] } }

/-- A request of another node for DDR: each of its lines takes its place at the home agent (15 R306).
Log entry 126 (DEDUCED). -/
def State.remoteDdr (s : State) (p : PortId) (x : Packet) (off : Nat) : State :=
  let m := x.2
  let s := { s with xl := { s.xl with atHome := s.xl.atHome ++
    [{ opc := x.1, msg := m, port := p, slots := slotsOf (answerTo x), need := granules 64 off m.len, got := [], bad := false }] } }
  (lineRuns off m.len).foldl (fun (s : State) r =>
    let op := if x.1 = 0x01 then LineOp.read else .write (r.1 % 64) (sliceAt m.data (r.1 - off) r.2)
    match s.homeAccess (r.1 / 64 * 64) op (.remote m.src m.tid) with
    | (s, .served a) => s.remoteServed m.src m.tid (r.1 / 64) a
    | (s, .held) => s) s

/-- A request of another node for this one's DDR or scratch (16 R335).
Log entry 126 (DEDUCED). -/
def State.remoteMem (s : State) (p : PortId) (x : Packet) : State :=
  let m := x.2
  let off := m.addr.toNat % 2 ^ 44
  let n := if x.1 = 0x03 then 8 else m.len
  if s.place off == .nothing || !s.populated off n then s.refuseAt x 1
  else if x.1 = 0x03 then s.remoteAtomic x off
  else if s.place off == .scratch then
    if x.1 = 0x01 then
      let (s, a) := s.scratchRead 70 off n
      s.remoteDone 0x01 m a.bytes a.poison
    else (s.scratchWrite 70 off (m.data.take n)).remoteDone 0x02 m [] false
  else s.remoteDdr p x off

end Sys2Proof.Machine
end

