-- ==== Sys2Proof/Machine/FabricMgt.lean ====
section
/-! DEFINITION. Management of the fabric: heartbeats and relations (16 R341, R342), floods (R338), pulls (R339), discovery
(R340), waymarks (R345 to R347), the cul-de-sac (R348) and surveys (R349).  Port hardware makes and judges heartbeats; the
rest is firmware's. -/

namespace Sys2Proof.Machine

/-! ## Payloads (16 R339) -/

/-- A management payload's multi-byte field. -/
def le (n v : Nat) : List Byte := bytesOf n v

/-- Ports, in order. -/
def allPorts : List PortId := List.finRange 8

/-- Ports that are up. -/
def State.upPorts (s : State) : List PortId := allPorts.filter fun p => s.tgl[p].up

/-- The header of a LINK or PARENT message from a device. -/
def linkHdr (serial : Word) : MgtHdr := { fhops := 0, fseq := 0, origin := serial }

/-- A LINK message of this device. -/
def State.sendLink (s : State) (p : PortId) (opc : BitVec 8) (payload : List Byte) : State :=
  s.mgtSend p opc (linkHdr s.chip.serial) payload

/-- Bit 0 of an XL_NODE word: ASSIGNED. -/
def assignedBit (n : Half) : Bool := n.getLsbD 0

/-- The management message that stands first at a port, if it has this opcode and payload, and the header where one is
asked for (16 R338). -/
def State.mgtArrived (s : State) (p : PortId) (opc : BitVec 8) (h : Option MgtHdr) (payload : List Byte) : Option RxMsg :=
  (s.tgl[p].firstOf 8).filter fun r =>
    match r.body with
    | .mgt m => m.opc = opc && m.payload = payload && (h.isNone || h = some m.h)
    | .routed _ _ => false

/-- The message, for firmware to take.
Log entry 124 (DEDUCED). -/
def State.mgtFor (s : State) (p : PortId) (opc : BitVec 8) (h : Option MgtHdr) (payload : List Byte) : Option RxMsg :=
  if s.chip.phase == .firmware then s.mgtArrived p opc h payload else none

/-- HEARTBEAT (16 R341). -/
def heartbeatBytes (h : HeartbeatMsg) : List Byte :=
  le 8 h.serial.toNat ++ le 4 h.node.toNat ++ [h.port] ++ le 1 (b2n h.culdesac + 2 * b2n h.staged) ++ [h.minor, h.major]
    ++ le 8 h.epoch.toNat ++ le 8 h.digest0.toNat ++ le 8 h.digest1.toNat
    ++ le 8 h.pepoch.toNat ++ le 8 h.pdigest0.toNat ++ le 8 h.pdigest1.toNat

/-- The heartbeat of a port.
Log entry 117 (DEDUCED). -/
def State.ownHeartbeat (s : State) (p : PortId) : HeartbeatMsg :=
  let x := s.xl
  let st := fun (v : Word) => if x.staged then v else 0
  { serial := s.chip.serial, node := x.node, port := BitVec.ofNat 8 p.val, culdesac := x.culdesac, staged := x.staged
    major := 1, minor := 1, epoch := x.epoch, digest0 := x.digest[0], digest1 := x.digest[1]
    pepoch := st x.pEpoch, pdigest0 := st x.pDigest[0], pdigest1 := st x.pDigest[1] }

/-- HELLO. -/
def helloBytes (serial lowest : Word) (node : Half) (port : Byte) : List Byte :=
  le 8 serial.toNat ++ le 8 lowest.toNat ++ le 4 node.toNat ++ [port] ++ le 3 0

/-- PROPOSE. -/
def proposeBytes (e d0 d1 : Word) (length : Half) : List Byte :=
  le 8 e.toNat ++ le 8 d0.toNat ++ le 8 d1.toNat ++ le 4 length.toNat ++ le 4 0

/-- VOTE. -/
def voteBytes (e serial : Word) (result : Byte) : List Byte := le 8 e.toNat ++ le 8 serial.toNat ++ [result] ++ le 7 0

/-- COMMIT. -/
def commitBytes (e d0 d1 : Word) : List Byte := le 8 e.toNat ++ le 8 d0.toNat ++ le 8 d1.toNat

/-- FSR_REQ. -/
def fsrReqBytes (e : Word) (offset count : Half) (which : Byte) : List Byte :=
  le 8 e.toNat ++ le 4 offset.toNat ++ le 4 count.toNat ++ [which] ++ le 7 0

/-- FSR_DATA. -/
def fsrDataBytes (e : Word) (offset length : Half) (bytes : List Byte) : List Byte :=
  le 8 e.toNat ++ le 4 offset.toNat ++ le 4 length.toNat ++ bytes

/-- NEIGH. -/
def neighPayload (r : Neigh) : List Byte :=
  le 8 r.serial.toNat ++ le 1 r.minor.toNat ++ le 1 r.major.toNat ++ le 6 0 ++
    (r.ports.map fun q => le 8 q.peer.toNat ++ le 1 q.peerPort.toNat ++ le 1 (b2n q.up + 2 * b2n q.four) ++ le 6 0).flatten

/-- A survey record (16 R349) with its agrees and answered bits. -/
def surveyBytes (r : SurveyRec) (agrees answered : Bool) : List Byte :=
  le 8 r.serial.toNat ++ le 4 r.node.toNat
    ++ le 1 (b2n agrees + 2 * b2n r.culdesac + 4 * b2n r.unassigned + 8 * b2n answered)
    ++ le 1 (r.minor.toNat + 16 * r.major.toNat) ++ le 2 0
    ++ le 8 r.epoch.toNat ++ le 8 r.digest0.toNat ++ le 8 r.digest1.toNat ++ le 8 r.pepoch.toNat
    ++ sliceAt r.ports 0 8 ++ le 8 0

/-- The record of a roster device that did not answer; what the spec leaves open of it is `rest`.
Log entry 121 (DEDUCED). -/
def silentBytes (m : Member) (rest : Nat) : List Byte :=
  le 8 m.serial.toNat ++ le 4 m.node.toNat ++ le 1 (rest % 8) ++ le 1 (rest / 8) ++ le 2 0
    ++ le 40 (rest / 2 ^ 11) ++ le 8 0

/-! ## Relations (16 R342) -/

/-- One side's EPOCH and DIGEST equal the other side's staged waymark. -/
def State.catching (s : State) (h : HeartbeatMsg) : Bool :=
  let x := s.xl
  (h.staged && h.pepoch = x.epoch && h.pdigest0 = x.digest[0] && h.pdigest1 = x.digest[1])
    || (x.staged && x.pEpoch = h.epoch && x.pDigest[0] = h.digest0 && x.pDigest[1] = h.digest1)

/-- The first state of R342 that applies to a port.
Log entry 117 (DEDUCED). -/
def State.relOf (s : State) (p : PortId) : BitVec 4 :=
  let t := s.tgl[p]
  let x := s.xl
  match t.up, t.hb with
  | false, _ => 0
  | true, none => 1
  | true, some h =>
    let c := s.catching h
    if x.culdesac || h.culdesac || (h.epoch ≠ x.epoch && !c) then 6
    else if c && !t.ranOut then 3
    else if h.epoch = x.epoch && h.digest0 = x.digest[0] then (if h.digest1 = x.digest[1] then 2 else 4)
    else 5

/-- A port takes its relation; messages that waited for it go on or are refused.
Log entry 117 (DEDUCED). -/
def State.relUpdate (s : State) (p : PortId) : State :=
  let s := match s.tgl[p].hb with
    | some h => if s.catching h then s else s.modTgl p fun t => { t with ranOut := false }
    | none => s
  (s.setRel p (s.relOf p)).flushPort p

/-- An up port is in state 4 or 5. -/
def State.divergent (s : State) : Bool := s.upPorts.any fun p => s.tgl[p].rel = 4 || s.tgl[p].rel = 5

/-! ## Commit (16 R346) -/

/-- The device commits a record whose tables stand in the inactive bank.
Log entry 117 (DEDUCED). -/
def State.commitWaymark (s : State) (epoch : Word) (digest : Vector Word 2) (f : Fabric) (bytes : List Byte) : State :=
  let x := s.xl
  let mine := f.member s.chip.serial
  let node := match mine with
    | some m => m.node
    | none => x.node
  let x := { x with
    epoch := epoch, digest := digest, rtBank := !x.rtBank
    hbCfg := f.hb.getD x.hbCfg, atomics := f.atomics, remoteCsr := f.remote
    node := node, staged := false, culdesac := x.culdesac && mine.isNone
    record := bytes, stagedRec := [], unfit := none
    discovering := false, lowest := none, parent := none, neighs := [] }
  ({ s with xl := x }).startStore { node := node, epoch := epoch, record := bytes }

/-- The staged proposal is committed. -/
def State.commitStaged (s : State) : State :=
  match parseFabric s.xl.stagedRec with
  | some f => s.commitWaymark s.xl.pEpoch s.xl.pDigest f s.xl.stagedRec
  | none => s

/-- A proposal is staged: its tables go into the inactive bank. -/
def State.stage (s : State) (e : Word) (f : Fabric) (bytes : List Byte) : State :=
  let s := s.computeTables f (if s.xl.rtBank then 0 else 1)
  { s with xl := { s.xl with staged := true, pEpoch := e, pDigest := f.digest, stagedRec := bytes } }

/-- A proposal of this device that has passed can no longer be committed (16 R346). -/
def State.forgetPassed (s : State) (e : Word) : State :=
  { s with xl := { s.xl with proposals := s.xl.proposals.filter fun x => !(x.passed && x.e = e) } }

/-- The staged proposal is dropped (16 R346, R347). -/
def State.dropStaged (s : State) : State :=
  { s with xl := { s.xl with staged := false, stagedRec := [] } }.forgetPassed s.xl.pEpoch

/-! ## Pulls (16 R339) -/

/-- Largest COUNT of FSR_REQ. -/
def fsrMax : Nat := 65536

/-- Sends FSR_REQ for the range of a pull that is not received.
Log entry 119 (DEDUCED). -/
def State.askPull (s : State) (x : Pull) : State :=
  s.sendLink x.port 0x47 (fsrReqBytes x.epoch (BitVec.ofNat 32 x.got.length) (BitVec.ofNat 32 (x.asked - x.got.length))
    (BitVec.ofNat 8 (b2n x.staged)))

/-- Replaces a pull. -/
def State.setPull (s : State) (old new : Pull) : State :=
  { s with xl := { s.xl with pulls := s.xl.pulls.map fun y => if y = old then new else y } }

/-- Asks for the next range of a pull. -/
def State.askNext (s : State) (x : Pull) : State :=
  let left := if x.length = 0 then fsrMax else x.length - x.got.length
  let y := { x with asked := x.got.length + min fsrMax left, tries := 1 }
  (s.setPull x y).askPull y

/-- The pull of an epoch on a port that is being answered: the oldest. -/
def State.pullOf (s : State) (p : PortId) (e : Word) : Option Pull := s.xl.pulls.find? fun x => x.port = p && x.epoch = e

/-- The oldest pull of an epoch on a port is asked for, if it has not been.
Log entry 119 (DEDUCED). -/
def State.startPull (s : State) (p : PortId) (e : Word) : State :=
  match s.pullOf p e with
  | some x => if x.asked = 0 then s.askNext x else s
  | none => s

/-- A pull begins, or waits behind an earlier one of its epoch on its port. -/
def State.addPull (s : State) (x : Pull) : State :=
  { s with xl := { s.xl with pulls := s.xl.pulls ++ [x] } }.startPull x.port x.epoch

/-- A pull has ended. -/
def State.endPull (s : State) (x : Pull) : State :=
  { s with xl := { s.xl with pulls := s.xl.pulls.erase x } }.startPull x.port x.epoch

/-! ## The cul-de-sac (16 R348) -/

/-- The neighbours' heartbeats with the highest epoch: their ports.
Log entry 119 (DEDUCED). -/
def State.bestNeighbours (s : State) : List PortId :=
  let hs := s.upPorts.filterMap fun p => (s.tgl[p].hb).map fun h => (p, h.epoch.toNat)
  let top := hs.foldl (fun m h => max m h.2) 0
  (hs.filter fun h => h.2 = top).map (·.1)

/-- Firmware of a device in the cul-de-sac asks the neighbour with the highest epoch for its committed record; which of
several, is a free value. -/
def State.culPull (s : State) : State :=
  if !s.xl.culdesac || !(s.chip.phase == .firmware) || s.xl.pulls.any (fun x => !x.staged) then s
  else match s.bestNeighbours with
    | [] => s
    | p :: t =>
      let i := Config.freeNat s.free % (t.length + 1)
      let q := (p :: t).getD i p
      let s := if t.isEmpty then s else s.tick
      match s.tgl[q].hb with
      | none => s
      | some h =>
        if h.epoch.toNat ≤ s.xl.epoch.toNat || s.xl.unfit = some h.epoch then s
        else s.addPull
          { port := q, epoch := h.epoch, staged := false, length := 0, got := [], asked := 0, tries := 0, header := none,
            announced := 0, d0 := h.digest0, d1 := h.digest1 }

/-- A complete committed record that the cul-de-sac asked for is checked, and committed when it names this device. -/
def State.culRecord (s : State) (x : Pull) : State :=
  if !s.xl.culdesac then s
  else match s.tgl[x.port].hb, parseFabric x.got with
    | some h, some f =>
      if h.epoch ≠ x.epoch || f.digest[0] ≠ h.digest0 || f.digest[1] ≠ h.digest1 then s
      else if (f.member s.chip.serial).isNone || !f.floorMet then { s with xl := { s.xl with unfit := some x.epoch } }
      else (s.computeTables f (if s.xl.rtBank then 0 else 1)).commitWaymark x.epoch f.digest f x.got
    | _, _ => s

/-! ## Floods (16 R338) -/

/-- The flood keys that are held, with the oldest forgotten when there are too many.
Log entry 19 (DESIGN CHOICE). -/
def trimKeys (ks : List FloodKey) : List FloodKey :=
  if (ks.filter (·.live)).length ≤ 4096 + Config.floodKeys then ks
  else match ks.find? (·.live) with
    | some k => ks.map fun x => if x = k then { x with live := false } else x
    | none => ks

/-- The key is held. -/
def State.keyHeld (s : State) (h : MgtHdr) : Bool := s.xl.keys.any fun k => k.live && k.origin = h.origin && k.fseq = h.fseq

/-- Records a key with its arrival port. -/
def State.addKey (s : State) (h : MgtHdr) (p : Option PortId) : State :=
  let ks := s.xl.keys.filter fun k => !(k.origin = h.origin && k.fseq = h.fseq)
  { s with xl := { s.xl with keys := trimKeys (ks ++ [{ origin := h.origin, fseq := h.fseq, port := p, live := true }]) } }

/-- Sends a flood on: every other up port, one hop more, unless FHOPS is 255.
Log entry 120 (DEDUCED). -/
def State.floodOn (s : State) (p : PortId) (opc : BitVec 8) (h : MgtHdr) (payload : List Byte) : State :=
  if 255 ≤ h.fhops then s
  else (s.upPorts.filter (· ≠ p)).foldl (fun s q => s.mgtSend q opc { h with fhops := h.fhops + 1 } payload) s

/-- Starts a flood of this device; answers its FSEQ.
Log entry 120 (DEDUCED). -/
def State.flood (s : State) (opc : BitVec 8) (payload : List Byte) : State × BitVec 32 :=
  let n := s.xl.fseq + 1
  let h : MgtHdr := { fhops := 0, fseq := n, origin := s.chip.serial }
  let s := { s with xl := { s.xl with fseq := n } }.addKey h none
  (s.upPorts.foldl (fun s q => s.mgtSend q opc h payload) s, n)

/-- Sends a message on the reverse path of a flood; without a recorded port it is discarded. -/
def State.reverse (s : State) (opc : BitVec 8) (h : MgtHdr) (payload : List Byte) : State :=
  match s.xl.keys.find? fun k => k.origin = h.origin && k.fseq = h.fseq with
  | some k => match k.port with
    | some q => s.mgtSend q opc { fhops := 0, fseq := h.fseq, origin := h.origin } payload
    | none => s
  | none => s

/-- A flood is taken from its port: false when its key is held. -/
def State.floodIn (s : State) (p : PortId) (h : MgtHdr) (r : RxMsg) : State × Bool :=
  let s := s.takeRx p r
  if s.keyHeld h then (s, false) else (s.addKey h (some p), true)

/-- FLOOD_KEY_EXPIRY: a key that is held is forgotten; one that was forgotten loses its arrival port. -/
def execFloodKeyExpiry (origin : Word) (fseq : BitVec 32) (s : State) : Outcome :=
  match s.xl.keys.find? fun k => k.origin = origin && k.fseq = fseq with
  | none => .next s
  | some k =>
    let ks := if k.live then s.xl.keys.map fun x => if x = k then { x with live := false } else x else s.xl.keys.erase k
    .next { s with xl := { s.xl with keys := ks } }

/-! ## Proposals (16 R345) -/

/-- A flood of ABORT for an epoch. -/
def State.floodAbort (s : State) (e : Word) : State := (s.flood 0x46 (le 8 e.toNat)).1

/-- The reason of the first check that fails on a proposal, 0 when it passes.
Log entry 118 (DEDUCED). -/
def State.checkProposal (s : State) (e d0 d1 : Word) (bytes : Option (List Byte)) : Nat × Option Fabric :=
  if s.xl.staged then (1, none)
  else if !s.xl.culdesac && s.xl.epoch ≠ e - 1 then (2, none)
  else match bytes.bind parseFabric with
    | none => (3, none)
    | some f =>
      if f.digest[0] ≠ d0 || f.digest[1] ≠ d1 then (4, some f)
      else if !f.floorMet then (5, some f)
      else if s.divergent then (6, some f)
      else (0, some f)

/-- The record of a finished proposal's command. -/
def State.endProposal (s : State) (x : Proposal) (st : BitVec 16) : State :=
  match x.handle with
  | some h => s.finish h { status := st, detail := 0, milestones := x.acks.length, result := x.e }
  | none => s

/-- The proposals of this device that still collect votes. -/
def State.openProposals (s : State) : List Proposal := s.xl.proposals.filter (!·.passed)

/-- Replaces a proposal by what its votes make of it. -/
def State.setProposal (s : State) (old new : Proposal) : State :=
  { s with xl := { s.xl with proposals := s.xl.proposals.map fun x => if x = old then new else x } }

/-- The proposer gives a proposal up: ABORT floods and its staged copy goes, unless an earlier proposal of the epoch that still
collects votes has staged it.
Log entry 118 (DEDUCED). -/
def State.giveUp (s : State) (x : Proposal) (st : BitVec 16) : State :=
  let s := { s with xl := { s.xl with proposals := s.xl.proposals.erase x } }
  let s := if s.xl.staged && s.xl.pEpoch = x.e && !(s.openProposals.any fun y => y.e = x.e) then s.dropStaged else s
  (s.endProposal x st).floodAbort x.e

/-- The command of a proposal has been cancelled after its start. -/
def State.proposalCancelled (s : State) (x : Proposal) : Bool :=
  match x.handle.bind s.cmd with
  | some c => c.cancelled
  | none => false

/-- The proposer commits and floods COMMIT. -/
def State.commitOwn (s : State) (e : Word) : State :=
  let p := commitBytes e s.xl.pDigest[0] s.xl.pDigest[1]
  ({ s with xl := { s.xl with proposals := s.openProposals } }.commitStaged.flood 0x45 p).1

/-- Every device of the proposed roster has voted ACK: the command completes; discovery's proposal is committed.
Log entry 118 (DEDUCED). -/
def State.judgeVotes (s : State) (x : Proposal) : State :=
  if s.proposalCancelled x then s.giveUp x stCancelled
  else match parseFabric s.xl.stagedRec with
    | none => s
    | some f =>
      if f.roster.all fun m => x.acks.contains m.serial then
        let s := (s.setProposal x { x with passed := true }).endProposal x stOk
        if x.auto then s.commitOwn x.e else s
      else s

/-- A vote reaches the proposer; one for a proposal that has ended is ignored. -/
def State.countVote (s : State) (fseq : BitVec 32) (e serial : Word) (result : Nat) : State :=
  match s.openProposals.find? fun x => x.e = e && x.fseq = fseq with
  | none => s
  | some x =>
    if s.proposalCancelled x then s.giveUp x stCancelled
    else if result ≠ 0 then s.giveUp x stRejected
    else
      let y := { x with acks := if x.acks.contains serial then x.acks else x.acks ++ [serial] }
      let s := s.setProposal x y
      let s := match y.handle with
        | some h => s.modCmd h fun c => { c with milestones := y.acks.length }
        | none => s
      s.judgeVotes y

/-- The digest of a record; that of one which cannot be parsed is free. -/
def State.recordDigest (s : State) (bytes : List Byte) : State × Vector Word 2 :=
  match parseFabric bytes with
  | some f => (s, f.digest)
  | none => (s.tick.tick, #v[Config.freeWord s.free, Config.freeWord (s.free + 1)])

/-- The proposer stages its record, unless another is staged; tables are computed from a record that can be parsed. -/
def State.stageOwn (s : State) (e : Word) (d : Vector Word 2) (bytes : List Byte) : State :=
  if s.xl.staged then s
  else match parseFabric bytes with
    | some f => s.stage e f bytes
    | none => { s with xl := { s.xl with staged := true, pEpoch := e, pDigest := d, stagedRec := bytes } }

/-- The device proposes a record: the staged copy, the flood, its own check and vote (16 R345).
Log entry 118 (DEDUCED). -/
def State.proposeRecord (s : State) (handle : Option Half) (bytes : List Byte) : State :=
  let e := s.xl.epoch + 1
  let (s, d) := s.recordDigest bytes
  let own := (s.checkProposal e d[0] d[1] (some bytes)).1
  let (s, n) := (s.stageOwn e d bytes).flood 0x43 (proposeBytes e d[0] d[1] (BitVec.ofNat 32 bytes.length))
  let x : Proposal := { e := e, handle := handle, auto := handle.isNone, fseq := n, acks := [], passed := false }
  { s with xl := { s.xl with proposals := s.xl.proposals ++ [x] } }.countVote n e s.chip.serial own

/-- A device votes on a proposal that it pulled, or could not pull, and sends PROPOSE on. -/
def State.voteOn (s : State) (x : Pull) (bytes : Option (List Byte)) : State :=
  match x.header with
  | none => s
  | some h =>
    let (r, f) := s.checkProposal x.epoch x.d0 x.d1 bytes
    let s := match r, f with
      | 0, some f => s.stage x.epoch f x.got
      | _, _ => s
    (s.floodOn x.port 0x43 h (proposeBytes x.epoch x.d0 x.d1 x.announced)).reverse 0x44 h
      (voteBytes x.epoch s.chip.serial (BitVec.ofNat 8 r))

/-! ## The commands of the host (03 R51) -/

/-- WAYMARK_PROPOSE; `r` is the answer of a source outside the device. -/
def execWaymarkPropose (handle : Half) (r : Reply) (s : State) : Outcome :=
  match s.running handle 0x31 with
  | none => .next s
  | some c =>
    if c.started then .next s
    else if c.cancelled then done (s.finishWith handle stCancelled)
    else if s.divergent then done (s.finishWith handle stDivergent)
    else match s.fwRead c 0 (c.at 16 8) (c.at 24 4) r with
      | (s, .wait) => .next s
      | (s, .fail) => done (s.finishWith handle stAccess)
      | (s, .done bs) =>
        done ((s.modCmd handle fun k => { k with started := true }).proposeRecord (some handle) bs)

/-- WAYMARK_COMMIT. -/
def execWaymarkCommit (handle : Half) (s : State) : Outcome :=
  match s.running handle 0x32 with
  | none => .next s
  | some c =>
    let e : Word := BitVec.ofNat 64 (c.at 16 8)
    let mine := s.xl.proposals.any fun x => x.passed && x.e = e
    if mine && s.xl.staged && s.xl.pEpoch = e then done ((s.commitOwn e).finishOk handle e)
    else done (s.finishWith handle stRejected)

/-- PROPOSE: a first arrival pulls the record from the arrival port.
Log entry 118 (DEDUCED). -/
def execPropose (p : PortId) (h : MgtHdr) (e d0 d1 : Word) (length : Half) (s : State) : Outcome :=
  match s.mgtFor p 0x43 (some h) (proposeBytes e d0 d1 length) with
  | none => .next s
  | some r =>
    match s.floodIn p h r with
    | (s, false) => .next s
    | (s, true) => .next (s.addPull
        { port := p, epoch := e, staged := true, length := 0, got := [], asked := 0, tries := 0,
          header := some h, announced := length, d0 := d0, d1 := d1 })

/-- VOTE. -/
def execVote (p : PortId) (h : MgtHdr) (e serial : Word) (result : Byte) (s : State) : Outcome :=
  match s.mgtFor p 0x44 (some h) (voteBytes e serial result) with
  | none => .next s
  | some r =>
    let s := s.takeRx p r
    if h.origin = s.chip.serial then done (s.countVote h.fseq e serial result.toNat)
    else .next (s.reverse 0x44 h (voteBytes e serial result))

/-- VOTE_TIMEOUT, of the proposal that has waited longest.
Log entry 118 (DEDUCED). -/
def execVoteTimeout (s : State) : Outcome :=
  match s.openProposals with
  | [] => .next s
  | x :: _ => done (s.giveUp x (if s.proposalCancelled x then stCancelled else stRejected))

/-- COMMIT. -/
def execCommit (p : PortId) (h : MgtHdr) (e d0 d1 : Word) (s : State) : Outcome :=
  match s.mgtFor p 0x45 (some h) (commitBytes e d0 d1) with
  | none => .next s
  | some r =>
    match s.floodIn p h r with
    | (s, false) => .next s
    | (s, true) =>
      let s := s.floodOn p 0x45 h (commitBytes e d0 d1)
      if s.xl.staged && s.xl.pEpoch = e && s.xl.pDigest[0] = d0 && s.xl.pDigest[1] = d1 then .next s.commitStaged
      else .next s

/-- ABORT. -/
def execAbort (p : PortId) (h : MgtHdr) (e : Word) (s : State) : Outcome :=
  match s.mgtFor p 0x46 (some h) (le 8 e.toNat) with
  | none => .next s
  | some r =>
    match s.floodIn p h r with
    | (s, false) => .next s
    | (s, true) =>
      let s := (s.floodOn p 0x46 h (le 8 e.toNat)).forgetPassed e
      if s.xl.staged && s.xl.pEpoch = e then .next s.dropStaged else .next s

/-- STAGE_EXPIRY. -/
def execStageExpiry (s : State) : Outcome := if s.xl.staged then .next s.dropStaged else .next s

/-! ## Record transfer (16 R339) -/

/-- The record that FSR_REQ names, if this device holds it. -/
def State.servedRecord (s : State) (epoch : Word) (which : Nat) : Option (List Byte) :=
  let r := if which = 0 && s.xl.epoch = epoch then s.xl.record
    else if which = 1 && s.xl.staged && s.xl.pEpoch = epoch then s.xl.stagedRec else []
  if r.isEmpty then none else some r

/-- FSR_REQ: the range goes back in messages of up to 240 record bytes.
Log entry 119 (DEDUCED). -/
def execFsrReq (p : PortId) (epoch : Word) (offset count : Half) (which : Byte) (s : State) : Outcome :=
  match s.mgtFor p 0x47 none (fsrReqBytes epoch offset count which) with
  | none => .next s
  | some x =>
    let s := s.takeRx p x
    match s.servedRecord epoch which.toNat with
    | none => .next (s.sendLink p 0x48 (fsrDataBytes epoch offset 0 []))
    | some r =>
      let last := min (offset.toNat + count.toNat) r.length
      let n := (last - offset.toNat + 239) / 240
      .next ((upto n).foldl (fun s i =>
        let o := offset.toNat + 240 * i
        s.sendLink p 0x48 (fsrDataBytes epoch (BitVec.ofNat 32 o) (BitVec.ofNat 32 r.length)
          ((r.drop o).take (min 240 (last - o))))) s)

/-- A pull ends: with its record, or without. -/
def State.finishPull (s : State) (x : Pull) (ok : Bool) : State :=
  let s := if x.staged then s.voteOn x (if ok then some x.got else none)
    else if ok then s.culRecord x else s
  s.endPull x

/-- FSR_DATA. -/
def execFsrData (p : PortId) (epoch : Word) (offset length : Half) (bytes : List Byte) (s : State) : Outcome :=
  match s.mgtFor p 0x48 none (fsrDataBytes epoch offset length bytes) with
  | none => .next s
  | some r =>
    let s := s.takeRx p r
    match s.pullOf p epoch with
    | none => .next s
    | some x =>
      if length.toNat = 0 then .next (s.finishPull x false)
      else if x.got.length < offset.toNat then .next s
      else
        let got := (x.got ++ bytes.drop (x.got.length - offset.toNat)).take length.toNat
        let y := { x with length := length.toNat, got := got }
        let s := s.setPull x y
        if length.toNat ≤ got.length then .next (s.finishPull y true)
        else if y.asked ≤ got.length then .next (s.askNext y)
        else .next s

/-- FSR_RETRY: the missing range is asked for again; after 16 tries the pull is given up. -/
def execFsrRetry (p : PortId) (epoch : Word) (s : State) : Outcome :=
  match s.pullOf p epoch with
  | none => .next s
  | some x =>
    if x.asked = 0 || !s.tgl[p].up || s.chip.phase != .firmware then .next s
    else if 16 ≤ x.tries then .next (s.finishPull x false)
    else
      let y := { x with tries := x.tries + 1 }
      .next ((s.setPull x y).askPull y)

/-! ## Heartbeats -/

/-- HEARTBEAT_SEND. -/
def execHeartbeatSend (p : PortId) (s : State) : Outcome := .next (s.sendLink p 0x40 (heartbeatBytes (s.ownHeartbeat p)))

/-- HEARTBEAT: the cul-de-sac's conditions, the relation, a commit by heartbeat. -/
def execHeartbeat (p : PortId) (hb : HeartbeatMsg) (s : State) : Outcome :=
  match s.mgtArrived p 0x40 none (heartbeatBytes hb) with
  | none => .next s
  | some r =>
    let s := (s.takeRx p r).modTgl p fun t => { t with hb := some hb, pepoch := hb.epoch, peerNode := hb.node }
    let above := decide (s.xl.epoch.toNat < hb.epoch.toNat)
    let s := if above then s.raise (0x205 + 16 * p) else s
    let cul := (above && !s.catching hb) || (!assignedBit s.xl.node && assignedBit hb.node)
    let s := if cul then { s with xl := { s.xl with culdesac := true } } else s
    let s := s.relUpdate p
    let mine := s.xl.staged && s.xl.pEpoch = hb.epoch && s.xl.pDigest[0] = hb.digest0 && s.xl.pDigest[1] = hb.digest1
    let s := if s.tgl[p].rel = 3 && mine then s.commitStaged else s
    .next s.culPull

/-- CATCHING_UP_EXPIRY: GRACE is over. -/
def execCatchingUpExpiry (p : PortId) (s : State) : Outcome :=
  if s.tgl[p].up && s.tgl[p].rel = 3 then
    .next (((s.modTgl p fun t => { t with ranOut := true }).setRel p 5).flushPort p)
  else .next s

/-! ## Discovery (16 R340) -/

/-- What a NEIGH report says of a port. -/
def Tgl.neighPort (t : Tgl) : NeighPort :=
  { peer := if t.up then t.peer else 0
    peerPort := match t.up, t.train with
      | true, some f => f.port
      | _, _ => 0
    up := t.up
    four := t.up && t.lanes = 1 }

/-- Own NEIGH report. -/
def State.ownNeigh (s : State) : Neigh :=
  { serial := s.chip.serial, major := 1, minor := 1
    ports := allPorts.map fun p => s.tgl[p].neighPort }

/-- Sends a NEIGH to the parent, or holds it. -/
def State.sendNeigh (s : State) (r : Neigh) : State :=
  match s.xl.parent with
  | some q => s.mgtSend q 0x42 (linkHdr r.serial) (neighPayload r)
  | none => { s with xl := { s.xl with neighs := (s.xl.neighs.filter fun x => x.serial ≠ r.serial) ++ [r] } }

/-- Sends HELLO on the up ports but one. -/
def State.sendHello (s : State) (but : Option PortId) : State :=
  let l := s.xl.lowest.getD s.chip.serial
  (s.upPorts.filter fun q => some q ≠ but).foldl (fun s q =>
    s.sendLink q 0x41 (helloBytes s.chip.serial l s.xl.node (BitVec.ofNat 8 q.val))) s

/-- The neighbours that are up are all unassigned, at epoch 0. -/
def State.allFresh (s : State) : Bool :=
  s.upPorts.all fun p =>
    let t := s.tgl[p]
    let e := match t.hb, t.train with
      | some h, _ => h.epoch
      | none, some f => f.epoch
      | none, none => 0
    !assignedBit t.peerNode && e = 0

/-- The device may start discovery: unassigned, at epoch 0, as are all its neighbours. -/
def State.mayDiscover (s : State) : Bool :=
  s.chip.phase == .firmware && !assignedBit s.xl.node && s.xl.epoch = 0 && !s.xl.discovering
    && !s.upPorts.isEmpty && s.allFresh

/-- Discovery starts with the device's own SERIAL. -/
def State.startDiscovery (s : State) : State :=
  let s := { s with xl := { s.xl with discovering := true, lowest := some s.chip.serial, parent := none } }
  (s.sendHello none).sendNeigh s.ownNeigh

/-- DISCOVERY_START. -/
def execDiscoveryStart (s : State) : Outcome := if s.mayDiscover then .next s.startDiscovery else .next s

/-- A lower SERIAL is known by port `p`, which becomes the parent.
Log entry 122 (DEDUCED). -/
def State.takeLower (s : State) (p : PortId) (lowest : Word) : State :=
  let changed := decide (s.xl.parent ≠ some p)
  let s := { s with xl := { s.xl with lowest := some lowest, parent := some p } }.sendHello (some p)
  if changed then
    let held := s.xl.neighs.filter fun r => r.serial ≠ s.chip.serial
    let s := { s with xl := { s.xl with neighs := [] } }
    (held ++ [s.ownNeigh]).foldl (fun s r => s.sendNeigh r) s
  else s

/-- HELLO. -/
def execHello (p : PortId) (serial lowest : Word) (node : Half) (port : Byte) (s : State) : Outcome :=
  match s.mgtFor p 0x41 none (helloBytes serial lowest node port) with
  | none => .next s
  | some r =>
    let s := (s.takeRx p r).modTgl p fun t => { t with peerNode := node }
    let s := if s.mayDiscover then s.startDiscovery else s
    match s.xl.discovering, s.xl.lowest with
    | true, some l => if lowest.toNat < l.toNat then .next (s.takeLower p lowest) else .next s
    | _, _ => .next s

/-- NEIGH. -/
def execNeigh (p : PortId) (r : Neigh) (s : State) : Outcome :=
  match s.mgtFor p 0x42 none (neighPayload r) with
  | none => .next s
  | some x => .next ((s.takeRx p x).sendNeigh r)

/-- Reports in ascending SERIAL order.
Log entry 122 (DEDUCED). -/
def insNeigh (r : Neigh) : List Neigh → List Neigh
  | [] => [r]
  | x :: t => if r.serial.toNat < x.serial.toNat then r :: x :: t else x :: insNeigh r t

/-- The node of the roster device at place `i`: groups of 256 from group 0x001 on, ASSIGNED. -/
def nodeAt (i : Nat) : Half := BitVec.ofNat 32 ((1 + i / 256) <<< 20 + (i % 256) <<< 12 + 1)

/-- The links that report `a`, at place `i`, and the reports of its peers name alike. -/
def linksOf (rs : List Neigh) (i : Nat) (a : Neigh) : List (List Byte) :=
  (a.ports.mapIdx fun pa q => (pa, q)).filterMap fun x =>
    let j := rs.findIdx fun b => b.serial = x.2.peer
    match rs[j]? with
    | none => none
    | some b =>
      match b.ports[x.2.peerPort.toNat]? with
      | none => none
      | some back =>
        if x.2.up && back.up && back.peer = a.serial && back.peerPort.toNat = x.1 && i < j then
          some (le 4 (nodeAt i).toNat ++ le 1 x.1 ++ le 1 x.2.peerPort.toNat ++ le 2 0 ++ le 4 (nodeAt j).toNat ++ le 4 0)
        else none

/-- The record of epoch 1.
Log entry 122 (DEDUCED). -/
def rootRecord (rs : List Neigh) : List Byte :=
  let roster := (rs.mapIdx fun i r => le 8 r.serial.toNat ++ le 4 (nodeAt i).toNat ++ le 4 0).flatten
  let links := ((rs.mapIdx fun i r => linksOf rs i r).flatten).flatten
  fabricRecord [(0x0001, roster), (0x0002, links), (0x0101, le 8 1), (0x0102, le 8 1)]

/-- DISCOVERY_ROOT: the device whose own SERIAL is the lowest it knows builds epoch 1, proposes it and commits it. -/
def execDiscoveryRoot (s : State) : Outcome :=
  if !(s.chip.phase == .firmware) || !s.xl.discovering || s.xl.lowest ≠ some s.chip.serial || !s.xl.proposals.isEmpty then
    .next s
  else
    let rs := (s.xl.neighs.filter fun x => x.serial ≠ s.chip.serial) ++ [s.ownNeigh]
    done (s.proposeRecord none (rootRecord (rs.foldl (fun l r => insNeigh r l) [])))

/-! ## Surveys (16 R349) -/

/-- This device's answer to a survey. -/
def State.surveyRec (s : State) : SurveyRec :=
  { serial := s.chip.serial, node := s.xl.node, agrees := false, culdesac := s.xl.culdesac
    unassigned := !assignedBit s.xl.node, minor := 1, major := 1, epoch := s.xl.epoch
    digest0 := s.xl.digest[0], digest1 := s.xl.digest[1], pepoch := if s.xl.staged then s.xl.pEpoch else 0
    ports := allPorts.map fun p =>
      BitVec.ofNat 8 ((s.tgl[p].rel.toNat % 8) + 8 * b2n (s.tgl[p].up && decide (s.tgl[p].lanes = 1))) }

/-- FABRIC_SURVEY: SURVEY_REQ floods; the device's own answer is the first. -/
def execFabricSurvey (handle : Half) (s : State) : Outcome :=
  match s.running handle 0x30 with
  | none => .next s
  | some c =>
    if c.started || s.xl.survey.isSome then .next s
    else if c.cancelled then done (s.finishWith handle stCancelled)
    else
      let (s, n) := s.flood 0x49 (le 8 s.xl.epoch.toNat)
      let s := { s with xl := { s.xl with survey := some { handle := handle, fseq := n, recs := [s.surveyRec] } } }
      .next (s.modCmd handle fun k => { k with started := true, milestones := 1 })

/-- SURVEY_REQ. -/
def execSurveyReq (p : PortId) (h : MgtHdr) (epoch : Word) (s : State) : Outcome :=
  match s.mgtFor p 0x49 (some h) (le 8 epoch.toNat) with
  | none => .next s
  | some r =>
    match s.floodIn p h r with
    | (s, false) => .next s
    | (s, true) => .next ((s.floodOn p 0x49 h (le 8 epoch.toNat)).reverse 0x4A h (surveyBytes s.surveyRec false true))

/-- SURVEY_RSP. -/
def execSurveyRsp (p : PortId) (h : MgtHdr) (r : SurveyRec) (s : State) : Outcome :=
  match s.mgtFor p 0x4A (some h) (surveyBytes r false true) with
  | none => .next s
  | some x =>
    let s := s.takeRx p x
    if h.origin ≠ s.chip.serial then .next (s.reverse 0x4A h (surveyBytes r false true))
    else match s.xl.survey with
      | none => .next s
      | some v =>
        if v.fseq ≠ h.fseq then .next s
        else
          let v := { v with recs := v.recs ++ [r] }
          let s := { s with xl := { s.xl with survey := some v } }
          .next (s.modCmd v.handle fun k => { k with milestones := v.recs.length })

/-- An answer carries this device's waymark. -/
def State.agreesWith (s : State) (r : SurveyRec) : Bool :=
  r.epoch = s.xl.epoch && r.digest0 = s.xl.digest[0] && r.digest1 = s.xl.digest[1]

/-- The roster of the committed record. -/
def State.roster (s : State) : List Member :=
  match parseFabric s.xl.record with
  | some f => f.roster
  | none => []

/-- Every roster device has answered. -/
def State.allAnswered (s : State) (v : Survey) : Bool := s.roster.all fun m => v.recs.any fun r => r.serial = m.serial

/-- What a survey writes: the header, the answers in order of arrival, then the roster devices that are silent.
Log entry 121 (DEDUCED). -/
def State.surveyBuffer (s : State) (v : Survey) (len maxDev : Nat) : List Byte :=
  let silent := s.roster.filter fun m => !v.recs.any fun r => r.serial = m.serial
  let recs := v.recs.map (fun r => surveyBytes r (s.agreesWith r) true)
    ++ silent.mapIdx fun i m => silentBytes m (Config.freeNat (s.free + i))
  let n := min recs.length (min maxDev ((len - 32) / 64))
  let agree := (v.recs.filter s.agreesWith).length
  (le 4 n ++ le 4 v.recs.length ++ le 4 agree ++ le 4 s.roster.length ++ le 8 s.xl.epoch.toNat ++ le 8 0
    ++ (recs.take n).flatten).take len

/-- SURVEY_COMPLETE: after the 10 ms, or when every roster device has answered; `w` is the answer of a buffer outside the
device.
Log entry 121 (DEDUCED). -/
def execSurveyComplete (handle : Half) (timedOut : Bool) (w : Reply) (s : State) : Outcome :=
  match s.running handle 0x30, s.xl.survey with
  | some c, some v =>
    let agree := BitVec.ofNat 64 (v.recs.filter s.agreesWith).length
    let stop := fun (s : State) (st : BitVec 16) =>
      done ({ s with xl := { s.xl with survey := none } }.finish handle
        { status := st, detail := 0, milestones := v.recs.length, result := agree })
    if v.handle ≠ handle then .next s
    else if c.cancelled then stop s stCancelled
    else if !timedOut && !s.allAnswered v then .next s
    else
      match s.fwWrite c 0 (c.at 16 8) (s.surveyBuffer v (c.at 24 4) (c.at 28 4)) w with
      | (s, .wait) => .next s
      | (s, .fail) => stop s stAccess
      | (s, .done _) => stop { s with free := s.free + s.roster.length } stOk
  | _, _ => .next s

end Sys2Proof.Machine
end

