-- ==== Sys2Proof/Machine/HostLink.lean ====
section
/-! DEFINITION. The host link (chapter 15): the home agent's host side, its snoop filter, D2H responses, the HDM decoder
and the links. -/

namespace Sys2Proof.Machine

/-! ## Held accesses that proceed (15 R308, R310) -/

/-- A held access that has been served reaches what it was made for. -/
def State.deliver (s : State) (d : Delivery) : State :=
  match d.who with
  | .want w =>
    if !w.ofCore then s.answer w (if d.op == .read then d.ans.reply 0 64 else .ok [])
    else if s.cclkStopped then s.delay (.line w d.line d.ans.bytes d.ans.poison)
    else s.lineNow w d.line d.ans
  | .tag t => s.emit (.lineRsp t d.ans.bytes d.ans.poison)
  | .record r => s.recordDone r
  | .remote src tid => s.remoteServed src tid d.line d.ans

/-- The held accesses of a line go on; `released` says that a snoop of it has ended. -/
def State.release (s : State) (line : Nat) (released : Bool) : State :=
  let (s, ds) := s.releaseLine line released
  ds.foldl (fun s d => s.deliver d) s

/-- The held accesses of every line go on as far as they can. -/
def State.releaseHeld (s : State) : State :=
  let (s, ds) := s.releaseAll
  ds.foldl (fun s d => s.deliver d) s

/-! ## The HDM range (15 R304, R305) -/

/-- The HDM link: the one that carries CXL.mem (15 R302). -/
def State.hdm (s : State) : Option LinkId :=
  (List.finRange 6).find? fun l => s.cxl.links[l].up && s.cxl.links[l].memEn

/-- The DDR line of a host address in the committed range. -/
def State.lineOf (s : State) (hpa : Word) : Option Nat :=
  let d := s.cxl.decoder
  if d.committed && d.base.toNat ≤ hpa.toNat && hpa.toNat < d.base.toNat + d.size.toNat then
    some ((hpa.toNat - d.base.toNat) / 64)
  else none

/-- Event `k` of the host port of a link (15 R317). -/
def linkEvent (l : LinkId) (k : Nat) : Nat := 0x280 + 16 * portOf l + k

/-- Event `k` of the HDM link's port. -/
def State.raiseHdm (s : State) (k : Nat) : State :=
  match s.hdm with
  | some l => s.raise (linkEvent l k)
  | none => s

/-- An S2M response leaves with its DevLoad, whose value is free (15 R298).
Log entry 145 (DEDUCED). -/
def State.s2m (s : State) (o : BitVec 2 → Out) : State :=
  (s.emit (o (BitVec.ofNat 2 (Config.freeNat s.free)))).tick

/-- Poisoned data arrive on the HDM link. -/
def State.hdmPoison (s : State) : State :=
  match s.hdm with
  | some l => s.poisonReport l
  | none => s

/-! ## The snoop filter's sets (15 R307, R309) -/

/-- Entries of a line's set, the most recently used first.
Log entry 17 (DESIGN CHOICE). -/
def State.sfWays (s : State) (line : Nat) : List (Nat × SfState) :=
  s.cxl.sf.filter fun p => Config.sfSet p.1 = Config.sfSet line

/-- The least recently used way in S or A.
Log entries 17 (DESIGN CHOICE), 95 (DEDUCED). -/
def victimOf (ways : List (Nat × SfState)) : Option Nat :=
  (ways.reverse.find? fun p => p.2 == .s || p.2 == .a).map (·.1)

/-- The entry that a MetaValue asks for. -/
def metaState : Meta → Option SfState
  | .i => none
  | .s => some .s
  | .a => some .a

/-! ## M2S requests (15 R305, R307, R309, R310) -/

/-- Bytes of a line, merged by their enables; a poisoned line stays so (13 R273). -/
def State.hostMerge (s : State) (line : Nat) (be : BitVec 64) (bs : List Byte) : State :=
  let a := line * 64
  let (s, bs) := ((s.ddrWake a 64).checkDdr [line]).ddrBytes a bs
  let bad := s.mem.badDdr
  let s := s.memWrite a (mergeBytes be.toNat 0 (s.memRead a 64) bs)
  { s with mem := { s.mem with badDdr := bad } }

/-- The data of a request are written, or merged by its byte enables; a whole line loses its poison, and poisoned data
poison it (15 R315). -/
def State.hostWrite (s : State) (q : HostReq) : State :=
  match q.wr with
  | none => s
  | some (be, bs) =>
    if be = BitVec.allOnes 64 then
      let s := s.ddrApply (q.line * 64) bs
      if q.poison then ((s.poisonAt (q.line * 64) 64).raiseHdm 4).hdmPoison else s
    else s.hostMerge q.line be bs

/-- A request acts on its line and is answered; device accesses that wait for the line see its new state. -/
def State.serveHost (s : State) (q : HostReq) : State :=
  let s := s.hostWrite q
  let s := s.sfPut q.line (metaState q.mv)
  let s := if q.data then
      let (s, a) := s.ddrServe (q.line * 64) 64
      let s := if a.poison then s.raiseHdm 4 else s
      s.s2m (.s2mData q.hpa a.bytes a.poison)
    else s.s2m (.s2mDone q.hpa)
  if s.heldOn q.line then s.release q.line false else s

/-- A request finds its line in PI and acts at once (15 R310): the line is released with MetaValue I or by a clean
eviction. -/
def State.crossing (s : State) (q : HostReq) : State :=
  let s := { s with cxl := { s.cxl with biXing := satAdd s.cxl.biXing 1 } }
  let s := (s.hostWrite q).s2m (.s2mDone q.hpa)
  if q.mv = .i then ((s.sfPut q.line (some .pr)).release q.line true).aciSettle else s

/-- A request writes, or is a clean eviction: the home agent never makes it wait for a snoop of its own line (15 R310). -/
def HostReq.acts (q : HostReq) : Bool := q.wr.isSome || q.clean

/-- A request needs an entry of a full set: a victim is snooped (15 R309). -/
def State.evictFor (s : State) (q : HostReq) : State × Option HostReq :=
  match victimOf (s.sfWays q.line) with
  | none => (s, some { q with behind := none })
  | some v =>
    if 1024 ≤ s.snoops then (s, some { q with behind := none })
    else
      let s := { s with cxl := { s.cxl with sfEvict := satAdd s.cxl.sfEvict 1 } }
      (s.snoop v false, some { q with behind := some v })

/-- The victim that a request waits for has not been released. -/
def State.victimWaits (s : State) (q : HostReq) : Bool :=
  match q.behind with
  | some v => s.sfOf v = some .pi || s.sfOf v = some .pr
  | none => false

/-- A request is taken, or must be held (15 R307, R309, R310); one that needs a stopped controller waits (17 R356). -/
def State.tryHost (s : State) (q : HostReq) : State × Option HostReq :=
  let st := s.sfOf q.line
  if (q.wr.isSome || q.data) && s.ctrlStopped (ddrSplit (q.line * 64)).1 then (s, some q)
  else if st = some .pi && q.acts then (s.crossing q, none)
  else if st = some .pi || st = some .pr || (s.heldOn q.line && !q.acts) then (s, some q)
  else if st.isNone && q.mv ≠ .i && 16 ≤ (s.sfWays q.line).length then
    if s.victimWaits q then (s, some q) else s.evictFor q
  else (s.serveHost q, none)

/-- A request is taken at the home agent, behind those of its line that are held already (15 R306).
Log entry 95 (DEDUCED). -/
def State.takeHost (s : State) (q : HostReq) : State :=
  let keep := fun (s : State) (q : HostReq) => { s with cxl := { s.cxl with hostHeld := s.cxl.hostHeld ++ [q] } }
  if s.cxl.hostHeld.any (·.line = q.line) && !(s.sfOf q.line = some .pi && q.acts) then keep s q
  else match s.tryHost q with
    | (s, none) => s
    | (s, some q) => keep s q

/-- The held host requests are taken as if newly arrived, in order. -/
def State.retake (s : State) : State :=
  s.cxl.hostHeld.foldl (fun s q => s.takeHost q) { s with cxl := { s.cxl with hostHeld := [] } }

/-- The held host requests are taken again until none goes on. -/
def State.retakeAll (s : State) : Nat → State
  | 0 => s
  | n + 1 =>
    let u := s.retake
    if u.cxl.hostHeld.length = s.cxl.hostHeld.length then u else u.retakeAll n

/-- The home agent goes on with everything that it holds, as far as it can.
Log entry 126 (DEDUCED). -/
def State.homeSettle (s : State) : State :=
  let s := s.releaseHeld
  (s.retakeAll (s.cxl.hostHeld.length + 1)).releaseHeld.aciSettle

/-- A request outside the committed range: a read is answered with poisoned data, a write is dropped (15 R305). -/
def State.outOfRange (s : State) (q : HostReq) : State :=
  (s.raiseHdm 5).s2m (if q.data then .s2mData q.hpa [] true else .s2mDone q.hpa)

/-- A host request as it arrives: mapped by the decoder, or outside its range (15 R305); a function in D3hot answers none
(15 R299).
Log entry 94 (PRESUMED). -/
def State.m2s (s : State) (hpa : Word) (mk : Nat → HostReq) : State :=
  match s.hdm with
  | none => s
  | some l =>
    if s.cxl.links[l].cfg.d3hot then s
    else match s.lineOf hpa with
    | some l => s.takeHost (mk l)
    | none => s.outOfRange (mk 0)

/-- A request without data of its own. -/
def hostReq (hpa : Word) (mv : Meta) (data clean : Bool) (l : Nat) : HostReq :=
  { hpa := hpa, line := l, mv := mv, wr := none, data := data, poison := false, clean := clean, behind := none }

/-- MEM_RD. -/
def execMemRd (hpa : Word) (mv : Meta) (s : State) : Outcome := .next (s.m2s hpa (hostReq hpa mv true false))
/-- MEM_RD_DATA. -/
def execMemRdData (hpa : Word) (mv : Meta) (s : State) : Outcome := .next (s.m2s hpa (hostReq hpa mv true false))
/-- MEM_INV: no data.
Log entry 94 (PRESUMED). -/
def execMemInv (hpa : Word) (mv : Meta) (s : State) : Outcome := .next (s.m2s hpa (hostReq hpa mv false false))
/-- MEM_INV_NT. -/
def execMemInvNt (hpa : Word) (mv : Meta) (s : State) : Outcome := .next (s.m2s hpa (hostReq hpa mv false false))
/-- MEM_SPEC_RD: a hint, which the model drops; outside the range it raises the event (15 R298, R305).
Log entry 94 (PRESUMED). -/
def execMemSpecRd (hpa : Word) (s : State) : Outcome :=
  .next (if (s.lineOf hpa).isSome then s else s.raiseHdm 5)
/-- MEM_CLN_EVCT. -/
def execMemClnEvct (hpa : Word) (s : State) : Outcome := .next (s.m2s hpa (hostReq hpa .i false true))
/-- MEM_WR: a whole line. -/
def execMemWr (hpa : Word) (mv : Meta) (data : List Byte) (poison : Bool) (s : State) : Outcome :=
  .next (s.m2s hpa fun l =>
    { hostReq hpa mv false false l with wr := some (BitVec.allOnes 64, sliceAt data 0 64), poison := poison })
/-- MEM_WR_PTL: bytes of a line by their enables. -/
def execMemWrPtl (hpa : Word) (mv : Meta) (be : BitVec 64) (data : List Byte) (s : State) : Outcome :=
  .next (s.m2s hpa fun l => { hostReq hpa mv false false l with wr := some (be, sliceAt data 0 64) })
/-- BI_CONFLICT: answered at once, behind the completions already sent. -/
def execBiConflict (hpa : Word) (s : State) : Outcome :=
  .next (if s.hdm.isSome then s.emit (.biConflictAck hpa) else s)

/-- A BIRsp completes the snoop of a line in PI or PR.
Log entry 95 (DEDUCED). -/
def State.biRsp (s : State) (hpa : Word) (st : Option SfState) : State :=
  match s.lineOf hpa with
  | none => s
  | some l =>
    if s.sfOf l = some .pi || s.sfOf l = some .pr then ((s.sfPut l st).release l true).homeSettle else s

/-- BI_RSP_S. -/
def execBiRspS (hpa : Word) (s : State) : Outcome := .next (s.biRsp hpa (some .s))
/-- BI_RSP_I. -/
def execBiRspI (hpa : Word) (s : State) : Outcome := .next (s.biRsp hpa none)

/-- HOME_AGENT_ACCESS: a device access to the DDR line at `offset`, named `tag`, with what its ECC check finds.
Log entry 44 (DESIGN CHOICE). -/
def execHomeAgentAccess (tag offset : Nat) (op : LineOp) (found : EccFind) (device : BitVec 4) (s : State) : Outcome :=
  if s.mem.d ≤ offset then .fault .noSuchDdr
  else
    let a := offset / 64 * 64
    let served := fun (s : State) (r : ReadAns) => Host.Outcome.next (s.emit (.lineRsp tag r.bytes r.poison))
    let line := offset / 64
    let reads := match op with
      | .write _ bs => decide (bs.length < 64)
      | _ => true
    let now := reads && s.canServe line op && !s.heldOn line && !s.poisoned a 64
    if now && found == .uncorrectable then
      let s := { s with mem := { s.mem with softDdr := s.mem.softDdr.filter (· ≠ line) } }
      let (s, r) := ((s.ddrWake a 64).ddrUncorrectable offset false device).serveOp offset op
      served (s.poisonAt a 64) { r with poison := op == .read }
    else
      let s := if now && found == .corrected then
          { s with mem := { s.mem with softDdr := natIns line s.mem.softDdr } }
        else s
      match s.homeAccess offset op (.tag tag) with
      | (s, .served r) => served s r
      | (s, .held) => .next s

/-! ## CXL.cache (15 R311 to R313) -/

/-- H2D_SNOOP: the device caches no host line; a function in D3hot answers none (15 R299). -/
def execH2dSnoop (link : LinkId) (hpa : Word) (s : State) : Outcome :=
  .next (if s.cxl.links[link].up && s.cxl.links[link].cxl && !s.cxl.links[link].cfg.d3hot then s.emit (.rspIHitI hpa) else s)

/-! ## Links (15 R300, R302, R316) -/

/-- The home agent forgets the host: every entry becomes I, every held device access proceeds, and the requests in flight
are gone (15 R316). -/
def State.forgetHost (s : State) : State :=
  ({ s with cxl := { s.cxl with sf := [], hostHeld := [] } }).releaseHeld.aciSettle

/-- No decoder. -/
def Decoder.none : Decoder :=
  { base := 0, size := 0, committed := false, notCommitted := false, locked := false }

/-- The HDM link's function loses its configuration.
Log entry 96 (DEDUCED). -/
def State.hdmDrop (s : State) : State :=
  { s.forgetHost with cxl := { s.forgetHost.cxl with decoder := .none, hdmRegs := State.reset.cxl.hdmRegs } }

/-- The link can train: the port's bifurcation gives it, its clock runs, and CLKIN is there (15 R300, 17 R355, R357).
Log entry 96 (DEDUCED). -/
def State.linkCanTrain (s : State) (l : LinkId) : Bool :=
  let p := portOf l
  let split := match fin? 2 p with
    | some i => s.cxl.bifd[i]
    | none => false
  (if l.val < 2 then !split else split) && s.linkClock && s.chip.clkGate.getLsbD (24 + p)
    && (s.chip.phase == .rom || s.chip.phase == .recovery || s.chip.phase == .firmware)

/-- WIDTH code of a link that trains at its full width: x16, or x8 of a bifurcated port (15 R298, R300). -/
def fullWidth (l : LinkId) : Nat := if l.val < 2 then 3 else 2

/-- CXL_LINK_UP: a link has trained, at x4 or wider (15 R298), and the host has configured its function: `cacheEn`, `memEn`,
`msixEn` and `fnMask` are what it wrote.  Below 32 GT/s no CXL protocol is enabled (15 R300).
Log entry 145 (DEDUCED). -/
def execCxlLinkUp (link : LinkId) (width : BitVec 4) (speed : BitVec 4) (cxl : Bool) (cacheEn memEn msixEn fnMask : Bool)
    (s : State) : Outcome :=
  let full := fullWidth link
  if s.cxl.links[link].up || !s.linkCanTrain link || width = 0 || full < width.toNat || speed = 0 || 6 < speed.toNat then .next s
  else
    let cxl := cxl && 5 ≤ speed.toNat
    let named := decide (s.cxl.hdmLink.toNat = link.val)
    let s := if named then
        let s := if s.hdm.isSome then s.hdmDrop else s
        { s with cxl := { s.cxl with links := s.cxl.links.map fun k => { k with memEn := false, memCap := false } } }
      else s
    let s := s.modLink link fun k => { k with
      up := true, cxl := cxl, width := width, speed := speed, cacheEn := cxl && cacheEn
      memEn := cxl && memEn && named, ide := false, msixEn := msixEn, fnMask := fnMask, memCap := named
      cfg := { k.cfg with command := if msixEn then 6 else 2 }, d2h := [] }
    let s := s.raise (linkEvent link (if link.val = 3 || link.val = 5 then 1 else 0))
    let s := if speed.toNat < 6 || width.toNat < full || !cxl then s.raise (linkEvent link 2) else s
    .next s.msixFlush

/-- The D2H requests outstanding on a link fail (15 R311, R316): a record's pair halts (03 R46), the access of a core or a
chain gets an error.
Log entry 98 (DEDUCED). -/
def State.failD2h (s : State) (l : LinkId) (ds : List D2h) : State :=
  let s := if ds.isEmpty then s else s.raise (linkEvent l 6)
  ds.foldl (fun s d =>
    match d.who with
    | .record r =>
      (match s.pair r.qid with
      | some p => if p.gen = r.gen then s.haltPair r.qid else s
      | none => s)
    | .want w => s.answer w .hostError) s

/-- An uncorrectable link error is reported: Uncorrectable Internal Error of AER, and CXL RAS in a status bit that the spec
does not name, a free value (15 R315).
Log entry 143 (PRESUMED). -/
def State.linkError (s : State) (l : LinkId) : State :=
  let s := s.aerUnc l 22
  { s with cxl := { s.cxl with ras := { s.cxl.ras with
      unc := s.cxl.ras.unc ||| (1 : Half) <<< (Config.freeNat s.free % 17) } } }.tick

/-- A link goes down (15 R316): `uncorrectable` names an uncorrectable error as the reason.
Log entry 98 (DEDUCED). -/
def State.linkDown (s : State) (l : LinkId) (uncorrectable : Bool) : State :=
  let k := s.cxl.links[l]
  if !k.up then s
  else
    let s := s.modLink l fun k => { Link.reset with cfg := { LinkCfg.reset with aer := k.cfg.aer } }
    let s := s.raise (linkEvent l (if l.val = 3 || l.val = 5 then 1 else 0))
    let s := if uncorrectable then (s.raise (linkEvent l 3)).linkError l else s
    let s := s.failD2h l k.d2h
    (if k.memCap then s.hdmDrop else s).aciSettle.msixFlush

/-- CXL_LINK_DOWN. -/
def execCxlLinkDown (link : LinkId) (uncorrectable : Bool) (s : State) : Outcome := .next (s.linkDown link uncorrectable)

/-- PERST_N of a port resets only that port's links (18 R371). -/
def execPerstN (port : Fin 2) (s : State) : Outcome :=
  .next (((List.finRange 6).filter fun l => portOf l = port.val).foldl (fun s l => s.linkDown l false) s)

/-- D2H_RESPONSE: the answer to the request `tag` of a link: the write of a completion record, or an access of a core or a
chain. -/
def execD2hResponse (link : LinkId) (tag : Nat) (r : Reply) (s : State) : Outcome :=
  match s.cxl.links[link].d2h.find? (·.tag = tag) with
  | none => .next s
  | some d =>
    if r = .owed then .next s
    else
      let s := s.dropD2h link tag
      match d.who, r with
      | .record x, .ok _ => .next (s.recordDone x).aciSettle
      | .record _, _ => .next (s.failD2h link [d]).aciSettle
      | .want w, r =>
        let (s, r) := s.d2hEnd link r
        .next (s.answer w r)

/-- The conditions that a commit needs (15 R304).
Log entry 97 (DEDUCED). -/
def State.commitOk (s : State) (base size : Word) (ways1 : Bool) (dpaSkip : Word) : Bool :=
  let mib : Nat := 0x10000000
  decide (bits s.mem.init.toNat 2 0 = 3) && decide (base.toNat % mib = 0) && decide (size.toNat % mib = 0)
    && decide (mib ≤ size.toNat) && decide (size.toNat ≤ s.mem.d) && ways1 && decide (dpaSkip = 0)

/-- A write of the HDM link's decoder: its registers take `r`, and its control acts; a locked decoder ignores it, and so does
one that is committed and asked to commit (15 R304, R305).
Log entry 97 (DEDUCED). -/
def State.decoderWrite (s : State) (r : HdmRegs) : State :=
  let put := fun (s : State) (ok bad lock : Bool) =>
    let d : Decoder := { base := r.base, size := r.size, committed := ok, notCommitted := bad, locked := lock }
    { s with cxl := { s.cxl with decoder := d, hdmRegs := r } }
  let old := s.cxl.decoder
  if old.locked || (old.committed && r.commit) then s
  else if !r.commit then
    let held := s.cxl.hostHeld
    let s := if old.committed then held.foldl (fun s q => s.outOfRange q) s.forgetHost else s
    put s false false false
  else if s.commitOk r.base r.size (r.ways = 0) r.skip then put s true false r.lock
  else put s false true false

/-- DECODER_COMMIT.
Log entry 97 (DEDUCED). -/
def execDecoderCommit (base size : Word) (ways1 : Bool) (dpaSkip : Word) (lockOnCommit commit : Bool) (s : State) :
    Outcome :=
  if s.bclkStopped then .next s
  else .next (s.decoderWrite { s.cxl.hdmRegs with
    base := base, size := size, skip := dpaSkip, ways := if ways1 then 0 else 1, lock := lockOnCommit, commit := commit })

/-- MSIX_UNMASK: a vector's mask bit is cleared, and a pending message is sent (03 R59); like every host BAR access it waits
while BCLK is stopped (17 R356). -/
def execMsixUnmask (vec : Fin 2048) (s : State) : Outcome :=
  let i := 2 * vec.val + 1
  let tab := cellSet s.cxl.msixTab i (cellGet s.cxl.msixTab i ||| 0x100000000)
  if s.bclkStopped then .next s else .next ({ s with cxl := { s.cxl with msixTab := tab } }).msixFlush

/-- LINK_LEVEL_RETRY: FEC has corrected a flit, or a flit is replayed; both counts hold at their maximum, and AER reports a
replay as a correctable error (15 R315). -/
def execLinkLevelRetry (link : LinkId) (fecCorrected : Bool) (s : State) : Outcome :=
  if !s.cxl.links[link].up then .next s
  else
    let r := s.cxl.lerr[link]
    let s := { s with cxl := { s.cxl with lerr := s.cxl.lerr.set link (errAdd r (!fecCorrected)) } }
    .next (if fecCorrected then s else s.aerCor link 0)

end Sys2Proof.Machine
end

