-- ==== Sys2Proof/Machine/Junction.lean ====
section
/-! DEFINITION. The junction (chapter 14): arrival, decision and end of a grant at a target port, priorities, lag
counters. -/

namespace Sys2Proof.Machine

/-- A junction's number: its cluster, or 4 for the root junction. -/
def junctionIx : Junction → Nat
  | .cluster c => c.val
  | .root => 4

/-- The port exists: 257 targets of a cluster junction, 31 of the root junction (14 R279). -/
def targetExists (j : Junction) (t : Nat) : Bool :=
  match j with
  | .cluster _ => decide (t < 257)
  | .root => decide (t < 31)

/-- The master exists (14 R279). -/
def masterExists (j : Junction) (m : Nat) : Bool :=
  match j with
  | .cluster _ => decide (m < 25)
  | .root => decide (m < 22)

/-- An idle target port. -/
def TPort.idle : TPort := { waiting := [], grant := none, layby := none }

/-- Target port `t` of a junction. -/
def State.tport (s : State) (j : Junction) (t : Nat) : TPort :=
  (alookup (junctionIx j * 512 + t) s.jnc.ports).getD .idle

/-- Replaces a target port; an idle one is not listed. -/
def State.setTport (s : State) (j : Junction) (t : Nat) (p : TPort) : State :=
  let k := junctionIx j * 512 + t
  { s with jnc := { s.jnc with ports := if p = .idle then adel k s.jnc.ports else aset k p s.jnc.ports } }

/-- Lay-bys are on in the junction (14 R285).
Log entry 86 (DEDUCED). -/
def State.laybyOn (s : State) (j : Junction) : Bool :=
  match j with
  | .cluster _ => s.jnc.cfg.getLsbD 1
  | .root => s.jnc.cfg.getLsbD 0

/-- PRI of a master at a target (14 R283). -/
def State.pri (s : State) (j : Junction) (m t : Nat) : Nat :=
  let w := match j with
    | .cluster c => cellGet s.jnc.cpri ((c.val * 25 + m) * 33 + t / 8)
    | .root => cellGet s.jnc.rpri (m * 4 + t / 8)
  bits w.toNat (4 * (t % 8) + 2) (4 * (t % 8))

/-- DQOS or IQOS of a core. -/
def State.coreQos (s : State) (n : Nat) (fetch : Bool) : BitVec 4 :=
  match fin? 36 n with
  | some n => s.cores[n].sqos.extractLsb' (if fetch then 4 else 0) 4
  | none => 0

/-- The QOS of an access of station `unit` of a chain: its descriptor's in the running launch, else that of the drain that it
still has (14 R288); none where the chain has no such access. -/
def State.chainQos (s : State) (c : ChainId) (unit : Nat) : Option (BitVec 4) :=
  let h := s.chains[c]
  let drain := (h.drains.flatMap (·.writes)).findSome? fun w => if w.stream = unit then some w.qos else none
  match h.run with
  | none => drain
  | some r =>
    match r.launch.rows.find? fun p => p.1.code = unit with
    | none => drain
    | some (q, ws) =>
      if q.kind = .dec then some (dQos (decSource r.launch q ws)) else some (q.qos (descOf r.launch.sregs q))

/-- The request of another device that stands in the receive buffer of TGL port `p` with a TID. -/
def State.inbound (s : State) (p : PortId) (tag : Nat) : Option Msg :=
  s.tgl[p].rx.findSome? fun x => match x.body with
    | .routed opc m => if isRequest opc && m.tid.toNat = tag then some m else none
    | .mgt _ => none

/-- The message that a request from another device at a root master port is. -/
def State.inboundAt (s : State) (j : Junction) (r : JReq) : Option Msg :=
  match j, fin? 8 (r.master - 4) with
  | .root, some p => if r.master < 4 then none else s.inbound p r.tag
  | _, _ => none

/-- QOS of a request at its entry (14 R288): the registers' for core and host masters, the descriptor's for a chain's, the header's
for one of another device; else what the request carries. -/
def State.qosAt (s : State) (j : Junction) (r : JReq) : BitVec 4 :=
  match j with
  | .cluster c =>
    if 8 ≤ r.master && r.master < 16 then s.coreQos (8 * c.val + r.master - 8) false
    else if 16 ≤ r.master && r.master < 24 then s.coreQos (8 * c.val + r.master - 16) true
    else match fin? 32 (8 * c.val + r.master) with
      | some k => if r.master < 8 then (s.chainQos k r.unit).getD r.qos else r.qos
      | none => r.qos
  | .root =>
    if r.master = 12 then s.jnc.hqos.extractLsb' 0 4
    else if r.master = 13 then s.jnc.hqos.extractLsb' 4 4
    else if 14 ≤ r.master && r.master < 18 then s.coreQos (32 + r.master - 14) false
    else if 18 ≤ r.master && r.master < 22 then s.coreQos (32 + r.master - 18) true
    else ((s.inboundAt j r).map (·.qos)).getD r.qos

/-- The class of a request for target `t` at its entry (14 R289, R290): every CSR access and a core's request travel in the control
class, a chain's in the data class; a host request is CXL.mem only by the HDM link's port, and says there which it is; what comes by a
link, an uplink or a downlink carries its own.
Log entry 86 (DEDUCED). -/
def State.classAt (s : State) (j : Junction) (t : Nat) (r : JReq) : Bool :=
  match j with
  | .cluster _ => if r.master < 8 then false else if r.master < 24 then true else r.control
  | .root =>
    if 14 ≤ r.master || t = 30 then true
    else if 12 ≤ r.master then r.control || !((s.hdm.map portOf).any fun p => p = r.master - 12)
    else ((s.inboundAt j r).map (·.control)).getD r.control

/-- A request that comes by an uplink or a downlink keeps the QOS and the class of its source (14 R288). -/
def State.atEntry (s : State) (j : Junction) (t : Nat) (r : JReq) : JReq :=
  let onward := match j with
    | .cluster _ => decide (r.master = 24)
    | .root => decide (r.master < 4)
  match (if onward then s.jnc.hops.find? fun h => h.master = r.master && h.tag = r.tag else none) with
  | some h => { r with qos := h.qos, control := h.control, unit := h.unit, trail := h.trail }
  | none => { r with qos := s.qosAt j r, control := s.classAt j t r, trail := [] }

/-! ## What a master holds before it issues (14 R290, R291) -/

/-- A target port's requests: its grant and those that wait. -/
def TPort.requests (p : TPort) : List JReq := p.grant.toList ++ p.waiting.map (·.req)

/-- The requests of master `m` of a junction that no target has accepted, each with the target port at that junction: those that
wait or pass there, and those on their way beyond it.
Log entry 86 (DEDUCED). -/
def State.unaccepted (s : State) (j : Junction) (m : Nat) : List (Nat × JReq) :=
  let beyond := fun (r : JReq) => (r.trail.filter fun x => x.1 = junctionIx j && x.2.1 = m).map fun x => (x.2.2, r)
  s.jnc.ports.flatMap (fun p => p.2.requests.flatMap fun r =>
      (if p.1 / 512 = junctionIx j && r.master = m then [(p.1 % 512, r)] else []) ++ beyond r)
    ++ s.jnc.hops.flatMap beyond

/-- The request answers with data: a read or an atomic. -/
def hasData (r : JReq) : Bool :=
  match r.kind with
  | .write _ => false
  | _ => true

/-- Slots of the response to a request of another node, in its VC (16 R324). -/
def jreqSlots (r : JReq) : Nat :=
  match r.kind with
  | .read n => (if r.control then 1 else 0) + (n + 63) / 64
  | .write _ => 1
  | .atomic _ => 2

/-- Slots that responses already bound for the VC of a TGL port will take: those that wait at the port, and those to the
requests that came by it and are at the home agent.
Log entry 108 (DESIGN CHOICE). -/
def State.answersDue (s : State) (p : PortId) (v : Nat) : Nat :=
  ((s.tgl[p].hold.filter fun x => vcOf x = v).map slotsOf).foldl (· + ·) 0
    + ((s.xl.atHome.filter fun h => h.port = p && vcOf (h.opc ||| 0x20, h.msg) = v).map (·.slots)).foldl (· + ·) 0

/-- A master holds space for the request's whole response (14 R291): a stream a buffer of the pool, a core's data port a place within
the limits of 09 R191, a TGL port the credits of its link. Whether a host link holds its response credit is a free value.
Log entry 108 (DESIGN CHOICE). -/
def State.holdsAnswer (s : State) (j : Junction) (r : JReq) : Bool :=
  let mine := (s.unaccepted j r.master).map (·.2)
  let core := if hasData r then decide ((mine.filter hasData).length < 4) else decide ((mine.filter (!hasData ·)).length < 8)
  match j with
  | .cluster c =>
    if r.master < 8 then
      match fin? 32 (8 * c.val + r.master), fin? 4 r.unit with
      | some k, some i =>
        !hasData r || decide ((mine.filter fun q => hasData q && q.unit = r.unit).length < 8 * s.chains[k].held[(⟨i.val, by omega⟩ : Fin 6)])
      | _, _ => true
    else if r.master < 16 then core else true
  | .root =>
    match fin? 8 (r.master - 4) with
    | some p =>
      r.master < 4 ||
        (let v := if r.control then 3 else 1
        let due := s.answersDue p v + ((mine.filter fun q => q.control == r.control).map jreqSlots).foldl (· + ·) 0
        decide (due + jreqSlots r ≤ s.tgl[p].vcs[vcFin v].credit))
    | none =>
      if r.master < 14 then Config.hostCredit s.free else if r.master < 18 then core else true

/-- The core beside a master port of a junction, or the core of its chain (14 R279). -/
def portCore (j : Junction) (m : Nat) : Option CoreId :=
  match j with
  | .cluster c => if m < 24 then fin? 36 (8 * c.val + m % 8) else none
  | .root => if 14 ≤ m && m < 22 then fin? 36 (32 + (m - 14) % 4) else none

/-- A master may issue: its core and chain are not gated (17 R367), and it holds space for the response.
Log entry 108 (DESIGN CHOICE). -/
def State.mayIssue (s : State) (j : Junction) (r : JReq) : Bool :=
  (match portCore j r.master with
  | some n => !s.pwr.gated.getLsbD n.val
  | none => true) && s.holdsAnswer j r

/-- A control-class request of the same master to another target port of the junction has not been accepted by its target
(14 R290).
Log entry 86 (DEDUCED). -/
def State.controlElsewhere (s : State) (j : Junction) (t : Nat) (r : JReq) : Bool :=
  r.control && (s.unaccepted j r.master).any fun x => x.2.control && x.1 ≠ t

/-- The target port has a toll left for a request of its class: each class has its own, how many the manual does not give
(14 R290, R291).
Log entry 108 (DESIGN CHOICE). -/
def TPort.roomFor (p : TPort) (control : Bool) : Bool :=
  decide ((p.waiting.filter fun w => w.req.control == control).length < Config.portTolls control + 1)

/-- Inserts by master number; requests of one master keep their order (14 R283). -/
def byMaster (r : JReq) : List JReq → List JReq
  | [] => [r]
  | x :: t => if r.master < x.master then r :: x :: t else x :: byMaster r t

/-- Requests that find a toll of their class at the port, in order; the others wait at their master ports.
Log entry 108 (DESIGN CHOICE). -/
def TPort.takeIn (p : TPort) : List JReq → List JReq
  | [] => []
  | r :: rs =>
    if p.roomFor r.control then r :: ({ p with waiting := p.waiting ++ [{ req := r, lost := 0 }] } : TPort).takeIn rs else p.takeIn rs

/-- REQUEST_ARRIVAL: requests that arrive at one instant.  One that must wait at its master port does not arrive.
Log entry 86 (DEDUCED). -/
def State.arrive (s : State) (j : Junction) (t : Nat) (rs : List JReq) : State :=
  if !targetExists j t then s
  else
    let rs := (rs.map (s.atEntry j t)).filter fun r => masterExists j r.master && s.mayIssue j r && !s.controlElsewhere j t r
    let p := s.tport j t
    let rs := p.takeIn (rs.foldl (fun l r => byMaster r l) [])
    let s := { s with jnc := { s.jnc with hops := s.jnc.hops.filter fun h => !rs.any fun r => h.master = r.master && h.tag = r.tag } }
    let wait := fun (l : List JReq) => p.waiting ++ l.map fun r => ({ req := r, lost := 0 } : Waiting)
    match rs with
    | [] => s
    | r :: rest =>
      let mine := fun (x : JReq) => decide (p.layby = some x.master)
      if s.laybyOn j && rs.all mine then
        if p.grant.isNone && p.waiting.isEmpty then s.setTport j t { p with grant := some r, waiting := wait rest }
        else s.setTport j t { p with waiting := wait rs }
      else s.setTport j t { p with layby := none, waiting := wait rs }

/-- The request has lost AGE_LIMIT decisions (14 R284). -/
def State.aged (s : State) (w : Waiting) : Bool :=
  let lim := (s.jnc.cfg.extractLsb' 8 8).toNat
  decide (lim ≠ 0) && decide (lim ≤ w.lost)

/-- The key of a request (14 R283). -/
def State.key (s : State) (j : Junction) (t : Nat) (w : Waiting) : Nat :=
  s.pri j w.req.master t * 16 + w.req.qos.toNat

/-- Index of the first element with the greatest key. -/
def argMax {α : Type} (f : α → Nat) : List α → Nat → Nat × Nat → Nat
  | [], _, best => best.1
  | x :: t, i, best => argMax f t (i + 1) (if best.2 < f x then (i, f x) else best)

/-- The waiting requests that a decision chooses among, with their places: the oldest of each master in each class, since a
master's requests to a port are delivered in the order issued (14 R289, R290). -/
def heads (ws : List Waiting) : List (Waiting × Nat) :=
  ws.zipIdx.filter fun p =>
    !(ws.take p.2).any fun v => v.req.master = p.1.req.master && v.req.control == p.1.req.control

/-- The place of the waiting request that a decision grants: the oldest aged one, else the greatest key, the oldest of equals
(14 R283, R284). -/
def State.winner (s : State) (j : Junction) (t : Nat) (ws : List Waiting) : Nat :=
  match (heads ws).find? fun p => s.aged p.1 with
  | some p => p.2
  | none =>
    let ps := heads ws
    match ps with
    | [] => 0
    | p :: rest => ((ps.map (·.2))[argMax (fun x => s.key j t x.1) rest 1 (0, s.key j t p.1)]?).getD 0

/-- JUNCTION_DECISION. -/
def execJunctionDecision (j : Junction) (t : Nat) (s : State) : Outcome :=
  let p := s.tport j t
  if p.grant.isSome || s.clocksOff then .next s
  else
    let i := s.winner j t p.waiting
    match p.waiting[i]? with
    | none => .next s
    | some w =>
      .next (s.setTport j t
        { grant := some w.req
          layby := none
          waiting := (removeAt i p.waiting).map fun x => { x with lost := x.lost + 1 } })

/-- The request as it goes on to the next junction, if the port is an uplink or a downlink (14 R279): its master there. -/
def onward (j : Junction) (t : Nat) (r : JReq) : List JReq :=
  let trail := r.trail ++ [(junctionIx j, r.master, t)]
  match j with
  | .cluster c => if t = 256 then [{ r with master := c.val, trail := trail }] else []
  | .root => if 26 ≤ t && t < 30 then [{ r with master := 24, trail := trail }] else []

/-- Root target ports with a transfer ready, in the order of their turns. -/
def State.readyPorts (s : State) : List Nat :=
  ((upto 31).map fun k => (s.jnc.turn + k) % 31).filter fun t => (s.tport .root t).grant.isSome

/-- Another root port's transfer comes first, because the root junction is at its capacity (14 R281).
Log entry 106 (DESIGN CHOICE). -/
def State.notTurn (s : State) (j : Junction) (t : Nat) : Bool :=
  match j with
  | .cluster _ => false
  | .root => decide (s.readyPorts.head? ≠ some t) && Config.rootBusy s.free

/-- A target port after its grant has passed: a lay-by goes on, and passes what waits of its master without a decision; else the
port parks on the master if nothing waits (14 R285).
Log entry 86 (DEDUCED). -/
def TPort.passed (p : TPort) (on : Bool) (r : JReq) : TPort :=
  match (if on then p.layby else none), p.waiting with
  | some m, w :: ws => { grant := some w.req, layby := some m, waiting := ws }
  | some m, [] => { grant := none, layby := some m, waiting := [] }
  | none, ws => { grant := none, layby := if ws.isEmpty && on then some r.master else none, waiting := ws }

/-- The grant of a port has passed. -/
def State.passGrant (s : State) (j : Junction) (t : Nat) (r : JReq) : State :=
  let s := s.setTport j t ((s.tport j t).passed (s.laybyOn j) r)
  { s with jnc := { s.jnc with
    hops := s.jnc.hops ++ onward j t r
    turn := match j with
      | .cluster _ => s.jnc.turn
      | .root => (t + 1) % 31 } }

/-- GRANT_END: the last piece of the grant passes, once the port's turn has come. -/
def execGrantEnd (j : Junction) (t : Nat) (s : State) : Outcome :=
  match (s.tport j t).grant with
  | none => .next s
  | some r => if s.clocksOff then .next s else if s.notTurn j t then .next s.tick else .next (s.passGrant j t r)

/-- REQUEST_ARRIVAL. -/
def execRequestArrival (j : Junction) (t : Nat) (rs : List JReq) (s : State) : Outcome :=
  if s.clocksOff then .next s
  else
    let s' := s.arrive j t rs
    .next (if rs.any fun r => j = .root && 12 ≤ r.master && r.master < 14 then s'.tick else s')

/-! ## Priorities (14 R286, R287) -/

/-- The bits of a priority word that are not reserved.
Log entry 89 (DEDUCED). -/
def priMask (j : Junction) (w : Nat) : Half :=
  match j with
  | .cluster _ => if w = 32 then 0x7 else 0x77777777
  | .root => if w = 3 then 0x07777777 else 0x77777777

/-- The priority word exists.
Log entry 89 (DEDUCED). -/
def priExists (j : Junction) (m w : Nat) : Bool :=
  match j with
  | .cluster _ => decide (m < 25) && decide (w < 33)
  | .root => decide (m < 22) && decide (w < 4)

/-- A priority word. -/
def State.priWord (s : State) (j : Junction) (m w : Nat) : Half :=
  match j with
  | .cluster c => cellGet s.jnc.cpri ((c.val * 25 + m) * 33 + w)
  | .root => cellGet s.jnc.rpri (m * 4 + w)

/-- Releases the lay-bys of the eight targets of word `w`. -/
def State.releaseLaybys (s : State) (j : Junction) (w : Nat) : State :=
  (upto 8).foldl (fun s i =>
    let p := s.tport j (8 * w + i)
    if p.layby.isNone then s else s.setTport j (8 * w + i) { p with layby := none }) s

/-- A write of a priority word: its priorities, and the lay-bys of its eight targets. -/
def State.setPri (s : State) (j : Junction) (m w : Nat) (v : Half) : State :=
  let x := v &&& priMask j w
  let s := match j with
    | .cluster c => { s with jnc := { s.jnc with cpri := cellSet s.jnc.cpri ((c.val * 25 + m) * 33 + w) x } }
    | .root => { s with jnc := { s.jnc with rpri := cellSet s.jnc.rpri (m * 4 + w) x } }
  s.releaseLaybys j w

end Sys2Proof.Machine
end

