-- ==== Sys2Proof/Machine/Power.lean ====
section
/-! DEFINITION. Clocks (17 R352 to R357), the power governor (R360 to R362), heat (R364 to R366) and power gating (R367,
R368). -/

namespace Sys2Proof.Machine

/-! ## Switches and losses (17 R355, R356) -/

/-- A controller leaves the self-refresh of a switch; what its ranks indicate is a free value. -/
def State.switchExit (s : State) (n : CtrlId) : State :=
  if s.ddr[n].state = 3 then (s.srExit n (Config.freeBool s.free)).tick else s

/-- Every port that may train begins to train. -/
def State.trainAll (s : State) : State := (List.finRange 8).foldl (fun s p => s.startTraining p) s

/-- After a reset that ended without CLKIN, the links may train once no loop coasts (19 R411).
Log entry 127 (DEDUCED). -/
def State.warm (s : State) : State :=
  if s.chip.cold && (List.finRange 6).all (fun k => !s.plls[k].coast) then
    ({ s with chip := { s.chip with cold := false } }).trainAll
  else s

/-- CLOCK_SWITCH_END: the dead time is over; `present` says whether the loop's source is there.
Log entry 150 (DEDUCED). -/
def execClockSwitchEnd (k : PllId) (present : Bool) (s : State) : Outcome :=
  if !s.plls[k].switching then .next s
  else
    let gone := !present || s.sourceGone k
    let held := s.plls[k].held
    let s := s.modPll k fun p => { p with
      switching := false, relock := false, held := []
      coast := p.coast && !p.relock, lock := p.lock || p.relock }
    let s := if gone then s.pllCoast k else s
    let s := (ctrlsOf k).foldl (fun s n => s.switchExit n) s
    .next (s.pllHeld k held).flushLate.homeSettle.warm

/-- DOWNR of a link that goes down for a reason its register has no code for: a free one of its codes.
Log entry 127 (DEDUCED). -/
def State.tglDropped (s : State) (p : PortId) : State :=
  if s.tgl[p].up then (s.tglDown p (BitVec.ofNat 4 (Config.freeNat s.free % 7))).tick else s

/-- CLKIN is lost: every SerDes loop stops and every link goes down.
Log entry 150 (DEDUCED). -/
def State.clkinLost (s : State) : State :=
  let s := { s with chip := { s.chip with clkin := false } }
  let s := (List.finRange 6).foldl (fun s l => s.linkDown l false) s
  (List.finRange 8).foldl (fun s p => s.tglDropped p) s

/-- PLL_LOSS: a source stops or leaves its tolerance: CLKIN where `clkin` says so, else the source of the loop, which is
CLKIN for REF = 0; a device that a thermal trip holds in reset has no clock (R365).  The loop coasts if that was its source; a switch in progress judges its source at its end.
Log entry 150 (DEDUCED). -/
def execPllLoss (source : SourceLoss) (s : State) : Outcome :=
  let k := source.loop
  let ref := s.plls[k].ref
  let s' := if source.clkin || !ref then s.clkinLost else s
  .next (if s.clocksOff then s else if s.plls[k].switching || (source.clkin && ref) then s' else s'.pllCoast k)

/-- CLKIN_RETURN: the links may train again; a coasting loop stays so until it is written. -/
def execClkinReturn (s : State) : Outcome :=
  if s.chip.clkin then .next s else .next ({ s with chip := { s.chip with clkin := true } }).trainAll

/-! ## CLK_GATE (17 R357) -/

/-- A write of CLK_GATE: the links of a block that stops go down, a TGL port that restarts trains, and a write of the flash
that waited is made. -/
def State.clkGateWrite (s : State) (v : Half) : State :=
  let was := s.chip.clkGate
  let now := v &&& 0x1FFFFFFF
  let off := fun (i : Nat) => was.getLsbD i && !now.getLsbD i
  let on := fun (i : Nat) => !was.getLsbD i && now.getLsbD i
  let s := { s with chip := { s.chip with clkGate := now } }
  let s := ((List.finRange 8).filter fun p => off (16 + p.val)).foldl (fun s p => s.tglDropped p) s
  let s := ((List.finRange 8).filter fun p => on (16 + p.val)).foldl (fun s p => s.startTraining p) s
  (((List.finRange 6).filter fun l => off (24 + portOf l)).foldl (fun s l => s.linkDown l false) s).homeSettle.storeOff

/-! ## The governor (17 R360 to R362) -/

/-- A number held within two bounds. -/
def clamp (lo hi v : Nat) : Nat := max lo (min hi v)

/-- PPT_W, PEAK_W, VMAX_MV and VMIN_MV in force. -/
def Pwr.ppt (p : Pwr) : Nat := clamp 350 700 (bits p.cfg.toNat 9 0)
def Pwr.peak (p : Pwr) : Nat := clamp p.ppt 900 p.peakW.toNat
def Pwr.vmax (p : Pwr) : Nat := clamp 700 900 (bits p.cfg.toNat 31 22)
def Pwr.vmin (p : Pwr) : Nat := min p.vmax (clamp 700 900 (bits p.cfg.toNat 21 12))

/-- A write of PWR_CFG, each field clamped to its range.
Log entry 151 (DEDUCED). -/
def Pwr.writeCfg (p : Pwr) (v : Half) : Pwr :=
  let f := fun (hi lo min max : Nat) => clamp min max (bits v.toNat hi lo)
  { p with cfg := BitVec.ofNat 32 (f 31 22 700 900 <<< 22 + f 21 12 700 900 <<< 12 + f 9 0 350 700) }

/-- A write of PWR_BURST.
Log entry 151 (DEDUCED). -/
def Pwr.writeBurst (p : Pwr) (v : Half) : Pwr := { p with peakW := BitVec.ofNat 10 (clamp p.ppt 900 (bits v.toNat 25 16)) }

/-- Capacity of the burst credit: 5 s in units of one period. -/
def Pwr.burstCap (p : Pwr) : Nat := (p.peak - p.ppt) * 50000
/-- Capacity of the current credit. -/
def currentCap : Nat := 120 * 50000

/-- A credit after a period: it loses what `v` is above `lim`, gains what it is below. -/
def creditStep (c cap lim v : Nat) : Nat := min cap (c + (lim - v) - (v - lim))

/-- The VCORE that is requested: the boot voltage until the governor runs (17 R361); the governor adds 15 mV while the
calibration set is absent.
Log entry 152 (DESIGN CHOICE). -/
def State.vcoreRequest (s : State) : Nat :=
  if s.chip.calPresent || !s.pwr.on then s.pwr.vcoreMv else min s.pwr.vmax (s.pwr.vcoreMv + 15)

/-- PWR_STAT.
Log entry 152 (DESIGN CHOICE). -/
def State.pwrStat (s : State) : Word :=
  let p := s.pwr
  BitVec.ofNat 64 ((s.vcoreRequest % 1024) <<< 38 + (p.imeanA % 2048) <<< 27 + (p.pkgW % 2048) <<< 16 + b2n p.on <<< 6
    + b2n p.avsErr <<< 5 + b2n p.floor <<< 4 + b2n p.limPeak <<< 3 + b2n p.limBurst <<< 2 + b2n p.limCurrent <<< 1
    + b2n p.limThermal)

/-- A temperature in units of 0.125 °C. -/
def tempOf (t : BitVec 16) : Int := toSigned 16 t.toNat

/-- THM_CFG fields. -/
def Thm.alert (t : Thm) : Int := (bits t.cfg.toNat 23 16 * 8 : Nat)
def Thm.tlimit (t : Thm) : Int := (bits t.cfg.toNat 7 0 * 8 : Nat)

/-- The governor's period on power alone: P in W, I in A, and whether Tmax is above TLIMIT.
Log entry 151 (DEDUCED). -/
def Pwr.period (g : Pwr) (p i : Nat) (hot : Bool) : Pwr :=
  let burst := creditStep g.burst g.burstCap g.ppt p
  let current := creditStep g.current currentCap 800 i
  let peak := decide (g.peak < p)
  let overPpt := decide (g.ppt < p) && burst = 0
  let amps := decide (920 < i) || (decide (800 < i) && current = 0)
  let active := peak || overPpt || amps || hot
  let v := g.vcoreMv
  { g with
    burst := burst, current := current, pkgW := p, imeanA := i
    limPeak := peak, limBurst := overPpt, limCurrent := amps, limThermal := hot
    floor := active && decide (v ≤ g.vmin)
    vcoreMv := if active then (if g.vmin < v then max g.vmin (v - 5) else v)
      else if 100 * p < 98 * g.ppt && v < g.vmax then min g.vmax (v + 5) else v }

/-- Raises a source when a flag has gone from 0 to 1. -/
def State.raiseRise (s : State) (was now : Bool) (src : Nat) : State := if !was && now then s.raise src else s

/-- The voltage write of a period. The use of the calibration's load line is not in the spec: with a set present the value
on the bus is a free value.
Log entry 151 (DEDUCED). -/
def State.avsWrite (s : State) : State :=
  if s.chip.calPresent then (s.emit (.avsVolts (Config.freeNat s.free))).tick else s.emit (.avsVolts s.vcoreRequest)

/-- GOVERNOR_PERIOD: `p` W and `i` A are what the regulator and the die tell; `avsOk` says whether AVSBus answered.
Log entry 11 (DESIGN CHOICE). -/
def execGovernorPeriod (p i : Nat) (avsOk : Bool) (s : State) : Outcome :=
  let g := s.pwr
  if !g.on then .next s
  else if !avsOk then .next ({ s with pwr := { g with avsErr := true } }.raiseRise g.avsErr true 0x2AC)
  else
    let n := g.period p i (decide (s.thm.tlimit < tempOf s.thm.max))
    let s := { s with pwr := n }
    let s := s.raiseRise g.limBurst n.limBurst 0x2A8
    let s := s.raiseRise g.limCurrent n.limCurrent 0x2A9
    let s := s.raiseRise g.limThermal n.limThermal 0x2AA
    let s := s.raiseRise g.floor n.floor 0x2AB
    .next (if n.vcoreMv = g.vcoreMv then s else s.avsWrite)

/-- The governor starts, with both credits full. -/
def State.governorStart (s : State) : State :=
  { s with pwr := { s.pwr with on := true, burst := s.pwr.burstCap, current := currentCap } }

/-! ## Heat (17 R364, R366) -/

/-- The hottest of some readings. -/
def hottest (l : List (BitVec 16)) : BitVec 16 :=
  match l with
  | [] => 0
  | a :: t => t.foldl (fun m x => if tempOf m < tempOf x then x else m) a

/-- 1,000 hours, in seconds. -/
def wearStep : Nat := 3600000

/-- THM_WEARTOT. -/
def State.wearTotal (s : State) : Word := s.thm.stored + s.thm.wear

/-- THM_WEAR_TICK: a second in which Tmax is above 125 °C. -/
def execThmWearTick (s : State) : Outcome :=
  if tempOf s.thm.max ≤ 1000 then .next s
  else
    let s := { s with thm := { s.thm with wear := s.thm.wear + 1 } }
    .next (if s.wearTotal.toNat % wearStep = 0 then s.raise 0x2B1 else s)

/-- WEAR_STORE. -/
def execWearStore (s : State) : Outcome := if s.firmware && s.flashOn then .next s.storeWear else .next s

/-! ## Power gating (17 R367, R368) -/

/-- The bits of PWR_GATE. -/
def gateMask : Word := 0xEFFFFFFFF

/-- A write of PWR_GATE. -/
def State.pwrGateWrite (s : State) (v : Word) : State := { s with pwr := { s.pwr with gate := v &&& gateMask } }

/-- The junction and the master ports there of a unit: the core's data and instruction port, and its chain (14 R279). -/
def unitPorts (n : CoreId) : Junction × List Nat :=
  match fin? 4 (n.val / 8) with
  | some c => (.cluster c, [n.val % 8, 8 + n.val % 8, 16 + n.val % 8])
  | none => (.root, [14 + n.val % 4, 18 + n.val % 4])

/-- No request of a unit waits or passes at a junction.
Log entry 153 (DEDUCED). -/
def State.portsQuiet (s : State) (n : CoreId) : Bool :=
  (unitPorts n).2.all fun m => (s.unaccepted (unitPorts n).1 m).isEmpty

/-- CORE_GATE_DONE: the core has stopped and its chain is idle; its ports have no request at a junction, and none follows while
it is gated (17 R367).
Log entry 153 (DEDUCED). -/
def execCoreGateDone (n : CoreId) (s : State) : Outcome :=
  let bit : Word := (1 : Word) <<< n.val
  if s.pwr.gate.getLsbD n.val && !s.pwr.gated.getLsbD n.val && s.cores[n].stat = 0 && s.ofChain n true Chain.idle
      && s.portsQuiet n then
    .next { s with pwr := { s.pwr with gated := s.pwr.gated ||| bit } }
  else .next s

/-- A field of a record that no event has written: its free value, or 0 in place of a reserved code (00 R10). -/
def codeOr0 (ok : Nat → Bool) (v : Nat) : Nat := if ok v then v else 0

/-- CORE_LCHK, CORE_EXS and CORE_TLB_SREC with free values in their fields (08 R170, R178, 12 R254). -/
def freeLchk (v : Word) : Half :=
  BitVec.ofNat 32 (codeOr0 (· < 19) (bits v.toNat 20 16) <<< 16 + bits v.toNat 15 12 <<< 12 + codeOr0 (· < 14) (bits v.toNat 7 0))
def freeExs (v : Word) : Word :=
  BitVec.ofNat 64 (bits v.toNat 55 49 <<< 49 + codeOr0 (· < 9) (bits v.toNat 48 45) <<< 45
    + codeOr0 (· < 19) (bits v.toNat 44 40) <<< 40 + bits v.toNat 39 0)
def freeSrec (v : Word) : Half :=
  BitVec.ofNat 32 (codeOr0 (· < 6) (bits v.toNat 11 8) <<< 8 + codeOr0 (· < 3) (bits v.toNat 7 6) <<< 6
    + codeOr0 (· < 9) (bits v.toNat 3 0))

/-- A chain after its unit's wake (17 R368). The registers that the rule does not list hold free values.
Log entry 153 (DEDUCED). -/
def Chain.woken (h : Chain) (k : Nat) : Chain :=
  let w := fun (i : Nat) => Config.freeWord (k + i)
  { Chain.reset with
    issued := h.issued
    tries := h.tries
    lchk := freeLchk (w 0)
    exs := freeExs (w 1), expos := w 2 &&& 0x1FFFFFFFFFF, exval0 := w 3, exval1 := w 4
    markCnt := (w 5).setWidth 32, srec := freeSrec (w 6) }

/-- CORE_WAKE_DONE: the unit returns with the state of R368, and WAKES advances.
Log entry 153 (DEDUCED). -/
def execCoreWakeDone (n : CoreId) (s : State) : Outcome :=
  if !s.pwr.gated.getLsbD n.val || s.pwr.gate.getLsbD n.val then .next s
  else
    let s := s.modCore n fun c => { Core.reset with wakes := c.wakes + 1, sqos := c.sqos, seq := c.seq }
    let s := { s with pwr := { s.pwr with gated := s.pwr.gated &&& ~~~((1 : Word) <<< n.val) } }
    match chainOf n with
    | some c => .next { s.modChain c (fun h => h.woken s.free) with free := s.free + 7 }
    | none => .next s

end Sys2Proof.Machine
end

