-- ==== Sys2Proof/Machine/Boot.lean ====
section
/-! DEFINITION. Resets (18 R371 to R373, 17 R365, R369), the way from reset to running firmware (R374, R375, R381, R386, R389,
R394, R395), recovery (R384), and the sideband: SMBus (19 R405) and JTAG (R397, R406). -/

namespace Sys2Proof.Machine

/-! ## Resets (18 R371 to R373) -/

/-- The effects of R373: every register at its reset value.  What the model records of the outside, the flash, the fuses,
PWR_WAKE and the pins of the standby domain stay; a write of the flash that is in progress is cut short (R396).
Log entry 154 (DEDUCED). -/
def State.resetTo (s : State) (phase : Phase) (cause : BitVec 4) : State :=
  let s := s.cutWrites
  { State.reset with
    pending := s.pending
    free := s.free
    out := s.out
    flash := s.flash
    chip := { Chip.reset with
      phase := phase, serial := s.chip.serial, keyHash := s.chip.keyHash
      dbgFuse := s.chip.dbgFuse, dbgLock := s.chip.dbgLock
      cause := cause, wake := s.chip.wake
      thermtripN := s.chip.thermtripN, pwrreqN := s.chip.pwrreqN
      clkin := s.chip.clkin, straps := s.chip.straps, jtag := s.chip.jtag, bsr := s.chip.bsr }
    scr := { Scr.reset with rpr := s.scr.rpr } }

/-- Sets flags of PWR_WAKE. -/
def State.setWake (s : State) (v : BitVec 3) : State := { s with chip := { s.chip with wake := s.chip.wake ||| v } }

/-- POWER_ON_RESET: VSTBY rises on a device without power. -/
def execPowerOnReset (s : State) : Outcome :=
  match s.chip.phase with
  | .off => .next (s.resetTo .reset 0)
  | _ => .next s

/-- RAILS_RESTORED: VSTBY has stayed up; THERMTRIP_N is released. -/
def execRailsRestored (s : State) : Outcome :=
  match s.chip.phase with
  | .off => .next s
  | _ =>
    let s := s.resetTo .reset 1
    .next { s with chip := { s.chip with thermtripN := true } }

/-- RESET_N. -/
def execResetN (s : State) : Outcome :=
  match s.chip.phase with
  | .off => .next s
  | .tripped => .next s
  | _ => .next (s.resetTo .reset 2)

/-- UNDERVOLTAGE of one of the six monitored rails.
Log entry 92 (DESIGN CHOICE). -/
def execUndervoltage (_rail : Fin 6) (s : State) : Outcome :=
  match s.chip.phase with
  | .off => .next s
  | .tripped => .next s
  | _ => .next ((s.resetTo .reset 3).setWake 4)

/-- FIRMWARE_RESET: one is due. -/
def execFirmwareReset (s : State) : Outcome := if s.chip.resetDue then .next (s.resetTo .reset 4) else .next s

/-- The temperature at which a comparator trips the device, in 0.125 °C: 155 °C, or 147 °C under CAL_DEFAULTS (17 R365). -/
def State.tripLimit (s : State) : Int := if s.chip.calStat then 1176 else 1240

/-- The device trips: it is held in reset until its rails are removed (17 R365).
Log entry 154 (DEDUCED). -/
def State.trip (s : State) : State :=
  match s.chip.phase with
  | .off => s
  | .tripped => s
  | _ =>
    let s := (s.resetTo .tripped s.chip.cause).setWake 2
    { s with chip := { s.chip with thermtripN := false } }

/-- THERMAL_TRIP: the comparator at a sensor sees a temperature.
Log entry 92 (DESIGN CHOICE). -/
def execThermalTrip (seen : TripSeen) (s : State) : Outcome :=
  if s.tripLimit ≤ tempOf seen.temp then .next s.trip else .next s

/-- SENSOR_UPDATE: the raw readings, to which CAL_TOFS is added unless DEFAULTS = 1.
A reading at the limit of its comparator trips the device.
Log entry 153 (DEDUCED). -/
def execSensorUpdate (temps : List (BitVec 16)) (s : State) : Outcome :=
  let ofs := fun (n : Nat) => if s.chip.calStat then 0 else cellGet s.chip.tofs n
  let t := s.thm.t.mapIdx fun n old => match temps[n]? with
    | some x => x + ofs n
    | none => old
  let m := hottest t.toList
  if s.clocksOff then .next s
  else if s.tripLimit ≤ tempOf m then .next s.trip
  else
  let was := decide (s.thm.alert ≤ tempOf s.thm.max)
  let now := decide (s.thm.alert ≤ tempOf m)
  .next ({ s with thm := { s.thm with t := t, max := m } }.raiseRise was now 0x2B0)

/-- WAKE_N: a falling edge (17 R369, 19 R411). -/
def execWakeN (s : State) : Outcome :=
  match s.chip.phase with
  | .off => .next s
  | _ =>
    let s := s.setWake 1
    .next { s with chip := { s.chip with pwrreqN := false } }

/-- A W1C write of PWR_WAKE. -/
def State.pwrWakeWrite (s : State) (v : Half) : State :=
  let c := v.extractLsb' 0 3
  { s with chip := { s.chip with wake := s.chip.wake &&& ~~~c, pwrreqN := s.chip.pwrreqN || v.getLsbD 0 } }

/-- VSTBY_LOST: no power is left. -/
def execVstbyLost (s : State) : Outcome :=
  let s := s.resetTo .off 0
  .next { s with chip := { s.chip with wake := 0, thermtripN := true, pwrreqN := true } }

/-! ## The boot ROM (18 R374, R375, R381, R384) -/

/-- SET_BOOT. -/
def Chip.setBoot (c : Chip) : Word :=
  BitVec.ofNat 64 (b2n c.dbgLock <<< 31 + c.cause.toNat <<< 20 + c.result.toNat <<< 12 + b2n c.slot <<< 8)

/-- The slot that the ROM boots and RESULT; none is recovery. -/
def State.romChoice (s : State) : Option (Bool × BitVec 2) :=
  let (active, valid) := s.flash.bootChoice
  let good := fun (slot : Bool) => valid &&& slotBit slot ≠ 0 && imageValid s.chip.keyHash (s.flash.slotOf slot)
  if good active then some (active, 0) else if good (!active) then some (!active, 1) else none

/-- A vector of free values.
Log entry 155 (DESIGN CHOICE). -/
def freeVec (n k : Nat) : Vector Word n := Vector.ofFn fun i => Config.freeWord (k + i.val)

/-- CAUSE with a free value in its fields (11 R231).
Log entry 155 (DESIGN CHOICE). -/
def freeCause (v : Word) : Word :=
  BitVec.ofNat 64 (bits v.toNat 15 8 * 256 + codeOr0 (fun c => decide (c < 0x13) && decide (c ≠ 0x0F)) (bits v.toNat 7 0))

/-- MC0 after the ROM's code, which is not in the spec, has run on it: what its registers and the ROM's stack hold are free
values.
Log entry 155 (DESIGN CHOICE). -/
def Core.romLeft (c : Core) (k : Nat) : Core :=
  { c with
    threads := c.threads.mapIdx fun t h => { h with
      pc := Config.freeWord (k + 64 * t + 51) &&& 0x7FFE
      a := freeVec 16 (k + 64 * t), d := freeVec 32 (k + 64 * t + 16)
      cause := freeCause (Config.freeWord (k + 64 * t + 48))
      era := Config.freeWord (k + 64 * t + 49) &&& ~~~(1 : Word)
      est := Config.freeWord (k + 64 * t + 50) &&& 7 }
    x := Vector.ofFn fun i => BitVec.ofNat 128 (Config.freeNat (k + 256 + i.val))
    s := Vector.ofFn fun i => BitVec.ofNat 256 (Config.freeNat (k + 264 + i.val))
    evb := Config.freeWord (k + 272) &&& ~~~(1 : Word)
    slim := Config.freeWord (k + 273) &&& ~~~(7 : Word)
    cycle := Config.freeWord (k + 274)
    dmem := writeCells c.dmem 0x3F000 (bytesOf 4096 (Config.freeNat (k + 275))) }

/-- Free values that `romLeft` takes. -/
def romFrees : Nat := 276

/-- A management core's memories take the image's sections, each word with good check bits (09 R188). -/
def State.loadImage (s : State) (slot : Bool) : State :=
  let area := s.flash.slotOf slot
  let im := flashSlice area 0 4096
  (upto 4).foldl (fun s k =>
    match fin? 36 (32 + k) with
    | none => s
    | some n => s.modCore n fun c =>
      let i := flashSlice area (sectionAt im false k) (imemSection im k)
      let d := flashSlice area (sectionAt im true k) (dmemSection im k)
      let old := fun (w : Nat) => if w < 0x4000 then decide (i.length < 8 * w + 8) else decide (d.length < 8 * (w - 0x4000) + 8)
      { c with imem := writeCells c.imem 0 i, dmem := writeCells c.dmem 0 d
               badWords := c.badWords.filter old, soft := c.soft.filter old }) s

/-- Local offset of the recovery mailbox. -/
def mailbox : Nat := scratchBase + 0x17FFFF00

/-- The console shows a state, while its UART has a clock (17 R357). -/
def State.console (s : State) (v : Nat) : State := if s.chip.clkGate.getLsbD 27 then s.emit (.uart v) else s

/-- The ROM, on MC0, reports a state of the recovery mailbox, and the console shows it.
Log entries 157 (DEDUCED), 158 (DEDUCED). -/
def State.mailState (s : State) (v : Nat) : State := (s.scratchWrite 64 mailbox (bytesOf 8 v)).console v

/-- The ROM starts barrel threads 1 to 3 of MC0: it writes CORE_THR_PC, each with EN and an address in the ROM that is a
free value, then sets STATUS.BARREL (18 R374 step 5, 09 R197).
Log entry 155 (DESIGN CHOICE). -/
def Core.romThreads (c : Core) (k : Nat) : Core :=
  { c with thrPc := Vector.ofFn fun i => Config.freeWord (k + i.val) &&& 0x7FFE ||| 1 }.setBarrel true

/-- The ROM runs: its threads start, a slot is chosen, verified and copied, or recovery begins.
Log entry 7 (DESIGN CHOICE). -/
def State.runRom (s : State) : State :=
  let s := { s.modCore 32 (fun c => (c.romThreads s.free).romLeft (s.free + 3)) with free := s.free + 3 + romFrees }
  match s.romChoice with
  | some (slot, result) =>
    let entry := imageEntry (flashSlice (s.flash.slotOf slot) 0 4096)
    let s := { s with chip := { s.chip with phase := .rom, slot := slot, result := result } }
    (s.loadImage slot).modCore 32 fun c => { c with entry := BitVec.ofNat 64 (2 * entry) }
  | none => { s with chip := { s.chip with phase := .recovery, result := 2 } }.mailState 0x10

/-- RESET_END: straps and fuses are read, memories zeroed, MC0 starts the ROM. Without CLKIN every loop coasts
(19 R411).
Log entry 7 (DESIGN CHOICE). -/
def execResetEnd (bif0 bif1 a0 a1 clkin : Bool) (s : State) : Outcome :=
  match s.chip.phase with
  | .reset =>
    let straps : BitVec 4 := BitVec.ofNat 4 (b2n bif0 + 2 * b2n bif1 + 4 * b2n a0 + 8 * b2n a1)
    let s := { s with
      chip := { s.chip with straps := straps, dbgLock := s.chip.dbgFuse, clkin := clkin, cold := !clkin }
      cxl := { s.cxl with bifd := #v[bif0, bif1], hdmLink := if bif0 then 2 else 0 } }
    let s := if clkin then s else (List.finRange 6).foldl (fun s k => s.pllCoast k) s
    .next (s.coreStart 32).runRom.trainAll
  | _ => .next s

/-! ## Firmware's start (18 R374 steps 8 to 11) -/

/-- The calibration set is applied, if it is present (18 R392).
Log entry 137 (DEDUCED). -/
def State.bootCal (s : State) : State :=
  match calEntries s.chip.serial s.flash.cal with
  | none => s
  | some es =>
    let val := fun (k : Nat) => (settingOf es k).getD []
    let tofs := (upto 64).foldl (fun (t : Regs 16) n => cellSet t n (BitVec.ofNat 16 (fieldAt (val 1) (2 * n) 2))) []
    let trim := (upto 256).foldl (fun (t : Regs 8) r => cellSet t r (BitVec.ofNat 8 (fieldAt (val 2) r 1))) []
    { s with chip := { s.chip with tofs := tofs, trim := trim, calStat := false, calPresent := true } }

/-- The generation that firmware runs on, PROVISIONAL and SETTINGS_UNREADABLE (18 R389). -/
def State.settingsChoice (s : State) : List Byte × Bool × Bool :=
  let parse := fun (g : Generation) => (parseSettings (imageSchema s.image) g.record).isSome
  match s.flash.newest, s.flash.older with
  | none, _ => ([], false, false)
  | some g, o =>
    if parse g then (g.record, false, false)
    else match o with
      | some h => if parse h then (h.record, false, true) else ([], true, true)
      | none => ([], true, true)

/-- One entry of a record is applied to its registers (18 R386). -/
def State.applySetting (s : State) (e : Nat × List Byte) : State :=
  let v := e.2
  let u8 := fun (i : Nat) => fieldAt v i 1
  let u16 := fun (i : Nat) => fieldAt v i 2
  let field := fun (old : Half) (lo w x : Nat) =>
    BitVec.ofNat 32 (old.toNat - (bits old.toNat (lo + w - 1) lo) <<< lo + (x % 2 ^ w) <<< lo)
  match e.1 with
  | 0x0001 => { s with cxl := { s.cxl with hdmLink := BitVec.ofNat 3 (u8 0) } }
  | 0x0002 => { s with pwr := (s.pwr.writeCfg (field s.pwr.cfg 0 10 (u16 0))).writeBurst (BitVec.ofNat 32 (u16 2 <<< 16)) }
  | 0x0003 => { s with pwr := s.pwr.writeCfg (field (field s.pwr.cfg 12 10 (u16 0)) 22 10 (u16 2)) }
  | 0x0004 => { s with thm := { s.thm with cfg := BitVec.ofNat 32 (u8 0 <<< 16 + u8 1) } }
  | 0x0005 =>
    let put := fun (s : State) (k : PllId) (m p : Nat) => s.pllWrite k (BitVec.ofNat 32 (b2n s.plls[k].ref <<< 24 + m <<< 16 + p))
    put (put s 0 (u8 0) (u8 1)) 1 (u8 2) (u8 3)
  | 0x0006 =>
    let s := { s with scr := { s.scr with scrub := BitVec.ofNat 32 (u16 0 <<< 8 + u8 3 % 2) } }
    (List.finRange 16).foldl (fun s n => s.modDdr n fun d => { d with scrub := BitVec.ofNat 32 (u8 2 <<< 8 + u8 3 / 2 % 2) }) s
  | 0x0007 => (List.finRange 16).foldl (fun s n => s.modDdr n fun d => { d with srCfg := BitVec.ofNat 32 (u8 2 % 2 <<< 16 + u16 0) }) s
  | 0x0008 => { s with jnc := { s.jnc with
      cfg := BitVec.ofNat 32 (u8 0 <<< 8 + u8 1 % 4), rBudget := BitVec.ofNat 32 (u16 2 % 4096) } }
  | 0x0009 => { s with xl := { s.xl with timeout := BitVec.ofNat 32 (fieldAt v 0 4) } }
  | 0x000A => (List.finRange 8).foldl (fun s p => s.tglCtl p ((u8 0).testBit p.val)) s
  | _ => s

/-- The settings in use are applied. -/
def State.bootSettings (s : State) : State :=
  let (bs, provisional, unreadable) := s.settingsChoice
  let s := { s with chip := { s.chip with settings := bs, provisional := provisional, unreadable := unreadable } }
  ((parseSettings (imageSchema s.image) bs).getD []).foldl (fun s e => s.applySetting e) s

/-- MC1 to MC3 start. Their entries are firmware's, and free values.
Log entry 155 (DESIGN CHOICE). -/
def State.startOthers (s : State) : State :=
  ([33, 34, 35] : List CoreId).foldl (fun s n =>
    ((s.modCore n fun c => { c with entry := Config.freeWord s.free &&& ~~~(1 : Word) }).tick).coreCtl n 1) s

/-- The routes of 11 R242. -/
def State.bootRoutes (s : State) : State :=
  let route := fun (core line : Nat) => BitVec.ofNat 32 (1 <<< 31 + core <<< 24 + line <<< 18)
  let s := (upto 32).foldl (fun (s : State) i => s.setRoute i (route 32 1)) s
  let s := ((upto 32).map (· + 0x20) ++ [0x41, 0x42, 0x43]).foldl (fun (s : State) i => s.setRoute i (route 32 2)) s
  s.setRoute 0x40 (route 33 2)

/-- The stored waymark is taken (18 R394).
Log entry 125 (DEDUCED). -/
def State.bootFabric (s : State) : State :=
  match s.flash.fabricCopy with
  | none => s
  | some (_, c) =>
    match parseFabric c.record with
    | none => s
    | some f =>
      let s := { s with xl := { s.xl with
        node := c.node, epoch := c.epoch, digest := f.digest, rtBank := false
        record := c.record, atomics := f.atomics, remoteCsr := f.remote } }
      s.computeTables f 0

/-- The wear total is read (18 R395). -/
def State.bootWear (s : State) : State :=
  match s.flash.wearCopy with
  | some (_, w) => { s with thm := { s.thm with stored := w.seconds } }
  | none => s

/-- What firmware does from its entry until it serves the ACI.
Log entry 156 (DESIGN CHOICE). -/
def State.firmwareBoot (s : State) : State :=
  let s := { s with chip := { s.chip with phase := .firmware } }
  s.bootCal.bootSettings.governorStart.startOthers.bootRoutes.bootWear.bootFabric

/-- A full-width write of SET_BOOT: HANDOVER by MC0 ends the ROM (18 R375). -/
def State.setBootWrite (s : State) (src : Src) (v : Half) : State :=
  if v.getLsbD 0 && src = .core 32 && s.chip.phase == .rom then
    let s := { s with chip := { s.chip with romOverlay := false } }
    let s := s.modCore 32 fun c => c.setBarrel false
    ((s.coreCtl 32 0).coreCtl 32 1).firmwareBoot
  else s

/-- A word of the recovery mailbox as the ROM reads it: 0 where it is poisoned.
Log entry 157 (DEDUCED). -/
def State.mailWord (s : State) (o : Nat) : State × Nat :=
  let (s, a) := s.scratchRead 64 (mailbox + o) 8
  (s, if a.poison then 0 else natOf a.bytes)

/-- The image that the ROM reads from scratch; poisoned data are none.
Log entry 157 (DEDUCED). -/
def State.mailImage (s : State) (n : Nat) : State × List Byte :=
  if 0x200000 < n then (s, [])
  else
    let (s, a) := s.scratchRead 64 scratchBase n
    (s, if a.poison then [] else a.bytes)

/-- RECOVERY_GO: the host has written STATE = 1.
Log entries 157 (DEDUCED), 158 (DEDUCED). -/
def execRecoveryGo (flashOk : Bool) (s : State) : Outcome :=
  match s.chip.phase with
  | .recovery =>
    if s.chip.resetDue || !s.flashOn then .next s
    else
      let (s, go) := s.mailWord 0
      if go ≠ 1 then .next s
      else
        let (s, n) := (s.console 1).mailWord 8
        let (s, im) := s.mailImage n
        if n < 4096 + imageLength im || 0x200000 < n || !imageValid s.chip.keyHash im then .next (s.mailState 3)
        else if !flashOk then
          let s := { s with flash := s.flash.setSlot false (bytesOf n (Config.freeNat s.free)) }.tick
          .next (s.mailState 4)
        else
          let f := s.flash.setSlot false im
          let s := { s with flash := f.bootWrite false (f.bootChoice.2 ||| 1) }.mailState 2
          .next { s with chip := { s.chip with resetDue := true } }
  | _ => .next s

/-- A full-width write of SET_FUSE (18 R397).
Log entry 3 (DESIGN CHOICE). -/
def State.setFuse (s : State) (key : Half) : State :=
  if key = 0x0DB610C4 then { s with chip := { s.chip with dbgFuse := true } } else s

/-! ## Time (18 R394) -/

/-- Time passes with no command waiting: memory's part of it, and firmware's writes of the flash end.
Log entries 1 (DESIGN CHOICE), 53 (DESIGN CHOICE). -/
def State.idle (s : State) : State := s.memIdle.endStore.storeOff

/-! ## SMBus (19 R405) -/

/-- A shift of CRC-8 by one bit: polynomial 0x07 (PRESUMED from SMBus 3.1).
Log entry 41 (PRESUMED). -/
def crc8Byte (c : Nat) (b : Byte) : Nat :=
  (upto 8).foldl (fun c _ => if c.testBit 7 then (2 * c % 256) ^^^ 7 else 2 * c % 256) (c ^^^ b.toNat)

/-- The device's SMBus address. -/
def Chip.smbAddr (c : Chip) : Nat := 0x58 + 2 * b2n (c.straps.getLsbD 3) + b2n (c.straps.getLsbD 2)

/-- A block read: its byte count, its data and its PEC.
Log entry 41 (PRESUMED). -/
def State.blockRead (s : State) (code : Nat) (data : List Byte) : State :=
  let head : List Byte := [BitVec.ofNat 8 (2 * s.chip.smbAddr), BitVec.ofNat 8 code, BitVec.ofNat 8 (2 * s.chip.smbAddr + 1)]
  let body : List Byte := BitVec.ofNat 8 data.length :: data
  s.emit (.smbus (body ++ [BitVec.ofNat 8 ((head ++ body).foldl crc8Byte 0)]))

/-- The SMBus target answers: it is out of reset, and its clock runs. -/
def State.smbOn (s : State) : Bool :=
  (s.chip.phase == .rom || s.chip.phase == .recovery || s.chip.phase == .firmware) && s.chip.clkGate.getLsbD 28

/-- Firmware serves the SMBus codes that it serves. -/
def State.smbFw (s : State) : Bool := s.smbOn && s.firmware

/-- A block read that is always served. -/
def State.smbAlways (s : State) (code : Nat) (data : List Byte) : State :=
  if s.smbOn then s.blockRead code data else s.emit .smbusNack

/-- A block read that firmware serves. -/
def State.smbServed (s : State) (code : Nat) (data : List Byte) : State :=
  if s.smbFw then s.blockRead code data else s.emit .smbusNack

/-- ACI_STATUS. -/
def Aci.status (a : Aci) : Word := BitVec.ofNat 64 (a.aqGen.toNat <<< 20 + b2n a.fatal <<< 1 + b2n a.ready)

/-- IDENTIFY byte 49 (03 R53). -/
def Chip.byte49 (c : Chip) : Nat := b2n c.provisional + 2 * b2n c.unreadable + 4 * b2n (!c.calPresent)

/-- ID. -/
def execId (s : State) : Outcome :=
  .next (s.smbAlways 0x01 (bytesOf 4 idDevice ++ bytesOf 4 idPkg ++ bytesOf 8 s.chip.serial.toNat))

/-- TEMP. -/
def execTemp (s : State) : Outcome := .next (s.smbAlways 0x02 (bytesOf 2 s.thm.max.toNat))

/-- POWER. -/
def execPower (s : State) : Outcome := .next (s.smbServed 0x03 (bytesOf 8 s.pwrStat.toNat))

/-- STATE. -/
def execState (s : State) : Outcome :=
  .next (s.smbServed 0x04 (bytesOf 4 s.aci.status.toNat ++ bytesOf 4 s.chip.setBoot.toNat ++ bytesOf 1 s.chip.byte49))

/-- WEAR.
Log entry 159 (DEDUCED). -/
def execWear (s : State) : Outcome := .next (s.smbServed 0x05 (bytesOf 8 s.wearTotal.toNat))

/-- The PEC of a byte write.
Log entry 41 (PRESUMED). -/
def pecOf (w : SmbWrite) : Byte :=
  BitVec.ofNat 8 ([BitVec.ofNat 8 (2 * w.addr.toNat), w.code, w.data].foldl crc8Byte 0)

/-- PREPARE_OFF: a byte write of 0xA5 ends the fetching of commands, and the wear total is stored.  A write to another address, of
another code or with a PEC that does not match is not acknowledged, and has no effect.
Log entry 159 (DEDUCED). -/
def execPrepareOff (w : SmbWrite) (s : State) : Outcome :=
  if !s.smbFw || w.addr.toNat ≠ s.chip.smbAddr || w.code ≠ 0x10 || w.pec.any (· ≠ pecOf w) then .next (s.emit .smbusNack)
  else if w.data = 0xA5 then .next { s with chip := { s.chip with preparing := true, offReady := false } }.storeOff
  else .next s

/-- OFF_READY.
Log entry 159 (DEDUCED). -/
def execOffReady (s : State) : Outcome := .next (s.smbServed 0x11 (bytesOf 1 (b2n s.chip.offReady)))

/-! ## Sideband levels and JTAG (18 R397, 19 R403, R406) -/

/-- SMB_ALERT_N: low while THM_MAX is at or above ALERT, or while AVS_ERR = 1 (19 R403). -/
def State.smbAlertN (s : State) : Bool := !(decide (s.thm.alert ≤ tempOf s.thm.max) || s.pwr.avsErr)

/-- The JTAG IDCODE.
Log entry 42 (PRESUMED). -/
def idCode : Half := 0x2D7072E7

/-- Cells of the boundary-scan register whose level the board sets: inputs and bidirectional signals.
Log entry 43 (DESIGN CHOICE). -/
def scanIns : BitVec 26 := 0x1F78CFF
/-- Cells of outputs whose level this model does not hold: the clock and select of SPI, UART_TX and TDO.
Log entry 43 (DESIGN CHOICE). -/
def scanFree : BitVec 26 := 0x2086000

/-- The levels of PWRREQ_N, THERMTRIP_N and SMB_ALERT_N, in their cells.
Log entry 43 (DESIGN CHOICE). -/
def State.scanOuts (s : State) : BitVec 26 :=
  BitVec.ofNat 26 (b2n s.chip.pwrreqN <<< 8 + b2n s.chip.thermtripN <<< 9 + b2n s.smbAlertN <<< 12)

/-- What the boundary-scan register captures while the board drives `pins`.
Log entry 43 (DESIGN CHOICE). -/
def State.capture (s : State) (pins : BitVec 26) : BitVec 26 :=
  pins &&& scanIns ||| s.scanOuts ||| BitVec.ofNat 26 (Config.freeNat s.free) &&& scanFree

/-- A scan: the captured levels leave, and what was shifted in stands in the register. -/
def State.scan (s : State) (pins load : BitVec 26) : State :=
  ({ s with chip := { s.chip with bsr := load } }.emit (.jtagScan (s.capture pins))).tick

/-- JTAG_INSTRUCTION: boundary scan and IDCODE; under DBG_LOCK the debug access path acts as BYPASS.  EXTEST drives the signals with
what the register holds.
Log entry 43 (DESIGN CHOICE). -/
def execJtagInstruction (j : JtagInstr) (s : State) : Outcome :=
  let take := fun (j : JtagInstr) => { s with chip := { s.chip with jtag := j } }
  match s.chip.phase, j with
  | .off, _ => .next s
  | _, .debug _ => if s.chip.dbgLock then .next (take .bypass) else .refused .debugUnit
  | _, .idcode => .next ((take .idcode).emit (.jtagCode idCode))
  | _, .bypass => .next (take .bypass)
  | _, .samplePreload pins load => .next ((take j).scan pins load)
  | _, .extest pins load => .next (((take j).emit (.pinsDriven s.chip.bsr)).scan pins load)

end Sys2Proof.Machine
end

