-- ==== Sys2Proof/Machine/ChainExec.lean ====
section
/-! DEFINITION. The meanings of the commands of launches and strips (chapters 04, 05, 08). -/

namespace Sys2Proof.Machine

/-- LAUNCH_BEGIN (04 R62 to R64): a queued launch begins once no launch runs. -/
def execLaunchBegin (c : ChainId) (s : State) : Outcome := .next (s.launchBegin c)
/-- RESERVATION_GRANT (04 R64): the cluster's oldest waiting launch gets its whole reservation, if it is free. -/
def execReservationGrant (k : ClusterId) (s : State) : Outcome := .next (s.reservationGrant k)
/-- STRIP_TRANSLATE (12 R253): `dir` gives RLE directory words that lie outside the device. -/
def execStripTranslate (c : ChainId) (dir : List Word) (s : State) : Outcome := .next (s.stripTranslate c dir)
/-- STRIP_ISSUE (04 R68). -/
def execStripIssue (c : ChainId) (s : State) : Outcome := .next (s.stripIssue c)
/-- BUFFER_GRANT (05 R106). -/
def execBufferGrant (k : ClusterId) (s : State) : Outcome := .next (s.bufferGrant k)
/-- STREAM_LINE_FILL (05 R94): `r` is what a place outside the device answers. -/
def execStreamLineFill (c : ChainId) (strip : Fin 2) (stream : Nat) (va : Word) (r : Reply) (s : State) : Outcome :=
  .next (s.lineFill c strip stream va r)
/-- STATION_STEP (04 R76). -/
def execStationStep (c : ChainId) (strip : Fin 2) (parcel : Fin 16) (s : State) : Outcome :=
  .next (s.stationStep c strip parcel)
/-- STRIP_ABORT (08 R175). -/
def execStripAbort (c : ChainId) (s : State) : Outcome := .next (s.stripAbort c)
/-- STREAM_ACCESS_FAILURE (05 R99). -/
def execStreamAccessFailure (c : ChainId) (strip : Fin 2) (s : State) : Outcome := .next (s.accessFailure c strip)
/-- STRIP_COMMIT (04 R67). -/
def execStripCommit (c : ChainId) (s : State) : Outcome := .next (s.stripCommit c)
/-- DRAIN_ACCEPT (04 R70): write `i` of the oldest drain. -/
def execDrainAccept (c : ChainId) (i : Nat) (r : Reply) (s : State) : Outcome := .next (s.drainAccept c i r)
/-- CHAIN_STOPPED (04 R85). -/
def execChainStopped (c : ChainId) (s : State) : Outcome := .next (s.chainStopped c)
/-- STATION_ACCESS_RESPONSE (07 R151): the answer to flight `i` of a station. -/
def execStationAccessResponse (c : ChainId) (strip : Fin 2) (parcel : Fin 16) (i : Nat) (r : Reply) (s : State) : Outcome :=
  .next (s.stationAnswer c strip parcel i r false)

end Sys2Proof.Machine
end

