-- ==== Sys2Proof/Machine/HostCfg.lean ====
section
/-! DEFINITION. What a host finds in a function's configuration space (15 R299, R301 to R303, R315) and in the component
registers of BAR0 (R304, R315). The contents are the spec's; the places of the capabilities, and the layouts that the spec
takes from PCI Express and CXL, are PRESUMED, log entry 143. -/

namespace Sys2Proof.Machine

/-- Bytes of a 32-bit register under byte enables. -/
def merge4 (be : Nat) (old new : Half) : Half :=
  BitVec.ofNat 32 (natOf (mergeBytes be 0 (bytesOf 4 old.toNat) (bytesOf 4 new.toNat)))

/-- A function that is up, in D0, with Memory Space Enable claims accesses to its BARs; in D3hot it answers configuration
requests only (15 R299). -/
def Link.answersBars (k : Link) : Bool := k.up && !k.cfg.d3hot && k.cfg.command.getLsbD 1

/-! ## Reading the configuration space -/

/-- The header of a DVSEC, and of any extended capability: dword `i` of it. -/
def extHead (id version next : Nat) : Nat := next <<< 20 + version <<< 16 + id

/-- The three dwords that begin a DVSEC, by offset; `hi` stands in the upper half of the third. -/
def dvsecHead (next vendor rev len id hi : Nat) (o : Nat) : Nat :=
  if o = 0 then extHead 0x23 1 next else if o = 4 then len <<< 20 + rev <<< 16 + vendor else hi <<< 16 + id

/-- Error registers of AER and of CXL RAS: uncorrectable status, mask, severity, correctable status, mask. -/
def ErrRegs.word (r : ErrRegs) (i : Nat) : Half :=
  match i with
  | 0 => r.unc
  | 1 => r.uncMask
  | 2 => r.uncSev
  | 3 => r.cor
  | 4 => r.corMask
  | _ => 0

/-- A write of them: the status words are cleared by ones. -/
def ErrRegs.write (r : ErrRegs) (i : Nat) (v : Half) : ErrRegs :=
  match i with
  | 0 => { r with unc := r.unc &&& ~~~v }
  | 1 => { r with uncMask := v }
  | 2 => { r with uncSev := v }
  | 3 => { r with cor := r.cor &&& ~~~v }
  | 4 => { r with corMask := v }
  | _ => r

/-- A BAR's low bits: a 64-bit memory BAR, and BAR2 prefetchable (02 R26). -/
def barFlags (i : Nat) : Nat := if i = 1 then 0xC else 4

/-- log2 of a BAR's size (02 R26). -/
def barBits (i : Nat) : Nat := match i with
  | 0 => 21
  | 1 => 29
  | _ => 28

/-- Which BAR, and which half of it, a dword of the header holds. -/
def barAt (o : Nat) : Option (Fin 3 × Bool) :=
  if 0x10 ≤ o && o < 0x28 then (fin? 3 ((o - 0x10) / 8)).map fun i => (i, o % 8 = 4) else none

/-- Memory_Info_Valid and Memory_Active (15 R303). -/
def State.memInfo (s : State) : Nat :=
  let st := bits s.mem.init.toNat 2 0
  b2n (3 ≤ st && st ≤ 5) + 2 * b2n (st = 3)

/-- Range 1 of the CXL Devices DVSEC: D in units of 256 MiB. -/
def State.rangeSize (s : State) : Nat := s.mem.d / 2 ^ 28 * 2 ^ 28

/-- The link is the message link. -/
def State.isMessageLink (s : State) (l : LinkId) : Bool :=
  (([0, 2, 3, 1, 4, 5] : List LinkId).find? fun i =>
    let k := s.cxl.links[i]
    k.up && k.msixEn && k.cfg.command.getLsbD 2 && !k.cfg.d3hot) = some l

/-- The DVSECs, from offset 0x160. -/
def State.dvsecRead (s : State) (l : LinkId) (o : Nat) : Nat :=
  let k := s.cxl.links[l]
  if o < 0x1A0 then
    let i := o - 0x160
    let cap := 3 + 4 * b2n k.memCap + 1 <<< 4
    if i < 0xC then dvsecHead 0x1A0 0x1E98 3 0x3C 0 cap i
    else match i with
      | 0x0C => b2n k.cacheEn + 2 + 4 * b2n k.memEn
      | 0x18 => s.rangeSize >>> 32
      | 0x1C => s.rangeSize % 2 ^ 32 + s.memInfo
      | _ => 0
  else if o < 0x1C0 then
    let i := o - 0x1A0
    if i < 0xC then dvsecHead 0x1C0 0x1E98 2 0x20 7 7 i
    else match i with
      | 0x0C => b2n (k.cxl && k.cacheEn) + 2 + 4 * b2n (k.cxl && k.memCap) + (b2n k.cacheEn + 2 + 4 * b2n k.memEn) <<< 16
      | _ => 0
  else if o < 0x1E0 then
    let i := o - 0x1C0
    if i < 0xC then dvsecHead 0x1E0 0x1E98 0 0x1C 8 0 i
    else match i with
      | 0x0C => 0x00010000 + 1 <<< 8
      | 0x14 => 0x00100000 + 0xFF <<< 8
      | _ => 0
  else
    let i := o - 0x1E0
    if i < 0xC then dvsecHead 0x1F0 0x1F3C 0 0x10 1 (l.val + 8 * b2n k.memCap + 16 * b2n (s.isMessageLink l)) i
    else 0x00010002

/-- One dword of the configuration space of a link's function.
Log entry 143 (PRESUMED). -/
def State.cfgRead (s : State) (l : LinkId) (o : Nat) : Half :=
  let k := s.cxl.links[l]
  let g := k.cfg
  BitVec.ofNat 32 <|
  if !k.up then 0
  else match barAt o with
  | some (i, hi) =>
    let v := g.bars[i].toNat
    if hi then v >>> 32 else v % 2 ^ 32 + barFlags i.val
  | none =>
    if 0x160 ≤ o && o < 0x1F0 then s.dvsecRead l o
    else if 0x104 ≤ o && o < 0x118 then (g.aer.word ((o - 0x104) / 4)).toNat
    else match o with
    | 0x00 => 0xD7071F3C
    | 0x04 => 0x00100000 + g.command.toNat
    | 0x08 => 0x12000020
    | 0x2C => 0x00011F3C
    | 0x34 => 0x40
    -- Power management: version 3, D3hot kept without a reset
    | 0x40 => 0x00035001
    | 0x44 => 8 + (if g.d3hot then 3 else 0)
    -- MSI-X: 2,048 entries, its table and pending bits in BAR0
    | 0x50 => (0x7FF + b2n k.fnMask <<< 14 + b2n k.msixEn <<< 15) <<< 16 + 0x7011
    | 0x54 => 0x00020000
    | 0x58 => 0x00028000
    -- PCI Express: an endpoint with MPS up to 512 B; the link as it stands
    | 0x70 => 0x80020010
    | 0x74 => 0x8022
    | 0x78 => g.devCtl.toNat
    | 0x7C => 6 + 16 <<< 4
    | 0x80 => (k.speed.toNat + (2 <<< k.width.toNat) <<< 4) <<< 16
    -- Device Capabilities 2: 10-bit tags; Link Capabilities 2: 2.5 to 64 GT/s; Link Status 2: flit mode
    | 0x94 => 3 <<< 16
    | 0x9C => 0x7E
    | 0xA0 => b2n (5 ≤ k.speed.toNat) <<< 26
    | 0x100 => extHead 1 2 0x150
    | 0x150 => extHead 3 1 0x160
    | 0x154 => s.chip.serial.toNat % 2 ^ 32
    | 0x158 => s.chip.serial.toNat >>> 32
    -- DOE
    | 0x1F0 => extHead 0x2E 1 0x210
    | 0x1F8 => 2 * b2n g.doe.irq
    | 0x1FC => 4 * b2n g.doe.error + b2n (!g.doe.answer.isEmpty) <<< 31
    | 0x204 => (g.doe.answer.headD 0).toNat
    -- Device 3: 14-bit tags as completer and as requester
    | 0x210 => extHead 0x2F 1 0x220
    | 0x214 => 6
    | 0x218 => g.dev3.toNat
    -- IDE: one selective stream with one address block, keys by IDE_KM
    | 0x220 => extHead 0x30 1 0
    | 0x224 => 0x42
    | 0x22C => 1
    | 0x230 => g.stream[0].toNat
    | 0x234 => if g.keyed && g.stream[0].getLsbD 0 then 2 else 0
    | 0x238 => g.stream[1].toNat
    | 0x23C => g.stream[2].toNat
    | 0x240 => g.stream[3].toNat
    | 0x244 => g.stream[4].toNat
    | 0x248 => g.stream[5].toNat
    | _ => 0

/-! ## DOE (15 R298, R303, R314) -/

/-- The protocols that discovery lists: vendor and type. -/
def doeProtocols : List (Nat × Nat) := [(1, 0), (1, 1), (1, 2), (0x1E98, 2)]

/-- The words of a list of bytes, four to a word. -/
def halves : List Byte → List Half
  | a :: b :: c :: d :: t => BitVec.ofNat 32 (natOf [a, b, c, d]) :: halves t
  | _ => []

/-- A DSLBIS of CDAT for the device's memory: data type, base unit and entry. -/
def dslbis (kind unit entry : Nat) : List Byte :=
  bytesOf 4 (24 <<< 16 + 1) ++ bytesOf 4 (kind <<< 16) ++ bytesOf 8 unit ++ bytesOf 2 entry ++ bytesOf 6 0

/-- Device DDR's latency in ns at a speed code (14 R414).
Log entry 144 (DESIGN CHOICE). -/
def cdatLatency (speed : Nat) : Nat := if speed = 2 then 105 else Config.cdatLatency speed
/-- Device DDR's read rate in GB/s at a speed code (13 R275).
Log entry 144 (DESIGN CHOICE). -/
def cdatReadRate (speed : Nat) : Nat := [614, 717, 819, 1024, 1126].getD speed 0

/-- The structures of CDAT after its header: DSMAS over all of DDR, and DSLBIS for read and write latency and rate (15 R303).
Log entry 143 (PRESUMED). -/
def State.cdatEntries (s : State) : List (List Byte) :=
  let sp := bits s.mem.init.toNat 27 24
  [bytesOf 4 (24 <<< 16) ++ bytesOf 4 0 ++ bytesOf 8 0 ++ bytesOf 8 s.mem.d,
   dslbis 1 1000 (cdatLatency sp), dslbis 2 1000 (cdatLatency sp),
   dslbis 4 1000 (cdatReadRate sp), dslbis 5 1000 (Config.cdatWriteRate sp)]

/-- CDAT by its entry handles: the header, whose checksum makes the bytes of the table sum to 0, then the structures. -/
def State.cdat (s : State) : List (List Byte) :=
  let es := s.cdatEntries
  let n := 16 + (es.map List.length).foldl (· + ·) 0
  let sum := ((bytesOf 4 n ++ [1]) ++ es.flatten).foldl (fun a (b : Byte) => a + b.toNat) 0
  (bytesOf 4 n ++ [1, BitVec.ofNat 8 (256 - sum % 256)] ++ List.replicate 10 0) :: es

/-- The answer to a read of a CDAT entry: the next handle, then the entry. -/
def State.cdatRead (s : State) (body : List Half) : List Half :=
  let i := bits (body.headD 0).toNat 31 16
  let next := if i + 1 < s.cdat.length then i + 1 else 0xFFFF
  BitVec.ofNat 32 (next <<< 16) :: halves (s.cdat.getD i [])

/-- The answer to an object: DISCOVERY as PCI Express has it, CDAT by the figures of the manual, and of the others what their
own standards give, which the spec does not state; none for an object that no protocol takes.
Log entry 144 (DESIGN CHOICE). -/
def State.doeAnswer (s : State) (q : List Half) : Option (List Half) :=
  match q with
  | h :: n :: body =>
    let vendor := bits h.toNat 15 0
    let kind := bits h.toNat 23 16
    if n.toNat % 2 ^ 18 ≠ q.length then none
    else
      let wrap := fun (b : List Half) => some (BitVec.ofNat 32 (kind <<< 16 + vendor) :: BitVec.ofNat 32 (b.length + 2) :: b)
      match doeProtocols.findIdx? fun p => p = (vendor, kind) with
      | none => none
      | some 0 =>
        let i := (body.headD 0).toNat % 256
        let p := doeProtocols.getD i (0xFFFF, 0)
        wrap [BitVec.ofNat 32 (p.1 + p.2 <<< 16 + (if i + 1 < doeProtocols.length then i + 1 else 0) <<< 24)]
      | some 3 => wrap (s.cdatRead body)
      | some j => wrap (Config.doeAnswer j body)
  | _ => none

/-- The host has written GO: the object is answered, or DOE Error is set; a secured message of IDE_KM may complete the keys of
IDE (15 R314).
Log entries 100 (DEDUCED), 144 (DESIGN CHOICE). -/
def State.doeGo (s : State) (l : LinkId) : State :=
  let d := s.cxl.links[l].cfg.doe
  let secured := match d.request with
    | h :: _ => bits h.toNat 23 0 = 0x020001
    | [] => false
  let a := s.doeAnswer d.request
  s.modLink l fun k => { k with
    ide := k.ide || (k.cxl && a.isSome && secured && Config.ideKeyed d.request)
    skid := if !k.ide && k.cxl && a.isSome && secured && Config.ideKeyed d.request then Config.ideSkid d.request else k.skid
    cfg := { k.cfg with
      keyed := k.cfg.keyed || (a.isSome && secured && Config.streamKeyed d.request)
      doe := { d with request := [], answer := a.getD [], error := a.isNone } } }

/-! ## Writing the configuration space -/

/-- A write of the enables of the CXL Devices DVSEC: Cache_Enable, and Mem_Enable where the function is Mem_Capable. -/
def Link.cxlControl (k : Link) (v : Half) : Link :=
  { k with cacheEn := k.cxl && v.getLsbD 0, memEn := k.cxl && k.memCap && v.getLsbD 2 }

/-- A write of one dword, the enabled bytes of which `v` already holds merged.
Log entry 143 (PRESUMED). -/
def State.cfgPut (s : State) (l : LinkId) (o : Nat) (v : Half) : State :=
  let cfg := fun (g : LinkCfg → LinkCfg) => s.modLink l fun k => { k with cfg := g k.cfg }
  match barAt o with
  | some (i, hi) => cfg fun g =>
      let old := g.bars[i].toNat
      let new := if hi then v.toNat <<< 32 + old % 2 ^ 32 else old >>> 32 <<< 32 + v.toNat
      { g with bars := g.bars.set i (BitVec.ofNat 64 (new >>> barBits i.val <<< barBits i.val)) }
  | none =>
    if 0x104 ≤ o && o < 0x118 then cfg fun g => { g with aer := g.aer.write ((o - 0x104) / 4) v }
    else match o with
    | 0x04 => cfg fun g => { g with command := v.setWidth 16 &&& 0x0546 }
    | 0x44 => cfg fun g =>
        if bits v.toNat 1 0 = 0 then { g with d3hot := false } else if bits v.toNat 1 0 = 3 then { g with d3hot := true } else g
    | 0x50 => s.modLink l fun k => { k with msixEn := v.getLsbD 31, fnMask := v.getLsbD 30 }
    | 0x78 => cfg fun g => { g with devCtl := v.setWidth 16 &&& 0x7DFF }
    | 0x16C => s.modLink l fun k => k.cxlControl v
    | 0x1F8 =>
      if v.getLsbD 0 then cfg fun g => { g with doe := { irq := v.getLsbD 1, error := false, request := [], answer := [] } }
      else
        let s := cfg fun g => { g with doe := { g.doe with irq := v.getLsbD 1 } }
        if v.getLsbD 31 then s.doeGo l else s
    | 0x200 => cfg fun g => { g with doe := { g.doe with request := g.doe.request ++ [v] } }
    | 0x204 => cfg fun g => { g with doe := { g.doe with answer := g.doe.answer.drop 1 } }
    | 0x218 => cfg fun g => { g with dev3 := v.setWidth 16 &&& 4 }
    | 0x230 => cfg fun g => { g with stream := g.stream.set 0 v }
    | 0x238 => cfg fun g => { g with stream := g.stream.set 1 v }
    | 0x23C => cfg fun g => { g with stream := g.stream.set 2 v }
    | 0x240 => cfg fun g => { g with stream := g.stream.set 3 v }
    | 0x244 => cfg fun g => { g with stream := g.stream.set 4 v }
    | 0x248 => cfg fun g => { g with stream := g.stream.set 5 v }
    | _ => s

/-- A dword whose bits are cleared by ones takes only the enabled bytes; another keeps its disabled ones. -/
def State.cfgMerge (s : State) (l : LinkId) (o be : Nat) (v : Half) : Half :=
  let w1c := o = 0x104 || o = 0x110
  merge4 be (if w1c then 0 else s.cfgRead l o) v

/-- One dword of a configuration write with its byte enables. A change of the message link sends what waits for one (15
R302). -/
def State.cfgWrite (s : State) (l : LinkId) (o be : Nat) (v : Half) : State :=
  if be = 0 || !s.cxl.links[l].up then s else (s.cfgPut l o (s.cfgMerge l o be v)).msixFlush

/-- Two dwords of it, the lower first. -/
def State.cfgWrite64 (s : State) (l : LinkId) (off : Nat) (be : BitVec 8) (v : Word) : State :=
  (s.cfgWrite l off (be.toNat % 16) (v.setWidth 32)).cfgWrite l (off + 4) (be.toNat / 16) (v.extractLsb' 32 32)

/-- Two dwords of the configuration space. -/
def State.cfgRead64 (s : State) (l : LinkId) (off : Nat) : Word :=
  BitVec.ofNat 64 ((s.cfgRead l off).toNat + (s.cfgRead l (off + 4)).toNat <<< 32)

/-! ## The component registers (15 R304, R315) -/

/-- Place of the RAS capability and of the HDM decoder capability in the component registers. -/
def rasBase : Nat := 0x1100
def hdmBase : Nat := 0x1200

/-- The decoder's control register as it reads. -/
def Cxl.hdmControl (c : Cxl) : Nat :=
  let r := c.hdmRegs
  r.gran.toNat + r.ways.toNat <<< 4 + b2n r.lock <<< 8 + b2n r.commit <<< 9 + b2n c.decoder.committed <<< 10
    + b2n c.decoder.notCommitted <<< 11

/-- The state of CXL.cachemem IDE on the HDM link: 1 containment mode, 2 skid mode, 4 insecure. -/
def State.ideState (s : State) : Nat :=
  match (List.finRange 6).find? fun l => s.cxl.links[l].up && s.cxl.links[l].memCap with
  | some l => if !s.cxl.links[l].ide then 4 else if s.cxl.links[l].skid then 2 else 1
  | none => 4

/-- One dword of the component registers.
Log entries 101 (PRESUMED), 143 (PRESUMED). -/
def State.compRead (s : State) (o : Nat) : Half :=
  let r := s.cxl.hdmRegs
  BitVec.ofNat 32 <|
  if rasBase ≤ o && o < rasBase + 0x14 then (s.cxl.ras.word ((o - rasBase) / 4)).toNat
  else match o with
  | 0x1000 => 3 <<< 24 + 1 <<< 20 + 1 <<< 16 + 1
  | 0x1004 => 0x100 <<< 20 + 2 <<< 16 + 2
  | 0x1008 => 0x200 <<< 20 + 1 <<< 16 + 5
  | 0x100C => 0x300 <<< 20 + 1 <<< 16 + 0xB
  | 0x1204 => r.global.toNat
  | 0x1210 => r.base.toNat % 2 ^ 32
  | 0x1214 => r.base.toNat >>> 32
  | 0x1218 => r.size.toNat % 2 ^ 32
  | 0x121C => r.size.toNat >>> 32
  | 0x1220 => s.cxl.hdmControl
  | 0x1224 => r.skip.toNat % 2 ^ 32
  | 0x1228 => r.skip.toNat >>> 32
  -- IDE: capable, in skid and in containment mode; its state on the HDM link, received and sent
  | 0x1300 => 7
  | 0x1308 => 0x11 * s.ideState
  | _ => 0

/-- The decoder's registers with one dword written; bits 27:0 of the low halves read 0. -/
def HdmRegs.put (r : HdmRegs) (o : Nat) (v : Half) : HdmRegs :=
  let low := fun (w : Word) => w &&& 0xFFFFFFFF00000000 ||| (v &&& 0xF0000000).setWidth 64
  let high := fun (w : Word) => w &&& 0xFFFFFFFF ||| (v.setWidth 64) <<< 32
  match o with
  | 0x1204 => { r with global := v.setWidth 2 }
  | 0x1210 => { r with base := low r.base }
  | 0x1214 => { r with base := high r.base }
  | 0x1218 => { r with size := low r.size }
  | 0x121C => { r with size := high r.size }
  | 0x1220 => { r with gran := v.extractLsb' 0 4, ways := v.extractLsb' 4 4, lock := v.getLsbD 8, commit := v.getLsbD 9 }
  | 0x1224 => { r with skip := low r.skip }
  | 0x1228 => { r with skip := high r.skip }
  | _ => r

/-- The byte enables of `n` bytes from byte `i`. -/
def enables (be : BitVec 8) (i n : Nat) : Nat := be.toNat / 2 ^ i % 2 ^ n

/-- One dword of a write of the component registers, written whole: a write of the decoder's control acts; its other registers
hold while it is committed.
Log entries 97 (DEDUCED), 143 (PRESUMED). -/
def State.compWrite (s : State) (o : Nat) (v : Half) : State :=
  if rasBase ≤ o && o < rasBase + 0x14 then
    { s with cxl := { s.cxl with ras := s.cxl.ras.write ((o - rasBase) / 4) v } }
  else
    let r := s.cxl.hdmRegs.put o v
    if o = 0x1220 then s.decoderWrite r
    else if s.cxl.decoder.committed || s.cxl.decoder.locked then s
    else { s with cxl := { s.cxl with hdmRegs := r } }

/-- Two dwords of a write by the host's port `p`, the lower first; a narrow write of one is ignored (02 R33, R34). -/
def State.compWrite64 (s : State) (p : Fin 2) (off : Nat) (be : BitVec 8) (v : Word) : State :=
  let half := fun (s : State) (lo : Nat) =>
    let e := enables be lo 4
    if e = 0 then s
    else if e ≠ 15 then s.accError 0 (.host p) 1 (0x10000 + off) be.toNat
    else s.compWrite (off + lo) ((v >>> (8 * lo)).setWidth 32)
  half (half s 0) 4

/-- Two dwords of the component registers. -/
def State.compRead64 (s : State) (off : Nat) : Word :=
  BitVec.ofNat 64 ((s.compRead off).toNat + (s.compRead (off + 4)).toNat <<< 32)

end Sys2Proof.Machine
end

