-- ==== Sys2Proof/Machine/Csr.lean ====
section
/-! DEFINITION. The CSR map (02 R27) and register accesses of every width from every path (02 R26, R28 to R37), with the
commands that are one register write. -/

namespace Sys2Proof.Machine

/-! ## The map (02 R27) -/

/-- A block of the CSR space. -/
inductive Block where
  | id
  | acc
  | evt
  | aci
  | clk
  | pwr
  | thm
  | cal
  | set
  | jnc
  | scr
  | xl
  | ddr (n : CtrlId)
  | tgl (p : PortId)
  | cxl (p : Fin 2)
  | core (n : CoreId)
  deriving DecidableEq, Repr

/-- The block at a CSR offset, and the offset in it. -/
def blockOf (off : Nat) : Option (Block × Nat) :=
  let small := fun (base size : Nat) (b : Block) => if base ≤ off && off < base + size then some (b, off - base) else none
  let ddr := if 0x1000000 ≤ off then (fin? 16 ((off - 0x1000000) / 0x100000)).map fun n => (Block.ddr n, off % 0x100000) else none
  let tgl := if 0x2000000 ≤ off then (fin? 8 ((off - 0x2000000) / 0x100000)).map fun p => (Block.tgl p, off % 0x100000) else none
  let cxl := if 0x2800000 ≤ off then (fin? 2 ((off - 0x2800000) / 0x100000)).map fun p => (Block.cxl p, off % 0x100000) else none
  let core := if 0x4000000 ≤ off then (fin? 36 ((off - 0x4000000) / 0x100000)).map fun n => (Block.core n, off % 0x100000) else none
  small 0 0x1000 .id <|> small 0x1000 0x1000 .acc <|> small 0x10000 0x10000 .evt <|> small 0x100000 0x100000 .aci
    <|> small 0x200000 0x10000 .clk <|> small 0x210000 0x10000 .pwr <|> small 0x220000 0x10000 .thm
    <|> small 0x300000 0x10000 .cal <|> small 0x310000 0x10000 .set <|> small 0x400000 0x100000 .jnc
    <|> small 0x500000 0x100000 .scr <|> small 0x600000 0x100000 .xl <|> ddr <|> tgl <|> cxl <|> core

/-- CSR offset of a core instance. -/
def coreBase (n : CoreId) : Nat := 0x4000000 + n.val * 0x100000

/-- The DIAG_OPEN bit of a firmware-owned block (03 R54); none for a host-visible one. -/
def Block.diagBit : Block → Option Nat
  | .id => none
  | .acc => none
  | .aci => none
  | .evt => some 0
  | .clk => some 1
  | .pwr => some 2
  | .thm => some 3
  | .cal => some 4
  | .set => some 5
  | .jnc => some 6
  | .scr => some 7
  | .xl => some 8
  | .ddr _ => some 9
  | .tgl _ => some 10
  | .cxl _ => some 11
  | .core _ => some 12

/-- The block's clock is gated, or its unit power-gated (17 R357, R367).
Log entry 102 (DEDUCED). -/
def State.gatedBlock (s : State) : Block → Bool
  | .ddr n => !s.chip.clkGate.getLsbD n.val
  | .tgl p => !s.chip.clkGate.getLsbD (16 + p.val)
  | .cxl p => !s.chip.clkGate.getLsbD (24 + p.val)
  | .core n => s.pwr.gated.getLsbD n.val
  | _ => false

/-! ## Which registers there are -/

/-- Element of an array of registers that starts at `base`, if the offset names one of its `n`. -/
def elemAt (base stride n off : Nat) : Option Nat :=
  if base ≤ off && (off - base) % stride = 0 && (off - base) / stride < n then some ((off - base) / stride) else none

/-- The offset names an element. -/
def isElem (base stride n off : Nat) : Bool := (elemAt base stride n off).isSome

/-- The priority register at an offset of the JNC_ block. -/
def priReg (off : Nat) : Option (Junction × Nat × Nat) :=
  if off % 4 ≠ 0 then none
  else if 0x10000 ≤ off && off < 0x50000 then
    match fin? 4 (off / 0x10000 - 1) with
    | some c =>
      let m := off % 0x10000 / 0x200
      let w := off % 0x200 / 4
      if m < 25 && w < 33 then some (.cluster c, m, w) else none
    | none => none
  else if 0x60000 ≤ off && off < 0x60160 then some (.root, (off - 0x60000) / 0x10, off % 0x10 / 4)
  else none

/-- A station's lag counter at an offset of the JNC_ block: chain × 32 + station. -/
def slagReg (off : Nat) : Option Nat :=
  if 0x1000 ≤ off && off < 0x3000 && off % 8 = 0 && off % 0x100 / 8 ≤ 0x12 then
    some ((off - 0x1000) / 0x100 * 32 + off % 0x100 / 8)
  else none

/-- Bytes of the register that starts at an offset of a block; none for a reserved one. -/
def regWidth (b : Block) (off : Nat) : Option Nat :=
  let pick := fun (four eight : Bool) => if four then some 4 else if eight then some 8 else none
  match b with
  | .id => pick (off = 0 || off = 4) (off = 8)
  | .acc => pick (off = 0) (off = 8)
  | .evt => pick (isElem 0 4 2048 off || off = 0x4200 || isElem 0x5000 4 36 off)
      (isElem 0x4000 8 32 off || isElem 0x4400 8 36 off || isElem 0x4800 8 144 off)
  | .aci => pick ([0, 4, 8, 0x20, 0x24, 0x28].contains off || isElem 0x80000 4 512 off) (off = 0x10 || off = 0x18)
  | .clk => pick (isElem 0 4 6 off || off = 0x100) false
  | .pwr => pick (off = 0 || off = 4 || off = 0x20) (off = 8 || off = 0x10 || off = 0x18)
  | .thm => pick (isElem 0 4 64 off || off = 0x100 || off = 0x108) (off = 0x110 || off = 0x118)
  | .cal => pick (off = 0 || isElem 0x100 4 64 off || isElem 0x200 4 256 off) false
  | .set => pick (off = 0 || off = 8) false
  | .jnc => pick (off = 0 || off = 0x10 || off = 0x18 || isElem 0x400 4 36 off || off = 0x500 || (priReg off).isSome
      || isElem 0x80000 0x100 4 off)
      (off = 8 || isElem 0x100 8 16 off || isElem 0x180 8 8 off || (slagReg off).isSome || isElem 0x4000 8 128 off)
  | .scr => pick (off = 0x10 || isElem 0x1000 4 1024 off) (off = 0 || off = 8 || isElem 0x2000 8 142 off)
  | .xl => pick (off = 0 || off = 4 || off = 0x40 || off = 0x48 || isElem 0x10000 4 8192 off || isElem 0x20000 4 512 off)
      (isElem 8 8 6 off)
  | .ddr n => pick (off = 0 || off = 0x18 || off = 0x20 || (off = 0x100 && n = 0)) (off = 8 || off = 0x10)
  | .tgl _ => pick (off = 0 || off = 4) (isElem 8 8 4 off)
  | .cxl p => pick (off = 0 || off = 0x40 || (off = 0x100 && p = 0)) (off = 8 || off = 0x48 || (isElem 0x200 8 4 off && p = 0))
  | .core n => coreRegWidth n off

/-! ## Reads -/

/-- A number as a register's value. -/
def asWord (n : Nat) : Word := BitVec.ofNat 64 n

/-- The CXL link of half `h` of port `p` (15, Registers); none while that half has no link.
Log entry 103 (DEDUCED). -/
def State.halfLink (s : State) (p : Fin 2) (h : Nat) : Option LinkId :=
  if s.cxl.bifd[p] then fin? 6 (2 + 2 * p.val + h) else if h = 0 then fin? 6 p.val else none

/-- CXL_LSTAT of a link.
Log entries 100 (DEDUCED), 103 (DEDUCED). -/
def Link.stat (k : Link) : Word :=
  asWord (k.width.toNat <<< 16 + k.speed.toNat <<< 8 + b2n k.ide <<< 4 + b2n (k.up && k.cxl && k.cacheEn) <<< 3
    + b2n k.memEn <<< 2 + b2n k.cxl <<< 1 + b2n k.up)

/-- Lines of the snoop filter in some states. -/
def State.sfCount (s : State) (p : SfState → Bool) : Nat := (s.cxl.sf.filter fun e => p e.2).length

/-- TGL_STAT. -/
def Tgl.stat (t : Tgl) : Word :=
  asWord (t.rel.toNat <<< 20 + t.major.toNat <<< 16 + t.minor.toNat <<< 12 + t.lanes.toNat <<< 8 + t.downr.toNat <<< 4
    + b2n t.up)

/-- DDR_STAT. -/
def Ddr.stat (d : Ddr) : Word := asWord (d.slots.toNat <<< 8 + b2n d.refx2 <<< 4 + d.state.toNat)

/-- JNC_POOL of a cluster. -/
def Pool.word (p : Pool) : Word := asWord (p.waiting.length <<< 24 + p.reserved <<< 12 + p.free)

/-- A doorbell register: pair `i / 2`, SQ_TAIL or CQ_HEAD. -/
def State.doorbell (s : State) (i : Nat) : Word :=
  match s.pair (i / 2) with
  | some p => asWord (if i % 2 = 0 then p.sqTail else p.cqHead)
  | none => 0

/-- The registers of the ACI_ block. -/
def State.aciRead (s : State) (off : Nat) : Word :=
  let a := s.aci
  match off with
  | 0 => asWord (b2n a.enable)
  | 4 => a.status
  | 8 => a.aqCfg.setWidth 64
  | 0x10 => a.sqBase
  | 0x18 => a.cqBase
  | 0x24 => asWord (a.cancels.length <<< 8 + b2n a.dropped)
  | 0x28 => a.err.setWidth 64
  | _ => match elemAt 0x80000 4 512 off with
    | some i => s.doorbell i
    | none => 0

/-- The registers of the JNC_ block. -/
def State.jncRead (s : State) (off : Nat) : Word :=
  let j := s.jnc
  match off with
  | 0 => j.cfg.setWidth 64
  | 8 => j.time
  | 0x10 => j.lagCfg.setWidth 64
  | 0x18 => j.rBudget.setWidth 64
  | 0x500 => j.hqos.setWidth 64
  | _ =>
    match priReg off, slagReg off, (elemAt 0x100 8 16 off).bind (fin? 16), (elemAt 0x180 8 8 off).bind (fin? 8) with
    | some (x, m, w), _, _, _ => (s.priWord x m w).setWidth 64
    | none, some i, _, _ => cellGet j.slag i
    | none, none, some n, _ => j.dlag[n]
    | none, none, none, some p => j.plag[p]
    | none, none, none, none =>
      match (elemAt 0x400 4 36 off).bind (fin? 36), elemAt 0x4000 8 128 off, (elemAt 0x80000 0x100 4 off).bind (fin? 4) with
      | some n, _, _ => (s.cores[n].sqos).setWidth 64
      | none, some i, _ =>
        match fin? 64 (i / 2) with
        | some k =>
          let x := j.slots[k]
          if i % 2 = 0 then asWord (x.node.toNat <<< 44 + b2n x.valid <<< 31 + x.out % 2 ^ 24) else x.lag
        | none => 0
      | none, none, some k => s.pools[k].word
      | none, none, none => 0

/-- The registers of the XL_ block. -/
def Xl.read (x : Xl) (off : Nat) : Word :=
  match off with
  | 0 => x.node.setWidth 64
  | 4 => asWord (b2n x.rtBank <<< 2 + b2n x.staged <<< 1 + b2n x.culdesac)
  | 8 => x.epoch
  | 0x10 => x.digest[0]
  | 0x18 => x.digest[1]
  | 0x20 => x.pEpoch
  | 0x28 => x.pDigest[0]
  | 0x30 => x.pDigest[1]
  | 0x40 => x.hbCfg.setWidth 64
  | 0x48 => x.timeout.setWidth 64
  | _ =>
    match elemAt 0x10000 4 8192 off, elemAt 0x20000 4 512 off with
    | some i, _ => (cellGet x.grt i).setWidth 64
    | none, some i => (cellGet x.mrt i).setWidth 64
    | none, none => 0

/-- The value of the register that starts at an offset of a block.
Log entry 109 (DESIGN CHOICE). -/
def State.regRead (s : State) (b : Block) (off : Nat) : State × Word :=
  let elem := fun (base stride n : Nat) => elemAt base stride n off
  match b with
  | .id => (s, match off with
    | 0 => asWord idDevice
    | 4 => asWord idPkg
    | 8 => s.chip.serial
    | _ => 0)
  | .acc => (s, if off = 0 then s.evt.accErr.setWidth 64 else if off = 8 then s.evt.accAddr else 0)
  | .evt => (s,
    match elem 0 4 2048, (elem 0x4000 8 32).bind (fin? 32), (elem 0x4400 8 36).bind (fin? 36) with
    | some i, _, _ => (routeWord (cellGet s.evt.route i)).setWidth 64
    | none, some w, _ => s.evt.pend[w]
    | none, none, some n => s.lines n
    | none, none, none => match elem 0x4800 8 144, elem 0x5000 4 36 with
      | some i, _ => cellGet s.evt.taddr i
      | none, some n => (cellGet s.evt.halt n).setWidth 64
      | none, none => 0)
  | .aci => (s, s.aciRead off)
  | .clk => (s, match (elem 0 4 6).bind (fin? 6) with
    | some k => s.plls[k].word
    | none => if off = 0x100 then s.chip.clkGate.setWidth 64 else 0)
  | .pwr => (s, match off with
    | 0 => s.pwr.cfg.setWidth 64
    | 4 => asWord (s.pwr.peakW.toNat <<< 16 + (s.pwr.burst / 10000) % 65536)
    | 8 => s.pwrStat
    | 0x10 => s.pwr.gate
    | 0x18 => s.pwr.gated
    | 0x20 => s.chip.wake.setWidth 64
    | _ => 0)
  | .thm => (s, match (elem 0 4 64).bind (fin? 64), off with
    | some n, _ => (s.thm.t[n]).setWidth 64
    | none, 0x100 => s.thm.max.setWidth 64
    | none, 0x108 => s.thm.cfg.setWidth 64
    | none, 0x110 => s.thm.wear
    | none, 0x118 => s.wearTotal
    | none, _ => 0)
  | .cal => (s, match elem 0x100 4 64, elem 0x200 4 256 with
    | some n, _ => (cellGet s.chip.tofs n).setWidth 64
    | none, some r => (cellGet s.chip.trim r).setWidth 64
    | none, none => if off = 0 then asWord (b2n s.chip.calStat) else 0)
  | .set => (s, if off = 0 then s.chip.setBoot else 0)
  | .jnc => (s, s.jncRead off)
  | .scr => (s, match off with
    | 0 => s.scr.ecc
    | 8 => s.scr.eccAddr
    | 0x10 => s.scr.scrub.setWidth 64
    | _ => match elem 0x1000 4 1024, elem 0x2000 8 142 with
      | some b, _ => (cellGet s.scr.rpr b).setWidth 64
      | none, some i => if i % 2 = 0 then cellGet s.scr.conf (i / 2) else cellGet s.scr.req (i / 2)
      | none, none => 0)
  | .xl => (s, s.xl.read off)
  | .ddr n => (s, match off with
    | 0 => s.ddr[n].stat
    | 8 => s.ddr[n].ecc
    | 0x10 => s.ddr[n].eccAddr
    | 0x18 => s.ddr[n].scrub.setWidth 64
    | 0x20 => s.ddr[n].srCfg.setWidth 64
    | 0x100 => if n = 0 then s.mem.init.setWidth 64 else 0
    | _ => 0)
  | .tgl p => (s, match off with
    | 0 => s.tgl[p].stat
    | 4 => asWord (b2n s.tgl[p].en)
    | 8 => s.tgl[p].peer
    | 0x10 => s.tgl[p].pepoch
    | 0x18 => s.tgl[p].err
    | 0x20 => s.tgl[p].refused
    | _ => 0)
  | .cxl p => (s,
    let half := fun (h : Nat) (g : LinkId → Word) => match s.halfLink p h with
      | some l => g l
      | none => 0
    match off with
    | 0 => half 0 fun l => s.cxl.links[l].stat
    | 0x40 => half 1 fun l => s.cxl.links[l].stat
    | 8 => half 0 fun l => s.cxl.lerr[l]
    | 0x48 => half 1 fun l => s.cxl.lerr[l]
    | _ =>
      if p ≠ 0 then 0
      else match off with
        | 0x100 => asWord (b2n s.cxl.bifd[1] <<< 9 + b2n s.cxl.bifd[0] <<< 8 + (if s.cxl.hdmLink.toNat < 6 then s.cxl.hdmLink.toNat else 0))
        | 0x200 => asWord (s.sfCount (· == .pr) <<< 43 + s.sfCount (· == .pi) <<< 32 + s.sfCount fun x => x == .s || x == .a)
        | 0x208 => s.cxl.biCnt
        | 0x210 => s.cxl.biXing
        | 0x218 => s.cxl.sfEvict
        | _ => 0)
  | .core n => s.coreRegRead n off

/-- The side effect of a full-width read: the read-to-clear counters (02 R32). -/
def State.regClear (s : State) (b : Block) (off : Nat) : State :=
  let keep : Word := 0xFFFF000000000000
  match b with
  | .jnc =>
    match slagReg off, (elemAt 0x100 8 16 off).bind (fin? 16), (elemAt 0x180 8 8 off).bind (fin? 8), elemAt 0x4000 8 128 off with
    | some i, _, _, _ => { s with jnc := { s.jnc with slag := cellSet s.jnc.slag i 0 } }
    | none, some n, _, _ => { s with jnc := { s.jnc with dlag := s.jnc.dlag.set n 0 } }
    | none, none, some p, _ => { s with jnc := { s.jnc with plag := s.jnc.plag.set p 0 } }
    | none, none, none, some i =>
      match fin? 64 (i / 2) with
      | some k =>
        if i % 2 = 0 then s
        else { s with jnc := { s.jnc with slots := s.jnc.slots.set k { s.jnc.slots[k] with lag := 0 } } }
      | none => s
    | none, none, none, none => s
  | .scr =>
    if off = 0 then { s with scr := { s.scr with ecc := s.scr.ecc &&& keep } }
    else match elemAt 0x2000 8 142 off with
      | some i =>
        if i % 2 = 0 then { s with scr := { s.scr with conf := cellSet s.scr.conf (i / 2) 0 } }
        else { s with scr := { s.scr with req := cellSet s.scr.req (i / 2) 0 } }
      | none => s
  | .ddr n => if off = 8 then s.modDdr n fun d => { d with ecc := d.ecc &&& keep } else s
  | .tgl p =>
    if off = 0x18 then s.modTgl p fun t => { t with err := 0 }
    else if off = 0x20 then s.modTgl p fun t => { t with refused := 0 } else s
  | .cxl p =>
    let err := fun (h : Nat) => match s.halfLink p h with
      | some l => { s with cxl := { s.cxl with lerr := s.cxl.lerr.set l 0 } }
      | none => s
    match off with
    | 8 => err 0
    | 0x48 => err 1
    | 0x208 => if p = 0 then { s with cxl := { s.cxl with biCnt := 0 } } else s
    | 0x210 => if p = 0 then { s with cxl := { s.cxl with biXing := 0 } } else s
    | 0x218 => if p = 0 then { s with cxl := { s.cxl with sfEvict := 0 } } else s
    | _ => s
  | _ => s

/-! ## Writes -/

/-- A write of a register of the ACI_ block; the ACI_AQ_ registers keep their values while ENABLE is 1 (03 R43). -/
def State.aciWrite (s : State) (off : Nat) (v : Word) : State :=
  let h : Half := v.setWidth 32
  let aq := fun (a : Aci) => if s.aci.enable then s else { s with aci := a }
  match off with
  | 0 => s.aciCtrl h
  | 8 => aq { s.aci with aqCfg := h &&& 0x0FFF1F1F }
  | 0x10 => aq { s.aci with sqBase := v &&& ~~~(0xFFF : Word) }
  | 0x18 => aq { s.aci with cqBase := v &&& ~~~(0xFFF : Word) }
  | 0x20 => s.cancelWrite h
  | 0x24 => if h.getLsbD 0 then { s with aci := { s.aci with dropped := false } } else s
  | 0x28 => { s with aci := { s.aci with err := s.aci.err &&& ~~~(h &&& 0xD) } }
  | _ => match elemAt 0x80000 4 512 off with
    | some i => if i % 2 = 0 then s.sqTail (i / 2) h else s.cqHead (i / 2) h
    | none => s

/-- A write of a register of the JNC_ block. -/
def State.jncWrite (s : State) (off : Nat) (v : Word) : State :=
  let h : Half := v.setWidth 32
  match off with
  | 0 => { s with jnc := { s.jnc with cfg := h &&& 0xFF03 } }
  | 0x10 => { s with jnc := { s.jnc with lagCfg := h &&& 0x13F } }
  | 0x18 => { s with jnc := { s.jnc with rBudget := h &&& 0xFFF } }
  | 0x500 => { s with jnc := { s.jnc with hqos := h &&& 0xFF } }
  | _ =>
    match priReg off, (elemAt 0x400 4 36 off).bind (fin? 36) with
    | some (x, m, w), _ => s.setPri x m w h
    | none, some n => s.modCore n fun c => { c with sqos := h &&& 0xFF }
    | none, none => s

/-- A write of a register of the XL_ block. -/
def Xl.write (x : Xl) (off : Nat) (v : Word) : Xl :=
  let h : Half := v.setWidth 32
  match off with
  | 0 => { x with node := h &&& 0xFFFFF001 }
  | 4 => { x with rtBank := h.getLsbD 2, staged := h.getLsbD 1, culdesac := h.getLsbD 0 }
  | 8 => { x with epoch := v }
  | 0x10 => { x with digest := x.digest.set 0 v }
  | 0x18 => { x with digest := x.digest.set 1 v }
  | 0x20 => { x with pEpoch := v }
  | 0x28 => { x with pDigest := x.pDigest.set 0 v }
  | 0x30 => { x with pDigest := x.pDigest.set 1 v }
  | 0x40 => { x with hbCfg := h }
  | 0x48 => { x with timeout := h }
  | _ =>
    match elemAt 0x10000 4 8192 off, elemAt 0x20000 4 512 off with
    | some i, _ => { x with grt := cellSet x.grt i (h &&& 0xC0000077) }
    | none, some i => { x with mrt := cellSet x.mrt i (h &&& 0xC0000077) }
    | none, none => x

/-- EVT_SWSET: a software source becomes pending. -/
def State.swset (s : State) (v : Half) : State :=
  let n := (v.extractLsb' 0 11).toNat
  if 0x400 ≤ n then s.raise n else s

/-- A full-width write of the register that starts at an offset of a block. Read-only and reserved bits keep their values;
`dir` holds the directory words of a retried stream translation. -/
def State.regWrite (s : State) (b : Block) (off : Nat) (v : Word) (src : Src) (dir : List Word) : State :=
  let h : Half := v.setWidth 32
  let elem := fun (base stride n : Nat) => elemAt base stride n off
  match b with
  | .id => s
  | .acc => if off = 0 then { s with evt := { s.evt with accErr := s.evt.accErr &&& ~~~(v.setWidth 4) } } else s
  | .evt =>
    match elem 0 4 2048, (elem 0x4000 8 32).bind (fin? 32) with
    | some i, _ => s.setRoute i h
    | none, some w => { s with evt := { s.evt with pend := s.evt.pend.set w (s.evt.pend[w] &&& ~~~v) } }
    | none, none => if off = 0x4200 then s.swset h else s
  | .aci => s.aciWrite off v
  | .clk => match (elem 0 4 6).bind (fin? 6) with
    | some k => s.pllWrite k h
    | none => if off = 0x100 then s.clkGateWrite h else s
  | .pwr => match off with
    | 0 => { s with pwr := s.pwr.writeCfg h }
    | 4 => { s with pwr := s.pwr.writeBurst h }
    | 8 => if v.getLsbD 5 then { s with pwr := { s.pwr with avsErr := false } } else s
    | 0x10 => s.pwrGateWrite v
    | 0x20 => s.pwrWakeWrite h
    | _ => s
  | .thm => if off = 0x108 then { s with thm := { s.thm with cfg := h &&& 0x00FF00FF } } else s
  | .cal => match elem 0x100 4 64, elem 0x200 4 256 with
    | some n, _ => { s with chip := { s.chip with tofs := cellSet s.chip.tofs n (v.setWidth 16) } }
    | none, some r => { s with chip := { s.chip with trim := cellSet s.chip.trim r (v.setWidth 8) } }
    | none, none => if off = 0 then { s with chip := { s.chip with calStat := v.getLsbD 0 } } else s
  | .set => if off = 0 then s.setBootWrite src h else if off = 8 then s.setFuse h else s
  | .jnc => s.jncWrite off v
  | .scr => match off with
    | 8 => if v.getLsbD 63 then { s with scr := { s.scr with eccAddr := s.scr.eccAddr &&& ~~~((1 : Word) <<< 63) } } else s
    | 0x10 => { s with scr := { s.scr with scrub := h &&& 0x00FFFF01 } }
    | _ => s
  | .xl => { s with xl := s.xl.write off v }
  | .ddr n => match off with
    | 0x10 => if v.getLsbD 63 then s.modDdr n fun d => { d with eccAddr := d.eccAddr &&& ~~~((1 : Word) <<< 63) } else s
    | 0x18 => s.modDdr n fun d => { d with scrub := h &&& 0xFF01 }
    | 0x20 => s.modDdr n fun d => { d with srCfg := h &&& 0x1FFFF }
    | _ => s
  | .tgl p => if off = 4 then s.tglCtl p (h.getLsbD 0) else s
  | .cxl p => if off = 0x100 && p = 0 then { s with cxl := { s.cxl with hdmLink := h.extractLsb' 0 3 } } else s
  | .core n => s.coreRegWrite n off v src dir

/-! ## Accesses (02 R28 to R37) -/

/-- The offset names a TLB register of an instance where an invalidation has not taken effect: operations take effect in
order (12 R250, R255).
Log entry 47 (DEDUCED). -/
def State.tlbBusy (s : State) (off : Nat) : Bool :=
  match blockOf off with
  | some (.core n, o) => decide (0x80800 ≤ o) && decide (o ≤ 0x80820) && decide (o ≠ 0x80814) && !s.cores[n].invals.isEmpty
  | _ => false

/-- The bus waits: BCLK is stopped by a clock switch, or the core whose register is named is (17 R356), or an invalidation
of its TLBs waits. -/
def State.busWaits (s : State) (off : Nat) : Bool :=
  s.bclkStopped || (s.cclkStopped && 0x4000000 ≤ off && off < 0x6400000) || s.tlbBusy off

/-- A BAR4 access is refused for lack of a grant (02 R29). -/
def State.noGrant (s : State) (b : Block) (write : Bool) : Bool :=
  match b.diagBit with
  | none => false
  | some i => match s.aci.grant with
    | none => true
    | some g => !g.blocks.getLsbD i || (write && !g.write)

/-- The registers of an 8-byte-aligned access: each with its offset, its first byte and its bytes. -/
def regsAt (b : Block) (off : Nat) : List (Nat × Nat × Nat) :=
  if regWidth b off = some 8 then [(off, 0, 8)]
  else (if regWidth b off = some 4 then [(off, 0, 4)] else []) ++ (if regWidth b (off + 4) = some 4 then [(off + 4, 4, 4)] else [])

/-- A write to a CSR offset, from a source whose grant has been judged.
Log entries 102 (DEDUCED), 146 (DESIGN CHOICE). -/
def State.csrWrite (s : State) (src : Src) (off : Nat) (be : BitVec 8) (data : Word) (dir : List Word) : State :=
  match blockOf off with
  | none => s.accError 1 src 0 off be.toNat
  | some (b, o) =>
    if s.gatedBlock b then s
    else (regsAt b o).foldl (fun s r =>
      let e := enables be r.2.1 r.2.2
      if e = 0 then s
      else if e = 2 ^ r.2.2 - 1 then s.regWrite b r.1 (data >>> (8 * r.2.1)) src dir
      else s.accError 0 src 0 off be.toNat) s

/-- The bytes of a word that are enabled. -/
def masked (be : BitVec 8) (v : Word) : Word := asWord (natOf (mergeBytes be.toNat 0 (List.replicate 8 0) (bytesOf 8 v.toNat)))

/-- A read of a CSR offset: the bytes asked for, and the side effects of the registers read whole.
Log entry 146 (DESIGN CHOICE). -/
def State.csrRead (s : State) (src : Src) (off : Nat) (be : BitVec 8) : State × Word :=
  match blockOf off with
  | none => (s.accError 1 src 0 off be.toNat, 0)
  | some (b, o) =>
    if s.gatedBlock b then (s, 0)
    else
      let r := (regsAt b o).foldl (fun (acc : State × Word) r =>
        let e := enables be r.2.1 r.2.2
        if e = 0 then acc
        else
          let (s, v) := acc.1.regRead b r.1
          let s := if e = 2 ^ r.2.2 - 1 then s.regClear b r.1 else s
          (s, acc.2 ||| asWord (v.toNat % 2 ^ (8 * r.2.2)) <<< (8 * r.2.1))) (s, 0)
      (r.1, masked be r.2)

/-- A host port carries an access: one of its links is up. -/
def State.portUp (s : State) (p : Fin 2) : Bool :=
  (List.finRange 6).any fun l => portOf l = p.val && s.cxl.links[l].answersBars

/-- The write of a host through BAR4. -/
def State.diagWrite (s : State) (p : Fin 2) (off : Nat) (be : BitVec 8) (data : Word) (dir : List Word) : State :=
  match blockOf off with
  | some (b, _) => if s.noGrant b true then s.accError 2 (.host p) 0 off be.toNat else s.csrWrite (.host p) off be data dir
  | none => s.csrWrite (.host p) off be data dir

/-- The read of a host through BAR4. -/
def State.diagRead (s : State) (p : Fin 2) (off : Nat) (be : BitVec 8) : State × Word :=
  match blockOf off with
  | some (b, _) => if s.noGrant b false then (s.accError 2 (.host p) 0 off be.toNat, 0) else s.csrRead (.host p) off be
  | none => s.csrRead (.host p) off be

/-- A BAR0 offset holds a CSR block at the same offset (02 R26).
Log entry 101 (PRESUMED). -/
def bar0Csr (off : Nat) : Bool := off < 0x2000 || (0x100000 ≤ off && off < 0x200000)

/-- A dword of the MSI-X table as the host sees it: the table keeps the complement of the mask bit.
Log entry 5 (PRESUMED). -/
def msixView (odd : Bool) (v : Word) : Word := if odd then v ^^^ 0x100000000 else v

/-- A write of the MSI-X table: 32-bit words, each written whole (02 R33). -/
def State.msixWrite (s : State) (p : Fin 2) (off : Nat) (be : BitVec 8) (data : Word) : State :=
  let i := (off - 0x20000) / 8
  let odd := i % 2 = 1
  let half := fun (s : State) (lo : Nat) =>
    let e := enables be lo 4
    if e = 0 then s
    else if e ≠ 15 then s.accError 0 (.host p) 1 off be.toNat
    else
      let mask : Word := (0xFFFFFFFF : Word) <<< (8 * lo)
      let keep : Word := if odd && lo = 4 then 0x100000000 else mask
      let old := msixView odd (cellGet s.cxl.msixTab i)
      let new := msixView odd ((old &&& ~~~mask) ||| (data &&& mask &&& keep))
      { s with cxl := { s.cxl with msixTab := cellSet s.cxl.msixTab i new } }
  (half (half s 0) 4).msixFlush

/-- A write of the pending bit array, which is read-only: a narrow one of a 32-bit word sets NARROW (02 R33).
Log entry 102 (DEDUCED). -/
def State.pbaWrite (s : State) (p : Fin 2) (off : Nat) (be : BitVec 8) : State :=
  ([0, 4] : List Nat).foldl (fun s lo =>
    let e := enables be lo 4
    if e = 0 || e = 15 then s else s.accError 0 (.host p) 1 off be.toNat) s

/-- A write of scratch through BAR2: one aligned word at its bank (02 R24, R26).
Log entry 102 (DEDUCED). -/
def State.bar2Write (s : State) (p : Fin 2) (off : Nat) (be : BitVec 8) (data : Word) : State :=
  let a := scratchBase + off
  let s := s.bankCountFree (68 + p.val) 1
  if be = 0xFF then s.memWrite a (bytesOf 8 data.toNat)
  else (upto 8).foldl (fun s i =>
    if be.getLsbD i then s.memWrite (a + i) [data.extractLsb' (8 * i) 8] else s) (s.checkScratch [a / 8])

/-- A register access that writes.
Log entries 102 (DEDUCED), 168 (DEDUCED). -/
def State.accessWrite (s : State) (a : Access) (dir : List Word) : State :=
  let off := a.offset / 8 * 8
  match a.path with
  | .bar0 p =>
    if !s.portUp p then s
    else if bar0Csr off then s.csrWrite (.host p) off a.be a.data dir
    else if 0x10000 ≤ off && off < 0x20000 then s.compWrite64 p (off - 0x10000) a.be a.data
    else if 0x20000 ≤ off && off < 0x28000 then s.msixWrite p off a.be a.data
    else if 0x28000 ≤ off && off < 0x28100 then s.pbaWrite p off a.be
    else s.accError 1 (.host p) 1 off a.be.toNat
  | .bar2 p =>
    if !s.portUp p || a.be = 0 then s
    else if off < scratchSize then s.bar2Write p off a.be a.data
    else s.accError 1 (.host p) 2 off a.be.toNat
  | .bar4 p => if s.portUp p then s.diagWrite p off a.be a.data dir else s
  | .config l => s.cfgWrite64 l off a.be a.data
  | .core n => s.csrWrite (.core n) off a.be a.data dir
  | .fabric => s.csrWrite .fabric off a.be a.data dir

/-- The pending bit array of MSI-X: 64 bits of it. -/
def State.pbaWord (s : State) (w : Nat) : Word :=
  s.cxl.pba.foldl (fun acc v => if v / 64 = w then acc ||| (1 : Word) <<< (v % 64) else acc) 0

/-- A read of scratch through BAR2; a poisoned word completes poisoned (15 R315). -/
def State.bar2Read (s : State) (p : Fin 2) (off : Nat) : State × Word × Bool :=
  let (s, a) := s.scratchRead (68 + p.val) (scratchBase + off) 8
  ((if a.poison then s.raise (0x284 + 16 * p) else s), wordOf a.bytes, a.poison)

/-- A register access that reads: its value, and whether it is poisoned.
Log entries 101 (PRESUMED), 168 (DEDUCED). -/
def State.accessRead (s : State) (a : Access) : State × Word × Bool :=
  let off := a.offset / 8 * 8
  let plain := fun (x : State × Word) => (x.1, x.2, false)
  match a.path with
  | .bar0 p =>
    if bar0Csr off then plain (s.csrRead (.host p) off a.be)
    else if 0x10000 ≤ off && off < 0x20000 then (s, masked a.be (s.compRead64 (off - 0x10000)), false)
    else if 0x20000 ≤ off && off < 0x28000 then
      let i := (off - 0x20000) / 8
      (s, masked a.be (msixView (i % 2 = 1) (cellGet s.cxl.msixTab i)), false)
    else if 0x28000 ≤ off && off < 0x28100 then (s, masked a.be (s.pbaWord ((off - 0x28000) / 8)), false)
    else (s.accError 1 (.host p) 1 off a.be.toNat, 0, false)
  | .bar2 p =>
    if off < scratchSize then
      let (s, v, bad) := s.bar2Read p off
      (s, masked a.be v, bad)
    else (s.accError 1 (.host p) 2 off a.be.toNat, 0, false)
  | .bar4 p => plain (s.diagRead p off a.be)
  | .config l => (s, masked a.be (s.cfgRead64 l off), false)
  | .core n => plain (s.csrRead (.core n) off a.be)
  | .fabric => plain (s.csrRead .fabric off a.be)

/-- The access reaches a CSR target, on which the bus may have to wait. -/
def Access.csr (a : Access) : Bool :=
  match a.path with
  | .bar0 _ => bar0Csr a.offset
  | .bar2 _ => false
  | _ => true

/-- The access waits (17 R356).
Log entry 9 (DESIGN CHOICE). -/
def State.accessWaits (s : State) (a : Access) : Bool :=
  match a.path with
  | .bar0 _ => s.bclkStopped
  | .bar2 _ => s.bclkStopped
  | .config _ => s.clocksOff
  | _ => s.busWaits a.offset

/-- The enabled bytes of an access are consecutive: the first and their number. -/
def byteRun (be : BitVec 8) : Option (Nat × Nat) :=
  let on := (upto 8).filter fun i => be.getLsbD i
  match on with
  | [] => none
  | i :: _ => if be.toNat >>> i + 1 = 2 ^ on.length then some (i, on.length) else none

/-- The core posts a store to its own CORE_CFG: the value acts once the next bundle is over (09 R195). -/
def Core.ownCfg (c : Core) (n : CoreId) (loc : Phys) (bs : List Byte) : Core :=
  if loc = .here (csrBase + coreBase n + 0x90000) && 4 ≤ bs.length then
    { c with cfgDue := some { value := BitVec.ofNat 32 (natOf (bs.take 4)) &&& 0x1F, own := true } }
  else c

/-- A core's register write joins the core's posted stores while some are not accepted: stores are accepted in the order in
which they were posted (09 R201).  It waits while the queue is full, and where the store queue cannot hold it.
Log entry 128 (DEDUCED). -/
def State.postWrite (s : State) (n : CoreId) (a : Access) (dir : List Word) : State :=
  match byteRun a.be with
  | some (i, k) =>
    if 8 ≤ s.cores[n].stores.length || !dir.isEmpty then s
    else s.modCore n fun c =>
      let off := csrBase + a.offset / 8 * 8 + i
      let bs := bytesOf k (a.data.toNat >>> (8 * i))
      (c.post 0 (.here off) (s.global off) bs).ownCfg n (.here off) bs
  | none => s

/-- A register write by any path. -/
def State.putAccess (s : State) (a : Access) (dir : List Word) : Outcome :=
  if s.accessWaits a then .next s
  else match a.path with
    | .core n => .next (if s.cores[n].stores.isEmpty then s.accessWrite a dir else s.postWrite n a dir)
    | _ => .next (s.accessWrite a dir)

/-- REGISTER_WRITE. -/
def execRegisterWrite (a : Access) (s : State) : Outcome := s.putAccess a []

/-- The host port that an access comes through is down. -/
def State.deadPath (s : State) (a : Access) : Bool :=
  match a.path with
  | .bar0 p => !s.portUp p
  | .bar2 p => !s.portUp p
  | .bar4 p => !s.portUp p
  | .config l => !s.cxl.links[l].up
  | _ => false

/-- READ_TO_CLEAR: a register read, whose value leaves the block. -/
def execReadToClear (a : Access) (s : State) : Outcome :=
  if s.accessWaits a || s.deadPath a then .next s
  else
    let (s, v, bad) := s.accessRead a
    .next (s.emit (.barData v bad))

/-! ## Commands that are one register write -/

/-- The path by which a source reaches the CSR space. -/
def pathOf : Src → Path
  | .core n => .core n
  | .host p => .bar4 p
  | .fabric => .fabric

/-- A full-width write of the 32-bit register at a CSR offset. -/
def State.put4 (s : State) (src : Src) (off : Nat) (v : Half) (dir : List Word) : Outcome :=
  let lo := off % 8
  let a : Access := { path := pathOf src, offset := off / 8 * 8, be := (0xF : BitVec 8) <<< lo, data := (v.setWidth 64) <<< (8 * lo) }
  s.putAccess a dir

/-- A full-width write of the 64-bit register at a CSR offset. -/
def State.put8 (s : State) (src : Src) (off : Nat) (v : Word) : Outcome :=
  s.putAccess { path := pathOf src, offset := off, be := 0xFF, data := v } []

/-- The host writes an ACI register through BAR0.
Log entry 102 (DEDUCED). -/
def State.hostAci (s : State) (off : Nat) (v : Half) : Outcome :=
  if s.bclkStopped then .next s else .next (s.aciWrite off (v.setWidth 64))

/-- PWR_WAKE_CLEAR. -/
def execPwrWakeClear (src : Src) (v : Half) (s : State) : Outcome := s.put4 src 0x210020 v []

/-- QUICK_SWITCH: POSTDIV alone changes. -/
def execQuickSwitch (src : Src) (k : PllId) (postdiv : Byte) (s : State) : Outcome :=
  s.put4 src (0x200000 + 4 * k.val)
    (BitVec.ofNat 32 (b2n s.plls[k].ref <<< 24 + s.plls[k].mult.toNat <<< 16 + postdiv.toNat)) []

/-- RELOCK: a write of CLK_PLL[k]. -/
def execRelock (src : Src) (k : PllId) (v : Half) (s : State) : Outcome := s.put4 src (0x200000 + 4 * k.val) v []

/-- CLK_GATE. -/
def execClkGate (src : Src) (v : Half) (s : State) : Outcome := s.put4 src 0x200100 v []

/-- PWR_GATE. -/
def execPwrGate (src : Src) (v : Word) (s : State) : Outcome := s.put8 src 0x210010 v

/-- HANDOVER.
Log entries 7 (DESIGN CHOICE), 156 (DESIGN CHOICE). -/
def execHandover (src : Src) (s : State) : Outcome := s.put4 src 0x310000 1 []

/-- DBG_LOCK_PROGRAM. -/
def execDbgLockProgram (src : Src) (key : Half) (s : State) : Outcome := s.put4 src 0x310008 key []

/-- ACI_ENABLE. -/
def execAciEnable (src : Src) (s : State) : Outcome := s.put4 src 0x100000 1 []

/-- ACI_RESET. -/
def execAciReset (src : Src) (s : State) : Outcome := s.put4 src 0x100000 0 []

/-- ACI_SQ_TAIL. -/
def execAciSqTail (q : Byte) (v : Half) (s : State) : Outcome := s.hostAci (0x80000 + 8 * q.toNat) v

/-- ACI_CQ_HEAD. -/
def execAciCqHead (q : Byte) (v : Half) (s : State) : Outcome := s.hostAci (0x80004 + 8 * q.toNat) v

/-- ACI_CANCEL. -/
def execAciCancel (handle : Half) (s : State) : Outcome := s.hostAci 0x20 handle

/-- EVT_ROUTE. -/
def execEvtRoute (src : Src) (source : Fin 2048) (v : Half) (s : State) : Outcome := s.put4 src (0x10000 + 4 * source.val) v []

/-- EVT_SWSET. -/
def execEvtSwset (src : Src) (v : Half) (s : State) : Outcome := s.put4 src 0x14200 v []

/-- CORE_START. -/
def execCoreStart (src : Src) (n : CoreId) (levelK : Bool) (s : State) : Outcome :=
  s.put4 src (coreBase n + 0x90004) (if levelK then 3 else 1) []

/-- CORE_STOP. -/
def execCoreStop (src : Src) (n : CoreId) (s : State) : Outcome :=
  s.put4 src (coreBase n + 0x90004) (s.cores[n].ctl &&& ~~~(1 : Half)) []

/-- CORE_CFG. -/
def execCoreCfg (src : Src) (n : CoreId) (v : Half) (s : State) : Outcome := s.put4 src (coreBase n + 0x90000) v []

/-- CORE_DB_RING. -/
def execCoreDbRing (src : Src) (n : CoreId) (s : State) : Outcome := s.put4 src (coreBase n + 0x90100) 1 []

/-- A write of a register of a chain's window. -/
def State.putChain (s : State) (src : Src) (c : ChainId) (off : Nat) (v : Half) (dir : List Word) : Outcome :=
  s.put4 src (coreBase (seqOf c) + off) v dir

/-- CHAIN_STOP. -/
def execChainStop (src : Src) (c : ChainId) (s : State) : Outcome := s.putChain src c 0x80014 1 []

/-- FLUSH_Q. -/
def execFlushQ (src : Src) (c : ChainId) (s : State) : Outcome := s.putChain src c 0x80014 2 []

/-- CLR_MSC. -/
def execClrMsc (src : Src) (c : ChainId) (s : State) : Outcome := s.putChain src c 0x80014 4 []

/-- EXCTL_RESTART. -/
def execExctlRestart (src : Src) (c : ChainId) (flushOnce : Bool) (s : State) : Outcome :=
  s.putChain src c 0x80050 (if flushOnce then 0x101 else 1) []

/-- EXCTL_REPLAY. -/
def execExctlReplay (src : Src) (c : ChainId) (flushOnce : Bool) (s : State) : Outcome :=
  s.putChain src c 0x80050 (if flushOnce then 0x102 else 2) []

/-- EXCTL_ABANDON. -/
def execExctlAbandon (src : Src) (c : ChainId) (s : State) : Outcome := s.putChain src c 0x80050 3 []

/-- SCTL_RETRY. -/
def execSctlRetry (src : Src) (c : ChainId) (dir : List Word) (s : State) : Outcome := s.putChain src c 0x80814 1 dir

/-- SCTL_ABANDON. -/
def execSctlAbandon (src : Src) (c : ChainId) (s : State) : Outcome := s.putChain src c 0x80814 2 []

/-- A write of CORE_TLB_CMD. -/
def State.putTlb (s : State) (src : Src) (n : CoreId) (v : Half) (dir : List Word) : Outcome :=
  s.put4 src (coreBase n + 0x80810) v dir

/-- WRITE_L2. -/
def execWriteL2 (src : Src) (n : CoreId) (way : BitVec 4) (wsel : Bool) (dir : List Word) (s : State) : Outcome :=
  s.putTlb src n (BitVec.ofNat 32 (way.toNat <<< 20 + b2n wsel <<< 19 + 1)) dir

/-- WRITE_ILOCK. -/
def execWriteIlock (src : Src) (n : CoreId) (slot : BitVec 4) (s : State) : Outcome :=
  s.putTlb src n (BitVec.ofNat 32 (slot.toNat <<< 12 + 2)) []

/-- WRITE_DLOCK. -/
def execWriteDlock (src : Src) (n : CoreId) (slot : BitVec 4) (s : State) : Outcome :=
  s.putTlb src n (BitVec.ofNat 32 (slot.toNat <<< 12 + 3)) []

/-- INVAL_VA. -/
def execInvalVa (src : Src) (n : CoreId) (s : State) : Outcome := s.putTlb src n 4 []

/-- INVAL_USER. -/
def execInvalUser (src : Src) (n : CoreId) (s : State) : Outcome := s.putTlb src n 5 []

/-- INVAL_ALL. -/
def execInvalAll (src : Src) (n : CoreId) (s : State) : Outcome := s.putTlb src n 6 []

/-- CLEAR_LOCKS. -/
def execClearLocks (src : Src) (n : CoreId) (s : State) : Outcome := s.putTlb src n 7 []

/-- READ_L2. -/
def execReadL2 (src : Src) (n : CoreId) (way : BitVec 4) (s : State) : Outcome :=
  s.putTlb src n (BitVec.ofNat 32 (way.toNat <<< 20 + 8)) []

/-- CSR offset of a priority word.
Log entry 89 (DEDUCED). -/
def priOffset (j : Junction) (m w : Nat) : Nat :=
  match j with
  | .cluster c => 0x410000 + 0x10000 * c.val + 0x200 * m + 4 * w
  | .root => 0x460000 + 0x10 * m + 4 * w

/-- PRIORITY_WRITE: a word that the junction does not have is a reserved offset. -/
def execPriorityWrite (src : Src) (j : Junction) (m : Fin 25) (w : Fin 33) (v : Half) (s : State) : Outcome :=
  if priExists j m.val w.val then s.put4 src (priOffset j m.val w.val) v [] else .next s

/-- TGL_PORT_ENABLE. -/
def execTglPortEnable (src : Src) (p : PortId) (en : Bool) (s : State) : Outcome :=
  s.put4 src (0x2000004 + 0x100000 * p.val) (if en then 1 else 0) []

end Sys2Proof.Machine
end

