-- ==== Sys2Proof/Machine/CoreEvents.lean ====
section
/-! DEFINITION. A core's own events (09 R186, R191; 10 R211, R213, R217, R224; 11 R233): responses of loads and fetches,
acceptance of stores, the end of a division, held causes, and the end of wfi. -/

namespace Sys2Proof.Machine

/-! ## CSR accesses of any size (02 R35) -/

/-- Byte enables of `n` bytes at `off` in 64-bit word `w`. -/
def beOf (off n w : Nat) : BitVec 8 :=
  (upto 8).foldl (fun b i => if off ≤ 8 * w + i && 8 * w + i < off + n then b ||| (1 : BitVec 8) <<< i else b) 0

/-- Reads `n` bytes of CSR space, in accesses of 64 bits in ascending order.
Log entry 72 (DEDUCED). -/
def State.csrBytes (s : State) (src : Src) (off n : Nat) : State × List Byte :=
  let r := (granules 8 off n).foldl (fun (acc : State × List Byte) w =>
    let (s, v) := acc.1.csrRead src (8 * w) (beOf off n w)
    (s, acc.2 ++ bytesOf 8 v.toNat)) (s, [])
  (r.1, sliceAt r.2 (off % 8) n)

/-- Writes bytes of CSR space, in accesses of 64 bits in ascending order.
Log entry 72 (DEDUCED). -/
def State.csrPut (s : State) (src : Src) (off : Nat) (bs : List Byte) : State :=
  (granules 8 off bs.length).foldl (fun (s : State) w =>
    let data := (upto 8).map fun i => if off ≤ 8 * w + i then (bs[8 * w + i - off]?).getD 0 else 0
    s.csrWrite src (8 * w) (beOf off bs.length w) (wordOf data) []) s

/-- The bus waits for one of the words of an access. -/
def State.csrWaits (s : State) (off n : Nat) : Bool := (granules 8 off n).any fun w => s.busWaits (8 * w)

/-! ## Order of a core's port (09 R186, 10 R213, 14 R290) -/

/-- A core's number as a master of the scratch banks (13 R267). -/
def coreMaster (n : CoreId) : Nat := 32 + n.val

/-- The load or store waits at the home agent, which has accepted it.
Log entry 71 (DEDUCED). -/
def State.heldAtHome (s : State) (w : Wanted) : Bool := s.heldFor w

/-- An earlier load of the core that its target in this device has not accepted.
Log entry 71 (DEDUCED). -/
def State.loadBefore (s : State) (n : CoreId) (seq : Nat) : Bool :=
  s.cores[n].loads.any fun l => decide (l.seq < seq) && l.kind.isMem && l.hit.isNone &&
    (match l.loc with
    | .here _ => true
    | _ => false) && !s.heldAtHome (.load n l.seq)

/-- Every earlier request of the core's port has been accepted.
Log entry 71 (DEDUCED). -/
def State.portTurn (s : State) (n : CoreId) (seq : Nat) : Bool :=
  !(s.cores[n].stores.any fun x => decide (x.seq < seq)) && !s.loadBefore n seq

/-- A request of this device to another node is registered: its own response ends it. -/
def State.asked (s : State) (w : Wanted) : Bool := s.xl.remote.any fun q => q.who == w

/-- A row's answer from another node to an access of the core, which ends the request that the core has sent there (16 R336).
Log entries 14 (DESIGN CHOICE), 57 (DEDUCED). -/
def State.farReply (s : State) (w : Wanted) (r : Reply) : State × Option Reply :=
  if r = .owed then (s, none)
  else match s.popRemote w with
    | (s, true) => (s, some r)
    | (s, false) => (s, none)

/-! ## LOAD_RESPONSE -/

/-- The operation of an atomic at the bank; none for a load. -/
def LoadKind.aop : LoadKind → Option (BitVec 4 × Word)
  | .aadd v => some (0, v)
  | .aswp v => some (2, v)
  | _ => none

/-- A load or an atomic on scratch. -/
def State.loadScratch (s : State) (n : CoreId) (l : Load) (off : Nat) : State :=
  let small := fun (x : State × ReadAns) =>
    if x.2.poison then x.1.modCore n fun c => c.failLoad l 2 else x.1.loadBytes n l x.2.bytes
  match l.kind.aop with
  | some (aop, v) => small (s.scratchAtomic (coreMaster n) off (aopFun aop v))
  | none =>
    if l.cached then
      let (s, a) := s.scratchRead (coreMaster n) (off / 64 * 64) 64
      s.loadLine n l off a
    else small (s.scratchRead (coreMaster n) off l.kind.size)

/-- A load of this node's memory or registers. -/
def State.loadHere (s : State) (n : CoreId) (l : Load) (off : Nat) : State :=
  match s.place off with
  | .scratch => s.loadScratch n l off
  | .ddr =>
    if s.heldAtHome (.load n l.seq) then s
    else match s.homeAccess off .read (.want (.load n l.seq)) with
      | (s, .served a) => s.loadLine n l off a
      | (s, _) => s
  | .csr =>
    let o := off - csrBase
    if s.csrWaits o l.kind.size then s
    else
      let (s, bs) := s.csrBytes (.core n) o l.kind.size
      s.loadBytes n l bs
  | .nothing => s.modCore n fun c => c.failLoad l 1

/-- The response of a load outside DMEM, once its turn at the port has come.
Log entry 73 (DEDUCED). -/
def State.loadMem (s : State) (n : CoreId) (l : Load) (r : Reply) : State :=
  if !s.portTurn n l.seq then s
  else match l.loc with
    | .here off => s.loadHere n l off
    | .remote ga =>
      match s.farReply (.load n l.seq) (fitReply r (ga.toNat % 64) l.kind.size) with
      | (s, some r) => s.loadReply n l r
      | (s, none) => s
    | .host hpa =>
      match s.hostAsk (.load n l.seq) hpa l.kind.size none r with
      | (s, some r) => s.loadReply n l r
      | (s, none) => s

/-- The response of a long operation: a chain-register read when 04 R83 allows it, a cache hit at once.
Log entries 14 (DESIGN CHOICE), 149 (DEDUCED). -/
def State.loadAnswer (s : State) (n : CoreId) (l : Load) (r : Reply) : State :=
  let chain := fun (upto : Nat) (g : Chain → Desc) =>
    match chainOf n with
    | none => s
    | some k => if s.chains[k].hasEnded upto then s.modCore n fun c => c.endLoad l (g s.chains[k]) else s
  match l.kind with
  | .chainReg off upto => chain upto fun h => w64 (h.read off)
  | .chainAcc i upto => chain upto fun h => w128 h.ca[i]
  | _ =>
    match l.hit, l.loc with
    | some bs, .here off => s.loadBytes n l (sliceAt bs (off % 64) l.kind.size)
    | _, _ => s.loadMem n l r

/-- LOAD_RESPONSE: the long operation number `i` of those outstanding; `r` is what a place outside the device answers. -/
def execLoadResponse (n : CoreId) (i : Nat) (r : Reply) (s : State) : Outcome :=
  match s.cores[n].loads[i]? with
  | none => .next s
  | some l => if s.cclkStopped then .next s else .next (s.loadAnswer n l r)

/-! ## STORE_ACCEPT -/

/-- The oldest posted store reaches its target.
Log entry 73 (DEDUCED). -/
def State.storeStep (s : State) (n : CoreId) (x : Store) (r : Reply) : State :=
  match x.loc with
  | .here off =>
    match s.place off with
    | .scratch => (s.scratchWrite (coreMaster n) off x.bytes).storeDone n
    | .ddr =>
      if s.heldAtHome (.store n) then s
      else match s.homeAccess off (.write (off % 64) x.bytes) (.want (.store n)) with
        | (s, .served _) => s.storeDone n
        | (s, _) => s
    | .csr =>
      let o := off - csrBase
      if s.csrWaits o x.bytes.length then s
      else
        let u := (s.csrPut (.core n) o x.bytes).storeDone n
        -- an own write of CORE_CFG acts by its bundle, whenever it is accepted (09 R195)
        if o = coreBase n + 0x90000 then
          u.modCore n fun c => { c with cfgDue := s.cores[n].cfgDue, mode := s.cores[n].mode }
        else u
    | .nothing => s.storeFail n 1
  | .remote _ =>
    match s.farReply (.store n) r with
    | (s, some r) => s.storeReply n r
    | (s, none) => s
  | .host hpa =>
    match s.hostAsk (.store n) hpa x.bytes.length (some [(0, x.bytes)]) r with
    | (s, some r) => s.storeReply n r
    | (s, none) => s

/-- STORE_ACCEPT. -/
def execStoreAccept (n : CoreId) (r : Reply) (s : State) : Outcome :=
  match s.cores[n].stores with
  | [] => .next s
  | x :: _ => if s.cclkStopped || s.loadBefore n x.seq then .next s else .next (s.storeStep n x r)

/-! ## FETCH_RESPONSE -/

/-- The response of a fetch at `va`.
Log entry 74 (DEDUCED). -/
def State.fetchAnswer (s : State) (n : CoreId) (t : ThreadId) (va : Word) (r : Reply) : State :=
  let (c, p) := s.fetchPlace s.cores[n] s.cores[n].threads[t].levelK va
  let s := s.modCore n fun _ => c
  match p with
  | none => s
  | some (.here off, cb) =>
    match s.place off with
    | .scratch =>
      let (s, a) := s.scratchRead (coreMaster n) (off / 64 * 64) 64
      s.fetchLine n t va off cb a
    | .ddr =>
      if s.heldFor (.fetch n t va) then s
      else match s.homeAccess (off / 64 * 64) .read (.want (.fetch n t va)) with
        | (s, .served a) => s.fetchLine n t va off cb a
        | (s, .held) => s
    | _ => s
  | some (.remote _, _) =>
    match s.farReply (.fetch n t va) (fitReply r 0 64) with
    | (s, some r) => s.fetchReply n t va r
    | (s, none) => s
  | some (.host hpa, _) =>
    match s.hostAsk (.fetch n t va) (BitVec.ofNat 64 (hpa.toNat / 64 * 64)) 64 none r with
    | (s, some r) => s.fetchReply n t va r
    | (s, none) => s

/-- FETCH_RESPONSE: `r` is what a place outside the device answers. -/
def execFetchResponse (n : CoreId) (t : ThreadId) (va : Word) (r : Reply) (s : State) : Outcome :=
  if s.cclkStopped || !s.cores[n].runs t then .next s else .next (s.fetchAnswer n t va r)

/-! ## The rest -/

/-- The division in progress ends. -/
def Core.divideEnd (c : Core) (t : ThreadId) : Core :=
  match c.divider with
  | none => c
  | some d =>
    if d.thread = t then Core.settle ({ c with divider := none }.setReg t (.d d.dest) (w64 d.value)) else c

/-- DIVIDE_COMPLETE. -/
def execDivideComplete (n : CoreId) (t : ThreadId) (s : State) : Outcome :=
  if s.cclkStopped then .next s else .next (s.modCore n (·.divideEnd t))

/-- TRAP_ENTRY. -/
def execTrapEntry (n : CoreId) (t : ThreadId) (s : State) : Outcome :=
  if s.cclkStopped then .next s else .next (s.asyncEntry n t)

/-- WFI_WAKE.
Log entry 77 (DEDUCED). -/
def execWfiWake (n : CoreId) (s : State) : Outcome := if s.cclkStopped then .next s else .next (s.wfiWake n)

end Sys2Proof.Machine
end

