-- ==== Sys2Proof/Machine/Flags.lean ====
section
/-! DEFINITION. The core's comparisons.  A core has no flags: bcc compares two registers (10 R220), and slt, sltu and seq
write their outcome to a register (10 R216).  The flag registers of a chain, CAS and CORE_NUMF, are written in
Machine/Station.lean and Machine/Strip.lean from the flags of Machine/Alu.lean and Machine/Fpu.lean. -/

namespace Sys2Proof.Machine

/-- The condition of bcc: 0 EQ, 1 NE, 2 LT, 3 GE as i64, 4 LTU, 5 GEU as u64 (10 R220). -/
def condHolds (cond : Nat) (a b : Word) : Bool :=
  match cond with
  | 0 => a = b
  | 1 => a ≠ b
  | 2 => decide (a.toInt < b.toInt)
  | 3 => decide (b.toInt ≤ a.toInt)
  | 4 => decide (a.toNat < b.toNat)
  | _ => decide (b.toNat ≤ a.toNat)

/-- 1 if a signed comparison holds, else 0 (slt). -/
def sltWord (a b : Word) : Word := if a.toInt < b.toInt then 1 else 0
/-- 1 if an unsigned comparison holds, else 0 (sltu). -/
def sltuWord (a b : Word) : Word := if a.toNat < b.toNat then 1 else 0
/-- 1 if the operands are equal, else 0 (seq). -/
def seqWord (a b : Word) : Word := if a = b then 1 else 0

end Sys2Proof.Machine
end

