-- ==== Sys2Proof/Machine/Slot.lean ====
section
/-! DEFINITION. What one instruction of a bundle does: its effects, computed from the state before the bundle (10 R209), or
the precise fault that it finds in execute (R211).  And how the effects take place. -/

namespace Sys2Proof.Machine

/-- One effect of an instruction. -/
inductive Eff where
  | reg (r : RegRef) (v : Desc)
  /-- A taken branch. -/
  | jump (target : Word)
  /-- A write of a control register (10 R204). -/
  | creg (num : Nat) (v : Word)
  | dmem (a : Nat) (bs : List Byte)
  /-- Words whose single-bit errors the bundle's reads corrected. -/
  | fixed (ws : List Nat)
  /-- A store outside DMEM. -/
  | post (loc : Phys) (va : Word) (bs : List Byte)
  /-- A long operation that fills `dest` (09 R191). -/
  | load (dest : RegRef) (kind : LoadKind) (loc : Phys) (va : Word) (cached : Bool)
  | divide (rd : Fin 32) (v : Word)
  /-- Invalidates a line of the data or the instruction cache; every line. -/
  | dline (line : Nat)
  | iline (line : Nat)
  | dall
  | iall
  /-- iinv and iinvall empty the fetch buffer (10 R215). -/
  | refetch
  /-- trap: entry after the bundle. -/
  | soft (info : Nat)
  | eret (pc status : Word)
  | sleep
  | launch (l : Launch)
  | stop
  | chWrite (off : Nat) (v : Word)
  | caLoad (i : Fin 8) (v : Wide)
  deriving DecidableEq, Repr

/-- What executing one instruction comes to. -/
inductive SlotRes where
  | ok (es : List Eff)
  | fault (x : Cause)
  /-- eret waits for its frame, whose reads are under way (10 R223). -/
  | wait
  deriving DecidableEq, Repr

/-- The meaning of an operation in a bundle that ends at `na`.  The state it answers differs from the one it is given only
in first-level TLB fills, in frame reads issued, and in CORE_LCHK. -/
abbrev Sem := State → CoreId → ThreadId → Word → Fields → State × SlotRes

/-- An operation that only writes registers. -/
def pureSem (g : Core → Thread → Fields → List (RegRef × Desc)) : Sem := fun s n t _ f =>
  (s, .ok ((g s.cores[n] s.cores[n].threads[t] f).map fun p => .reg p.1 p.2))

/-- The thread that executes. -/
def State.thread (s : State) (n : CoreId) (t : ThreadId) : Thread := s.cores[n].threads[t]

/-! ## Control registers (10 R204) -/

/-- TID of a thread: the node's address bits, the thread in barrel mode, and the instance. -/
def State.tid (s : State) (n : CoreId) (t : ThreadId) : Word :=
  BitVec.ofNat 64 (s.nodeId <<< 44 + (if s.cores[n].barrel then t.val else 0) <<< 6 + n.val)

/-- The STATUS that a thread reads. -/
def State.statusOf (s : State) (n : CoreId) (t : ThreadId) : Word :=
  (s.thread n t).status &&& 3 ||| (if s.cores[n].barrel then 4 else 0)

/-- Reads control register `num`.
Log entry 63 (DEDUCED). -/
def State.readCreg (s : State) (n : CoreId) (t : ThreadId) (num : Nat) : Word :=
  let h := s.thread n t
  match num with
  | 0 => s.statusOf n t
  | 1 => h.cause
  | 2 => h.era
  | 3 => h.est
  | 4 => s.cores[n].evb
  | 5 => s.cores[n].slim
  | 6 => s.tid n t
  | 7 => s.cores[n].cycle
  | _ => 0

/-- Writes control register `num`; RO fields keep their values. -/
def Core.writeCreg (c : Core) (t : ThreadId) (num : Nat) (v : Word) : Core :=
  match num with
  | 0 => c.writeStatus t v
  | 1 => c.modThread t fun h => { h with cause := v &&& 0xFFFF }
  | 2 => c.modThread t fun h => { h with era := v &&& ~~~(1 : Word) }
  | 3 => c.modThread t fun h => { h with est := v &&& 7 }
  | 4 => { c with evb := v &&& ~~~(1 : Word) }
  | 5 => { c with slim := v &&& ~~~(7 : Word) }
  | 7 => { c with cycle := v }
  | _ => c

/-! ## Effects -/

/-- A long operation is issued: a line that the data cache holds answers it. -/
def Core.issueLoad (c : Core) (t : ThreadId) (dest : RegRef) (kind : LoadKind) (loc : Phys) (va : Word)
    (cached : Bool) : Core :=
  let hit := match loc with
    | .here off => if cached then cacheFind c.dcache (off / 64) else none
    | _ => none
  let c := match hit with
    | some l => { c with dcache := cachePut l c.dcache }
    | none => c
  { c with
    loads := c.loads ++ [{ thread := t, dest := dest, kind := kind, loc := loc, va := va, cached := cached,
                           hit := hit.map (·.bytes), seq := c.seq, levelK := c.threads[t].levelK }]
    seq := c.seq + 1 }

/-- One effect takes place; `trap` is handled after the whole bundle. -/
def State.applyEff (s : State) (n : CoreId) (t : ThreadId) (e : Eff) : State :=
  let onChain := fun (g : State → ChainId → State) =>
    match chainOf n with
    | some k => g s k
    | none => s
  match e with
  | .reg r v => s.modCore n (·.setReg t r v)
  | .jump a =>
    let a := a &&& ~~~(1 : Word)
    let buf := s.targetBuf s.cores[n] a
    s.modThread n t fun h => { h with pc := a, buf := buf }
  | .creg i v => s.modCore n (·.writeCreg t i v)
  | .dmem a bs => s.modCore n (·.dmemStore a bs)
  | .fixed ws => s.fixWords n ws
  | .post loc va bs => s.modCore n fun c => (c.post t loc va bs).ownCfg n loc bs
  | .load dest kind loc va cached => s.modCore n (·.issueLoad t dest kind loc va cached)
  | .divide rd v => s.modCore n fun c => { c with divider := some { thread := t, dest := rd, value := v } }
  | .dline l => s.modCore n fun c => { c with dcache := c.dcache.filter (·.line ≠ l) }
  | .iline l => s.modCore n fun c => { c with icache := c.icache.filter (·.line ≠ l) }
  | .dall => s.modCore n fun c => { c with dcache := [] }
  | .iall => s.modCore n fun c => { c with icache := [] }
  | .refetch => s.modThread n t fun h => { h with buf := none }
  | .soft _ => s
  | .eret pc st =>
    s.modThread n t fun h => { h with
      pc := pc &&& ~~~(1 : Word), status := st &&& 3 ||| h.status &&& 4, a := h.a.set 15 (h.sp + 16), buf := none }
  | .sleep => s.modCore n fun c => { c with stat := 2 }
  | .launch l =>
    onChain fun s k => s.modChain k fun h => { h with queued := some l, issued := l.serial }
  | .stop => onChain fun s k => s.requestStop k
  | .chWrite off v => onChain fun s k => s.chainWrite k off v
  | .caLoad i v =>
    onChain fun s k => s.modChain k fun h => Chain.applyCaLoads { h with caLoads := h.caLoads ++ [(h.issued, i, v)] }

/-- All effects of a bundle. -/
def State.applyEffs (s : State) (n : CoreId) (t : ThreadId) (es : List Eff) : State :=
  es.foldl (fun s e => s.applyEff n t e) s

end Sys2Proof.Machine
end

