-- ==== Sys2Proof/Machine/AUnit.lean ====
section
/-! DEFINITION. The A unit (10 R212 to R215): addresses, loads, stores, atomics and cache instructions. -/

namespace Sys2Proof.Machine

/-- adda: Ad = Aa + b. -/
def semAdda : Sem := pureSem fun _ h f => [(regA f.rd, w64 (h.rA f.ra + h.bA f))]
/-- suba: Ad = Aa − b. -/
def semSuba : Sem := pureSem fun _ h f => [(regA f.rd, w64 (h.rA f.ra - h.bA f))]
/-- anda: Ad = Aa & b. -/
def semAnda : Sem := pureSem fun _ h f => [(regA f.rd, w64 (h.rA f.ra &&& h.bA f))]
/-- movad: Ad = Da. -/
def semMovad : Sem := pureSem fun _ h f => [(regA f.rd, w64 (h.rD f.ra))]
/-- liha: Ad = (IMM << 32) | (Ad & 0xFFFF_FFFF). -/
def semLiha : Sem := pureSem fun _ h f =>
  [(regA f.rd, w64 (f.imm.setWidth 64 <<< 32 ||| h.rA f.rd &&& 0xFFFFFFFF))]

/-- The update of a post-modifying access. -/
def postEff (h : Thread) (f : Fields) (size : Nat) : List Eff :=
  if f.post then [.reg (regA f.ra) (w64 (h.posted f size))] else []

/-- The correction of words that an instruction has read (09 R188). -/
def fixEff (ws : List Nat) : List Eff := if ws.isEmpty then [] else [.fixed ws]

/-- A load of `size` bytes into `dest`. -/
def semLoad (size : Nat) (sext : Bool) (dest : RegRef) : Sem := fun s n t _ f =>
  let h := s.thread n t
  let ea := h.ea f
  match s.dataAccess s.cores[n] h.levelK .read ea size with
  | (c, .error x) => (s.modCore n fun _ => c, .fault x)
  | (c, .ok (.dmem a)) =>
    (s.modCore n fun _ => c,
      .ok (.reg dest (loadValue (readCells c.dmem a size) sext) :: postEff h f size ++ fixEff (c.dmemSoft a size)))
  | (c, .ok (.far loc cached)) =>
    (s.modCore n fun _ => c, .ok (.load dest (.read size sext) loc ea cached :: postEff h f size))

/-- ld.d: SIZE bytes, extended by SEXT. -/
def semLdD : Sem := fun s n t na f => semLoad f.size (f.md.getLsbD 2) (regD f.rd) s n t na f
/-- ld.a: 8 bytes. -/
def semLdA : Sem := fun s n t na f => semLoad 8 false (regA f.rd) s n t na f
/-- ld.x: 16 bytes. -/
def semLdX : Sem := fun s n t na f => semLoad 16 false (regX f.rd) s n t na f
/-- ld.s: 32 bytes. -/
def semLdS : Sem := fun s n t na f => semLoad 32 false (regS f.rd) s n t na f

/-- A store of `size` bytes of `v`. -/
def semStore (size : Nat) (v : Nat) : Sem := fun s n t _ f =>
  let h := s.thread n t
  let ea := h.ea f
  match s.dataAccess s.cores[n] h.levelK .write ea size with
  | (c, .error x) => (s.modCore n fun _ => c, .fault x)
  | (c, .ok (.dmem a)) => (s.modCore n fun _ => c, .ok (.dmem a (bytesOf size v) :: postEff h f size))
  | (c, .ok (.far loc _)) => (s.modCore n fun _ => c, .ok (.post loc ea (bytesOf size v) :: postEff h f size))

/-- st.d: the low SIZE bytes of Ds. -/
def semStD : Sem := fun s n t na f => semStore f.size ((s.thread n t).rD f.rd).toNat s n t na f
/-- st.a. -/
def semStA : Sem := fun s n t na f => semStore 8 ((s.thread n t).rA f.rd).toNat s n t na f
/-- st.x. -/
def semStX : Sem := fun s n t na f => semStore 16 (s.cores[n].rX f.rd).toNat s n t na f

/-- dinv and iinv translate as ld.d does, check no permission, and then the address (12 R247); the line's local number goes to `mk`. -/
def semInv (mk : Nat → List Eff) (always : List Eff) : Sem := fun s n t _ f =>
  let h := s.thread n t
  let ea := h.ea f
  let rest := postEff h f 8 ++ always
  if ea.toNat < dmemSize then (s, .ok rest)
  else match s.cores[n].lookup false ea with
    | (c, none) => (s.modCore n fun _ => c, .fault { code := codeDtlb, info := 0, addr := some ea })
    | (c, some e) =>
      let s := s.modCore n fun _ => c
      match s.targetOf e ea with
      | none => (s, .fault { code := codeBus, info := 0, addr := some ea })
      | some p =>
        match s.reachCheck h.levelK .read ea p with
        | some x => (s, .fault x)
        | none => (s, .ok ((match p with
          | .here off => mk (off / 64)
          | _ => []) ++ rest))

/-- dinv. -/
def semDinv : Sem := semInv (fun l => [.dline l]) []
/-- iinv: also empties the fetch buffer (R215). -/
def semIinv : Sem := semInv (fun l => [.iline l]) [.refetch]
/-- dinvall. -/
def semDinvall : Sem := fun s _ _ _ _ => (s, .ok [.dall])
/-- iinvall. -/
def semIinvall : Sem := fun s _ _ _ _ => (s, .ok [.iall, .refetch])

/-- An atomic on the scratch word at ea (R214). -/
def semAtomic (mk : Word → LoadKind) : Sem := fun s n t _ f =>
  let h := s.thread n t
  let ea := h.ea f
  match s.dataAccess s.cores[n] h.levelK .atomic ea 8 with
  | (c, .error x) => (s.modCore n fun _ => c, .fault x)
  | (c, .ok (.dmem _)) => (s.modCore n fun _ => c, .fault { code := codeBus, info := 0, addr := some ea })
  | (c, .ok (.far loc _)) => (s.modCore n fun _ => c, .ok [.load (regD f.rd) (mk (h.rD f.rb)) loc ea false])

/-- aadd. -/
def semAadd : Sem := semAtomic .aadd
/-- aswp. -/
def semAswp : Sem := semAtomic .aswp

end Sys2Proof.Machine
end

