-- ==== Sys2Proof/Machine/BUnit.lean ====
section
/-! DEFINITION. The B unit (10 R220 to R224): branches, trap, eret, wfi and the control registers. -/

namespace Sys2Proof.Machine

/-- BA + 2 × IMM. -/
def branchTarget (ba : Word) (f : Fields) : Word := ba + (f.simm <<< 1)

/-- nop. -/
def semNop : Sem := fun s _ _ _ _ => (s, .ok [])
/-- br. -/
def semBr : Sem := fun s n t _ f => (s, .ok [.jump (branchTarget (s.thread n t).pc f)])
/-- bcc. -/
def semBcc : Sem := fun s n t _ f =>
  let h := s.thread n t
  let b := if f.md.getLsbD 3 then 0 else h.rD f.rb
  (s, .ok (if condHolds (f.md.extractLsb' 0 3).toNat (h.rD f.ra) b then [.jump (branchTarget h.pc f)] else []))
/-- dbnz. -/
def semDbnz : Sem := fun s n t _ f =>
  let h := s.thread n t
  let v := h.rD f.rd - 1
  (s, .ok (.reg (regD f.rd) (w64 v) :: (if v ≠ 0 then [.jump (branchTarget h.pc f)] else [])))
/-- jal: Ad = NA. -/
def semJal : Sem := fun s n t na f =>
  (s, .ok [.reg (regA f.rd) (w64 na), .jump (branchTarget (s.thread n t).pc f)])
/-- jr. -/
def semJr : Sem := fun s n t _ f => (s, .ok [.jump ((s.thread n t).rA f.ra)])
/-- jalr. -/
def semJalr : Sem := fun s n t na f => (s, .ok [.reg (regA f.rd) (w64 na), .jump ((s.thread n t).rA f.ra)])
/-- trap: entry after the bundle (R221).
Log entry 78 (DEDUCED). -/
def semTrap : Sem := fun s _ _ _ f => (s, .ok [.soft f.md.toNat])

/-- What a word of eret's frame is (R223, 11 R238): in DMEM, or a read outside it that has a value, has failed or is to come. -/
inductive FrameAt where
  | dmem (v : Word) (soft : List Nat)
  | word (v : Word)
  | failed
  | far (loc : Phys) (cached : Bool)
  deriving DecidableEq, Repr

/-- Word `i` of the frame at `a`, or the fault that reading it meets.
Log entry 68 (DESIGN CHOICE). -/
def State.frameAt (s : State) (n : CoreId) (t : ThreadId) (a : Word) (i : Fin 2) : State × Except Cause FrameAt :=
  let h := s.thread n t
  match s.dataAccess s.cores[n] h.levelK .read a 8 with
  | (c, .error x) => (s.modCore n fun _ => c, .error x)
  | (c, .ok (.dmem x)) => (s.modCore n fun _ => c, .ok (.dmem (wordOf (readCells c.dmem x 8)) (c.dmemSoft x 8)))
  | (c, .ok (.far loc cached)) =>
    (s.modCore n fun _ => c, .ok (match h.frame[i] with
      | .got v => .word v
      | .failed => .failed
      | .unread => .far loc cached))

/-- Word `i` of the frame is asked for, once. -/
def State.askFrame (s : State) (n : CoreId) (t : ThreadId) (a : Word) (i : Fin 2) : FrameAt → State
  | .far loc cached =>
    if s.cores[n].loads.any fun l => decide (l.thread = t) && decide (l.dest = .frame i) then s
    else s.modCore n fun c => c.issueLoad t (.frame i) (.read 8 false) loc a cached
  | _ => s

/-- A word of the frame as eret takes it: a failed read leaves a free value; none while it is to come.
Log entry 68 (DESIGN CHOICE). -/
def State.takeFrame (s : State) (x : FrameAt) : State × Option (Word × List Eff) :=
  match x with
  | .dmem v soft => (s, some (v, fixEff soft))
  | .word v => (s, some (v, []))
  | .failed => (s.tick, some (Config.freeWord s.free, []))
  | .far _ _ => (s, none)

/-- A read that is to come. -/
def FrameAt.toCome : FrameAt → Nat
  | .far _ _ => 1
  | _ => 0

/-- eret: the frame's ERA and EST; a frame read that faults leaves the bundle without effect.  A word outside DMEM is read as a
load of the core's port, within the limit of 4 (09 R191), and eret waits for it.
Log entry 68 (DESIGN CHOICE). -/
def semEret : Sem := fun s n t _ _ =>
  let h := s.thread n t
  match s.frameAt n t h.sp 0 with
  | (s, .error x) => (s, .fault x)
  | (s, .ok x0) =>
    match s.frameAt n t (h.sp + 8) 1 with
    | (s, .error x) => (s, .fault x)
    | (s, .ok x1) =>
      if x0.toCome + x1.toCome = 0 then
        match s.takeFrame x0 with
        | (s, some (pc, es)) =>
          match s.takeFrame x1 with
          | (s, some (st, es')) => (s, .ok (.eret pc st :: es ++ es'))
          | (s, none) => (s, .wait)
        | (s, none) => (s, .wait)
      else if s.cores[n].loads.any fun l => decide (l.thread = t) && l.ofFrame then (s, .wait)
      else if 4 < (s.cores[n].loads.filter (·.kind.isMem)).length + x0.toCome + x1.toCome then (s, .wait)
      else ((s.askFrame n t h.sp 0 x0).askFrame n t (h.sp + 8) 1 x1, .wait)

/-- wfi.
Log entry 77 (DEDUCED). -/
def semWfi : Sem := fun s _ _ _ _ => (s, .ok [.sleep])
/-- mfcr. -/
def semMfcr : Sem := fun s n t _ f => (s, .ok [.reg (regD f.rd) (w64 (s.readCreg n t f.md.toNat))])
/-- mtcr. -/
def semMtcr : Sem := fun s n t _ f => (s, .ok [.creg f.md.toNat ((s.thread n t).rD f.ra)])

end Sys2Proof.Machine
end

