-- ==== Sys2Proof/Machine/DUnit.lean ====
section
/-! DEFINITION. The D unit (10 R216, R217): integer arithmetic on D registers. -/

namespace Sys2Proof.Machine

/-- An ALU operation of R120 applied to the registers. -/
def semAlu (op : Nat) : Sem := pureSem fun _ h f =>
  match aluInt op (h.rD f.ra) (h.bD f) with
  | some (v, _) => [(regD f.rd, w64 v)]
  | none => []

/-- add. -/
def semAdd : Sem := semAlu 0x00
/-- sub. -/
def semSub : Sem := semAlu 0x01
/-- neg. -/
def semNeg : Sem := semAlu 0x04
/-- abs. -/
def semAbs : Sem := semAlu 0x06
/-- mins. -/
def semMins : Sem := semAlu 0x08
/-- maxs. -/
def semMaxs : Sem := semAlu 0x09
/-- minu. -/
def semMinu : Sem := semAlu 0x0A
/-- maxu. -/
def semMaxu : Sem := semAlu 0x0B
/-- and. -/
def semAnd : Sem := semAlu 0x10
/-- or. -/
def semOr : Sem := semAlu 0x11
/-- xor. -/
def semXor : Sem := semAlu 0x12
/-- andn. -/
def semAndn : Sem := semAlu 0x13
/-- not. -/
def semNot : Sem := semAlu 0x14
/-- shl. -/
def semShl : Sem := semAlu 0x18
/-- shr. -/
def semShr : Sem := semAlu 0x19
/-- sar. -/
def semSar : Sem := semAlu 0x1A
/-- rol. -/
def semRol : Sem := semAlu 0x1B
/-- sext. -/
def semSext : Sem := semAlu 0x20
/-- zext. -/
def semZext : Sem := semAlu 0x21
/-- clz. -/
def semClz : Sem := semAlu 0x24
/-- ctz. -/
def semCtz : Sem := semAlu 0x25
/-- popc. -/
def semPopc : Sem := semAlu 0x26
/-- bswap. -/
def semBswap : Sem := semAlu 0x27
/-- mov. -/
def semMov : Sem := semAlu 0x33

/-- mul: the low 64 bits of the product. -/
def semMul : Sem := pureSem fun _ h f => [(regD f.rd, w64 (h.rD f.ra * h.bD f))]
/-- mulhs. -/
def semMulhs : Sem := pureSem fun _ h f => [(regD f.rd, w64 (mulHiS (h.rD f.ra) (h.bD f)))]
/-- mulhu. -/
def semMulhu : Sem := pureSem fun _ h f => [(regD f.rd, w64 (mulHiU (h.rD f.ra) (h.bD f)))]

/-- A division: a long operation whose result the divider holds (R217). -/
def semDivide (op : Nat) : Sem := fun s n t _ f =>
  let h := s.thread n t
  (s, .ok [.divide ⟨f.rd.toNat % 32, by omega⟩ (divideD op (f.md.getLsbD 0) (h.rD f.ra) (h.bD f))])

/-- divs. -/
def semDivs : Sem := semDivide 0
/-- divu. -/
def semDivu : Sem := semDivide 1
/-- rems. -/
def semRems : Sem := semDivide 2
/-- remu. -/
def semRemu : Sem := semDivide 3

/-- slt. -/
def semSlt : Sem := pureSem fun _ h f => [(regD f.rd, w64 (sltWord (h.rD f.ra) (h.bD f)))]
/-- sltu. -/
def semSltu : Sem := pureSem fun _ h f => [(regD f.rd, w64 (sltuWord (h.rD f.ra) (h.bD f)))]
/-- seq. -/
def semSeq : Sem := pureSem fun _ h f => [(regD f.rd, w64 (seqWord (h.rD f.ra) (h.bD f)))]
/-- li: Dd = IMM. -/
def semLi : Sem := pureSem fun _ _ f => [(regD f.rd, w64 f.simm)]
/-- lih: Dd = (IMM << 32) | (Dd & 0xFFFF_FFFF). -/
def semLih : Sem := pureSem fun _ h f =>
  [(regD f.rd, w64 (f.imm.setWidth 64 <<< 32 ||| h.rD f.rd &&& 0xFFFFFFFF))]
/-- movda: Dd = Aa. -/
def semMovda : Sem := pureSem fun _ h f => [(regD f.rd, w64 (h.rA f.ra))]

end Sys2Proof.Machine
end

