-- ==== Sys2Proof/Machine/VUnit.lean ====
section
/-! DEFINITION. The V unit (10 R225 to R227; 04 R60, R79 to R83): launches, chain registers, accumulators and S registers. -/

namespace Sys2Proof.Machine

/-- The chain beside a core that has one; management cores take a trap before this is asked (R210 order 5). -/
def withChain (n : CoreId) (s : State) (g : ChainId → State × SlotRes) : State × SlotRes :=
  match chainOf n with
  | some c => g c
  | none => (s, .ok [])

/-- The parcels of DMEM from `a`: those of 64 words; words beyond its end read as zero (R226). -/
def Core.wordParcels (c : Core) (a : Nat) : List Parcel :=
  (upto 256).map fun k =>
    let x := a + 2 * k
    if x + 1 < dmemSize then BitVec.ofNat 16 (natOf (readCells c.dmem x 2)) else 0

/-- The station parcels at a chain word's address, and whether one has STOP. -/
def Core.chainWord (c : Core) (a : Word) : List StnParcel × Bool := splitStations 16 (c.wordParcels a.toNat)

/-- The 64-bit words that the chain reads: L of R226. -/
def chainWordLen (ps : List StnParcel) : Nat := ((ps.map (·.length)).foldl (· + ·) 0 + 3) / 4

/-- The address that chiss takes the alignment trap on. -/
def chissBad (a : Word) : Bool := a.toNat % 8 ≠ 0 || dmemSize ≤ a.toNat

/-- chiss in its execute state: capture and checks (R226 step 4, 04 R60, 08 R169, R170).
Log entry 70 (DEDUCED). -/
def semChiss : Sem := fun s n t _ f => withChain n s fun c =>
  let k := s.cores[n]
  let h := s.thread n t
  let a := h.rA f.ra
  let o := h.rD f.rb
  if chissBad a then (s, .fault { code := codeAlign, info := 0, addr := some a })
  else
    let (ps, stop) := k.chainWord a
    match k.dmemBad a.toNat (min (8 * chainWordLen ps) (dmemSize - a.toNat)) with
    | some w => (s, .fault { code := codeMem, info := 1, addr := some (BitVec.ofNat 64 (8 * w)) })
    | none =>
      let ch := s.chains[c]
      match launchCheck ps stop o k.s ch.stripLen h.levelK ch.markCfg with
      | some e =>
        (s.modChain c fun x => { x with lchk := e.lchk }, .fault { code := codeChain, info := e.code, addr := none })
      | none =>
        (s, .ok (.launch
          { word := ps.flatten, sregs := k.s, n := (o.extractLsb' 0 41).toNat, caClear := o.extractLsb' 48 8,
            overlap := o.getLsbD 56, sl := ch.stripLen, levelK := h.levelK, markCfg := ch.markCfg,
            serial := ch.issued + 1 }
          :: fixEff (k.dmemSoft a.toNat (min (8 * chainWordLen ps) (dmemSize - a.toNat)))))

/-- chwait: the wait is R192's; the instruction itself has no further effect. -/
def semChwait : Sem := fun s _ _ _ _ => (s, .ok [])

/-- chstop. -/
def semChstop : Sem := fun s _ _ _ _ => (s, .ok [.stop])

/-- A read of this chain register waits for launches issued before it (04 R83). -/
def chainReadWaits (off : Nat) : Bool := (caOf off).isSome || off = 0x010 || off = 0x018 || off = 0x020

/-- rdch. -/
def semRdch : Sem := fun s n _ _ f => withChain n s fun c =>
  let off := 4 * f.cro
  let ch := s.chains[c]
  if chainReadWaits off && !ch.hasEnded ch.issued then
    (s, .ok [.load (regD f.rd) (.chainReg off ch.issued) (.here 0) 0 false])
  else (s, .ok [.reg (regD f.rd) (w64 (ch.read off))])

/-- wrch. -/
def semWrch : Sem := fun s n t _ f => (s, .ok [.chWrite (4 * f.cro) ((s.thread n t).rD f.rd)])

/-- The accumulator number of a field. -/
def caIndex (v : BitVec 5) : Fin 8 := ⟨v.toNat % 8, by omega⟩

/-- ldca. -/
def semLdca : Sem := fun s n _ _ f => (s, .ok [.caLoad (caIndex f.rd) (s.cores[n].rX f.ra)])

/-- rdca. -/
def semRdca : Sem := fun s n _ _ f => withChain n s fun c =>
  let ch := s.chains[c]
  let i := caIndex f.ra
  if !ch.hasEnded ch.issued then (s, .ok [.load (regX f.rd) (.chainAcc i ch.issued) (.here 0) 0 false])
  else (s, .ok [.reg (regX f.rd) (w128 ch.ca[i])])

/-- Puts a word into an S register. -/
def setWord (d : Desc) (w : Nat) (v : Word) : Desc :=
  (d &&& ~~~((0xFFFFFFFFFFFFFFFF : Desc) <<< (64 * w))) ||| (v.setWidth 256 <<< (64 * w))

/-- Word MOD of the operation. -/
def wordIndex (f : Fields) : Nat := (f.md.extractLsb' 0 2).toNat

/-- ssw. -/
def semSsw : Sem := pureSem fun c h f => [(regS f.rd, setWord (c.rS f.rd) (wordIndex f) (h.rD f.ra))]
/-- sswa. -/
def semSswa : Sem := pureSem fun c h f => [(regS f.rd, setWord (c.rS f.rd) (wordIndex f) (h.rA f.ra))]
/-- rsw. -/
def semRsw : Sem := pureSem fun c _ f => [(regD f.rd, w64 ((c.rS f.ra).extractLsb' (64 * wordIndex f) 64))]
/-- smov. -/
def semSmov : Sem := pureSem fun c _ f => [(regS f.rd, c.rS f.ra)]
/-- sclr. -/
def semSclr : Sem := pureSem fun _ _ f => [(regS f.rd, 0)]

end Sys2Proof.Machine
end

