-- ==== Sys2Proof/Machine/XUnit.lean ====
section
/-! DEFINITION. The X unit (10 R218, R219): 128-bit accumulators and the paired fetch from DMEM. -/

namespace Sys2Proof.Machine

/-- One operand of xmac and xfma: its alignment, then its region, then its check bits (R219, 09 R188). -/
def Core.xOperand (c : Core) (a : Word) : Except Cause Word :=
  if a.toNat % 8 ≠ 0 then .error { code := codeAlign, info := 0, addr := some a }
  else if dmemSize ≤ a.toNat then .error { code := codeBus, info := 0, addr := some a }
  else match c.dmemBad a.toNat 8 with
    | some w => .error { code := codeMem, info := 1, addr := some (BitVec.ofNat 64 (8 * w)) }
    | none => .ok (wordOf (readCells c.dmem a.toNat 8))

/-- The byte distances sa and sb. -/
def xStrides (f : Fields) : Word × Word :=
  if f.hasImm then ((f.imm.extractLsb' 0 16).signExtend 64, (f.imm.extractLsb' 16 16).signExtend 64) else (8, 8)

/-- The post-modification of both addresses, Aa first.
Log entry 64 (DEDUCED). -/
def xPost (h : Thread) (f : Fields) : List Eff :=
  if f.md.getLsbD 1 then
    let d := xStrides f
    let a := h.rA f.ra + d.1
    let b := (if f.ra.toNat % 16 = f.rb.toNat % 16 then a else h.rA f.rb) + d.2
    [.reg (regA f.ra) (w64 a), .reg (regA f.rb) (w64 b)]
  else []

/-- Both operands, and what `g` makes of them and the old Xd.
Log entry 64 (DEDUCED). -/
def semPaired (g : Fields → Wide → Word → Word → Wide) : Sem := fun s n t _ f =>
  let c := s.cores[n]
  let h := s.thread n t
  match c.xOperand (h.rA f.ra) with
  | .error x => (s, .fault x)
  | .ok p =>
    match c.xOperand (h.rA f.rb) with
    | .error x => (s, .fault x)
    | .ok q =>
      (s, .ok (.reg (regX f.rd) (w128 (g f (c.rX f.rd) p q)) :: xPost h f
        ++ fixEff (c.dmemSoft (h.rA f.ra).toNat 8 ++ c.dmemSoft (h.rA f.rb).toNat 8)))

/-- xmac: SIGNED multiplies as i64. -/
def semXmac : Sem := semPaired fun f x p q =>
  x + (if f.md.getLsbD 0 then BitVec.ofInt 128 (p.toInt * q.toInt) else BitVec.ofNat 128 (p.toNat * q.toNat))

/-- xfma: one rounding, subnormals as MAC takes them; bits 127:64 keep their value. -/
def semXfma : Sem := semPaired fun _ x p q =>
  let r := fp64.fma false 0 p.toNat q.toNat (x.toNat % 2 ^ 64)
  BitVec.ofNat 128 (x.toNat / 2 ^ 64 * 2 ^ 64 + r.v % 2 ^ 64)

/-- xadd. -/
def semXadd : Sem := pureSem fun c _ f => [(regX f.rd, w128 (c.rX f.ra + c.rX f.rb))]
/-- xsub. -/
def semXsub : Sem := pureSem fun c _ f => [(regX f.rd, w128 (c.rX f.ra - c.rX f.rb))]
/-- xext: MOD bit 0 sign-extends. -/
def semXext : Sem := pureSem fun _ h f =>
  [(regX f.rd, w128 (if f.md.getLsbD 0 then (h.rD f.ra).signExtend 128 else (h.rD f.ra).setWidth 128))]
/-- xpack: Db over Da. -/
def semXpack : Sem := pureSem fun _ h f => [(regX f.rd, w128 (h.rD f.rb ++ h.rD f.ra))]
/-- xlo. -/
def semXlo : Sem := pureSem fun c _ f => [(regD f.rd, w64 ((c.rX f.ra).extractLsb' 0 64))]
/-- xhi. -/
def semXhi : Sem := pureSem fun c _ f => [(regD f.rd, w64 ((c.rX f.ra).extractLsb' 64 64))]
/-- xclr. -/
def semXclr : Sem := pureSem fun _ _ f => [(regX f.rd, 0)]
/-- xmov. -/
def semXmov : Sem := pureSem fun c _ f => [(regX f.rd, w128 (c.rX f.ra))]

end Sys2Proof.Machine
end

