-- ==== Sys2Proof/Machine/Bundle.lean ====
section
/-! DEFINITION. How a bundle runs (09 R189 to R197, 10 R208 to R211): instructions reach decode one after another; the one
with STOP completes the bundle, which waits, faults or takes effect as a whole. -/

namespace Sys2Proof.Machine

/-- The meaning of an operation of the A unit. -/
def semUnitA (op : Nat) : Option Sem :=
  match op with
  | 0x01 => some semAdda
  | 0x02 => some semSuba
  | 0x03 => some semAnda
  | 0x05 => some semMovad
  | 0x06 => some semLiha
  | 0x10 => some semLdD
  | 0x11 => some semLdA
  | 0x12 => some semLdX
  | 0x13 => some semLdS
  | 0x18 => some semStD
  | 0x19 => some semStA
  | 0x1A => some semStX
  | 0x20 => some semDinv
  | 0x21 => some semIinv
  | 0x22 => some semDinvall
  | 0x23 => some semIinvall
  | 0x28 => some semAadd
  | 0x29 => some semAswp
  | _ => none

/-- The meaning of an operation of the D unit. -/
def semUnitD (op : Nat) : Option Sem :=
  match op with
  | 0x00 => some semAdd
  | 0x01 => some semSub
  | 0x04 => some semNeg
  | 0x06 => some semAbs
  | 0x08 => some semMins
  | 0x09 => some semMaxs
  | 0x0A => some semMinu
  | 0x0B => some semMaxu
  | 0x10 => some semAnd
  | 0x11 => some semOr
  | 0x12 => some semXor
  | 0x13 => some semAndn
  | 0x14 => some semNot
  | 0x18 => some semShl
  | 0x19 => some semShr
  | 0x1A => some semSar
  | 0x1B => some semRol
  | 0x20 => some semSext
  | 0x21 => some semZext
  | 0x24 => some semClz
  | 0x25 => some semCtz
  | 0x26 => some semPopc
  | 0x27 => some semBswap
  | 0x28 => some semMul
  | 0x29 => some semMulhs
  | 0x2A => some semMulhu
  | 0x2C => some semDivs
  | 0x2D => some semDivu
  | 0x2E => some semRems
  | 0x2F => some semRemu
  | 0x33 => some semMov
  | 0x34 => some semSlt
  | 0x35 => some semSltu
  | 0x36 => some semSeq
  | 0x38 => some semLi
  | 0x39 => some semLih
  | 0x3A => some semMovda
  | _ => none

/-- The meaning of an operation of the X unit. -/
def semUnitX (op : Nat) : Option Sem :=
  match op with
  | 0x00 => some semXmac
  | 0x01 => some semXfma
  | 0x02 => some semXadd
  | 0x03 => some semXsub
  | 0x04 => some semXext
  | 0x05 => some semXpack
  | 0x06 => some semXlo
  | 0x07 => some semXhi
  | 0x08 => some semXclr
  | 0x09 => some semXmov
  | _ => none

/-- The meaning of an operation of the B unit. -/
def semUnitB (op : Nat) : Option Sem :=
  match op with
  | 0x00 => some semNop
  | 0x01 => some semBr
  | 0x02 => some semBcc
  | 0x03 => some semDbnz
  | 0x04 => some semJal
  | 0x05 => some semJr
  | 0x06 => some semJalr
  | 0x08 => some semTrap
  | 0x09 => some semEret
  | 0x0A => some semWfi
  | 0x0B => some semMfcr
  | 0x0C => some semMtcr
  | _ => none

/-- The meaning of an operation of the V unit. -/
def semUnitV (op : Nat) : Option Sem :=
  match op with
  | 0x00 => some semChiss
  | 0x01 => some semChwait
  | 0x02 => some semChstop
  | 0x04 => some semRdch
  | 0x05 => some semWrch
  | 0x08 => some semLdca
  | 0x09 => some semRdca
  | 0x10 => some semSsw
  | 0x11 => some semSswa
  | 0x12 => some semRsw
  | 0x13 => some semSmov
  | 0x14 => some semSclr
  | _ => none

/-- The meaning of a slot; a reserved operation has none. -/
def SlotI.sem (i : SlotI) : Option Sem :=
  match i.unit.toNat with
  | 0 => semUnitA i.op.toNat
  | 1 => semUnitD i.op.toNat
  | 2 => semUnitX i.op.toNat
  | 3 => semUnitB i.op.toNat
  | 4 => semUnitV i.op.toNat
  | _ => none

/-- What executing a bundle's instructions comes to: the effects of all, or the first fault in unit order. -/
def State.runSlots (s : State) (n : CoreId) (t : ThreadId) (na : Word) : List SlotI → State × SlotRes
  | [] => (s, .ok [])
  | i :: rest =>
    match i.sem with
    | none => s.runSlots n t na rest
    | some g =>
      match g s n t na i.f with
      | (s, .ok es) =>
        match s.runSlots n t na rest with
        | (s, .ok es') => (s, .ok (es ++ es'))
        | x => x
      | x => x

/-! ## Waits (09 R192) -/

/-- Registers whose scoreboard bit is set. -/
def Core.busy (c : Core) (t : ThreadId) : List RegRef :=
  ((c.loads.filter (·.thread = t)).map (·.dest)) ++
    (match c.divider with
    | some d => if d.thread = t then [.d d.dest] else []
    | none => [])

/-- The slot is a load, or an atomic, outside DMEM. -/
def SlotI.farLoad (i : SlotI) (h : Thread) : Bool :=
  i.unit = 0 && (let op := i.op.toNat; (0x10 ≤ op && op ≤ 0x13) || op = 0x28 || op = 0x29)
    && decide (dmemSize ≤ (h.ea i.f).toNat)

/-- The slot is a store outside DMEM. -/
def SlotI.farStore (i : SlotI) (h : Thread) : Bool :=
  i.unit = 0 && (let op := i.op.toNat; 0x18 ≤ op && op ≤ 0x1A) && decide (dmemSize ≤ (h.ea i.f).toNat)

/-- The slot is a division. -/
def SlotI.divides (i : SlotI) : Bool := i.unit = 1 && 0x2C ≤ i.op.toNat && i.op.toNat ≤ 0x2F

/-- A slot of the V unit with this operation. -/
def SlotI.isV (i : SlotI) (op : Nat) : Bool := i.unit = 4 && i.op.toNat = op

/-- The S registers that a chain word's parcels name (04 R60).
Log entry 70 (DEDUCED). -/
def namedS (ps : List StnParcel) : List RegRef :=
  (stationsOf ps).filterMap fun q =>
    match q.kind with
    | .inp => some (regS (BitVec.ofNat 5 q.sreg))
    | .out => some (regS (BitVec.ofNat 5 q.sreg))
    | .dec => some (regS (BitVec.ofNat 5 q.sreg))
    | .prb => some (regS (BitVec.ofNat 5 q.sreg))
    | .acc => if q.group then some (regS (BitVec.ofNat 5 q.sreg)) else none
    | _ => none

/-- The registers that a slot needs free: those it names, and for chiss the descriptors it captures.
Log entry 70 (DEDUCED). -/
def SlotI.needs (i : SlotI) (c : Core) (h : Thread) : List RegRef :=
  i.reads ++ i.writes ++ (if i.isV 0 && !chissBad (h.rA i.f.ra) then namedS (c.chainWord (h.rA i.f.ra)).1 else [])

/-- The chain scoreboard CHB makes the slot wait (04 R83, 10 R226). -/
def SlotI.chainWaits (i : SlotI) (c : Core) (h : Thread) (ch : Chain) : Bool :=
  if i.isV 0 then !chissBad (h.rA i.f.ra) && ch.queued.isSome
  else if i.isV 1 then !ch.idle
  else if (i.isV 4 && chainReadWaits (4 * i.f.cro)) || i.isV 9 then
    !ch.hasEnded ch.issued && c.loads.any (!·.kind.isMem)
  else false

/-- The bundle waits in decode/read for something other than its chain. -/
def State.coreWaits (s : State) (n : CoreId) (t : ThreadId) (is : List SlotI) : Bool :=
  let c := s.cores[n]
  let h := c.threads[t]
  let busy := c.busy t
  (is.any fun i => (i.needs c h).any busy.contains)
    || (c.barrel && !busy.isEmpty)
    || ((is.any (·.farLoad h)) && decide (4 ≤ (c.loads.filter (·.kind.isMem)).length))
    || ((is.any (·.divides)) && c.divider.isSome)
    || ((is.any (·.farStore h)) && decide (8 ≤ c.stores.length))

/-- The bundle waits in decode/read. -/
def State.bundleWaits (s : State) (n : CoreId) (t : ThreadId) (is : List SlotI) : Bool :=
  let c := s.cores[n]
  s.coreWaits n t is
    || (match chainOf n with
      | some k => is.any fun i => i.chainWaits c c.threads[t] s.chains[k]
      | none => false)

/-- A bundle with chiss or chwait finds the chain halted, and nothing but the chain keeps it from executing: the chain takes
ABANDON (08 R181).  The alignment trap of chiss comes before its wait; every other fault comes after it (10 R226).
Log entry 54 (DEDUCED). -/
def State.abandonOnExc (s : State) (n : CoreId) (t : ThreadId) (na : Word) (is : List SlotI) : State :=
  match chainOf n with
  | none => s
  | some k =>
    let c := s.cores[n]
    let h := c.threads[t]
    if !s.chains[k].exc || !is.any (fun i => i.isV 0 || i.isV 1) || s.coreWaits n t is
        || is.any (fun i => i.isV 0 && chissBad (h.rA i.f.ra)) then s
    else if is.any fun i => (i.isV 0 || i.isV 1) && i.chainWaits c h s.chains[k] then s.abandon k
    else match (s.runSlots n t na is).2 with
      | .fault _ => s
      | _ => s.abandon k

/-! ## Cycles (09 R190, R194; 10 R228) -/

/-- DMEM words that a slot reads and writes. -/
def SlotI.dmemWords (i : SlotI) (h : Thread) : Nat × Nat :=
  let near := decide ((h.ea i.f).toNat < dmemSize)
  match i.unit.toNat, i.op.toNat with
  | 0, 0x10 => (b2n near, 0)
  | 0, 0x11 => (b2n near, 0)
  | 0, 0x12 => (2 * b2n near, 0)
  | 0, 0x13 => (4 * b2n near, 0)
  | 0, 0x18 => (0, b2n near)
  | 0, 0x19 => (0, b2n near)
  | 0, 0x1A => (0, 2 * b2n near)
  | 2, 0x00 => (2, 0)
  | 2, 0x01 => (2, 0)
  | _, _ => (0, 0)

/-- Xd.
Log entry 62 (DEDUCED). -/
def extraCycles (h : Thread) (is : List SlotI) : Nat :=
  let r := (is.map fun i => (i.dmemWords h).1).foldl (· + ·) 0
  let w := (is.map fun i => (i.dmemWords h).2).foldl (· + ·) 0
  max (max ((r + 1) / 2) w) 1 - 1

/-- DMEM reads and writes of a bundle. -/
def dmemReads (h : Thread) (is : List SlotI) : Nat := (is.map fun i => (i.dmemWords h).1).foldl (· + ·) 0
def dmemWrites (h : Thread) (is : List SlotI) : Nat := (is.map fun i => (i.dmemWords h).2).foldl (· + ·) 0

/-- The bundle shares states with the one before it (09 R193). -/
def Core.pairs (c : Core) (h : Thread) (ba na : Nat) (is : List SlotI) : Bool :=
  match h.prev, h.buf with
  | some p, some b =>
    let rd := is.flatMap (·.reads)
    let wr := is.flatMap (·.writes)
    c.dualOn && is.all (fun i => i.unit ≠ 3 && i.unit ≠ 4 && !i.farLoad h && !i.divides)
      && decide (b ≤ ba / 8) && decide ((na - 1) / 8 ≤ b + 1)
      && !(rd.any p.writes.contains) && !(wr.any fun r => p.reads.contains r || p.writes.contains r)
      && decide (max (max ((p.dr + dmemReads h is + 1) / 2) (p.dw + dmemWrites h is)) 1
          ≤ max (max ((p.dr + 1) / 2) p.dw) 1)
  | _, _ => false

/-- What the next bundle may pair with: none after a B-unit or V-unit instruction, or after a bundle that shared states. -/
def prevOf (paired : Bool) (h : Thread) (is : List SlotI) : Option Prev :=
  if paired || is.any (fun i => i.unit = 3 || i.unit = 4) then none
  else some { reads := is.flatMap (·.reads), writes := is.flatMap (·.writes), dr := dmemReads h is, dw := dmemWrites h is }

/-- The execute state takes 2 CCLK more for a lookup of dinv or iinv that the second-level TLB answers (12 R246). -/
def Core.l2Extra (c : Core) (h : Thread) (is : List SlotI) : Nat :=
  if is.any fun i => i.unit = 0 && (i.op = 0x20 || i.op = 0x21) && decide (dmemSize ≤ (h.ea i.f).toNat)
      && (c.first false (h.ea i.f)).isNone && (c.lookupL2 (h.ea i.f)).isSome then 2 else 0

/-- The count of R194 of a bundle from `ba` to `na`; chiss adds the read of its chain word (10 R226).
Log entry 62 (DEDUCED). -/
def bundleCount (c : Core) (h : Thread) (ba na : Nat) (is : List SlotI) : Nat :=
  let w0 := ba / 8
  let w1 := (na - 1) / 8
  let w := w1 - w0 + 1
  let xd := extraCycles h is
  let base := if c.pairs h ba na is then 1 else match h.buf with
    | some b => if w1 ≤ b + 1 then 4 + xd else 2 + w + xd
    | none => 3 + w + xd
  base + (match is.find? (·.isV 0) with
    | some i => (chainWordLen (c.chainWord (h.rA i.f.ra)).1 + 1) / 2
    | none => 0)

/-- The bundle's code is in IMEM and its data accesses go to DMEM only.
Log entries 11 (DESIGN CHOICE), 62 (DEDUCED). -/
def Core.localBundle (h : Thread) (is : List SlotI) : Bool :=
  decide (h.pc.toNat < imemSize) && is.all fun i => !i.farLoad h && !i.farStore h && !(i.unit = 3 && i.op = 9 &&
    decide (dmemSize ≤ h.sp.toNat))

/-- CYCLE advances by a bundle's count: exactly it in deterministic mode, at most it in normal mode; where the bundle
waited, by its wait besides, and in barrel mode or outside the core by a free value (09 R194, R195).
Log entries 11 (DESIGN CHOICE), 62 (DEDUCED). -/
def State.chargeBundle (s : State) (n : CoreId) (t : ThreadId) (na : Word) (is : List SlotI) (extra : Nat) : State :=
  let c := s.cores[n]
  let h := c.threads[t]
  let count := bundleCount c h h.pc.toNat na.toNat is + extra
  if c.barrel || !Core.localBundle h is then
    (s.modCore n (·.cycles (1 + Config.freeNat s.free))).tick
  else if h.waited then
    (s.modCore n (·.cycles ((if c.determ then count else 1) + Config.freeNat s.free))).tick
  else if c.determ then s.modCore n (·.cycles count)
  else (s.modCore n (·.cycles (1 + Config.freeNat s.free % count))).tick

/-! ## Fetch (09 R184, 10 R211, 12 R247) -/

/-- Until the handover the boot ROM overlays the first 32 KiB of MC0's IMEM for fetches (18 R375). -/
def State.romFetch (s : State) (n : CoreId) (a : Nat) : Bool := n = 32 && s.chip.romOverlay && decide (a < 0x8000)

/-- What core `n`, given as it stands, meets when it fetches the two bytes at `a`: the core with its instruction TLB filled,
and a precise fault. -/
def State.fetchAt (s : State) (n : CoreId) (c : Core) (levelK : Bool) (a : Word) : Core × Option Cause :=
  if a.toNat < imemSize then
    (c, if (a.toNat / 8) ∈ c.badWords && !s.romFetch n a.toNat then
      some { code := codeMem, info := 0, addr := some (BitVec.ofNat 64 (a.toNat / 8 * 8)) } else none)
  else match c.lookup true a with
    | (c, none) => (c, some { code := codeItlb, info := 0, addr := some a })
    | (c, some e) =>
      match protFail levelK .fetch e.data with
      | some i => (c, some { code := codeProt, info := i, addr := some a })
      | none =>
        match s.targetOf e a with
        | none => (c, some { code := codeBus, info := 0, addr := some a })
        | some p => (c, s.reachCheck levelK .fetch a p)

/-- The IMEM words with a single-bit error that `k` parcels at `a` lie in. -/
def State.imemSoft (s : State) (n : CoreId) (a k : Nat) : List Nat :=
  (granules 8 a (2 * k)).filter fun w => decide (8 * w < imemSize) && !s.romFetch n (8 * w) && s.cores[n].soft.contains w

/-- Fetching `k` parcels from `a`. -/
def State.fetchParcels (s : State) (n : CoreId) (c : Core) (levelK : Bool) : Nat → Word → Core × Option Cause
  | 0, _ => (c, none)
  | k + 1, a =>
    match s.fetchAt n c levelK a with
    | (c, some x) => (c, some x)
    | (c, none) => s.fetchParcels n c levelK k (a + 2)

/-! ## The bundle -/

/-- The bundle at pc waits; its last instruction is to be delivered again. -/
def State.setWait (s : State) (n : CoreId) (t : ThreadId) (is : List SlotI) : State :=
  s.modThread n t fun h => { h with latch := is.dropLast, waited := true }

/-- A precise fault of the bundle at pc: entry with ERA at the bundle, once its pushes have room. -/
def State.bundleFault (s : State) (n : CoreId) (t : ThreadId) (is : List SlotI) (x : Cause) : State :=
  if s.cores[n].entryRoom t then s.faultEntry n t x else s.setWait n t is

/-- The trap instruction's INFO among effects. -/
def softOf : List Eff → Option Nat
  | [] => none
  | .soft i :: _ => some i
  | _ :: t => softOf t

/-- The effects of a bundle take place, and the next bundle is at na or at the branch target. -/
def State.retire (s : State) (n : CoreId) (t : ThreadId) (na : Word) (is : List SlotI) (extra : Nat) (es : List Eff) :
    State :=
  let c := s.cores[n]
  let h := c.threads[t]
  let prev := prevOf (c.pairs h h.pc.toNat na.toNat is) h is
  ((s.chargeBundle n t na is extra).modCore n fun c => c.bundleOver.modThread t fun h => { h with
    pc := na, latch := [], waited := false, hold := false, frame := Vector.replicate 2 .unread
    buf := some ((na.toNat - 1) / 8), prev := prev }).applyEffs n t es

/-- The address after `is` from the thread's pc. -/
def bundleEnd (pc : Word) (is : List SlotI) : Word :=
  pc + BitVec.ofNat 64 (2 * (is.map (·.f.parcels)).foldl (· + ·) 0)

/-- ld.x, ld.s and st.x: threads 1 to 3 have no X and no S register to name (09 R196, 10 R203).
Log entry 55 (DEDUCED). -/
def SlotI.movesXS (i : SlotI) : Bool := i.unit = 0 && (i.op = 0x12 || i.op = 0x13 || i.op = 0x1A)

/-- The first of R210's orders 3 to 6 that a whole bundle breaks. -/
def State.decodeFault (s : State) (n : CoreId) (t : ThreadId) (is : List SlotI) : Option Nat :=
  if !is.all (·.wellFormed) || (decide (t ≠ 0) && is.any (·.movesXS)) then some codeIllegal
  else if writesClash is then some codeBundle
  else if (is.any fun i => i.unit = 2 || i.unit = 4) && (decide (32 ≤ n.val) || decide (t ≠ 0)) then some codeIllegal
  else if (s.thread n t).levelK && is.any (·.privileged) then some codePrivilege
  else none

/-- The instruction with STOP has been read: the bundle is checked, waits, faults or takes effect.
Log entry 61 (DESIGN CHOICE). -/
def State.finishBundle (s : State) (n : CoreId) (t : ThreadId) (is : List SlotI) : State :=
  let pc := s.cores[n].threads[t].pc
  let na := bundleEnd pc is
  match s.decodeFault n t is with
  | some code => s.bundleFault n t is { code := code, info := 0, addr := some pc }
  | none =>
    let s := s.abandonOnExc n t na is
    let extra := s.cores[n].l2Extra s.cores[n].threads[t] is
    if s.bundleWaits n t is then s.setWait n t is
    else match s.runSlots n t na is with
      | (s, .wait) => s.setWait n t is
      | (s, .fault x) => s.bundleFault n t is x
      | (s, .ok es) =>
        match softOf es with
        | none => s.retire n t na is extra es
        | some info =>
          let r := s.retire n t na is extra es
          if r.cores[n].entryRoom t then
            r.trapEntry n t { code := codeSoftware, info := info, addr := none } na
          else s.setWait n t is

/-- An instruction reaches decode after those that the thread has latched (R208, R210 orders 1 and 2). `good` is false
for a reserved UNIT or LEN, whose length is not known.
Log entry 61 (DESIGN CHOICE). -/
def State.readSlot (s : State) (n : CoreId) (t : ThreadId) (i : SlotI) (good : Bool) : State :=
  let h := s.cores[n].threads[t]
  let is := h.latch ++ [i]
  let a := bundleEnd h.pc h.latch
  let k := if good then i.f.parcels else 1
  let illegal := fun (s : State) (code : Nat) => s.bundleFault n t is { code := code, info := 0, addr := some h.pc }
  if h.pc.toNat < imemSize && decide (imemSize < a.toNat + 2 * k) then illegal s codeBundle
  else match s.fetchParcels n s.cores[n] h.levelK k a with
    | (c, some x) => (s.modCore n fun _ => c).bundleFault n t is x
    | (c, none) =>
      let s := (s.modCore n fun _ => c).fixWords n (s.imemSoft n a.toNat k)
      if !good then illegal s codeIllegal
      else if (h.latch.getLast?.map fun l => decide (i.unit ≤ l.unit)).getD false then illegal s codeBundle
      else if i.f.stop then s.finishBundle n t is
      else if 5 ≤ is.length then illegal s codeBundle
      else s.modThread n t fun h => { h with latch := is }

/-- The thread has gone on with no trap, no wait and no halt since a cause was due. -/
def Core.wentOn (c : Core) (t : ThreadId) : Bool := decide (c.stat = 1) && c.threads[t].ie && !c.threads[t].waited

/-- An interrupt falls due between the bundles of a dual-issue pair: the pair is finished first (09 R199).  While the
instructions of the second bundle so far may share states with the first, they are read; none once they do not.
Log entry 165 (DEDUCED). -/
def State.finishPair (s : State) (n : CoreId) (t : ThreadId) (i : SlotI) (good : Bool) (x : Due) : Option State :=
  let c := s.cores[n]
  let h := c.threads[t]
  let is := h.latch ++ [i]
  match x with
  | .interrupt _ =>
    if good && !h.waited && c.pairs h h.pc.toNat (bundleEnd h.pc is).toNat is then
      let u := s.readSlot n t i good
      if u.cores[n].wentOn t then
        some (if i.f.stop then u else u.modThread n t fun h => { h with hold := true })
      else none
    else none
  | _ => none

/-- An instruction reaches decode of a thread that runs, while CCLK runs (17 R356); at a bundle boundary, or on a waiting bundle, a due asynchronous
cause is taken in its place (11 R233), once a dual-issue pair is finished.
Log entries 9 (DESIGN CHOICE), 61 (DESIGN CHOICE). -/
def State.coreInstr (s : State) (n : CoreId) (t : ThreadId) (i : SlotI) (good : Bool) : State :=
  let c := s.cores[n]
  let h := c.threads[t]
  if !c.runs t || s.cclkStopped then s
  else match (if h.latch.isEmpty || h.waited || h.hold then s.due n t else none) with
    | none => s.readSlot n t i good
    | some x =>
      match s.finishPair n t i good x with
      | some u => u
      | none => if c.entryRoom t then s.takeDue n t x else s

end Sys2Proof.Machine
end

