-- ==== Sys2Proof/Machine/CoreExec.lean ====
section
/-! DEFINITION. The meanings of the core's instructions (chapter 10): each is the instruction of its unit and operation reaching
decode of a thread; the operation itself is the `sem…` definition of the same name. -/

namespace Sys2Proof.Machine

/-- An instruction of a unit and operation reaches decode. -/
def slotOf (unit op : Nat) (f : Fields) : SlotI := { unit := BitVec.ofNat 3 unit, op := BitVec.ofNat 6 op, f := f }

/-! ## A unit (10 R212) -/

/-- adda: A unit, OP 0x01. -/
def execAdda (n : CoreId) (t : ThreadId) (f : Fields) (s : State) : Outcome :=
  .next (s.coreInstr n t (slotOf 0 0x01 f) true)

/-- suba: A unit, OP 0x02. -/
def execSuba (n : CoreId) (t : ThreadId) (f : Fields) (s : State) : Outcome :=
  .next (s.coreInstr n t (slotOf 0 0x02 f) true)

/-- anda: A unit, OP 0x03. -/
def execAnda (n : CoreId) (t : ThreadId) (f : Fields) (s : State) : Outcome :=
  .next (s.coreInstr n t (slotOf 0 0x03 f) true)

/-- movad: A unit, OP 0x05. -/
def execMovad (n : CoreId) (t : ThreadId) (f : Fields) (s : State) : Outcome :=
  .next (s.coreInstr n t (slotOf 0 0x05 f) true)

/-- liha: A unit, OP 0x06. -/
def execLiha (n : CoreId) (t : ThreadId) (f : Fields) (s : State) : Outcome :=
  .next (s.coreInstr n t (slotOf 0 0x06 f) true)

/-- ldD: A unit, OP 0x10. -/
def execLdD (n : CoreId) (t : ThreadId) (f : Fields) (s : State) : Outcome :=
  .next (s.coreInstr n t (slotOf 0 0x10 f) true)

/-- ldA: A unit, OP 0x11. -/
def execLdA (n : CoreId) (t : ThreadId) (f : Fields) (s : State) : Outcome :=
  .next (s.coreInstr n t (slotOf 0 0x11 f) true)

/-- ldX: A unit, OP 0x12. -/
def execLdX (n : CoreId) (t : ThreadId) (f : Fields) (s : State) : Outcome :=
  .next (s.coreInstr n t (slotOf 0 0x12 f) true)

/-- ldS: A unit, OP 0x13. -/
def execLdS (n : CoreId) (t : ThreadId) (f : Fields) (s : State) : Outcome :=
  .next (s.coreInstr n t (slotOf 0 0x13 f) true)

/-- stD: A unit, OP 0x18. -/
def execStD (n : CoreId) (t : ThreadId) (f : Fields) (s : State) : Outcome :=
  .next (s.coreInstr n t (slotOf 0 0x18 f) true)

/-- stA: A unit, OP 0x19. -/
def execStA (n : CoreId) (t : ThreadId) (f : Fields) (s : State) : Outcome :=
  .next (s.coreInstr n t (slotOf 0 0x19 f) true)

/-- stX: A unit, OP 0x1A. -/
def execStX (n : CoreId) (t : ThreadId) (f : Fields) (s : State) : Outcome :=
  .next (s.coreInstr n t (slotOf 0 0x1A f) true)

/-- dinv: A unit, OP 0x20. -/
def execDinv (n : CoreId) (t : ThreadId) (f : Fields) (s : State) : Outcome :=
  .next (s.coreInstr n t (slotOf 0 0x20 f) true)

/-- iinv: A unit, OP 0x21. -/
def execIinv (n : CoreId) (t : ThreadId) (f : Fields) (s : State) : Outcome :=
  .next (s.coreInstr n t (slotOf 0 0x21 f) true)

/-- dinvall: A unit, OP 0x22. -/
def execDinvall (n : CoreId) (t : ThreadId) (f : Fields) (s : State) : Outcome :=
  .next (s.coreInstr n t (slotOf 0 0x22 f) true)

/-- iinvall: A unit, OP 0x23. -/
def execIinvall (n : CoreId) (t : ThreadId) (f : Fields) (s : State) : Outcome :=
  .next (s.coreInstr n t (slotOf 0 0x23 f) true)

/-- aadd: A unit, OP 0x28. -/
def execAadd (n : CoreId) (t : ThreadId) (f : Fields) (s : State) : Outcome :=
  .next (s.coreInstr n t (slotOf 0 0x28 f) true)

/-- aswp: A unit, OP 0x29. -/
def execAswp (n : CoreId) (t : ThreadId) (f : Fields) (s : State) : Outcome :=
  .next (s.coreInstr n t (slotOf 0 0x29 f) true)

/-! ## D unit (10 R216) -/

/-- add: D unit, OP 0x00. -/
def execAdd (n : CoreId) (t : ThreadId) (f : Fields) (s : State) : Outcome :=
  .next (s.coreInstr n t (slotOf 1 0x00 f) true)

/-- sub: D unit, OP 0x01. -/
def execSub (n : CoreId) (t : ThreadId) (f : Fields) (s : State) : Outcome :=
  .next (s.coreInstr n t (slotOf 1 0x01 f) true)

/-- neg: D unit, OP 0x04. -/
def execNeg (n : CoreId) (t : ThreadId) (f : Fields) (s : State) : Outcome :=
  .next (s.coreInstr n t (slotOf 1 0x04 f) true)

/-- abs: D unit, OP 0x06. -/
def execAbs (n : CoreId) (t : ThreadId) (f : Fields) (s : State) : Outcome :=
  .next (s.coreInstr n t (slotOf 1 0x06 f) true)

/-- mins: D unit, OP 0x08. -/
def execMins (n : CoreId) (t : ThreadId) (f : Fields) (s : State) : Outcome :=
  .next (s.coreInstr n t (slotOf 1 0x08 f) true)

/-- maxs: D unit, OP 0x09. -/
def execMaxs (n : CoreId) (t : ThreadId) (f : Fields) (s : State) : Outcome :=
  .next (s.coreInstr n t (slotOf 1 0x09 f) true)

/-- minu: D unit, OP 0x0A. -/
def execMinu (n : CoreId) (t : ThreadId) (f : Fields) (s : State) : Outcome :=
  .next (s.coreInstr n t (slotOf 1 0x0A f) true)

/-- maxu: D unit, OP 0x0B. -/
def execMaxu (n : CoreId) (t : ThreadId) (f : Fields) (s : State) : Outcome :=
  .next (s.coreInstr n t (slotOf 1 0x0B f) true)

/-- and: D unit, OP 0x10. -/
def execAnd (n : CoreId) (t : ThreadId) (f : Fields) (s : State) : Outcome :=
  .next (s.coreInstr n t (slotOf 1 0x10 f) true)

/-- or: D unit, OP 0x11. -/
def execOr (n : CoreId) (t : ThreadId) (f : Fields) (s : State) : Outcome :=
  .next (s.coreInstr n t (slotOf 1 0x11 f) true)

/-- xor: D unit, OP 0x12. -/
def execXor (n : CoreId) (t : ThreadId) (f : Fields) (s : State) : Outcome :=
  .next (s.coreInstr n t (slotOf 1 0x12 f) true)

/-- andn: D unit, OP 0x13. -/
def execAndn (n : CoreId) (t : ThreadId) (f : Fields) (s : State) : Outcome :=
  .next (s.coreInstr n t (slotOf 1 0x13 f) true)

/-- not: D unit, OP 0x14. -/
def execNot (n : CoreId) (t : ThreadId) (f : Fields) (s : State) : Outcome :=
  .next (s.coreInstr n t (slotOf 1 0x14 f) true)

/-- shl: D unit, OP 0x18. -/
def execShl (n : CoreId) (t : ThreadId) (f : Fields) (s : State) : Outcome :=
  .next (s.coreInstr n t (slotOf 1 0x18 f) true)

/-- shr: D unit, OP 0x19. -/
def execShr (n : CoreId) (t : ThreadId) (f : Fields) (s : State) : Outcome :=
  .next (s.coreInstr n t (slotOf 1 0x19 f) true)

/-- sar: D unit, OP 0x1A. -/
def execSar (n : CoreId) (t : ThreadId) (f : Fields) (s : State) : Outcome :=
  .next (s.coreInstr n t (slotOf 1 0x1A f) true)

/-- rol: D unit, OP 0x1B. -/
def execRol (n : CoreId) (t : ThreadId) (f : Fields) (s : State) : Outcome :=
  .next (s.coreInstr n t (slotOf 1 0x1B f) true)

/-- sext: D unit, OP 0x20. -/
def execSext (n : CoreId) (t : ThreadId) (f : Fields) (s : State) : Outcome :=
  .next (s.coreInstr n t (slotOf 1 0x20 f) true)

/-- zext: D unit, OP 0x21. -/
def execZext (n : CoreId) (t : ThreadId) (f : Fields) (s : State) : Outcome :=
  .next (s.coreInstr n t (slotOf 1 0x21 f) true)

/-- clz: D unit, OP 0x24. -/
def execClz (n : CoreId) (t : ThreadId) (f : Fields) (s : State) : Outcome :=
  .next (s.coreInstr n t (slotOf 1 0x24 f) true)

/-- ctz: D unit, OP 0x25. -/
def execCtz (n : CoreId) (t : ThreadId) (f : Fields) (s : State) : Outcome :=
  .next (s.coreInstr n t (slotOf 1 0x25 f) true)

/-- popc: D unit, OP 0x26. -/
def execPopc (n : CoreId) (t : ThreadId) (f : Fields) (s : State) : Outcome :=
  .next (s.coreInstr n t (slotOf 1 0x26 f) true)

/-- bswap: D unit, OP 0x27. -/
def execBswap (n : CoreId) (t : ThreadId) (f : Fields) (s : State) : Outcome :=
  .next (s.coreInstr n t (slotOf 1 0x27 f) true)

/-- mov: D unit, OP 0x33. -/
def execMov (n : CoreId) (t : ThreadId) (f : Fields) (s : State) : Outcome :=
  .next (s.coreInstr n t (slotOf 1 0x33 f) true)

/-- mul: D unit, OP 0x28. -/
def execMul (n : CoreId) (t : ThreadId) (f : Fields) (s : State) : Outcome :=
  .next (s.coreInstr n t (slotOf 1 0x28 f) true)

/-- mulhs: D unit, OP 0x29. -/
def execMulhs (n : CoreId) (t : ThreadId) (f : Fields) (s : State) : Outcome :=
  .next (s.coreInstr n t (slotOf 1 0x29 f) true)

/-- mulhu: D unit, OP 0x2A. -/
def execMulhu (n : CoreId) (t : ThreadId) (f : Fields) (s : State) : Outcome :=
  .next (s.coreInstr n t (slotOf 1 0x2A f) true)

/-- divs: D unit, OP 0x2C. -/
def execDivs (n : CoreId) (t : ThreadId) (f : Fields) (s : State) : Outcome :=
  .next (s.coreInstr n t (slotOf 1 0x2C f) true)

/-- divu: D unit, OP 0x2D. -/
def execDivu (n : CoreId) (t : ThreadId) (f : Fields) (s : State) : Outcome :=
  .next (s.coreInstr n t (slotOf 1 0x2D f) true)

/-- rems: D unit, OP 0x2E. -/
def execRems (n : CoreId) (t : ThreadId) (f : Fields) (s : State) : Outcome :=
  .next (s.coreInstr n t (slotOf 1 0x2E f) true)

/-- remu: D unit, OP 0x2F. -/
def execRemu (n : CoreId) (t : ThreadId) (f : Fields) (s : State) : Outcome :=
  .next (s.coreInstr n t (slotOf 1 0x2F f) true)

/-- slt: D unit, OP 0x34. -/
def execSlt (n : CoreId) (t : ThreadId) (f : Fields) (s : State) : Outcome :=
  .next (s.coreInstr n t (slotOf 1 0x34 f) true)

/-- sltu: D unit, OP 0x35. -/
def execSltu (n : CoreId) (t : ThreadId) (f : Fields) (s : State) : Outcome :=
  .next (s.coreInstr n t (slotOf 1 0x35 f) true)

/-- seq: D unit, OP 0x36. -/
def execSeq (n : CoreId) (t : ThreadId) (f : Fields) (s : State) : Outcome :=
  .next (s.coreInstr n t (slotOf 1 0x36 f) true)

/-- li: D unit, OP 0x38. -/
def execLi (n : CoreId) (t : ThreadId) (f : Fields) (s : State) : Outcome :=
  .next (s.coreInstr n t (slotOf 1 0x38 f) true)

/-- lih: D unit, OP 0x39. -/
def execLih (n : CoreId) (t : ThreadId) (f : Fields) (s : State) : Outcome :=
  .next (s.coreInstr n t (slotOf 1 0x39 f) true)

/-- movda: D unit, OP 0x3A. -/
def execMovda (n : CoreId) (t : ThreadId) (f : Fields) (s : State) : Outcome :=
  .next (s.coreInstr n t (slotOf 1 0x3A f) true)

/-! ## X unit (10 R218) -/

/-- xmac: X unit, OP 0x00. -/
def execXmac (n : CoreId) (t : ThreadId) (f : Fields) (s : State) : Outcome :=
  .next (s.coreInstr n t (slotOf 2 0x00 f) true)

/-- xfma: X unit, OP 0x01. -/
def execXfma (n : CoreId) (t : ThreadId) (f : Fields) (s : State) : Outcome :=
  .next (s.coreInstr n t (slotOf 2 0x01 f) true)

/-- xadd: X unit, OP 0x02. -/
def execXadd (n : CoreId) (t : ThreadId) (f : Fields) (s : State) : Outcome :=
  .next (s.coreInstr n t (slotOf 2 0x02 f) true)

/-- xsub: X unit, OP 0x03. -/
def execXsub (n : CoreId) (t : ThreadId) (f : Fields) (s : State) : Outcome :=
  .next (s.coreInstr n t (slotOf 2 0x03 f) true)

/-- xext: X unit, OP 0x04. -/
def execXext (n : CoreId) (t : ThreadId) (f : Fields) (s : State) : Outcome :=
  .next (s.coreInstr n t (slotOf 2 0x04 f) true)

/-- xpack: X unit, OP 0x05. -/
def execXpack (n : CoreId) (t : ThreadId) (f : Fields) (s : State) : Outcome :=
  .next (s.coreInstr n t (slotOf 2 0x05 f) true)

/-- xlo: X unit, OP 0x06. -/
def execXlo (n : CoreId) (t : ThreadId) (f : Fields) (s : State) : Outcome :=
  .next (s.coreInstr n t (slotOf 2 0x06 f) true)

/-- xhi: X unit, OP 0x07. -/
def execXhi (n : CoreId) (t : ThreadId) (f : Fields) (s : State) : Outcome :=
  .next (s.coreInstr n t (slotOf 2 0x07 f) true)

/-- xclr: X unit, OP 0x08. -/
def execXclr (n : CoreId) (t : ThreadId) (f : Fields) (s : State) : Outcome :=
  .next (s.coreInstr n t (slotOf 2 0x08 f) true)

/-- xmov: X unit, OP 0x09. -/
def execXmov (n : CoreId) (t : ThreadId) (f : Fields) (s : State) : Outcome :=
  .next (s.coreInstr n t (slotOf 2 0x09 f) true)

/-! ## B unit (10 R220) -/

/-- nop: B unit, OP 0x00. -/
def execNop (n : CoreId) (t : ThreadId) (f : Fields) (s : State) : Outcome :=
  .next (s.coreInstr n t (slotOf 3 0x00 f) true)

/-- br: B unit, OP 0x01. -/
def execBr (n : CoreId) (t : ThreadId) (f : Fields) (s : State) : Outcome :=
  .next (s.coreInstr n t (slotOf 3 0x01 f) true)

/-- bcc: B unit, OP 0x02. -/
def execBcc (n : CoreId) (t : ThreadId) (f : Fields) (s : State) : Outcome :=
  .next (s.coreInstr n t (slotOf 3 0x02 f) true)

/-- dbnz: B unit, OP 0x03. -/
def execDbnz (n : CoreId) (t : ThreadId) (f : Fields) (s : State) : Outcome :=
  .next (s.coreInstr n t (slotOf 3 0x03 f) true)

/-- jal: B unit, OP 0x04. -/
def execJal (n : CoreId) (t : ThreadId) (f : Fields) (s : State) : Outcome :=
  .next (s.coreInstr n t (slotOf 3 0x04 f) true)

/-- jr: B unit, OP 0x05. -/
def execJr (n : CoreId) (t : ThreadId) (f : Fields) (s : State) : Outcome :=
  .next (s.coreInstr n t (slotOf 3 0x05 f) true)

/-- jalr: B unit, OP 0x06. -/
def execJalr (n : CoreId) (t : ThreadId) (f : Fields) (s : State) : Outcome :=
  .next (s.coreInstr n t (slotOf 3 0x06 f) true)

/-- trap: B unit, OP 0x08. -/
def execTrap (n : CoreId) (t : ThreadId) (f : Fields) (s : State) : Outcome :=
  .next (s.coreInstr n t (slotOf 3 0x08 f) true)

/-- eret: B unit, OP 0x09. -/
def execEret (n : CoreId) (t : ThreadId) (f : Fields) (s : State) : Outcome :=
  .next (s.coreInstr n t (slotOf 3 0x09 f) true)

/-- wfi: B unit, OP 0x0A. -/
def execWfi (n : CoreId) (t : ThreadId) (f : Fields) (s : State) : Outcome :=
  .next (s.coreInstr n t (slotOf 3 0x0A f) true)

/-- mfcr: B unit, OP 0x0B. -/
def execMfcr (n : CoreId) (t : ThreadId) (f : Fields) (s : State) : Outcome :=
  .next (s.coreInstr n t (slotOf 3 0x0B f) true)

/-- mtcr: B unit, OP 0x0C. -/
def execMtcr (n : CoreId) (t : ThreadId) (f : Fields) (s : State) : Outcome :=
  .next (s.coreInstr n t (slotOf 3 0x0C f) true)

/-! ## V unit (10 R225) -/

/-- chiss: V unit, OP 0x00. -/
def execChiss (n : CoreId) (t : ThreadId) (f : Fields) (s : State) : Outcome :=
  .next (s.coreInstr n t (slotOf 4 0x00 f) true)

/-- chwait: V unit, OP 0x01. -/
def execChwait (n : CoreId) (t : ThreadId) (f : Fields) (s : State) : Outcome :=
  .next (s.coreInstr n t (slotOf 4 0x01 f) true)

/-- chstop: V unit, OP 0x02. -/
def execChstop (n : CoreId) (t : ThreadId) (f : Fields) (s : State) : Outcome :=
  .next (s.coreInstr n t (slotOf 4 0x02 f) true)

/-- rdch: V unit, OP 0x04. -/
def execRdch (n : CoreId) (t : ThreadId) (f : Fields) (s : State) : Outcome :=
  .next (s.coreInstr n t (slotOf 4 0x04 f) true)

/-- wrch: V unit, OP 0x05. -/
def execWrch (n : CoreId) (t : ThreadId) (f : Fields) (s : State) : Outcome :=
  .next (s.coreInstr n t (slotOf 4 0x05 f) true)

/-- ldca: V unit, OP 0x08. -/
def execLdca (n : CoreId) (t : ThreadId) (f : Fields) (s : State) : Outcome :=
  .next (s.coreInstr n t (slotOf 4 0x08 f) true)

/-- rdca: V unit, OP 0x09. -/
def execRdca (n : CoreId) (t : ThreadId) (f : Fields) (s : State) : Outcome :=
  .next (s.coreInstr n t (slotOf 4 0x09 f) true)

/-- ssw: V unit, OP 0x10. -/
def execSsw (n : CoreId) (t : ThreadId) (f : Fields) (s : State) : Outcome :=
  .next (s.coreInstr n t (slotOf 4 0x10 f) true)

/-- sswa: V unit, OP 0x11. -/
def execSswa (n : CoreId) (t : ThreadId) (f : Fields) (s : State) : Outcome :=
  .next (s.coreInstr n t (slotOf 4 0x11 f) true)

/-- rsw: V unit, OP 0x12. -/
def execRsw (n : CoreId) (t : ThreadId) (f : Fields) (s : State) : Outcome :=
  .next (s.coreInstr n t (slotOf 4 0x12 f) true)

/-- smov: V unit, OP 0x13. -/
def execSmov (n : CoreId) (t : ThreadId) (f : Fields) (s : State) : Outcome :=
  .next (s.coreInstr n t (slotOf 4 0x13 f) true)

/-- sclr: V unit, OP 0x14. -/
def execSclr (n : CoreId) (t : ThreadId) (f : Fields) (s : State) : Outcome :=
  .next (s.coreInstr n t (slotOf 4 0x14 f) true)

/-! ## Malformed instructions -/

/-- The fields that raw parcels spell (10 R205, R206). -/
def rawFields (r : RawInstr) : Fields :=
  { stop := r.p0.getLsbD 15
    len := r.p0.extractLsb' 10 2
    md := r.p0.extractLsb' 0 4
    rd := r.p1.extractLsb' 11 5
    ra := r.p1.extractLsb' 6 5
    rb := r.p1.extractLsb' 1 5
    rsv := r.p1.getLsbD 0
    imm := r.imm }

/-- The instruction that raw parcels spell. -/
def rawSlot (r : RawInstr) : SlotI :=
  { unit := r.p0.extractLsb' 12 3, op := r.p0.extractLsb' 4 6, f := rawFields r }

/-- The UNIT and LEN of raw parcels are not reserved. -/
def rawGood (r : RawInstr) : Bool := decide ((rawSlot r).unit.toNat ≤ 4) && decide ((rawSlot r).f.len ≠ 3)

/-- ILLEGAL_INSTR: raw parcels reach decode and are refused by R210. -/
def execIllegalInstr (n : CoreId) (t : ThreadId) (r : RawInstr) (s : State) : Outcome :=
  .next (s.coreInstr n t (rawSlot r) (rawGood r))

end Sys2Proof.Machine
end

