-- ==== Sys2Proof/Machine/FabricExec.lean ====
section
/-! DEFINITION. Routed messages of the fabric (16 R325 to R337): requests of this device and of others, their responses, and
the destination slots of the root junction (14 R292). -/

namespace Sys2Proof.Machine

/-! ## Requests of this device -/

/-- A request to another node as what asks for it makes it: who waits for it, its opcode, its address, its length, its
data, its operation, and its QOS (14 R288). -/
structure Request where
  who  : Wanted
  opc  : BitVec 8
  ga   : Word
  len  : Nat
  data : List Byte
  aop  : BitVec 2
  ret  : Bool
  /-- The core, and whether it asked at level F. -/
  core : Option (CoreId × Bool)
  qos  : BitVec 4
  deriving DecidableEq, Repr

/-- A read. -/
def Request.read (who : Wanted) (ga : Word) (len : Nat) (core : Option (CoreId × Bool)) (qos : BitVec 4) : Request :=
  { who := who, opc := 0x01, ga := ga, len := len, data := [], aop := 0, ret := false, core := core, qos := qos }

/-- A write. -/
def Request.write (who : Wanted) (ga : Word) (bs : List Byte) (core : Option (CoreId × Bool)) (qos : BitVec 4) : Request :=
  { who := who, opc := 0x02, ga := ga, len := bs.length, data := bs, aop := 0, ret := false, core := core, qos := qos }

/-- An atomic. -/
def Request.atomic (who : Wanted) (ga : Word) (aop : BitVec 2) (v : Word) (ret : Bool) (core : Option (CoreId × Bool))
    (qos : BitVec 4) : Request :=
  { who := who, opc := 0x03, ga := ga, len := 8, data := bytesOf 8 v.toNat, aop := aop, ret := ret, core := core, qos := qos }

/-- The remote address of a place. -/
def farOf : Option Phys → Option Word
  | some (.remote ga) => some ga
  | _ => none

/-- What a flight of a station asks: a read of bytes, a write, an atomic. -/
inductive FlightAsk where
  | read (va : Word) (n : Nat)
  | write (va : Word) (bs : List Byte)
  | atomic (va : Word) (aop : BitVec 4) (v : Word) (ret : Bool)
  deriving DecidableEq, Repr

/-- The access that a flight waits for (07 R150, R151). -/
def flightAsk (d : Desc) (f : Flight) : Option FlightAsk :=
  match f.st with
  | .head => some (.read (tBucket d f.h) 8)
  | .next n => some (.read (tEntry d n) 8)
  | .entry n _ => some (.read (tEntry d n) 64)
  | .gather => some (.read (BitVec.ofNat 64 (dbits d 127 64 + 8 * f.h.toNat)) 8)
  | .put idx => some (.write (tEntry d idx) (entryBytes d f))
  | .swap idx => some (.atomic (tBucket d f.h) 2 (BitVec.ofNat 64 (idx + 1)) true)
  | .link idx old => some (.write (tEntry d idx) (bytesOf 8 old.toNat))
  | .atomic a aop v => some (.atomic a aop v false)
  | .done _ => none

/-- The request of a flight. -/
def State.flightRequest (s : State) (who : Wanted) (t : Strip) (q : Stn) (d : Desc) (f : Flight) : Option Request :=
  let far := fun (va : Word) => farOf (s.streamPhys t.map (q.access d).1 (q.access d).2 va)
  match flightAsk d f with
  | none => none
  | some (.read va n) => (far va).map fun ga => .read who ga n none (q.qos d)
  | some (.write va bs) => (far va).map fun ga => .write who ga bs none (q.qos d)
  | some (.atomic va aop v ret) => (far va).map fun ga => .atomic who ga (aop.setWidth 2) v ret none (q.qos d)

/-- The request of a core's load or atomic. -/
def State.loadRequest (s : State) (n : CoreId) (seq : Nat) : Option Request :=
  match s.cores[n].loadOf seq with
  | none => none
  | some l =>
    match l.loc with
    | .remote ga =>
      if !s.portTurn n seq then none
      else match l.kind.aop with
        | some (aop, v) => some (.atomic (.load n seq) ga (aop.setWidth 2) v true (some (n, !l.levelK)) 0)
        | none => some (.read (.load n seq) ga l.kind.size (some (n, !l.levelK)) 0)
    | _ => none

/-- The request of a core's oldest posted store. -/
def State.storeRequest (s : State) (n : CoreId) : Option Request :=
  match s.cores[n].stores with
  | [] => none
  | x :: _ =>
    match x.loc with
    | .remote ga => if s.loadBefore n x.seq then none else some (.write (.store n) ga x.bytes (some (n, !x.levelK)) 0)
    | _ => none

/-- The request of a stream's line. -/
def State.lineRequest (s : State) (c : ChainId) (i stream : Nat) (va : Word) : Option Request :=
  let h := s.chains[c]
  match h.run with
  | none => none
  | some r =>
    match r.strips[i]?, r.launch.inputOf stream with
    | some t, some q =>
      if !h.mayFetch r || !h.wantsLine r t stream va.toNat then none
      else (farOf (s.streamPhys t.map stream (dPhys (descOf r.launch.sregs q)) va)).map fun ga =>
        .read (.line c t.att stream va) ga 64 none (dQos (descOf r.launch.sregs q))
    | _, _ => none

/-- The request of write `i` of a chain's oldest drain. -/
def State.drainRequest (s : State) (c : ChainId) (i : Nat) : Option Request :=
  match s.chains[c].drains with
  | [] => none
  | d :: _ =>
    match d.writes[i]? with
    | none => none
    | some w =>
      if d.behind i w then none
      else (farOf (some w.loc)).map fun ga => .write (.drain c w) ga (w.parts.flatMap (·.2)) none w.qos

/-- The request of a station: of flight `j`, or of DEC's dictionary. -/
def State.stationRequest (s : State) (c : ChainId) (i p j : Nat) : Option Request :=
  let h := s.chains[c]
  match h.run with
  | none => none
  | some r =>
    match r.strips[i]?, r.launch.rows[p]? with
    | some t, some (q, ws) =>
      let d := descOf r.launch.sregs q
      if q.kind = .dec then
        let src := decSource r.launch q ws
        let (va, n) := dictPiece d r.dict.length
        if dbits d 143 142 ≠ 2 || n = 0 || t.k ≠ 0 || !h.mayFetch r then none
        else (farOf (s.streamPhys t.map r.launch.dictStream (dPhys src) (BitVec.ofNat 64 va))).map fun ga =>
          .read (.dict c t.att p) ga n none (dQos src)
      else
        let fs := h.flightsAt i p
        match fs[j]? with
        | none => none
        | some f =>
          if s.mustWait t q d fs j f then none else s.flightRequest (.flight c t.att p f) t q d f
    | _, _ => none

/-- The request for a line of the directory of an RLE input (05 R109).
Log entry 34 (DEDUCED). -/
def State.dirRequest (s : State) (c : ChainId) (stream va : Nat) : Option Request :=
  match s.chains[c].run with
  | none => none
  | some r =>
    match r.trans, r.launch.rleInputs.find? (·.code = stream) with
    | some t, some q =>
      if t.done || t.waiting || !s.chains[c].mayFetch r || (t.dirAt stream va).isSome then none
      else
        let d := descOf r.launch.sregs q
        match (r.launch.dirRuns t.k q).find? (·.1 = va) with
        | none => none
        | some x => (farOf (s.streamPhys t.map stream (dPhys d) (BitVec.ofNat 64 va))).map fun ga =>
          .read (.dir c r.launch.serial s.chains[c].tries t.k stream va) ga x.2 none (dQos d)
    | _, _ => none

/-- The request for a line of another node that firmware accesses for a command: MC0's travel as its own, those of COPY and FILL
as a chain's, with a QOS that the manual does not give.
Log entry 136 (DESIGN CHOICE). -/
def State.fwRequest (s : State) (m : Nat) (handle : Half) (wr : Bool) (ptr line : Nat) : Option Request :=
  match s.ioOwed m handle wr ptr line with
  | none => none
  | some e =>
    let core : Option (CoreId × Bool) := if m < 32 then none else some (32, true)
    let qos : BitVec 4 := BitVec.ofNat 4 (Config.freeNat s.free)
    (farOf (some e.loc)).map fun ga =>
      if wr then .write (.fw m handle wr ptr line) ga e.data core qos
      else .read (.fw m handle wr ptr line) ga e.n core qos

/-- The request that an asker of this device makes now. A fetch asks for its line.
Log entry 116 (DEDUCED). -/
def State.requestOf (s : State) (a : Asker) : Option Request :=
  match a with
  | .load n seq => s.loadRequest n seq
  | .store n => s.storeRequest n
  | .fetch n t va =>
    if !s.cores[n].runs t then none
    else match s.fetchPlace s.cores[n] s.cores[n].threads[t].levelK va with
      | (_, some (.remote ga, _)) =>
        some (.read (.fetch n t va) (BitVec.ofNat 64 (ga.toNat / 64 * 64)) 64
          (some (n, !s.cores[n].threads[t].levelK)) 0)
      | _ => none
  | .line c strip stream va => s.lineRequest c strip stream va
  | .drain c i => s.drainRequest c i
  | .station c strip parcel i => s.stationRequest c strip parcel i
  | .dir c stream va => s.dirRequest c stream va
  | .fw m handle wr ptr line => s.fwRequest m handle wr ptr line

/-- The message of a request: `m` gives its TID. A core's requests travel in the control class (R290); MC marks a request of a
management core at level F (R325).
Log entry 116 (DEDUCED). -/
def State.requestMsg (s : State) (q : Request) (m : Msg) : Msg :=
  let fetch := match q.who with
    | .fetch _ _ _ => true
    | _ => false
  { qos := match q.core with
      | some (n, _) => s.coreQos n.val fetch
      | none => q.qos
    aop := q.aop
    ret := q.ret
    mc := match q.core with
      | some (n, levelF) => levelF && decide (32 ≤ n.val)
      | none => false
    tid := m.tid
    src := BitVec.ofNat 20 s.nodeId
    hops := 0
    len := q.len
    addr := q.ga
    data := q.data
    poison := false
    reason := 0
    control := q.core.isSome
    layer := false }

/-- A control-class request of the same master is not answered yet (16 R334). -/
def State.masterBusy (s : State) (q : Request) : Bool :=
  q.core.isSome && s.xl.remote.any fun r => r.msg.control && r.who.source = q.who.source

/-- A request of this device is registered; a control-class one is sent, a data-class one waits for its destination
slot (14 R292).  A TID that is in use, and what already awaits an answer, registers nothing; nor does a control-class request
while its master's previous one is unanswered (16 R334).
Log entry 115 (DEDUCED). -/
def State.ownRequest (s : State) (opc : BitVec 8) (a : Asker) (m : Msg) : State :=
  match s.requestOf a with
  | none => s
  | some q =>
    if q.opc ≠ opc || (s.xl.remote.any fun x => x.tid == m.tid) || s.asked q.who || s.masterBusy q then s
    else
      let msg := s.requestMsg q m
      let s := match q.who with
        | .line c att stream va => s.lineAsked c att stream va
        | _ => s
      let s := { s with xl := { s.xl with
        remote := s.xl.remote ++ [{ tid := m.tid, who := q.who, opc := opc, msg := msg, sent := false, slot := none }] } }
      if msg.control then s.routeOn (opc, msg) else s

/-! ## DESTINATION_ADMISSION (14 R292) -/

/-- The destination slot of a node: its own, or the least recently used one without a request outstanding.
Log entry 88 (DEDUCED). -/
def Jnc.slotFor (j : Jnc) (node : Nat) : Option (Fin 64) :=
  match j.lru.find? fun k => j.slots[k].valid && j.slots[k].node.toNat = node with
  | some k => some k
  | none => j.lru.find? fun k => j.slots[k].out = 0

/-- Bytes that a slot admits.
Log entry 88 (DEDUCED). -/
def Jnc.budget (j : Jnc) : Nat := max 1 (j.rBudget.toNat % 4096) * 1024

/-- The master of the root junction by which a data-class request of this device comes: its cluster's uplink (14 R279). -/
def RemoteReq.uplink (q : RemoteReq) : Nat := (q.who.source - 64) / 8

/-- An earlier request of the same master waits for the same destination. -/
def earlierWaits (q : RemoteReq) : List RemoteReq → Bool
  | [] => false
  | x :: t =>
    if x.tid = q.tid then false
    else (!x.msg.control && x.slot.isNone && x.uplink = q.uplink && dstOf x.msg = dstOf q.msg) || earlierWaits q t

/-- A waiting request is admitted to slot `k`, which counts its bytes. -/
def State.takeRequest (s : State) (q : RemoteReq) (k : Fin 64) : State :=
  let node := BitVec.ofNat 20 (dstOf q.msg)
  let old := s.jnc.slots[k]
  let same := old.valid && old.node = node
  let slot : DestSlot :=
    { node := node, valid := true, out := old.out + q.bytes, lag := if same then old.lag else 0 }
  { s with
    jnc := { s.jnc with slots := s.jnc.slots.set k slot, lru := (s.jnc.lru.filter (· ≠ k)) ++ [k] }
    xl := { s.xl with remote := s.xl.remote.map fun r => if r.tid = q.tid then { r with slot := some k } else r } }

/-- DESTINATION_ADMISSION: the request `tid` takes its destination slot and is sent.
Log entry 88 (DEDUCED). -/
def execDestinationAdmission (tid : BitVec 16) (s : State) : Outcome :=
  match s.xl.remote.find? (·.tid = tid) with
  | none => .next s
  | some q =>
    if q.msg.control || q.slot.isSome || earlierWaits q s.xl.remote then .next s
    else match s.jnc.slotFor (dstOf q.msg) with
      | none => .next s
      | some k =>
        if s.jnc.budget ≤ s.jnc.slots[k].out then .next s
        else .next ((s.takeRequest q k).routeOn (q.opc, q.msg))

/-! ## Requests of others (16 R331, R335) -/

/-- A request for a register of this device; several grounds to refuse it leave the reason open.
Log entry 104 (DEDUCED). -/
def State.serveCsr (s : State) (x : Packet) : State :=
  let m := x.2
  let o := m.addr.toNat % 2 ^ 44 - csrBase
  let priv := !m.control || !m.mc || !s.xl.remoteCsr
  if x.1 = 0x03 then
    if priv then s.tick.refuseAt x (if Config.freeBool s.free then 2 else 3) else s.refuseAt x 3
  else if priv then s.refuseAt x 2
  else if x.1 = 0x01 then
    let (s, bs) := s.csrBytes .fabric o m.len
    s.routeOn (0x20, respMsg m bs false 0)
  else (s.csrPut .fabric o (m.data.take m.len)).routeOn (0x21, respMsg m [] false 0)

/-- A request of another node for this one. -/
def State.serveAny (s : State) (p : PortId) (x : Packet) : State :=
  let off := x.2.addr.toNat % 2 ^ 44
  if s.place off = .csr && s.populated off (if x.1 = 0x03 then 8 else x.2.len) then s.serveCsr x else s.remoteMem p x

/-- A request for a register that the bus cannot take now (17 R356). -/
def State.requestWaits (s : State) (m : Msg) : Bool :=
  let off := m.addr.toNat % 2 ^ 44
  dstOf m = s.nodeId && s.place off = .csr && s.csrWaits (off - csrBase) m.len

/-- A routed message that is not for this device goes on; the sixteenth hop is refused. -/
def State.transit (s : State) (x : Packet) : State :=
  if 15 ≤ x.2.hops then s.refuseAt x 8 else s.routeOn (x.1, { x.2 with hops := x.2.hops + 1 })

/-- The link by which a request comes holds the credits for its whole response, beside those of the responses already due on it
(14 R291).
Log entry 108 (DESIGN CHOICE). -/
def State.responseRoom (s : State) (p : PortId) (x : Packet) : Bool :=
  let v := vcOf (answerTo x)
  decide (s.answersDue p v + slotsOf (answerTo x) ≤ s.tgl[p].vcs[vcFin v].credit)

/-- The request that stands first in its VC at port `p` is taken; a device in the cul-de-sac lets none enter (16 R327). -/
def State.portRequest (s : State) (p : PortId) (x : Packet) : State :=
  match s.arrived p x with
  | none => s
  | some r =>
    if s.requestWaits x.2 || !s.responseRoom p x then s
    else
      let s := s.takeRx p r
      if s.xl.culdesac then s.refuseOne { pkt := x, reason := 9, port := some p }
      else if dstOf x.2 = s.nodeId then s.serveAny p x
      else s.transit x

/-- A request from a port or of this device. -/
def State.request (s : State) (opc : BitVec 8) (o : Origin) (m : Msg) : State :=
  match o with
  | .port p => s.portRequest p (opc, m)
  | .own a => s.ownRequest opc a m

/-- RD. -/
def execRd (o : Origin) (m : Msg) (s : State) : Outcome := .next (s.request 0x01 o m)
/-- WR. -/
def execWr (o : Origin) (m : Msg) (s : State) : Outcome := .next (s.request 0x02 o m)
/-- ATOM. -/
def execAtom (o : Origin) (m : Msg) (s : State) : Outcome := .next (s.request 0x03 o m)

/-! ## Responses (16 R326, R336, R337) -/

/-- What a response says: a read's data without its padding (16 R324).  An acceptance of an atomic carries no old value, and
what asked for it uses none. -/
def State.replyOf (s : State) (x : Packet) : Reply :=
  match x.1.toNat with
  | 0x22 => .refused
  | 0x21 =>
    match s.xl.remote.find? (·.tid = x.2.tid) with
    | some q => if x.2.poison then .poison else .ok (if q.opc = 0x03 then List.replicate 8 0 else [])
    | none => .ok []
  | _ =>
    match s.xl.remote.find? (·.tid = x.2.tid) with
    | some q => if x.2.poison then .poison else .ok (x.2.data.take q.msg.len)
    | none => .ok []

/-- The response that stands first in its VC at port `p` is taken: it ends a request of this device, or goes on.
Log entry 115 (DEDUCED). -/
def State.response (s : State) (p : PortId) (x : Packet) : State :=
  match s.arrived p x with
  | none => s
  | some r =>
    let s := s.takeRx p r
    if s.xl.culdesac then s.refuseOne { pkt := x, reason := 9, port := some p }
    else if dstOf x.2 = s.nodeId then s.answerTid x.2.tid (s.replyOf x)
    else s.transit x

/-- RSP_REFUSE. -/
def execRspRefuse (p : PortId) (m : Msg) (s : State) : Outcome := .next (s.response p (0x22, m))
/-- RSP_DATA. -/
def execRspData (p : PortId) (m : Msg) (s : State) : Outcome := .next (s.response p (0x20, m))
/-- RSP_ACC. -/
def execRspAcc (p : PortId) (m : Msg) (s : State) : Outcome := .next (s.response p (0x21, m))
/-- RDATA. -/
def execRdata (p : PortId) (m : Msg) (s : State) : Outcome := .next (s.response p (opRdata, m))

/-- REQUEST_TIMEOUT: only a request that has been sent can time out. -/
def execRequestTimeout (tid : BitVec 16) (s : State) : Outcome :=
  match s.xl.remote.find? (·.tid = tid) with
  | none => .next s
  | some q => if q.sent then .next (s.answerTid tid .refused) else .next s

end Sys2Proof.Machine
end

