-- ==== Sys2Proof/Machine/Kernel.lean ====
section
/-! DEFINITION. KERNEL_RUN (03 R52, R415, R416): how firmware starts a kernel's sequencers and how their run ends. -/

namespace Sys2Proof.Machine

/-! ## KERNEL_RUN (03 R52, R415) -/

/-- A core and its memories as the first bundle of a kernel finds them, before the start itself.
Log entries 21 (DESIGN CHOICE), 133 (DEDUCED). -/
def Core.forKernel (k : Core) (entry : Nat) (image args : List Byte) : Core :=
  let top : Word := 0x40000
  let t0 := fun (h : Thread) => { h with
    a := (Vector.replicate 16 (0 : Word)).set 15 top
    d := Vector.replicate 32 (0 : Word)
    status := 1 }
  { k.modThread 0 t0 with
    x := Vector.replicate 8 0
    s := Vector.replicate 8 0
    evb := Config.runtimeEntry &&& ~~~(1 : Word)
    slim := 0x3C400
    imem := writeCells k.imem 0 image
    dmem := writeCells [] 0 args
    badWords := k.badWords.filter fun w => w < 0x4000 && image.length < 8 * w + 8
    soft := k.soft.filter fun w => w < 0x4000 && image.length < 8 * w + 8
    entry := BitVec.ofNat 64 (2 * entry)
    deferred := [] }

/-- The nodes of the committed roster but this one, as node numbers. -/
def State.otherNodes (s : State) : List Nat :=
  match parseFabric s.xl.record with
  | some f => (f.roster.map fun m => m.node.toNat >>> 12).filter (· ≠ s.nodeId)
  | none => []

/-- V, LEAF, R, W and U of a leaf; C beside them. -/
def leafBits : Word := 0x5B
def leafCached : Word := 0xDB

/-- The default mapping that the runtime's page table holds when firmware starts a KERNEL_RUN (12 R413). -/
def State.defaultMap (s : State) : List MapRange :=
  let here := s.nodeId <<< 44
  { base := here, size := s.mem.d, bits := leafCached } :: { base := here + scratchBase, size := scratchSize, bits := leafCached }
    :: (s.otherNodes.map fun x =>
      [{ base := x <<< 44, size := scratchBase, bits := leafBits },
       { base := x <<< 44 + scratchBase, size := scratchSize, bits := leafBits }]).flatten

/-- A chain as a kernel finds it: no cause of an earlier launch is held for its sequencer.
Log entry 133 (DEDUCED). -/
def Chain.forKernel (h : Chain) : Chain :=
  { h with
    gang := 0, msc := 0, numf := 0, replays := 0, markCfg := 0, failed := false, wrapped := false, cause := none, excHeld := false }

/-- Starts one sequencer of a KERNEL_RUN.
Log entries 7 (DESIGN CHOICE), 133 (DEDUCED). -/
def State.startKernel (s : State) (c : Cmd) (image args : List Byte) (n : CoreId) : State :=
  let s := s.modCore n fun k =>
    { k.forKernel (c.at 28 4) image args with threads := (k.forKernel (c.at 28 4) image args).threads.mapIdx fun i h =>
        if i = 0 then h else { h with live := false } }
  let s := match chainOf n with
    | some x => s.modChain x Chain.forKernel
    | none => s
  (s.tlbInval n .user).coreCtl n 3

/-- A KERNEL_RUN's RESULT: RESULT_ADDR, or the inline value. -/
def Cmd.kernelResult (c : Cmd) : Word := if c.flags.testBit 2 then c.inline else BitVec.ofNat 64 (c.at 48 8)

/-- A gated sequencer cannot start. -/
def State.anyGated (s : State) (ns : List CoreId) : Bool := ns.any fun n => s.pwr.gated.getLsbD n.val

/-- Firmware stops a sequencer that is to be free and is not: it clears RUN (09 R198). -/
def State.freeCores (s : State) (ns : List CoreId) : State :=
  ns.foldl (fun s n => if s.cores[n].stat = 0 then s else s.clearRun n) s

/-- KERNEL_RUN: it waits until its sequencers stand in STATE 0; `image` and `args` are the answers of memory outside the device.
Log entry 133 (DEDUCED). -/
def execKernelRun (handle : Half) (image args : Reply) (s : State) : Outcome :=
  match s.running handle 0x10 with
  | none => .next s
  | some c =>
    let stop := fun (s : State) (st : BitVec 16) =>
      done (s.finish handle { status := st, detail := 0, milestones := 0, result := c.kernelResult })
    if c.started || s.anyGated c.cores then .next s
    else if c.cancelled then stop s stCancelled
    else if c.cores.any fun n => s.cores[n].stat ≠ 0 then .next (s.freeCores c.cores)
    else match s.fwRead c 0 (c.at 16 8) (c.at 24 4) image with
      | (s, .wait) => .next s
      | (s, .fail) => stop s stAccess
      | (s, .done im) =>
        match s.fwRead c 1 (c.at 40 8) (c.at 36 4) args with
        | (s, .wait) => .next (s.keepRead 64 c 0 (c.at 16 8) im)
        | (s, .fail) => stop s stAccess
        | (s, .done ar) =>
          let s := c.cores.foldl (fun s n => s.startKernel c im ar n) s
          .next (s.modCmd handle fun k => { k with started := true, table := s.defaultMap })

/-! ## The end of a kernel (03 R416) -/

/-- Causes whose end reports ACCESS_FAULT: BUS_ERROR, DEFERRED, the TLB misses, PROT and the stream causes. -/
def accessCode (code : Nat) : Bool := [0x07, 0x08, 0x0A, 0x0B, 0x0C, 0x0D, 0x0E].contains code

/-- What the trap of a sequencer's end says (03 R416). -/
def trapFailure (x : BitVec 16) : BitVec 16 × Half :=
  let code := x.toNat % 256
  if code = codeChain then (stChain, 0)
  else if accessCode code then (stAccess, x.setWidth 32)
  else (stKernel, x.setWidth 32)

/-- A chain that nobody answers: the cause that it holds, or would have written. -/
def Chain.unanswered (h : Chain) : Option (BitVec 16 × Half) :=
  let waits := match h.run with
    | some r => match r.trans with
      | some t => t.waiting
      | none => false
    | none => false
  if h.exc then some (stKernel, BitVec.ofNat 32 (256 * (h.exs.extractLsb' 45 4).toNat + codeStrip))
  else if waits then
    let kind := (h.srec.extractLsb' 8 4).toNat
    some (stAccess, if kind = 0 then
        BitVec.ofNat 32 (256 * ((h.srec.extractLsb' 6 2).toNat * 16 + (h.srec.extractLsb' 0 4).toNat) + causeStreamMiss)
      else BitVec.ofNat 32 (256 * kind + causeStreamFault))
  else none

/-- What sequencer `n` and its chain report: the first row of 03 R416's table that applies. -/
def State.seqFailure (s : State) (c : Cmd) (n : CoreId) : Option SeqFailure :=
  let e := c.endOf n
  let trap := match e with
    | some (.faulted x) => some (trapFailure x)
    | _ => none
  let left := if e.isSome then s.ofChain n none fun h => h.unanswered else none
  let row := fun (i : Nat) (x : BitVec 16 × Half) => some ({ core := n.val, row := i, status := x.1, detail := x.2 } : SeqFailure)
  let ofTrap := fun (i : Nat) (st : BitVec 16) => match trap with
    | some x => if x.1 = st then row i x else none
    | none => none
  let ofChain := fun (i : Nat) (st : BitVec 16) => match left with
    | some x => if x.1 = st then row i x else none
    | none => none
  let chain := fun (g : Chain → Bool) => s.ofChain n false g
  [ofTrap 2 stChain,
   if e = some .halted then row 3 (stKernel, 0xFF) else none,
   if chain (·.wrapped) then row 4 (stKernel, 0xFE) else none,
   ofTrap 5 stAccess, ofChain 5 stAccess,
   if chain (·.failed) then row 6 (stAccess, 0) else none,
   ofTrap 7 stKernel, ofChain 7 stKernel].firstM id

/-- The failure that firmware sees first; among several that it finds at once, which is a free value. What that sequencer
comes to report by an earlier row of the table takes its place. -/
def State.noteFailure (s : State) (c : Cmd) : State :=
  let set := fun (s : State) (x : SeqFailure) => s.modCmd c.handle fun k => { k with failure := some x }
  let xs := c.cores.filterMap (s.seqFailure c)
  match c.failure with
  | some y =>
    match xs.find? fun x => x.core = y.core && x.row < y.row with
    | some x => set s x
    | none => s
  | none =>
    match xs with
    | [] => s
    | [x] => set s x
    | x :: t => (set s ((x :: t).getD (Config.freeNat s.free % (t.length + 1)) x)).tick

/-- Brings a chain to rest once its sequencer has ended: firmware stops the chain of one that ended other than by trap 0,
once; a chain that is halted, or whose Translate stage waits, with nobody left to answer, takes ABANDON (08 R181, 12
R255). -/
def State.restOne (s : State) (c : Cmd) (n : CoreId) : State :=
  match c.endOf n with
  | none => s
  | some e =>
    let s :=
      if e = .normal || c.rested.testBit n.val then s
      else (s.restChain n).modCmd c.handle fun k => { k with rested := k.rested ||| 2 ^ n.val }
    match chainOf n with
    | none => s
    | some x =>
      if (s.chains[x].unanswered).isNone then s
      else if s.chains[x].exc then s.abandon x
      else s.abandonTranslate x

/-- The chains of the sequencers that have ended are brought to rest. -/
def State.restChains (s : State) (c : Cmd) : State := c.cores.foldl (fun s n => s.restOne c n) s

/-- Firmware's look at a KERNEL_RUN: who has ended, what failed; a failure stops the others.
Log entry 133 (DEDUCED). -/
def State.watchKernel (s : State) (h : Half) : State :=
  let look := fun (s : State) (g : State → Cmd → State) => match s.cmd h with
    | some c => g s c
    | none => s
  let s := look s State.noteEnds
  let s := look s State.noteFailure
  let s := look s fun s c => if c.failure.isSome && c.cores.any fun n => (c.endOf n).isNone then s.stopKernel c false else s
  look s State.restChains

/-- The sum of the chains' MSC. -/
def State.mscSum (s : State) (ns : List CoreId) : Nat := (ns.map fun n => s.ofChain n 0 fun h => h.msc.toNat).foldl (· + ·) 0

/-- KERNEL_RUN_COMPLETE: firmware looks at the kernel; once every sequencer has ended and every chain is idle, it stops
the sequencers, and with every store that they made accepted (01 R13) the command completes.
Log entry 133 (DEDUCED). -/
def execKernelRunComplete (handle : Half) (s : State) : Outcome :=
  match s.running handle 0x10 with
  | none => .next s
  | some c0 =>
    if !c0.started then .next s
    else
      let s := s.watchKernel handle
      match s.cmd handle with
      | none => .next s
      | some c =>
        if c.cores.all (fun n => (c.endOf n).isSome && s.chainAtRest n) then
          let m := s.mscSum c.cores
          let s := c.cores.foldl (fun s n => s.clearRun n) s
          if !s.coresAtRest c.cores then .next s
          else
            let x := if c.cancelled then (stCancelled, (0 : Half))
              else match c.failure with
                | some f => (f.status, f.detail)
                | none => (stOk, 0)
            done (s.finish handle { status := x.1, detail := x.2, milestones := m, result := c.kernelResult })
        else .next s

end Sys2Proof.Machine
end

