-- ==== Sys2Proof/Machine/Lag.lean ====
section
/-! DEFINITION. The lag counters of the junction (14 R296, R297): which units keep others waiting in a period of BCLK. -/

namespace Sys2Proof.Machine

/-! ## Counters -/

/-- A lag counter one period later, and whether its event is raised.
Log entry 87 (DEDUCED). -/
def State.lagStep (s : State) (v : Word) : Word × Bool :=
  let v' := satAdd v 1
  let b := (s.jnc.lagCfg.extractLsb' 0 6).toNat
  (v', s.jnc.lagCfg.getLsbD 8 && !v.getLsbD b && v'.getLsbD b)

/-- Raises the event of a counter whose watched bit has risen. -/
def State.lagEvent (s : State) (b : Bool) (src : Nat) : State := if b then s.raise src else s

/-- JNC_DLAG of a controller advances. -/
def State.lagDdr (s : State) (n : CtrlId) : State :=
  let r := s.lagStep s.jnc.dlag[n]
  { s with jnc := { s.jnc with dlag := s.jnc.dlag.set n r.1 } }.lagEvent r.2 (0x2F0 + n)

/-- JNC_FLAG of a destination slot advances. -/
def State.lagSlot (s : State) (k : Fin 64) : State :=
  let r := s.lagStep s.jnc.slots[k].lag
  { s with jnc := { s.jnc with slots := s.jnc.slots.set k { s.jnc.slots[k] with lag := r.1 } } }.lagEvent r.2 (0x300 + k)

/-- JNC_PLAG of a TGL port advances. -/
def State.lagPort (s : State) (p : PortId) : State :=
  let r := s.lagStep s.jnc.plag[p]
  { s with jnc := { s.jnc with plag := s.jnc.plag.set p r.1 } }.lagEvent r.2 (0x340 + p)

/-- JNC_SLAG of station `x` of a chain advances. -/
def State.lagStation (s : State) (c : ChainId) (x : Nat) : State :=
  let i := 32 * c.val + x
  { s with jnc := { s.jnc with slag := cellSet s.jnc.slag i (satAdd (cellGet s.jnc.slag i) 1) } }

/-! ## Who keeps others waiting -/

/-- A request waits for the slot's budget (14 R292). -/
def State.slotLags (s : State) (k : Fin 64) : Bool :=
  decide (s.jnc.budget ≤ s.jnc.slots[k].out) &&
    s.xl.remote.any fun q => !q.msg.control && q.slot.isNone && s.jnc.slotFor (dstOf q.msg) = some k

/-- An admitted request waits at a port for a link credit (16 R329).
Log entry 87 (DEDUCED). -/
def State.portLags (s : State) (p : PortId) : Bool :=
  s.tgl[p].up && s.tgl[p].hold.any fun x => isRequest x.1 && s.verdict p x = .pass
    && decide (s.tgl[p].vcs[vcFin (vcOf x)].credit < slotsOf x)

/-- Port `n` of the root junction holds a request for its controller: at the junction, or held at the home agent, which is part of
the port (14 R279).
Log entry 87 (DEDUCED). -/
def State.ddrHolds (s : State) (n : CtrlId) : Bool :=
  !(s.tport .root n.val).requests.isEmpty || s.cxl.held.any fun h => (ddrSplit (h.line * 64)).1 = n

/-- A controller has no toll for what its port holds: it is stopped, or its rate keeps the request waiting, which is the command's
to say.
Log entry 87 (DEDUCED). -/
def State.ddrLags (s : State) (waiting : List Nat) (n : CtrlId) : Bool :=
  s.ddrHolds n && (waiting.contains n.val || s.ctrlStopped n)

/-- A producer of station `p` waits for a toll from it: one of its input wires is full of elements it has not taken. -/
def Strip.producerWaits (l : Launch) (t : Strip) (p : Nat) (q : Stn) (ws : List Wire) : Bool :=
  (q.ins ws).any fun w =>
    let r := (t.stations[w.prod]?).getD StationRun.start
    let out := if w.snd then r.out2 else r.out1
    let cap := if ((l.stations[w.prod]?).map (·.kind)) = some .cpt then 64 else 8 + Config.stationQueue
    decide (cap ≤ out.length - t.takenBy p)

/-- A station of a running launch keeps its producer waiting, and waits for no toll of its consumers; an input counts while it
waits for data, an output while it waits for acceptance.
Log entry 87 (DEDUCED). -/
def State.stationLags (s : State) (c : ChainId) (r : Run) (p : Nat) (q : Stn) (ws : List Wire) : Bool :=
  let h := s.chains[c]
  if q.kind = .out then
    (h.drains.any fun d => d.writes.any fun w => w.stream = q.code)
      || r.strips.any fun t => !((t.stations[p]?).map (·.flight) |>.getD []).isEmpty
  else r.strips.any fun t =>
    let sr := (t.stations[p]?).getD StationRun.start
    let room := decide (t.room r.launch q ws sr ≠ 0)
    if q.kind = .inp then
      let d := descOf r.launch.sregs q
      room && decide (sr.taken < t.limit r.launch)
        && !t.elemReady d q.m1 (streamOf r.launch.stations r.launch.sregs q) ((r.launch.span t.k).1 + sr.taken)
    else room && t.producerWaits r.launch p q ws

/-- The stations of a chain that count in this period. -/
def State.lagStations (s : State) (c : ChainId) : State :=
  match s.chains[c].run with
  | none => s
  | some r => (r.launch.rows.zipIdx).foldl (fun s p =>
      if p.1.1.code ≤ 0x12 && s.stationLags c r p.2 p.1.1 p.1.2 then s.lagStation c p.1.1.code else s) s

/-- BCLK_PERIOD: JNC_TIME and the lag counters count, unless BCLK is stopped; `waiting` names the DDR controllers whose rate
keeps their port waiting in this period.
Log entries 11 (DESIGN CHOICE), 87 (DEDUCED). -/
def execBclkPeriod (waiting : List Nat) (s : State) : Outcome :=
  if s.bclkStopped then .next s
  else
    let s := { s with jnc := { s.jnc with time := s.jnc.time + 1 } }
    let s := ((List.finRange 16).filter fun n => s.ddrLags waiting n).foldl (fun s n => s.lagDdr n) s
    let s := ((List.finRange 64).filter fun k => s.slotLags k).foldl (fun s k => s.lagSlot k) s
    let s := ((List.finRange 8).filter fun p => s.portLags p).foldl (fun s p => s.lagPort p) s
    .next ((List.finRange 32).foldl (fun s c => s.lagStations c) s)

end Sys2Proof.Machine
end

