-- ==== Sys2Proof/Machine/Dispatch.lean ====
section
/-! DEFINITION. One arm per command: the direct call of its meaning. -/

namespace Sys2Proof.Machine

/-- The effect of one command on everything but the queue. -/
def exec (i : Instr) (s : State) : Host.Outcome State Fault Refusal :=
  match i with
  | .powerOnReset => Sys2Proof.Machine.execPowerOnReset s
  | .railsRestored => Sys2Proof.Machine.execRailsRestored s
  | .resetN => Sys2Proof.Machine.execResetN s
  | .undervoltage rail => Sys2Proof.Machine.execUndervoltage rail s
  | .firmwareReset => Sys2Proof.Machine.execFirmwareReset s
  | .resetEnd bif0 bif1 a0 a1 clkin => Sys2Proof.Machine.execResetEnd bif0 bif1 a0 a1 clkin s
  | .perstN port => Sys2Proof.Machine.execPerstN port s
  | .thermalTrip seen => Sys2Proof.Machine.execThermalTrip seen s
  | .wakeN => Sys2Proof.Machine.execWakeN s
  | .pwrWakeClear src v => Sys2Proof.Machine.execPwrWakeClear src v s
  | .pllLoss source => Sys2Proof.Machine.execPllLoss source s
  | .quickSwitch src k postdiv => Sys2Proof.Machine.execQuickSwitch src k postdiv s
  | .relock src k v => Sys2Proof.Machine.execRelock src k v s
  | .clockSwitchEnd k present => Sys2Proof.Machine.execClockSwitchEnd k present s
  | .clkGate src v => Sys2Proof.Machine.execClkGate src v s
  | .governorPeriod p idx avsOk => Sys2Proof.Machine.execGovernorPeriod p idx avsOk s
  | .sensorUpdate temps => Sys2Proof.Machine.execSensorUpdate temps s
  | .thmWearTick => Sys2Proof.Machine.execThmWearTick s
  | .wearStore => Sys2Proof.Machine.execWearStore s
  | .pwrGate src v => Sys2Proof.Machine.execPwrGate src v s
  | .coreGateDone n => Sys2Proof.Machine.execCoreGateDone n s
  | .coreWakeDone n => Sys2Proof.Machine.execCoreWakeDone n s
  | .handover src => Sys2Proof.Machine.execHandover src s
  | .recoveryGo flashOk => Sys2Proof.Machine.execRecoveryGo flashOk s
  | .dbgLockProgram src key => Sys2Proof.Machine.execDbgLockProgram src key s
  | .ddrBringup slots => Sys2Proof.Machine.execDdrBringup slots s
  | .ddrTrainingDone failed => Sys2Proof.Machine.execDdrTrainingDone failed s
  | .ddrZeroingDone => Sys2Proof.Machine.execDdrZeroingDone s
  | .ddrSrEntry n => Sys2Proof.Machine.execDdrSrEntry n s
  | .ddrSrExit n sub0 sub1 => Sys2Proof.Machine.execDdrSrExit n sub0 sub1 s
  | .refreshRatePoll n sub0 sub1 => Sys2Proof.Machine.execRefreshRatePoll n sub0 sub1 s
  | .ddrScrub n offset found device => Sys2Proof.Machine.execDdrScrub n offset found device s
  | .scratchScrub offset found => Sys2Proof.Machine.execScratchScrub offset found s
  | .scratchWriteBack offset => Sys2Proof.Machine.execScratchWriteBack offset s
  | .scratchRequest m wait offset op found => Sys2Proof.Machine.execScratchRequest m wait offset op found s
  | .homeAgentAccess tag offset op found device => Sys2Proof.Machine.execHomeAgentAccess tag offset op found device s
  | .memRd hpa mv => Sys2Proof.Machine.execMemRd hpa mv s
  | .memRdData hpa mv => Sys2Proof.Machine.execMemRdData hpa mv s
  | .memInv hpa mv => Sys2Proof.Machine.execMemInv hpa mv s
  | .memInvNt hpa mv => Sys2Proof.Machine.execMemInvNt hpa mv s
  | .memSpecRd hpa => Sys2Proof.Machine.execMemSpecRd hpa s
  | .memClnEvct hpa => Sys2Proof.Machine.execMemClnEvct hpa s
  | .memWr hpa mv data poison => Sys2Proof.Machine.execMemWr hpa mv data poison s
  | .memWrPtl hpa mv be data => Sys2Proof.Machine.execMemWrPtl hpa mv be data s
  | .biConflict hpa => Sys2Proof.Machine.execBiConflict hpa s
  | .biRspS hpa => Sys2Proof.Machine.execBiRspS hpa s
  | .biRspI hpa => Sys2Proof.Machine.execBiRspI hpa s
  | .h2dSnoop link hpa => Sys2Proof.Machine.execH2dSnoop link hpa s
  | .d2hResponse link tag r => Sys2Proof.Machine.execD2hResponse link tag r s
  | .decoderCommit base size ways1 dpaSkip lockOnCommit commit => Sys2Proof.Machine.execDecoderCommit base size ways1 dpaSkip lockOnCommit commit s
  | .cxlLinkUp link width speed cxl cacheEn memEn msixEn fnMask => Sys2Proof.Machine.execCxlLinkUp link width speed cxl cacheEn memEn msixEn fnMask s
  | .cxlLinkDown link uncorrectable => Sys2Proof.Machine.execCxlLinkDown link uncorrectable s
  | .msixUnmask vec => Sys2Proof.Machine.execMsixUnmask vec s
  | .aciEnable src => Sys2Proof.Machine.execAciEnable src s
  | .aciReady => Sys2Proof.Machine.execAciReady s
  | .aciReset src => Sys2Proof.Machine.execAciReset src s
  | .aciResetComplete => Sys2Proof.Machine.execAciResetComplete s
  | .aciSqTail q v => Sys2Proof.Machine.execAciSqTail q v s
  | .aciCqHead q v => Sys2Proof.Machine.execAciCqHead q v s
  | .aciCancel handle => Sys2Proof.Machine.execAciCancel handle s
  | .sqFetch q r => Sys2Proof.Machine.execSqFetch q r s
  | .commandDispatch => Sys2Proof.Machine.execCommandDispatch s
  | .coalTimeExpiry q => Sys2Proof.Machine.execCoalTimeExpiry q s
  | .diagGrantExpiry => Sys2Proof.Machine.execDiagGrantExpiry s
  | .negotiate handle => Sys2Proof.Machine.execNegotiate handle s
  | .identify handle w => Sys2Proof.Machine.execIdentify handle w s
  | .createQp handle => Sys2Proof.Machine.execCreateQp handle s
  | .deleteQp handle => Sys2Proof.Machine.execDeleteQp handle s
  | .setCoalesce handle => Sys2Proof.Machine.execSetCoalesce handle s
  | .kernelRun handle image args => Sys2Proof.Machine.execKernelRun handle image args s
  | .kernelRunComplete handle => Sys2Proof.Machine.execKernelRunComplete handle s
  | .copy handle stopAt r accepted => Sys2Proof.Machine.execCopy handle stopAt r accepted s
  | .fill handle stopAt accepted => Sys2Proof.Machine.execFill handle stopAt accepted s
  | .fwStage handle => Sys2Proof.Machine.execFwStage handle s
  | .fwStagePiece handle r readBackOk => Sys2Proof.Machine.execFwStagePiece handle r readBackOk s
  | .fwActivate handle => Sys2Proof.Machine.execFwActivate handle s
  | .settingsRead handle w => Sys2Proof.Machine.execSettingsRead handle w s
  | .settingsWrite handle r => Sys2Proof.Machine.execSettingsWrite handle r s
  | .settingsCommit handle => Sys2Proof.Machine.execSettingsCommit handle s
  | .calRead handle w => Sys2Proof.Machine.execCalRead handle w s
  | .calWrite handle r readBackOk => Sys2Proof.Machine.execCalWrite handle r readBackOk s
  | .fabricSurvey handle => Sys2Proof.Machine.execFabricSurvey handle s
  | .surveyComplete handle timedOut w => Sys2Proof.Machine.execSurveyComplete handle timedOut w s
  | .waymarkPropose handle r => Sys2Proof.Machine.execWaymarkPropose handle r s
  | .waymarkCommit handle => Sys2Proof.Machine.execWaymarkCommit handle s
  | .diagOpen handle => Sys2Proof.Machine.execDiagOpen handle s
  | .diagClose handle => Sys2Proof.Machine.execDiagClose handle s
  | .registerWrite a => Sys2Proof.Machine.execRegisterWrite a s
  | .readToClear a => Sys2Proof.Machine.execReadToClear a s
  | .evtRoute src source v => Sys2Proof.Machine.execEvtRoute src source v s
  | .evtSwset src v => Sys2Proof.Machine.execEvtSwset src v s
  | .coreStart src n levelK => Sys2Proof.Machine.execCoreStart src n levelK s
  | .coreStop src n => Sys2Proof.Machine.execCoreStop src n s
  | .coreCfg src n v => Sys2Proof.Machine.execCoreCfg src n v s
  | .coreDbRing src n => Sys2Proof.Machine.execCoreDbRing src n s
  | .chainStop src c => Sys2Proof.Machine.execChainStop src c s
  | .flushQ src c => Sys2Proof.Machine.execFlushQ src c s
  | .clrMsc src c => Sys2Proof.Machine.execClrMsc src c s
  | .exctlRestart src c flushOnce => Sys2Proof.Machine.execExctlRestart src c flushOnce s
  | .exctlReplay src c flushOnce => Sys2Proof.Machine.execExctlReplay src c flushOnce s
  | .exctlAbandon src c => Sys2Proof.Machine.execExctlAbandon src c s
  | .sctlRetry src c dir => Sys2Proof.Machine.execSctlRetry src c dir s
  | .sctlAbandon src c => Sys2Proof.Machine.execSctlAbandon src c s
  | .writeL2 src n way wsel dir => Sys2Proof.Machine.execWriteL2 src n way wsel dir s
  | .writeIlock src n slot => Sys2Proof.Machine.execWriteIlock src n slot s
  | .writeDlock src n slot => Sys2Proof.Machine.execWriteDlock src n slot s
  | .invalVa src n => Sys2Proof.Machine.execInvalVa src n s
  | .invalUser src n => Sys2Proof.Machine.execInvalUser src n s
  | .invalAll src n => Sys2Proof.Machine.execInvalAll src n s
  | .clearLocks src n => Sys2Proof.Machine.execClearLocks src n s
  | .readL2 src n way => Sys2Proof.Machine.execReadL2 src n way s
  | .tlbInvalEffect n => Sys2Proof.Machine.execTlbInvalEffect n s
  | .priorityWrite src j m w v => Sys2Proof.Machine.execPriorityWrite src j m w v s
  | .requestArrival j t rs => Sys2Proof.Machine.execRequestArrival j t rs s
  | .junctionDecision j t => Sys2Proof.Machine.execJunctionDecision j t s
  | .grantEnd j t => Sys2Proof.Machine.execGrantEnd j t s
  | .destinationAdmission tid => Sys2Proof.Machine.execDestinationAdmission tid s
  | .launchBegin c => Sys2Proof.Machine.execLaunchBegin c s
  | .reservationGrant k => Sys2Proof.Machine.execReservationGrant k s
  | .stripTranslate c dir => Sys2Proof.Machine.execStripTranslate c dir s
  | .stripIssue c => Sys2Proof.Machine.execStripIssue c s
  | .bufferGrant k => Sys2Proof.Machine.execBufferGrant k s
  | .streamLineFill c strip stream va r => Sys2Proof.Machine.execStreamLineFill c strip stream va r s
  | .stationStep c strip parcel => Sys2Proof.Machine.execStationStep c strip parcel s
  | .stripAbort c => Sys2Proof.Machine.execStripAbort c s
  | .streamAccessFailure c strip => Sys2Proof.Machine.execStreamAccessFailure c strip s
  | .stripCommit c => Sys2Proof.Machine.execStripCommit c s
  | .drainAccept c idx r => Sys2Proof.Machine.execDrainAccept c idx r s
  | .chainStopped c => Sys2Proof.Machine.execChainStopped c s
  | .loadResponse n idx r => Sys2Proof.Machine.execLoadResponse n idx r s
  | .divideComplete n t => Sys2Proof.Machine.execDivideComplete n t s
  | .fetchResponse n t va r => Sys2Proof.Machine.execFetchResponse n t va r s
  | .storeAccept n r => Sys2Proof.Machine.execStoreAccept n r s
  | .trapEntry n t => Sys2Proof.Machine.execTrapEntry n t s
  | .wfiWake n => Sys2Proof.Machine.execWfiWake n s
  | .adda n t f => Sys2Proof.Machine.execAdda n t f s
  | .suba n t f => Sys2Proof.Machine.execSuba n t f s
  | .anda n t f => Sys2Proof.Machine.execAnda n t f s
  | .movad n t f => Sys2Proof.Machine.execMovad n t f s
  | .liha n t f => Sys2Proof.Machine.execLiha n t f s
  | .ldD n t f => Sys2Proof.Machine.execLdD n t f s
  | .ldA n t f => Sys2Proof.Machine.execLdA n t f s
  | .ldX n t f => Sys2Proof.Machine.execLdX n t f s
  | .ldS n t f => Sys2Proof.Machine.execLdS n t f s
  | .stD n t f => Sys2Proof.Machine.execStD n t f s
  | .stA n t f => Sys2Proof.Machine.execStA n t f s
  | .stX n t f => Sys2Proof.Machine.execStX n t f s
  | .dinv n t f => Sys2Proof.Machine.execDinv n t f s
  | .iinv n t f => Sys2Proof.Machine.execIinv n t f s
  | .dinvall n t f => Sys2Proof.Machine.execDinvall n t f s
  | .iinvall n t f => Sys2Proof.Machine.execIinvall n t f s
  | .aadd n t f => Sys2Proof.Machine.execAadd n t f s
  | .aswp n t f => Sys2Proof.Machine.execAswp n t f s
  | .add n t f => Sys2Proof.Machine.execAdd n t f s
  | .sub n t f => Sys2Proof.Machine.execSub n t f s
  | .neg n t f => Sys2Proof.Machine.execNeg n t f s
  | .abs n t f => Sys2Proof.Machine.execAbs n t f s
  | .mins n t f => Sys2Proof.Machine.execMins n t f s
  | .maxs n t f => Sys2Proof.Machine.execMaxs n t f s
  | .minu n t f => Sys2Proof.Machine.execMinu n t f s
  | .maxu n t f => Sys2Proof.Machine.execMaxu n t f s
  | .and n t f => Sys2Proof.Machine.execAnd n t f s
  | .or n t f => Sys2Proof.Machine.execOr n t f s
  | .xor n t f => Sys2Proof.Machine.execXor n t f s
  | .andn n t f => Sys2Proof.Machine.execAndn n t f s
  | .not n t f => Sys2Proof.Machine.execNot n t f s
  | .shl n t f => Sys2Proof.Machine.execShl n t f s
  | .shr n t f => Sys2Proof.Machine.execShr n t f s
  | .sar n t f => Sys2Proof.Machine.execSar n t f s
  | .rol n t f => Sys2Proof.Machine.execRol n t f s
  | .sext n t f => Sys2Proof.Machine.execSext n t f s
  | .zext n t f => Sys2Proof.Machine.execZext n t f s
  | .clz n t f => Sys2Proof.Machine.execClz n t f s
  | .ctz n t f => Sys2Proof.Machine.execCtz n t f s
  | .popc n t f => Sys2Proof.Machine.execPopc n t f s
  | .bswap n t f => Sys2Proof.Machine.execBswap n t f s
  | .mov n t f => Sys2Proof.Machine.execMov n t f s
  | .mul n t f => Sys2Proof.Machine.execMul n t f s
  | .mulhs n t f => Sys2Proof.Machine.execMulhs n t f s
  | .mulhu n t f => Sys2Proof.Machine.execMulhu n t f s
  | .divs n t f => Sys2Proof.Machine.execDivs n t f s
  | .divu n t f => Sys2Proof.Machine.execDivu n t f s
  | .rems n t f => Sys2Proof.Machine.execRems n t f s
  | .remu n t f => Sys2Proof.Machine.execRemu n t f s
  | .slt n t f => Sys2Proof.Machine.execSlt n t f s
  | .sltu n t f => Sys2Proof.Machine.execSltu n t f s
  | .seq n t f => Sys2Proof.Machine.execSeq n t f s
  | .li n t f => Sys2Proof.Machine.execLi n t f s
  | .lih n t f => Sys2Proof.Machine.execLih n t f s
  | .movda n t f => Sys2Proof.Machine.execMovda n t f s
  | .xmac n t f => Sys2Proof.Machine.execXmac n t f s
  | .xfma n t f => Sys2Proof.Machine.execXfma n t f s
  | .xadd n t f => Sys2Proof.Machine.execXadd n t f s
  | .xsub n t f => Sys2Proof.Machine.execXsub n t f s
  | .xext n t f => Sys2Proof.Machine.execXext n t f s
  | .xpack n t f => Sys2Proof.Machine.execXpack n t f s
  | .xlo n t f => Sys2Proof.Machine.execXlo n t f s
  | .xhi n t f => Sys2Proof.Machine.execXhi n t f s
  | .xclr n t f => Sys2Proof.Machine.execXclr n t f s
  | .xmov n t f => Sys2Proof.Machine.execXmov n t f s
  | .nop n t f => Sys2Proof.Machine.execNop n t f s
  | .br n t f => Sys2Proof.Machine.execBr n t f s
  | .bcc n t f => Sys2Proof.Machine.execBcc n t f s
  | .dbnz n t f => Sys2Proof.Machine.execDbnz n t f s
  | .jal n t f => Sys2Proof.Machine.execJal n t f s
  | .jr n t f => Sys2Proof.Machine.execJr n t f s
  | .jalr n t f => Sys2Proof.Machine.execJalr n t f s
  | .trap n t f => Sys2Proof.Machine.execTrap n t f s
  | .eret n t f => Sys2Proof.Machine.execEret n t f s
  | .wfi n t f => Sys2Proof.Machine.execWfi n t f s
  | .mfcr n t f => Sys2Proof.Machine.execMfcr n t f s
  | .mtcr n t f => Sys2Proof.Machine.execMtcr n t f s
  | .chiss n t f => Sys2Proof.Machine.execChiss n t f s
  | .chwait n t f => Sys2Proof.Machine.execChwait n t f s
  | .chstop n t f => Sys2Proof.Machine.execChstop n t f s
  | .rdch n t f => Sys2Proof.Machine.execRdch n t f s
  | .wrch n t f => Sys2Proof.Machine.execWrch n t f s
  | .ldca n t f => Sys2Proof.Machine.execLdca n t f s
  | .rdca n t f => Sys2Proof.Machine.execRdca n t f s
  | .ssw n t f => Sys2Proof.Machine.execSsw n t f s
  | .sswa n t f => Sys2Proof.Machine.execSswa n t f s
  | .rsw n t f => Sys2Proof.Machine.execRsw n t f s
  | .smov n t f => Sys2Proof.Machine.execSmov n t f s
  | .sclr n t f => Sys2Proof.Machine.execSclr n t f s
  | .tglPortEnable src p en => Sys2Proof.Machine.execTglPortEnable src p en s
  | .trainingFrame p seen => Sys2Proof.Machine.execTrainingFrame p seen s
  | .trainingTimeout p => Sys2Proof.Machine.execTrainingTimeout p s
  | .frameReceive p frame fecOk => Sys2Proof.Machine.execFrameReceive p frame fecOk s
  | .replayTimeout p => Sys2Proof.Machine.execReplayTimeout p s
  | .fecLockLoss p => Sys2Proof.Machine.execFecLockLoss p s
  | .heartbeatSend p => Sys2Proof.Machine.execHeartbeatSend p s
  | .heartbeatMiss p => Sys2Proof.Machine.execHeartbeatMiss p s
  | .heartbeat p hb => Sys2Proof.Machine.execHeartbeat p hb s
  | .catchingUpExpiry p => Sys2Proof.Machine.execCatchingUpExpiry p s
  | .rd o m => Sys2Proof.Machine.execRd o m s
  | .wr o m => Sys2Proof.Machine.execWr o m s
  | .atom o m => Sys2Proof.Machine.execAtom o m s
  | .rspRefuse p m => Sys2Proof.Machine.execRspRefuse p m s
  | .rspData p m => Sys2Proof.Machine.execRspData p m s
  | .rspAcc p m => Sys2Proof.Machine.execRspAcc p m s
  | .rdata p m => Sys2Proof.Machine.execRdata p m s
  | .requestTimeout tid => Sys2Proof.Machine.execRequestTimeout tid s
  | .hello p serial lowest node port => Sys2Proof.Machine.execHello p serial lowest node port s
  | .neigh p r => Sys2Proof.Machine.execNeigh p r s
  | .discoveryStart => Sys2Proof.Machine.execDiscoveryStart s
  | .discoveryRoot => Sys2Proof.Machine.execDiscoveryRoot s
  | .propose p h e d0 d1 length => Sys2Proof.Machine.execPropose p h e d0 d1 length s
  | .vote p h e serial result => Sys2Proof.Machine.execVote p h e serial result s
  | .voteTimeout => Sys2Proof.Machine.execVoteTimeout s
  | .commit p h e d0 d1 => Sys2Proof.Machine.execCommit p h e d0 d1 s
  | .abort p h e => Sys2Proof.Machine.execAbort p h e s
  | .stageExpiry => Sys2Proof.Machine.execStageExpiry s
  | .fsrReq p epoch offset count which => Sys2Proof.Machine.execFsrReq p epoch offset count which s
  | .fsrData p epoch offset length bytes => Sys2Proof.Machine.execFsrData p epoch offset length bytes s
  | .fsrRetry p epoch => Sys2Proof.Machine.execFsrRetry p epoch s
  | .surveyReq p h epoch => Sys2Proof.Machine.execSurveyReq p h epoch s
  | .surveyRsp p h r => Sys2Proof.Machine.execSurveyRsp p h r s
  | .floodKeyExpiry origin fseq => Sys2Proof.Machine.execFloodKeyExpiry origin fseq s
  | .id => Sys2Proof.Machine.execId s
  | .temp => Sys2Proof.Machine.execTemp s
  | .power => Sys2Proof.Machine.execPower s
  | .state => Sys2Proof.Machine.execState s
  | .wear => Sys2Proof.Machine.execWear s
  | .prepareOff w => Sys2Proof.Machine.execPrepareOff w s
  | .offReady => Sys2Proof.Machine.execOffReady s
  | .vstbyLost => Sys2Proof.Machine.execVstbyLost s
  | .clkinReturn => Sys2Proof.Machine.execClkinReturn s
  | .linkLevelRetry link fecCorrected => Sys2Proof.Machine.execLinkLevelRetry link fecCorrected s
  | .stationAccessResponse c strip parcel idx r => Sys2Proof.Machine.execStationAccessResponse c strip parcel idx r s
  | .bclkPeriod waiting => Sys2Proof.Machine.execBclkPeriod waiting s
  | .jtagInstruction j => Sys2Proof.Machine.execJtagInstruction j s
  | .illegalInstr n t r => Sys2Proof.Machine.execIllegalInstr n t r s

end Sys2Proof.Machine
end

