-- ==== Sys2Proof/WellFormed.lean ====
section
/-! DEFINITION. The well-formed commands: operands that the formats of the spec allow.  A command that is not well-formed names no
access, message or frame of the spec. -/

namespace Sys2Proof

/-- A register access names an 8-byte-aligned offset (02 R31, R34). -/
def Access.wf (a : Access) : Bool := decide (a.offset % 8 = 0)

/-- A request's length and place: 1 to 256 bytes that do not cross an aligned 256 B granule, at most 15 hops (16 R325). -/
def Msg.wfRequest (m : Msg) : Bool :=
  decide (1 ≤ m.len) && decide (m.len ≤ 256) && decide (m.addr.toNat % 256 + m.len ≤ 256) && decide (m.hops ≤ 15)

/-- A write carries its LEN bytes (16 R326). -/
def Msg.wfWrite (m : Msg) : Bool := m.wfRequest && decide (m.data.length = m.len)

/-- An atomic carries an 8-byte operand (16 R326). -/
def Msg.wfAtomic (m : Msg) : Bool := m.wfRequest && decide (m.data.length = 8)

/-- A response: at most 256 bytes of data, at most 15 hops, a reason of 16 R327. -/
def Msg.wfResponse (m : Msg) : Bool := decide (m.data.length ≤ 256) && decide (m.hops ≤ 15) && decide (m.reason < 256)

/-- A line operation stays in its 64 B line (15 R308). -/
def LineOp.wf : LineOp → Bool
  | .read => true
  | .write a bs => decide (1 ≤ bs.length) && decide (a + bs.length ≤ 64)
  | .parts ps => !ps.isEmpty && ps.all fun p => decide (1 ≤ p.2.length) && decide (p.1 + p.2.length ≤ 64)

/-- A bank request stays in its line: one word or one 64 B line (13 R259). -/
def BankOp.wf (off : Nat) : BankOp → Bool
  | .read n => decide (1 ≤ n) && decide (off % 64 + n ≤ 64)
  | .write bs => decide (1 ≤ bs.length) && decide (off % 64 + bs.length ≤ 64)
  | _ => decide (off % 8 = 0)

/-- Bytes that a request reads or carries. -/
def JReq.len (r : JReq) : Nat :=
  match r.kind with
  | .read n => n
  | .write bs => bs.length
  | .atomic _ => 8

/-- A request has 1 to 256 bytes and crosses no aligned 256 B granule (14 R282). -/
def JReq.wf (r : JReq) : Bool :=
  decide (1 ≤ r.len) && decide (r.len ≤ 256) && decide (r.addr / 256 = (r.addr + r.len - 1) / 256)

/-- LEN 3 is reserved: such parcels reach decode as ILLEGAL_INSTR (10 R205). -/
def Fields.wf (f : Fields) : Bool := decide (f.len ≠ 3)

/-- The checks on a command; one without operands that a format limits is well-formed. -/
def Instr.wf (i : Instr) : Bool :=
  match i with
  | .powerOnReset => true
  | .railsRestored => true
  | .resetN => true
  | .undervoltage _ => true
  | .firmwareReset => true
  | .resetEnd _ _ _ _ _ => true
  | .perstN _ => true
  | .thermalTrip _ => true
  | .wakeN => true
  | .pwrWakeClear _ _ => true
  | .pllLoss _ => true
  | .quickSwitch _ _ _ => true
  | .relock _ _ _ => true
  | .clockSwitchEnd _ _ => true
  | .clkGate _ _ => true
  | .governorPeriod _ _ _ => true
  | .sensorUpdate temps => decide (temps.length = 64)
  | .thmWearTick => true
  | .wearStore => true
  | .pwrGate _ _ => true
  | .coreGateDone _ => true
  | .coreWakeDone _ => true
  | .handover _ => true
  | .recoveryGo _ => true
  | .dbgLockProgram _ _ => true
  | .ddrBringup slots => decide (slots.length = 16)
  | .ddrTrainingDone _ => true
  | .ddrZeroingDone => true
  | .ddrSrEntry _ => true
  | .ddrSrExit _ _ _ => true
  | .refreshRatePoll _ _ _ => true
  | .ddrScrub _ _ _ _ => true
  | .scratchScrub _ _ => true
  | .scratchWriteBack _ => true
  | .scratchRequest _ _ offset op _ => op.wf offset
  | .homeAgentAccess _ _ op _ _ => op.wf
  | .memRd _ _ => true
  | .memRdData _ _ => true
  | .memInv _ _ => true
  | .memInvNt _ _ => true
  | .memSpecRd _ => true
  | .memClnEvct _ => true
  | .memWr _ _ data _ => decide (data.length = 64)
  | .memWrPtl _ _ _ data => decide (data.length = 64)
  | .biConflict _ => true
  | .biRspS _ => true
  | .biRspI _ => true
  | .h2dSnoop _ _ => true
  | .d2hResponse _ _ _ => true
  | .decoderCommit _ _ _ _ _ _ => true
  | .cxlLinkUp _ _ _ _ _ _ _ _ => true
  | .cxlLinkDown _ _ => true
  | .msixUnmask _ => true
  | .aciEnable _ => true
  | .aciReady => true
  | .aciReset _ => true
  | .aciResetComplete => true
  | .aciSqTail _ _ => true
  | .aciCqHead _ _ => true
  | .aciCancel _ => true
  | .sqFetch _ _ => true
  | .commandDispatch => true
  | .coalTimeExpiry _ => true
  | .diagGrantExpiry => true
  | .negotiate _ => true
  | .identify _ _ => true
  | .createQp _ => true
  | .deleteQp _ => true
  | .setCoalesce _ => true
  | .kernelRun _ _ _ => true
  | .kernelRunComplete _ => true
  | .copy _ _ _ _ => true
  | .fill _ _ _ => true
  | .fwStage _ => true
  | .fwStagePiece _ _ _ => true
  | .fwActivate _ => true
  | .settingsRead _ _ => true
  | .settingsWrite _ _ => true
  | .settingsCommit _ => true
  | .calRead _ _ => true
  | .calWrite _ _ _ => true
  | .fabricSurvey _ => true
  | .surveyComplete _ _ _ => true
  | .waymarkPropose _ _ => true
  | .waymarkCommit _ => true
  | .diagOpen _ => true
  | .diagClose _ => true
  | .registerWrite a => a.wf
  | .readToClear a => a.wf
  | .evtRoute _ _ _ => true
  | .evtSwset _ _ => true
  | .coreStart _ _ _ => true
  | .coreStop _ _ => true
  | .coreCfg _ _ _ => true
  | .coreDbRing _ _ => true
  | .chainStop _ _ => true
  | .flushQ _ _ => true
  | .clrMsc _ _ => true
  | .exctlRestart _ _ _ => true
  | .exctlReplay _ _ _ => true
  | .exctlAbandon _ _ => true
  | .sctlRetry _ _ _ => true
  | .sctlAbandon _ _ => true
  | .writeL2 _ _ _ _ _ => true
  | .writeIlock _ _ _ => true
  | .writeDlock _ _ _ => true
  | .invalVa _ _ => true
  | .invalUser _ _ => true
  | .invalAll _ _ => true
  | .clearLocks _ _ => true
  | .readL2 _ _ _ => true
  | .tlbInvalEffect _ => true
  | .priorityWrite _ _ _ _ _ => true
  | .requestArrival _ _ rs => rs.all (·.wf)
  | .junctionDecision _ _ => true
  | .grantEnd _ _ => true
  | .destinationAdmission _ => true
  | .launchBegin _ => true
  | .reservationGrant _ => true
  | .stripTranslate _ _ => true
  | .stripIssue _ => true
  | .bufferGrant _ => true
  | .streamLineFill _ _ _ _ _ => true
  | .stationStep _ _ _ => true
  | .stripAbort _ => true
  | .streamAccessFailure _ _ => true
  | .stripCommit _ => true
  | .drainAccept _ _ _ => true
  | .chainStopped _ => true
  | .loadResponse _ _ _ => true
  | .divideComplete _ _ => true
  | .fetchResponse _ _ _ _ => true
  | .storeAccept _ _ => true
  | .trapEntry _ _ => true
  | .wfiWake _ => true
  | .adda _ _ f => f.wf
  | .suba _ _ f => f.wf
  | .anda _ _ f => f.wf
  | .movad _ _ f => f.wf
  | .liha _ _ f => f.wf
  | .ldD _ _ f => f.wf
  | .ldA _ _ f => f.wf
  | .ldX _ _ f => f.wf
  | .ldS _ _ f => f.wf
  | .stD _ _ f => f.wf
  | .stA _ _ f => f.wf
  | .stX _ _ f => f.wf
  | .dinv _ _ f => f.wf
  | .iinv _ _ f => f.wf
  | .dinvall _ _ f => f.wf
  | .iinvall _ _ f => f.wf
  | .aadd _ _ f => f.wf
  | .aswp _ _ f => f.wf
  | .add _ _ f => f.wf
  | .sub _ _ f => f.wf
  | .neg _ _ f => f.wf
  | .abs _ _ f => f.wf
  | .mins _ _ f => f.wf
  | .maxs _ _ f => f.wf
  | .minu _ _ f => f.wf
  | .maxu _ _ f => f.wf
  | .and _ _ f => f.wf
  | .or _ _ f => f.wf
  | .xor _ _ f => f.wf
  | .andn _ _ f => f.wf
  | .not _ _ f => f.wf
  | .shl _ _ f => f.wf
  | .shr _ _ f => f.wf
  | .sar _ _ f => f.wf
  | .rol _ _ f => f.wf
  | .sext _ _ f => f.wf
  | .zext _ _ f => f.wf
  | .clz _ _ f => f.wf
  | .ctz _ _ f => f.wf
  | .popc _ _ f => f.wf
  | .bswap _ _ f => f.wf
  | .mov _ _ f => f.wf
  | .mul _ _ f => f.wf
  | .mulhs _ _ f => f.wf
  | .mulhu _ _ f => f.wf
  | .divs _ _ f => f.wf
  | .divu _ _ f => f.wf
  | .rems _ _ f => f.wf
  | .remu _ _ f => f.wf
  | .slt _ _ f => f.wf
  | .sltu _ _ f => f.wf
  | .seq _ _ f => f.wf
  | .li _ _ f => f.wf
  | .lih _ _ f => f.wf
  | .movda _ _ f => f.wf
  | .xmac _ _ f => f.wf
  | .xfma _ _ f => f.wf
  | .xadd _ _ f => f.wf
  | .xsub _ _ f => f.wf
  | .xext _ _ f => f.wf
  | .xpack _ _ f => f.wf
  | .xlo _ _ f => f.wf
  | .xhi _ _ f => f.wf
  | .xclr _ _ f => f.wf
  | .xmov _ _ f => f.wf
  | .nop _ _ f => f.wf
  | .br _ _ f => f.wf
  | .bcc _ _ f => f.wf
  | .dbnz _ _ f => f.wf
  | .jal _ _ f => f.wf
  | .jr _ _ f => f.wf
  | .jalr _ _ f => f.wf
  | .trap _ _ f => f.wf
  | .eret _ _ f => f.wf
  | .wfi _ _ f => f.wf
  | .mfcr _ _ f => f.wf
  | .mtcr _ _ f => f.wf
  | .chiss _ _ f => f.wf
  | .chwait _ _ f => f.wf
  | .chstop _ _ f => f.wf
  | .rdch _ _ f => f.wf
  | .wrch _ _ f => f.wf
  | .ldca _ _ f => f.wf
  | .rdca _ _ f => f.wf
  | .ssw _ _ f => f.wf
  | .sswa _ _ f => f.wf
  | .rsw _ _ f => f.wf
  | .smov _ _ f => f.wf
  | .sclr _ _ f => f.wf
  | .tglPortEnable _ _ _ => true
  | .trainingFrame _ x => decide (x.frame.credits.length = 9)
  | .trainingTimeout _ => true
  | .frameReceive _ frame _ => decide (frame.length = 288)
  | .replayTimeout _ => true
  | .fecLockLoss _ => true
  | .heartbeatSend _ => true
  | .heartbeatMiss _ => true
  | .heartbeat _ _ => true
  | .catchingUpExpiry _ => true
  | .rd _ m => m.wfRequest
  | .wr _ m => m.wfWrite
  | .atom _ m => m.wfAtomic
  | .rspRefuse _ m => m.wfResponse
  | .rspData _ m => m.wfResponse
  | .rspAcc _ m => m.wfResponse
  | .rdata _ m => m.wfResponse
  | .requestTimeout _ => true
  | .hello _ _ _ _ _ => true
  | .neigh _ r => decide (r.ports.length ≤ 8)
  | .discoveryStart => true
  | .discoveryRoot => true
  | .propose _ _ _ _ _ _ => true
  | .vote _ _ _ _ _ => true
  | .voteTimeout => true
  | .commit _ _ _ _ _ => true
  | .abort _ _ _ => true
  | .stageExpiry => true
  | .fsrReq _ _ _ _ _ => true
  | .fsrData _ _ _ length bytes => decide (bytes.length ≤ 240)
  | .fsrRetry _ _ => true
  | .surveyReq _ _ _ => true
  | .surveyRsp _ _ r => decide (r.ports.length = 8)
  | .floodKeyExpiry _ _ => true
  | .id => true
  | .temp => true
  | .power => true
  | .state => true
  | .wear => true
  | .prepareOff _ => true
  | .offReady => true
  | .vstbyLost => true
  | .clkinReturn => true
  | .linkLevelRetry _ _ => true
  | .stationAccessResponse _ _ _ _ _ => true
  | .bclkPeriod _ => true
  | .jtagInstruction _ => true
  | .illegalInstr _ _ _ => true

end Sys2Proof
end

