-- ==== Sys2Proof/Safety.lean ====
section
/-! DEFINITION. The terms in which the claims are stated: the canonical form of memory, what it takes for an instruction to
execute at once, and how a retired bundle's state is compared. -/

namespace Sys2Proof.Machine

/-! ## The canonical form of memory -/

/-- Numbers rise strictly from a lower bound on. -/
def risingFrom : Nat → List Nat → Bool
  | _, [] => true
  | lo, a :: t => decide (lo ≤ a) && risingFrom (a + 1) t

/-- Memory is in its one canonical form: cells strictly rising and none zero, poisoned words and lines strictly rising. -/
def Memory.wf (m : Memory) : Bool := cellsWf m.cells && risingFrom 0 m.badScratch && risingFrom 0 m.badDdr

/-! ## An instruction that executes at once (09 R192, 10 R208 to R211, 11 R233) -/

/-- Instruction `i`, with STOP, reaches decode of a running thread at a bundle boundary: CCLK runs, no asynchronous cause is
due, and its `k` parcels are fetched from words without an error. -/
def State.arrives (s : State) (n : CoreId) (t : ThreadId) (i : SlotI) (k : Nat) : Bool :=
  let h := s.thread n t
  s.cores[n].runs t && !s.cclkStopped && h.latch.isEmpty && (s.due n t).isNone
    && (decide (imemSize ≤ h.pc.toNat) || decide (h.pc.toNat + 2 * k ≤ imemSize))
    && decide (s.fetchParcels n s.cores[n] h.levelK k h.pc = (s.cores[n], none)) && (s.imemSoft n h.pc.toNat k).isEmpty
    && i.f.stop

/-- Instruction `i`, alone in its bundle, reaches decode, breaks none of R210, and nothing makes it wait: it executes. -/
def State.alone (s : State) (n : CoreId) (t : ThreadId) (i : SlotI) : Bool :=
  s.arrives n t i i.f.parcels && (s.decodeFault n t [i]).isNone && !s.bundleWaits n t [i]

/-- The chain beside the core is not halted by a strip exception. -/
def State.notHalted (s : State) (n : CoreId) : Bool :=
  match chainOf n with
  | some k => !s.chains[k].exc
  | none => true

/-- The address after instruction `i` at the thread's pc: NA. -/
def State.nextPc (s : State) (n : CoreId) (t : ThreadId) (i : SlotI) : Word :=
  (s.thread n t).pc + BitVec.ofNat 64 (2 * i.f.parcels)

/-- The thread has gone on past instruction `i`: pc at NA, the fetch buffer at the word of its last parcel, a value of CORE_CFG
that was due in force, and what the next bundle may pair with (09 R189, R193, R195). -/
def State.past (s : State) (n : CoreId) (t : ThreadId) (i : SlotI) : State :=
  let c := s.cores[n]
  let h := s.thread n t
  s.modCore n fun k => k.bundleOver.modThread t fun x => { x with
    pc := s.nextPc n t i
    latch := []
    waited := false
    hold := false
    frame := Vector.replicate 2 .unread
    buf := some (((s.nextPc n t i).toNat - 1) / 8)
    prev := prevOf (c.pairs h h.pc.toNat (s.nextPc n t i).toNat [i]) h [i] }

/-- The stack of a trap entry: SP is 8-byte aligned, at least 16 above SLIM, and both words of the frame lie in DMEM
(11 R234 to R237). -/
def State.stackReady (s : State) (n : CoreId) (t : ThreadId) : Bool :=
  let sp := (s.thread n t).sp.toNat
  decide (sp % 8 = 0) && decide (16 ≤ sp) && decide (s.cores[n].slim.toNat + 16 ≤ sp) && decide (sp ≤ dmemSize)

/-- What trap entry leaves (11 R234): CAUSE, ERA and EST written, the frame pushed, SP down by 16, STATUS with BARREL alone, pc
at EVB, the thread at a bundle boundary, the fetch buffer as prefetch leaves it; the other threads, the X and S registers, memory and the chains as they were. -/
def State.enteredFrom (u s : State) (n : CoreId) (t : ThreadId) (x : Cause) (era : Word) : Prop :=
  let h := s.thread n t
  u.thread n t = { h with
    pc := s.cores[n].evb &&& ~~~(1 : Word)
    a := h.a.set 15 (h.sp - 16)
    status := h.status &&& 4
    cause := BitVec.ofNat 64 (x.info % 256 * 256 + x.code)
    era := era &&& ~~~(1 : Word)
    est := h.status
    latch := []
    waited := false
    hold := false
    frame := Vector.replicate 2 .unread
    prev := none
    buf := (u.thread n t).buf } ∧
  u.cores[n].dmem = writeCells (writeCells s.cores[n].dmem (h.sp - 16).toNat (bytesOf 8 (era &&& ~~~(1 : Word)).toNat))
    (h.sp - 8).toNat (bytesOf 8 h.status.toNat) ∧
  (∀ r, r ≠ t → u.thread n r = s.thread n r) ∧ (∀ m, m ≠ n → u.cores[m] = s.cores[m]) ∧
  u.cores[n].x = s.cores[n].x ∧ u.cores[n].s = s.cores[n].s ∧ u.mem = s.mem ∧ u.chains = s.chains ∧
  (∀ a, x.addr = some a → cellGet u.evt.taddr (n.val * 4 + t.val) = a)

/-! ## A register write that takes effect at once (02 R28, R29; 17 R356, R357, R367) -/

/-- A register write of `src` at a CSR offset takes effect at once: its bus does not wait, its block's clock runs and its unit
is not power-gated, a host's write comes through a port that is up, under a grant that covers the block, and a core's has no
posted store of the core before it (09 R201). -/
def State.reaches (s : State) (src : Src) (off : Nat) : Bool :=
  !s.busWaits (off / 8 * 8) && match blockOf (off / 8 * 8) with
    | some (b, _) => !s.gatedBlock b && match src with
      | .host p => s.portUp p && !s.noGrant b true
      | .core m => s.cores[m].stores.isEmpty
      | .fabric => true
    | none => false

/-- `u` is `v` but for the core's CYCLE, which a bundle advances, and the model's counter of free values. -/
def State.chargedFrom (u v : State) (n : CoreId) : Prop :=
  u = { v.modCore n fun c => { c with cycle := u.cores[n].cycle } with free := u.free }

end Sys2Proof.Machine
end

