-- ==== Sys2Proof/Certificates/Slice0/Obligations.lean ====
section
/-! DEFINITION. The statements for the provers.  Each docstring names the rules of spec/ that the statement formalises. -/

open Sys2Proof Sys2Proof.Machine

/-! ## The queue (the block's form) -/

/-- A step takes the command at the front of the queue and is that command's effect with the queue's rest; on an empty queue
the block idles, and what upsets an idle block is free (DESIGN CHOICE, log entries 1 and 53). -/
def Obligations.StepRunsFrontCommand : Prop :=
  (∀ (c : Instr) (s : State), step { s with pending := c :: s.pending } = exec c s) ∧
    ∀ s : State, s.pending = [] → step s = .next s.idle ∧ s.idle.pending = []

/-! ## The D unit (10 R216, R217) -/

/-- The rows of R216 that write Dd when they execute: constructor, OP, and the value from Da, b and Dd. -/
def Sys2Proof.Claims.dRows : List ((CoreId → ThreadId → Fields → Instr) × Nat × (Thread → Fields → Word)) :=
  [ (Instr.add, 0x00, fun (h : Thread) (f : Fields) => h.rD f.ra + h.bD f)
  , (Instr.sub, 0x01, fun (h : Thread) (f : Fields) => h.rD f.ra - h.bD f)
  , (Instr.neg, 0x04, fun (h : Thread) (f : Fields) => 0 - h.rD f.ra)
  , (Instr.abs, 0x06, fun (h : Thread) (f : Fields) => if (h.rD f.ra).toInt < 0 then 0 - h.rD f.ra else h.rD f.ra)
  , (Instr.mins, 0x08, fun (h : Thread) (f : Fields) => if (h.rD f.ra).toInt ≤ (h.bD f).toInt then h.rD f.ra else h.bD f)
  , (Instr.maxs, 0x09, fun (h : Thread) (f : Fields) => if (h.bD f).toInt ≤ (h.rD f.ra).toInt then h.rD f.ra else h.bD f)
  , (Instr.minu, 0x0A, fun (h : Thread) (f : Fields) => if (h.rD f.ra).toNat ≤ (h.bD f).toNat then h.rD f.ra else h.bD f)
  , (Instr.maxu, 0x0B, fun (h : Thread) (f : Fields) => if (h.bD f).toNat ≤ (h.rD f.ra).toNat then h.rD f.ra else h.bD f)
  , (Instr.and, 0x10, fun (h : Thread) (f : Fields) => h.rD f.ra &&& h.bD f)
  , (Instr.or, 0x11, fun (h : Thread) (f : Fields) => h.rD f.ra ||| h.bD f)
  , (Instr.xor, 0x12, fun (h : Thread) (f : Fields) => h.rD f.ra ^^^ h.bD f)
  , (Instr.andn, 0x13, fun (h : Thread) (f : Fields) => h.rD f.ra &&& ~~~(h.bD f))
  , (Instr.not, 0x14, fun (h : Thread) (f : Fields) => ~~~(h.rD f.ra))
  , (Instr.shl, 0x18, fun (h : Thread) (f : Fields) => h.rD f.ra <<< ((h.bD f).toNat % 64))
  , (Instr.shr, 0x19, fun (h : Thread) (f : Fields) => h.rD f.ra >>> ((h.bD f).toNat % 64))
  , (Instr.sar, 0x1A, fun (h : Thread) (f : Fields) => (h.rD f.ra).sshiftRight ((h.bD f).toNat % 64))
  , (Instr.rol, 0x1B, fun (h : Thread) (f : Fields) => (h.rD f.ra).rotateLeft ((h.bD f).toNat % 64))
  , (Instr.sext, 0x20, fun (h : Thread) (f : Fields) => sextFrom (h.rD f.ra) (h.bD f))
  , (Instr.zext, 0x21, fun (h : Thread) (f : Fields) => zextFrom (h.rD f.ra) (h.bD f))
  , (Instr.clz, 0x24, fun (h : Thread) (f : Fields) => BitVec.ofNat 64 (clz64 (h.rD f.ra)))
  , (Instr.ctz, 0x25, fun (h : Thread) (f : Fields) => BitVec.ofNat 64 (ctz64 (h.rD f.ra)))
  , (Instr.popc, 0x26, fun (h : Thread) (f : Fields) => BitVec.ofNat 64 (popc64 (h.rD f.ra)))
  , (Instr.bswap, 0x27, fun (h : Thread) (f : Fields) => bswap64 (h.rD f.ra))
  , (Instr.mov, 0x33, fun (h : Thread) (f : Fields) => h.rD f.ra)
  , (Instr.mul, 0x28, fun (h : Thread) (f : Fields) => h.rD f.ra * h.bD f)
  , (Instr.mulhs, 0x29, fun (h : Thread) (f : Fields) => BitVec.ofInt 64 ((h.rD f.ra).toInt * (h.bD f).toInt / (2 ^ 64 : Nat)))
  , (Instr.mulhu, 0x2A, fun (h : Thread) (f : Fields) => BitVec.ofNat 64 ((h.rD f.ra).toNat * (h.bD f).toNat / 2 ^ 64))
  , (Instr.slt, 0x34, fun (h : Thread) (f : Fields) => if (h.rD f.ra).toInt < (h.bD f).toInt then 1 else 0)
  , (Instr.sltu, 0x35, fun (h : Thread) (f : Fields) => if (h.rD f.ra).toNat < (h.bD f).toNat then 1 else 0)
  , (Instr.seq, 0x36, fun (h : Thread) (f : Fields) => if h.rD f.ra = h.bD f then 1 else 0)
  , (Instr.li, 0x38, fun (_ : Thread) (f : Fields) => f.imm.signExtend 64)
  , (Instr.lih, 0x39, fun (h : Thread) (f : Fields) => f.imm.setWidth 64 <<< 32 ||| h.rD f.rd &&& 0xFFFFFFFF)
  , (Instr.movda, 0x3A, fun (h : Thread) (f : Fields) => h.rA f.ra) ]

/-- The D-unit operations but the divisions: the instruction, alone in its bundle, writes Dd and the pc goes to NA; every
other register, memory and everything else keeps its value, but CYCLE (10 R209, R216). -/
def Sys2Proof.Claims.DUnitRows : Prop :=
  ∀ row ∈ Sys2Proof.Claims.dRows, ∀ (n : CoreId) (t : ThreadId) (f : Fields) (s : State),
    s.alone n t (slotOf 1 row.2.1 f) = true →
    ∃ u, exec (row.1 n t f) s = .next u ∧
      u.chargedFrom ((s.past n t (slotOf 1 row.2.1 f)).modThread n t fun h => { h with
        d := h.d.set (⟨f.rd.toNat % 32, by omega⟩ : Fin 32) (row.2.2 (s.thread n t) f) }) n

/-- The counts and the byte reversal of R120 by their bits: clz, ctz, popc and bswap, and what sext and zext leave. -/
def Sys2Proof.Claims.BitCountsAndExtensions : Prop :=
  (∀ x : Word, x ≠ 0 → 2 ^ (63 - clz64 x) ≤ x.toNat ∧ x.toNat < 2 ^ (64 - clz64 x)) ∧
  (∀ x : Word, x ≠ 0 → ctz64 x < 64 ∧ x.getLsbD (ctz64 x) = true ∧ ∀ i < ctz64 x, x.getLsbD i = false) ∧
  (clz64 0 = 64 ∧ ctz64 0 = 64) ∧
  (∀ x : Word, popc64 x = ((List.finRange 64).filter fun i => x.getLsbD i.val).length) ∧
  (∀ (x : Word) (i : Nat), i < 64 → (bswap64 x).getLsbD i = x.getLsbD (8 * (7 - i / 8) + i % 8)) ∧
  (∀ (x b : Word) (i : Nat), i < 64 →
    (zextFrom x b).getLsbD i = (decide (i ≤ b.toNat % 64) && x.getLsbD i) ∧
    (sextFrom x b).getLsbD i = x.getLsbD (min i (b.toNat % 64)))

/-- The rows of R217: constructor, OP and kind of result. -/
def Sys2Proof.Claims.divRows : List ((CoreId → ThreadId → Fields → Instr) × Nat × Nat) :=
  [(Instr.divs, 0x2C, 0), (Instr.divu, 0x2D, 1), (Instr.rems, 0x2E, 2), (Instr.remu, 0x2F, 3)]

/-- A division issues: it holds the divider with its result, and writes no register yet (10 R217, 09 R191). -/
def Sys2Proof.Claims.DivisionIssues : Prop :=
  ∀ row ∈ Sys2Proof.Claims.divRows, ∀ (n : CoreId) (t : ThreadId) (f : Fields) (s : State),
    s.alone n t (slotOf 1 row.2.1 f) = true →
    ∃ u, exec (row.1 n t f) s = .next u ∧
      u.chargedFrom ((s.past n t (slotOf 1 row.2.1 f)).modCore n fun c => { c with
        divider := some { thread := t, dest := ⟨f.rd.toNat % 32, by omega⟩,
                          value := divideD row.2.2 (f.md.getLsbD 0) ((s.thread n t).rD f.ra) ((s.thread n t).bD f) } }) n

/-- The divider's results: truncated quotients and remainders at the two widths, and the boundary cases of R217. -/
def Sys2Proof.Claims.DivisionResults : Prop :=
  (∀ a b : Word, b ≠ 0 → divideD 1 false a b = BitVec.ofNat 64 (a.toNat / b.toNat)) ∧
  (∀ a b : Word, b ≠ 0 → divideD 3 false a b = BitVec.ofNat 64 (a.toNat % b.toNat)) ∧
  (∀ a b : Word, b ≠ 0 → divideD 0 false a b = BitVec.ofInt 64 (a.toInt.tdiv b.toInt)) ∧
  (∀ a b : Word, b ≠ 0 → divideD 2 false a b = BitVec.ofInt 64 (a.toInt.tmod b.toInt)) ∧
  (∀ a b : Word, b.setWidth 32 ≠ (0 : Half) →
    divideD 1 true a b = BitVec.ofNat 64 ((a.setWidth 32 : Half).toNat / (b.setWidth 32 : Half).toNat) ∧
    divideD 3 true a b = BitVec.ofNat 64 ((a.setWidth 32 : Half).toNat % (b.setWidth 32 : Half).toNat) ∧
    divideD 0 true a b = (BitVec.ofInt 32 ((a.setWidth 32 : Half).toInt.tdiv (b.setWidth 32 : Half).toInt)).signExtend 64 ∧
    divideD 2 true a b = (BitVec.ofInt 32 ((a.setWidth 32 : Half).toInt.tmod (b.setWidth 32 : Half).toInt)).signExtend 64) ∧
  (∀ a : Word, divideD 0 false a 0 = BitVec.allOnes 64 ∧ divideD 1 false a 0 = BitVec.allOnes 64 ∧
    divideD 2 false a 0 = a ∧ divideD 3 false a 0 = a) ∧
  (∀ a b : Word, b.setWidth 32 = (0 : Half) →
    divideD 0 true a b = BitVec.allOnes 64 ∧ divideD 1 true a b = BitVec.ofNat 64 (2 ^ 32 - 1) ∧
    divideD 2 true a b = (a.setWidth 32 : Half).signExtend 64 ∧ divideD 3 true a b = (a.setWidth 32 : Half).setWidth 64) ∧
  divideD 0 false 0x8000000000000000 (BitVec.allOnes 64) = 0x8000000000000000 ∧
  divideD 2 false 0x8000000000000000 (BitVec.allOnes 64) = 0

/-- DIVIDE_COMPLETE writes the result that the divider holds for its thread and frees the divider; a core that was told to
stop and has nothing else outstanding reads STATE 0 (10 R217, 09 R191, R198). -/
def Sys2Proof.Claims.DivideCompleteWritesRegister : Prop :=
  ∀ (n : CoreId) (t : ThreadId) (d : Division) (s : State),
    s.cclkStopped = false → s.cores[n].divider = some d → d.thread = t →
    ∃ u, exec (.divideComplete n t) s = .next u ∧
      u = s.modCore n fun c => ({ c with divider := none }.modThread t fun h => { h with d := h.d.set d.dest d.value }).settle

/-! ## The A unit (10 R212 to R215) -/

/-- The A-unit rows of R212 that compute an address: constructor, OP and the value of Ad. -/
def Sys2Proof.Claims.aRows : List ((CoreId → ThreadId → Fields → Instr) × Nat × (Thread → Fields → Word)) :=
  [ (Instr.adda, 0x01, fun (h : Thread) (f : Fields) => h.rA f.ra + h.bA f)
  , (Instr.suba, 0x02, fun (h : Thread) (f : Fields) => h.rA f.ra - h.bA f)
  , (Instr.anda, 0x03, fun (h : Thread) (f : Fields) => h.rA f.ra &&& h.bA f)
  , (Instr.movad, 0x05, fun (h : Thread) (f : Fields) => h.rD f.ra)
  , (Instr.liha, 0x06, fun (h : Thread) (f : Fields) => f.imm.setWidth 64 <<< 32 ||| h.rA f.rd &&& 0xFFFFFFFF) ]

/-- adda, suba, anda, movad and liha write Ad and nothing else (10 R209, R212). -/
def Sys2Proof.Claims.AUnitWritesAddress : Prop :=
  ∀ row ∈ Sys2Proof.Claims.aRows, ∀ (n : CoreId) (t : ThreadId) (f : Fields) (s : State),
    s.alone n t (slotOf 0 row.2.1 f) = true →
    ∃ u, exec (row.1 n t f) s = .next u ∧
      u.chargedFrom ((s.past n t (slotOf 0 row.2.1 f)).modThread n t fun h => { h with
        a := h.a.set (⟨f.rd.toNat % 16, by omega⟩ : Fin 16) (row.2.2 (s.thread n t) f) }) n

/-- The base register after an access of `size` bytes: post-modified by MOD.POST, else as it was (10 R212). -/
def Sys2Proof.Claims.based (s : State) (n : CoreId) (t : ThreadId) (f : Fields) (size : Nat) : State :=
  if f.post then s.modThread n t fun h => { h with
    a := h.a.set (⟨f.ra.toNat % 16, by omega⟩ : Fin 16) (h.posted f size) }
  else s

/-- The loads: constructor, OP, bytes, sign extension, and the register that RD names. -/
def Sys2Proof.Claims.loadRows :
    List ((CoreId → ThreadId → Fields → Instr) × Nat × (Fields → Nat) × (Fields → Bool) × (Fields → RegRef)) :=
  [ (Instr.ldD, 0x10, fun f => 2 ^ (f.md.toNat % 4), fun f => f.md.getLsbD 2, fun f => regD f.rd)
  , (Instr.ldA, 0x11, fun _ => 8, fun _ => false, fun f => regA f.rd)
  , (Instr.ldX, 0x12, fun _ => 16, fun _ => false, fun f => regX f.rd)
  , (Instr.ldS, 0x13, fun _ => 32, fun _ => false, fun f => regS f.rd) ]

/-- A load from DMEM writes its register with the bytes at ea, extended, post-modifies its base and corrects the words that it
read; one from elsewhere
becomes an outstanding load and writes nothing yet (10 R212, R213, 09 R184, R191).
The model's own choice here, no rule of the spec: an instruction is a command that reaches decode, and its bundle acts
when the one with STOP has come (log entry 61); a load waits at the port for its turn (log entry 71). -/
def Obligations.LoadsReadDmemOrIssue : Prop :=
  ∀ row ∈ Sys2Proof.Claims.loadRows, ∀ (n : CoreId) (t : ThreadId) (f : Fields) (s : State),
    s.alone n t (slotOf 0 row.2.1 f) = true →
    let h := s.thread n t
    let size := row.2.2.1 f
    let past := s.past n t (slotOf 0 row.2.1 f)
    (∀ a, s.dataAccess s.cores[n] h.levelK .read (h.ea f) size = (s.cores[n], .ok (.dmem a)) →
      ∃ u, exec (row.1 n t f) s = .next u ∧
        u.chargedFrom ((Sys2Proof.Claims.based (past.modCore n fun c =>
          c.setReg t (row.2.2.2.2 f) (loadValue (readCells s.cores[n].dmem (h.ea f).toNat size) (row.2.2.2.1 f))) n t f size).fixWords
            n (s.cores[n].dmemSoft a size)) n) ∧
    (∀ c loc cached, s.dataAccess s.cores[n] h.levelK .read (h.ea f) size = (c, .ok (.far loc cached)) →
      ∃ u, exec (row.1 n t f) s = .next u ∧ u.mem = s.mem ∧ u.chains = s.chains ∧
        u.cores[n].loads = s.cores[n].loads ++ [{
          thread := t, dest := row.2.2.2.2 f, kind := .read size (row.2.2.2.1 f), loc := loc, va := h.ea f, cached := cached,
          hit := (match loc with
            | .here off => if cached then (cacheFind s.cores[n].dcache (off / 64)).map (·.bytes) else none
            | _ => none)
          seq := s.cores[n].seq, levelK := h.levelK }] ∧
        (u.thread n t).d = (s.thread n t).d ∧ u.cores[n].x = s.cores[n].x ∧ u.cores[n].s = s.cores[n].s ∧
        u.cores[n].dmem = s.cores[n].dmem ∧ (u.thread n t).pc = s.nextPc n t (slotOf 0 row.2.1 f))

/-- The stores: constructor, OP, bytes and the value that RD names. -/
def Sys2Proof.Claims.storeRows :
    List ((CoreId → ThreadId → Fields → Instr) × Nat × (Fields → Nat) × (Core → Thread → Fields → Nat)) :=
  [ (Instr.stD, 0x18, fun (f : Fields) => 2 ^ (f.md.toNat % 4), fun (_ : Core) (h : Thread) (f : Fields) => (h.rD f.rd).toNat)
  , (Instr.stA, 0x19, fun _ => 8, fun (_ : Core) (h : Thread) (f : Fields) => (h.rA f.rd).toNat)
  , (Instr.stX, 0x1A, fun _ => 16, fun (c : Core) (_ : Thread) (f : Fields) => (c.rX f.rd).toNat) ]

/-- A store to DMEM writes its bytes at ea, lowest first; one to elsewhere is posted in the store queue with its number, and
changes a line that the data cache holds; one to the core's own CORE_CFG acts once the next bundle is over.  Memory outside
the core keeps every byte until the store is accepted (10 R212, R213; 09 R184, R185, R191, R195). -/
def Sys2Proof.Claims.StoreRows : Prop :=
  ∀ row ∈ Sys2Proof.Claims.storeRows, ∀ (n : CoreId) (t : ThreadId) (f : Fields) (s : State),
    s.alone n t (slotOf 0 row.2.1 f) = true →
    let h := s.thread n t
    let size := row.2.2.1 f
    let v := bytesOf size (row.2.2.2 s.cores[n] h f)
    let past := s.past n t (slotOf 0 row.2.1 f)
    (∀ a, s.dataAccess s.cores[n] h.levelK .write (h.ea f) size = (s.cores[n], .ok (.dmem a)) →
      a = (h.ea f).toNat ∧
      ∃ u, exec (row.1 n t f) s = .next u ∧
        u.chargedFrom (Sys2Proof.Claims.based (past.modCore n fun c => c.dmemStore a v) n t f size) n) ∧
    (∀ loc cached, s.dataAccess s.cores[n] h.levelK .write (h.ea f) size = (s.cores[n], .ok (.far loc cached)) →
      ∃ u, exec (row.1 n t f) s = .next u ∧
        u.chargedFrom (Sys2Proof.Claims.based (past.modCore n fun c => { c.cacheStore loc v with
          stores := c.stores ++ [{ thread := t, loc := loc, va := h.ea f, bytes := v, seq := c.seq, levelK := h.levelK }]
          seq := c.seq + 1
          cfgDue := if loc = .here (csrBase + coreBase n + 0x90000) && 4 ≤ v.length then
              some { value := BitVec.ofNat 32 (natOf (v.take 4)) &&& 0x1F, own := true }
            else c.cfgDue }) n t f size) n)

/-- Reading DMEM after a store to it: the stored bytes where the store went, every other byte as before (09 R184). -/
def Sys2Proof.Claims.DmemStoreThenRead : Prop :=
  ∀ (c : Core) (a : Nat) (bs : List Byte), cellsWf c.dmem = true →
    readCells (c.dmemStore a bs).dmem a bs.length = bs ∧
    (∀ b, b < a ∨ a + bs.length ≤ b → cellGet (c.dmemStore a bs).dmem b = cellGet c.dmem b) ∧
    cellsWf (c.dmemStore a bs).dmem = true

/-- aadd and aswp on a scratch word, here or remote, become an outstanding atomic and write nothing yet (10 R214). -/
def Sys2Proof.Claims.AtomicsIssue : Prop :=
  ∀ row ∈ [(Instr.aadd, 0x28, LoadKind.aadd), (Instr.aswp, 0x29, LoadKind.aswp)],
    ∀ (n : CoreId) (t : ThreadId) (f : Fields) (s : State),
    s.alone n t (slotOf 0 row.2.1 f) = true →
    let h := s.thread n t
    ∀ loc cached, s.dataAccess s.cores[n] h.levelK .atomic (h.ea f) 8 = (s.cores[n], .ok (.far loc cached)) →
      ∃ u, exec (row.1 n t f) s = .next u ∧
        u.chargedFrom ((s.past n t (slotOf 0 row.2.1 f)).modCore n fun c => { c with
          loads := c.loads ++ [{ thread := t, dest := regD f.rd, kind := row.2.2 (h.rD f.rb), loc := loc, va := h.ea f,
                                 cached := false, hit := none, seq := c.seq, levelK := h.levelK }]
          seq := c.seq + 1 }) n

/-- dinvall and iinvall empty their cache; dinv and iinv drop the line of a local address that translates and passes the
address check, take its trap where it fails, and of an address in DMEM drop nothing.  iinv and iinvall also empty the fetch
buffer (10 R212, R215; 09 R185; 12 R247). -/
def Sys2Proof.Claims.CacheInstructionsInvalidate : Prop :=
  ∀ (n : CoreId) (t : ThreadId) (f : Fields) (s : State),
    (s.alone n t (slotOf 0 0x22 f) = true → ∃ u, exec (.dinvall n t f) s = .next u ∧
      u.chargedFrom ((s.past n t (slotOf 0 0x22 f)).modCore n fun c => { c with dcache := [] }) n) ∧
    (s.alone n t (slotOf 0 0x23 f) = true → ∃ u, exec (.iinvall n t f) s = .next u ∧
      u.chargedFrom (((s.past n t (slotOf 0 0x23 f)).modCore n fun c => { c with icache := [] }).modThread n t
        fun h => { h with buf := none }) n) ∧
    (∀ e off, dmemSize ≤ ((s.thread n t).ea f).toNat →
      s.cores[n].lookup false ((s.thread n t).ea f) = (s.cores[n], some e) →
      s.targetOf e ((s.thread n t).ea f) = some (.here off) →
      s.reachCheck (s.thread n t).levelK .read ((s.thread n t).ea f) (.here off) = none →
      (s.alone n t (slotOf 0 0x20 f) = true → ∃ u, exec (.dinv n t f) s = .next u ∧
        u.chargedFrom (Sys2Proof.Claims.based ((s.past n t (slotOf 0 0x20 f)).modCore n fun c => { c with
          dcache := c.dcache.filter (·.line ≠ off / 64) }) n t f 8) n) ∧
      (s.alone n t (slotOf 0 0x21 f) = true → ∃ u, exec (.iinv n t f) s = .next u ∧
        u.chargedFrom ((Sys2Proof.Claims.based ((s.past n t (slotOf 0 0x21 f)).modCore n fun c => { c with
          icache := c.icache.filter (·.line ≠ off / 64) }) n t f 8).modThread n t fun h => { h with buf := none }) n)) ∧
    (∀ op, (op = 0x20 ∨ op = 0x21) → ∀ e off x, dmemSize ≤ ((s.thread n t).ea f).toNat →
      s.cores[n].lookup false ((s.thread n t).ea f) = (s.cores[n], some e) →
      s.targetOf e ((s.thread n t).ea f) = some (.here off) →
      s.reachCheck (s.thread n t).levelK .read ((s.thread n t).ea f) (.here off) = some x →
      s.alone n t (slotOf 0 op f) = true → s.stackReady n t = true →
      ∃ u, exec (if op = 0x20 then .dinv n t f else .iinv n t f) s = .next u ∧ u.enteredFrom s n t x (s.thread n t).pc) ∧
    (((s.thread n t).ea f).toNat < dmemSize → s.alone n t (slotOf 0 0x20 f) = true →
      ∃ u, exec (.dinv n t f) s = .next u ∧
        u.chargedFrom (Sys2Proof.Claims.based (s.past n t (slotOf 0 0x20 f)) n t f 8) n) ∧
    (((s.thread n t).ea f).toNat < dmemSize → s.alone n t (slotOf 0 0x21 f) = true →
      ∃ u, exec (.iinv n t f) s = .next u ∧
        u.chargedFrom ((Sys2Proof.Claims.based (s.past n t (slotOf 0 0x21 f)) n t f 8).modThread n t
          fun h => { h with buf := none }) n)

/-! ## The X unit (10 R218, R219) -/

/-- The X-unit rows of R218 that write one register: constructor, OP, the register and its value. -/
def Sys2Proof.Claims.xRows :
    List ((CoreId → ThreadId → Fields → Instr) × Nat × (Fields → RegRef) × (Core → Thread → Fields → Desc)) :=
  [ (Instr.xadd, 0x02, fun (f : Fields) => regX f.rd, fun (c : Core) (_ : Thread) (f : Fields) => (c.rX f.ra + c.rX f.rb).setWidth 256)
  , (Instr.xsub, 0x03, fun (f : Fields) => regX f.rd, fun (c : Core) (_ : Thread) (f : Fields) => (c.rX f.ra - c.rX f.rb).setWidth 256)
  , (Instr.xext, 0x04, fun (f : Fields) => regX f.rd, fun (_ : Core) (h : Thread) (f : Fields) =>
      (if f.md.getLsbD 0 then (h.rD f.ra).signExtend 128 else (h.rD f.ra).setWidth 128 : Wide).setWidth 256)
  , (Instr.xpack, 0x05, fun (f : Fields) => regX f.rd, fun (_ : Core) (h : Thread) (f : Fields) => ((h.rD f.rb ++ h.rD f.ra : Wide)).setWidth 256)
  , (Instr.xlo, 0x06, fun (f : Fields) => regD f.rd, fun (c : Core) (_ : Thread) (f : Fields) => ((c.rX f.ra).extractLsb' 0 64).setWidth 256)
  , (Instr.xhi, 0x07, fun (f : Fields) => regD f.rd, fun (c : Core) (_ : Thread) (f : Fields) => ((c.rX f.ra).extractLsb' 64 64).setWidth 256)
  , (Instr.xclr, 0x08, fun (f : Fields) => regX f.rd, fun _ _ _ => 0)
  , (Instr.xmov, 0x09, fun (f : Fields) => regX f.rd, fun (c : Core) (_ : Thread) (f : Fields) => (c.rX f.ra).setWidth 256) ]

/-- The X-unit operations on registers write their one register and nothing else (10 R209, R218). -/
def Sys2Proof.Claims.XUnitWritesRegister : Prop :=
  ∀ row ∈ Sys2Proof.Claims.xRows, ∀ (n : CoreId) (t : ThreadId) (f : Fields) (s : State),
    s.alone n t (slotOf 2 row.2.1 f) = true →
    ∃ u, exec (row.1 n t f) s = .next u ∧
      u.chargedFrom ((s.past n t (slotOf 2 row.2.1 f)).modCore n fun c =>
        c.setReg t (row.2.2.1 f) (row.2.2.2 s.cores[n] (s.thread n t) f)) n

/-- A word of DMEM that xmac and xfma can read: aligned, in DMEM, without a double-bit error (10 R219). -/
def Sys2Proof.Claims.pairWord (c : Core) (a : Word) : Prop :=
  a.toNat % 8 = 0 ∧ a.toNat < dmemSize ∧ c.dmemBad a.toNat 8 = none

/-- xmac adds the product of two DMEM words to Xd, exact modulo 2^128, and xfma replaces Xd's low half by one fused
multiply-add; MOD bit 1 post-modifies both addresses, Aa first (10 R218, R219). -/
def Sys2Proof.Claims.PairedFetchMultiplies : Prop :=
  ∀ (n : CoreId) (t : ThreadId) (f : Fields) (s : State),
    let c := s.cores[n]
    let h := s.thread n t
    let p := wordOf (readCells c.dmem (h.rA f.ra).toNat 8)
    let q := wordOf (readCells c.dmem (h.rA f.rb).toNat 8)
    let fixed := fun (v : State) =>
      v.fixWords n (c.dmemSoft (h.rA f.ra).toNat 8 ++ c.dmemSoft (h.rA f.rb).toNat 8)
    let post := fun (v : State) => fixed <| if f.md.getLsbD 1 then
        v.modThread n t fun h => { h with
          a := (h.a.set (⟨f.ra.toNat % 16, by omega⟩ : Fin 16) (h.rA f.ra + (xStrides f).1)).set (⟨f.rb.toNat % 16, by omega⟩ : Fin 16)
            ((if f.ra.toNat % 16 = f.rb.toNat % 16 then h.rA f.ra + (xStrides f).1 else h.rA f.rb) + (xStrides f).2) }
      else v
    Sys2Proof.Claims.pairWord c (h.rA f.ra) → Sys2Proof.Claims.pairWord c (h.rA f.rb) →
    (s.alone n t (slotOf 2 0x00 f) = true → ∃ u, exec (.xmac n t f) s = .next u ∧
      u.chargedFrom (post ((s.past n t (slotOf 2 0x00 f)).modCore n fun c => { c with
        x := c.x.set (⟨f.rd.toNat % 8, by omega⟩ : Fin 8) (c.rX f.rd +
          (if f.md.getLsbD 0 then BitVec.ofInt 128 (p.toInt * q.toInt) else BitVec.ofNat 128 (p.toNat * q.toNat))) })) n) ∧
    (s.alone n t (slotOf 2 0x01 f) = true → ∃ u, exec (.xfma n t f) s = .next u ∧
      u.chargedFrom (post ((s.past n t (slotOf 2 0x01 f)).modCore n fun c => { c with
        x := c.x.set (⟨f.rd.toNat % 8, by omega⟩ : Fin 8) ((c.rX f.rd).extractLsb' 64 64 ++
          BitVec.ofNat 64 (fp64.fma false 0 p.toNat q.toNat ((c.rX f.rd).toNat % 2 ^ 64)).v) })) n)

/-! ## The B unit (10 R220 to R224) -/

/-- Whether COND of bcc holds (10 R220). -/
def Sys2Proof.Claims.branchTaken (h : Thread) (f : Fields) : Bool :=
  let a := h.rD f.ra
  let b := if f.md.getLsbD 3 then 0 else h.rD f.rb
  match (f.md.extractLsb' 0 3).toNat with
  | 0 => a == b
  | 1 => a != b
  | 2 => decide (a.toInt < b.toInt)
  | 3 => decide (b.toInt ≤ a.toInt)
  | 4 => decide (a.toNat < b.toNat)
  | _ => decide (b.toNat ≤ a.toNat)

/-- A thread that jumps: pc at the target, bit 0 clear, the fetch buffer empty or, with branch-target prefetch, at the target's
word (09 R189, R193). -/
def Sys2Proof.Claims.jumped (v : State) (n : CoreId) (t : ThreadId) (a : Word) : State :=
  v.modThread n t fun h => { h with
    pc := a &&& ~~~(1 : Word), buf := v.targetBuf v.cores[n] (a &&& ~~~(1 : Word)) }

/-- nop, br, bcc, dbnz, jal, jr and jalr: the link or counter register that they name, and the pc at NA, at BA + 2 × IMM or
at the register's address; nothing else changes but CYCLE (10 R209, R220).
The model's own choice here, no rule of the spec: an instruction is a command that reaches decode, and its bundle acts
when the one with STOP has come (log entry 61); CYCLE's count is left open (log entries 11, 62). -/
def Obligations.BranchesSetPc : Prop :=
  ∀ (n : CoreId) (t : ThreadId) (f : Fields) (s : State),
    let h := s.thread n t
    let target := h.pc + (f.imm.signExtend 64 <<< 1)
    let past := fun (op : Nat) => s.past n t (slotOf 3 op f)
    let na := fun (op : Nat) => s.nextPc n t (slotOf 3 op f)
    let link := fun (v : State) (op : Nat) => v.modThread n t fun h => { h with
      a := h.a.set (⟨f.rd.toNat % 16, by omega⟩ : Fin 16) (na op) }
    (s.alone n t (slotOf 3 0x00 f) = true → ∃ u, exec (.nop n t f) s = .next u ∧ u.chargedFrom (past 0x00) n) ∧
    (s.alone n t (slotOf 3 0x01 f) = true → ∃ u, exec (.br n t f) s = .next u ∧
      u.chargedFrom (Sys2Proof.Claims.jumped (past 0x01) n t target) n) ∧
    (s.alone n t (slotOf 3 0x02 f) = true → ∃ u, exec (.bcc n t f) s = .next u ∧
      u.chargedFrom (if Sys2Proof.Claims.branchTaken h f then Sys2Proof.Claims.jumped (past 0x02) n t target
        else past 0x02) n) ∧
    (s.alone n t (slotOf 3 0x03 f) = true → ∃ u, exec (.dbnz n t f) s = .next u ∧
      let v := (past 0x03).modThread n t fun h => { h with d := h.d.set (⟨f.rd.toNat % 32, by omega⟩ : Fin 32) (h.rD f.rd - 1) }
      u.chargedFrom (if h.rD f.rd - 1 = 0 then v else Sys2Proof.Claims.jumped v n t target) n) ∧
    (s.alone n t (slotOf 3 0x04 f) = true → ∃ u, exec (.jal n t f) s = .next u ∧
      u.chargedFrom (Sys2Proof.Claims.jumped (link (past 0x04) 0x04) n t target) n) ∧
    (s.alone n t (slotOf 3 0x05 f) = true → ∃ u, exec (.jr n t f) s = .next u ∧
      u.chargedFrom (Sys2Proof.Claims.jumped (past 0x05) n t (h.rA f.ra)) n) ∧
    (s.alone n t (slotOf 3 0x06 f) = true → ∃ u, exec (.jalr n t f) s = .next u ∧
      u.chargedFrom (Sys2Proof.Claims.jumped (link (past 0x06) 0x06) n t (h.rA f.ra)) n)

/-- A thread after thread `t` has written `v` to STATUS: the writer has its IE and LEVEL; thread 0 holds BARREL, the one bit of the
core (log entry 63); where BARREL rises a thread that CORE_THR_PC enables starts there at level F, where it falls threads 1 to
3 stop at a bundle boundary (09 R197). -/
def Sys2Proof.Claims.threadAfter (c : Core) (t : ThreadId) (v : Word) (r : ThreadId) : Thread :=
  let h := c.threads[r]
  let h := if r = t then { h with status := v &&& 3 ||| h.status &&& 4 } else h
  let start := c.thrPc[(⟨r.val - 1, by omega⟩ : Fin 3)]
  if r = 0 then { h with status := h.status &&& 3 ||| v &&& 4 }
  else if !c.barrel && v.getLsbD 2 && start.getLsbD 0 then
    { h.clear with pc := start &&& ~~~(1 : Word), status := h.status &&& 1 ||| 4, buf := none, live := true }
  else if c.barrel && !v.getLsbD 2 then { h.clear with live := false }
  else h

/-- A core after a write of STATUS: its threads, and where BARREL falls the next pc of threads 1 to 3 in CORE_THR_PC, with EN
kept, and no frame read of theirs outstanding (09 R197). -/
def Sys2Proof.Claims.statusWritten (c : Core) (t : ThreadId) (v : Word) : Core :=
  let falls := c.barrel && !v.getLsbD 2
  { c with
    threads := Vector.ofFn fun r => Sys2Proof.Claims.threadAfter c t v r
    thrPc := if falls then Vector.ofFn fun i : Fin 3 =>
        c.threads[(⟨i.val + 1, by omega⟩ : ThreadId)].pc &&& ~~~(1 : Word) ||| c.thrPc[i] &&& 1
      else c.thrPc
    loads := if falls then c.loads.filter fun l => !(decide (l.thread ≠ 0) && l.ofFrame) else c.loads }

/-- mfcr writes Dd with the control register; mtcr writes CAUSE, ERA, EST, EVB, SLIM or CYCLE with their read-only bits kept,
and STATUS's IE, LEVEL and BARREL with what a change of BARREL does to threads 1 to 3; nothing else changes but CYCLE (09 R197;
10 R204, R220).  That BARREL stands in thread 0's STATUS is the model's reading (log entry 63).
The model's own choice here, no rule of the spec: an instruction is a command that reaches decode, and its bundle acts
when the one with STOP has come (log entry 61); BARREL is one bit of the core, in thread 0's STATUS (log entry 63). -/
def Obligations.ControlRegistersMove : Prop :=
  ∀ (n : CoreId) (t : ThreadId) (f : Fields) (s : State),
    let h := s.thread n t
    let past := fun (op : Nat) => s.past n t (slotOf 3 op f)
    (s.alone n t (slotOf 3 0x0B f) = true → ∃ u, exec (.mfcr n t f) s = .next u ∧
      u.chargedFrom ((past 0x0B).modThread n t fun h => { h with
        d := h.d.set (⟨f.rd.toNat % 32, by omega⟩ : Fin 32) (match f.md.toNat with
          | 0 => s.statusOf n t
          | 1 => h.cause
          | 2 => h.era
          | 3 => h.est
          | 4 => s.cores[n].evb
          | 5 => s.cores[n].slim
          | 6 => s.tid n t
          | 7 => s.cores[n].cycle
          | _ => 0) }) n) ∧
    (s.alone n t (slotOf 3 0x0C f) = true → ∃ u, exec (.mtcr n t f) s = .next u ∧
      let v := h.rD f.ra
      (f.md = 1 → u.chargedFrom ((past 0x0C).modThread n t fun h => { h with cause := v &&& 0xFFFF }) n) ∧
      (f.md = 2 → u.chargedFrom ((past 0x0C).modThread n t fun h => { h with era := v &&& ~~~(1 : Word) }) n) ∧
      (f.md = 3 → u.chargedFrom ((past 0x0C).modThread n t fun h => { h with est := v &&& 7 }) n) ∧
      (f.md = 4 → u.chargedFrom ((past 0x0C).modCore n fun c => { c with evb := v &&& ~~~(1 : Word) }) n) ∧
      (f.md = 5 → u.chargedFrom ((past 0x0C).modCore n fun c => { c with slim := v &&& ~~~(7 : Word) }) n) ∧
      (f.md = 6 → u.chargedFrom (past 0x0C) n) ∧
      (f.md = 7 → u.cores[n].cycle = v ∧ u.chargedFrom (past 0x0C) n) ∧
      (f.md = 0 → u.chargedFrom ((past 0x0C).modCore n fun c => Sys2Proof.Claims.statusWritten c t v) n))

/-! ## Traps (10 R209 to R211, R221, R223; 11 R230 to R239) -/

/-- trap enters after its bundle: CODE SOFTWARE with MOD as INFO, and ERA at NA (10 R221, 11 R234). -/
def Sys2Proof.Claims.TrapInstructionEnters : Prop :=
  ∀ (n : CoreId) (t : ThreadId) (f : Fields) (s : State),
    s.alone n t (slotOf 3 0x08 f) = true → s.stackReady n t = true →
    ∃ u, exec (.trap n t f) s = .next u ∧
      u.enteredFrom s n t { code := codeSoftware, info := f.md.toNat, addr := none } (s.nextPc n t (slotOf 3 0x08 f))

/-- eret reads its frame at SP, in DMEM: pc and STATUS from it with BARREL kept, SP up by 16, the fetch buffer empty
(10 R223, 11 R238). -/
def Sys2Proof.Claims.EretRestoresFrame : Prop :=
  ∀ (n : CoreId) (t : ThreadId) (f : Fields) (s : State),
    let h := s.thread n t
    let sp := h.sp.toNat
    s.alone n t (slotOf 3 0x09 f) = true → sp % 8 = 0 → sp + 16 ≤ dmemSize →
    s.cores[n].dmemBad sp 8 = none → s.cores[n].dmemBad (sp + 8) 8 = none →
    ∃ u, exec (.eret n t f) s = .next u ∧
      u.chargedFrom ((((s.past n t (slotOf 3 0x09 f)).modThread n t fun h => { h with
        pc := wordOf (readCells s.cores[n].dmem sp 8) &&& ~~~(1 : Word)
        status := wordOf (readCells s.cores[n].dmem (sp + 8) 8) &&& 3 ||| h.status &&& 4
        a := h.a.set 15 (h.sp + 16)
        buf := none }).fixWords n (s.cores[n].dmemSoft sp 8)).fixWords n (s.cores[n].dmemSoft (sp + 8) 8)) n

/-- Entry and eret agree: the frame that entry pushes gives back the interrupted pc and STATUS (11 R234, R238). -/
def Sys2Proof.Claims.EntryFrameReadsBack : Prop :=
  ∀ (s : State) (n : CoreId) (t : ThreadId) (x : Cause) (era : Word),
    s.stackReady n t = true → cellsWf s.cores[n].dmem = true →
    let u := s.trapEntry n t x era
    let sp := (u.thread n t).sp.toNat
    wordOf (readCells u.cores[n].dmem sp 8) = era &&& ~~~(1 : Word) ∧
      wordOf (readCells u.cores[n].dmem (sp + 8) 8) = (s.thread n t).status

/-- Malformed parcels trap precisely: ILLEGAL with ERA and the recorded address at the bundle, for a reserved UNIT or LEN
and for what R210 order 3 refuses (10 R208, R210; 11 R231, R234). -/
def Sys2Proof.Claims.IllegalInstructionTraps : Prop :=
  ∀ (n : CoreId) (t : ThreadId) (r : RawInstr) (s : State),
    s.stackReady n t = true →
    (rawGood r = false → s.arrives n t (slotOf 0 0 { rawFields r with stop := true }) 1 = true →
      ∃ u, exec (.illegalInstr n t r) s = .next u ∧
        u.enteredFrom s n t { code := codeIllegal, info := 0, addr := some (s.thread n t).pc } (s.thread n t).pc) ∧
    (rawGood r = true → (rawSlot r).wellFormed = false → s.arrives n t (rawSlot r) (rawSlot r).f.parcels = true →
      ∃ u, exec (.illegalInstr n t r) s = .next u ∧
        u.enteredFrom s n t { code := codeIllegal, info := 0, addr := some (s.thread n t).pc } (s.thread n t).pc)

/-- At level K eret, wfi and mtcr take PRIVILEGE before any effect, with ERA at the bundle (10 R210 order 6, 11 R229). -/
def Sys2Proof.Claims.PrivilegedInstructionsTrapAtK : Prop :=
  ∀ row ∈ [((Instr.eret : CoreId → ThreadId → Fields → Instr), 0x09), (Instr.wfi, 0x0A), (Instr.mtcr, 0x0C)],
    ∀ (n : CoreId) (t : ThreadId) (f : Fields) (s : State),
    (s.thread n t).levelK = true → (slotOf 3 row.2 f).wellFormed = true →
    s.arrives n t (slotOf 3 row.2 f) f.parcels = true → s.stackReady n t = true →
    ∃ u, exec (row.1 n t f) s = .next u ∧
      u.enteredFrom s n t { code := codePrivilege, info := 0, addr := some (s.thread n t).pc } (s.thread n t).pc

/-- The V unit exists in sequencers alone, and in thread 0 of them: elsewhere its instructions take ILLEGAL (10 R210 order 5,
R225). -/
def Sys2Proof.Claims.ChainInstructionsNeedSequencer : Prop :=
  ∀ row ∈ [(Instr.chiss, 0x00), (Instr.chwait, 0x01), (Instr.chstop, 0x02), (Instr.ldca, 0x08), (Instr.rdca, 0x09),
      (Instr.ssw, 0x10), (Instr.sswa, 0x11), (Instr.rsw, 0x12), (Instr.smov, 0x13), (Instr.sclr, 0x14)],
    ∀ (n : CoreId) (t : ThreadId) (f : Fields) (s : State),
    32 ≤ n.val ∨ t ≠ 0 → (slotOf 4 row.2 f).wellFormed = true →
    s.arrives n t (slotOf 4 row.2 f) f.parcels = true → s.stackReady n t = true →
    ∃ u, exec (row.1 n t f) s = .next u ∧
      u.enteredFrom s n t { code := codeIllegal, info := 0, addr := some (s.thread n t).pc } (s.thread n t).pc

/-- A load, store or atomic at an address that is not aligned to its size takes ALIGN precisely, with the address, and the
bundle has no effect (10 R211, R213). -/
def Sys2Proof.Claims.MisalignedAccessTraps : Prop :=
  ∀ row ∈ ([(Instr.ldD, 0x10, fun f => 2 ^ (f.md.toNat % 4)), (Instr.stD, 0x18, fun f => 2 ^ (f.md.toNat % 4)),
      (Instr.ldA, 0x11, fun _ => 8), (Instr.ldX, 0x12, fun _ => 16), (Instr.ldS, 0x13, fun _ => 32),
      (Instr.stA, 0x19, fun _ => 8), (Instr.stX, 0x1A, fun _ => 16), (Instr.aadd, 0x28, fun _ => 8),
      (Instr.aswp, 0x29, fun _ => 8)] : List ((CoreId → ThreadId → Fields → Instr) × Nat × (Fields → Nat))),
    ∀ (n : CoreId) (t : ThreadId) (f : Fields) (s : State),
    s.alone n t (slotOf 0 row.2.1 f) = true → s.stackReady n t = true →
    ((s.thread n t).ea f).toNat % row.2.2 f ≠ 0 →
    ∃ u, exec (row.1 n t f) s = .next u ∧
      u.enteredFrom s n t { code := codeAlign, info := 0, addr := some ((s.thread n t).ea f) } (s.thread n t).pc

/-- A bundle of two: a row of R212 that writes an address register, and then a row of R216.  Both read the values from before the
bundle (10 R209). -/
def Sys2Proof.Claims.BundleReadsOldValues : Prop :=
  ∀ ra ∈ Sys2Proof.Claims.aRows, ∀ rd ∈ Sys2Proof.Claims.dRows, ∀ (n : CoreId) (t : ThreadId) (g f : Fields) (s : State),
    let h := s.thread n t
    let i := slotOf 0 ra.2.1 g
    let j := slotOf 1 rd.2.1 f
    let na := h.pc + BitVec.ofNat 64 (2 * (g.parcels + f.parcels))
    s.cores[n].runs t = true → s.cclkStopped = false → h.latch = [i] → h.waited = false →
    h.hold = false ∨ s.due n t = none →
    f.stop = true → (imemSize ≤ h.pc.toNat ∨ (h.pc + BitVec.ofNat 64 (2 * g.parcels)).toNat + 2 * f.parcels ≤ imemSize) →
    s.fetchParcels n s.cores[n] h.levelK f.parcels (h.pc + BitVec.ofNat 64 (2 * g.parcels)) = (s.cores[n], none) →
    s.imemSoft n (h.pc + BitVec.ofNat 64 (2 * g.parcels)).toNat f.parcels = [] →
    s.decodeFault n t [i, j] = none → s.bundleWaits n t [i, j] = false →
    ∃ u, exec (rd.1 n t f) s = .next u ∧
      u.chargedFrom (s.modCore n fun c => c.bundleOver.modThread t fun x => { x with
        pc := na, latch := [], waited := false, hold := false, frame := Vector.replicate 2 .unread
        buf := some ((na.toNat - 1) / 8)
        prev := prevOf (s.cores[n].pairs h h.pc.toNat na.toNat [i, j]) h [i, j]
        a := x.a.set (⟨g.rd.toNat % 16, by omega⟩ : Fin 16) (ra.2.2 h g)
        d := x.d.set (⟨f.rd.toNat % 32, by omega⟩ : Fin 32) (rd.2.2 h f) }) n

/-- The rows of the five units: constructor, UNIT and OP (10 R212 to R227). -/
def Sys2Proof.Claims.coreRows : List ((CoreId → ThreadId → Fields → Instr) × Nat × Nat) :=
  Sys2Proof.Claims.aRows.map (fun r => (r.1, 0, r.2.1)) ++ Sys2Proof.Claims.loadRows.map (fun r => (r.1, 0, r.2.1)) ++
    Sys2Proof.Claims.storeRows.map (fun r => (r.1, 0, r.2.1)) ++
    [(Instr.dinv, 0, 0x20), (Instr.iinv, 0, 0x21), (Instr.dinvall, 0, 0x22), (Instr.iinvall, 0, 0x23),
      (Instr.aadd, 0, 0x28), (Instr.aswp, 0, 0x29)] ++
    Sys2Proof.Claims.dRows.map (fun r => (r.1, 1, r.2.1)) ++ Sys2Proof.Claims.divRows.map (fun r => (r.1, 1, r.2.1)) ++
    [(Instr.xmac, 2, 0x00), (Instr.xfma, 2, 0x01)] ++ Sys2Proof.Claims.xRows.map (fun r => (r.1, 2, r.2.1)) ++
    [(Instr.nop, 3, 0x00), (Instr.br, 3, 0x01), (Instr.bcc, 3, 0x02), (Instr.dbnz, 3, 0x03), (Instr.jal, 3, 0x04),
      (Instr.jr, 3, 0x05), (Instr.jalr, 3, 0x06), (Instr.trap, 3, 0x08), (Instr.eret, 3, 0x09), (Instr.wfi, 3, 0x0A),
      (Instr.mfcr, 3, 0x0B), (Instr.mtcr, 3, 0x0C)] ++
    [(Instr.chiss, 4, 0x00), (Instr.chwait, 4, 0x01), (Instr.chstop, 4, 0x02), (Instr.rdch, 4, 0x04), (Instr.wrch, 4, 0x05),
      (Instr.ldca, 4, 0x08), (Instr.rdca, 4, 0x09), (Instr.ssw, 4, 0x10), (Instr.sswa, 4, 0x11), (Instr.rsw, 4, 0x12),
      (Instr.smov, 4, 0x13), (Instr.sclr, 4, 0x14)]

/-- An instruction of any unit without STOP only joins the bundle that decode is reading (10 R208). -/
def Sys2Proof.Claims.BundleGathersInstructions : Prop :=
  ∀ row ∈ Sys2Proof.Claims.coreRows, ∀ (n : CoreId) (t : ThreadId) (f : Fields) (s : State),
    s.arrives n t (slotOf row.2.1 row.2.2 { f with stop := true }) f.parcels = true → f.stop = false →
    exec (row.1 n t f) s = .next (s.modThread n t fun h => { h with latch := [slotOf row.2.1 row.2.2 f] })

/-- TRAP_ENTRY takes an asserted interrupt line of thread 0 at a bundle boundary: INTERRUPT with the lowest line as INFO and
ERA at the next bundle; with STATUS.IE = 0 nothing happens (11 R232 to R234, R239). -/
def Sys2Proof.Claims.InterruptEntry : Prop :=
  ∀ (n : CoreId) (s : State), s.cclkStopped = false →
    ((s.thread n 0).ie = false → exec (.trapEntry n 0) s = .next s) ∧
    (s.cores[n].runs 0 = true → (s.thread n 0).latch = [] → s.due n 0 = some (.interrupt (lowestBit (s.lines n))) →
      s.stackReady n 0 = true →
      ∃ u, exec (.trapEntry n 0) s = .next u ∧
        u.enteredFrom s n 0 { code := codeInterrupt, info := lowestBit (s.lines n), addr := none } (s.thread n 0).pc)

/-- wfi takes effect and puts the core in STATE 2 with pc at NA; an asserted line ends STATE 2 whatever IE says: with IE = 0 the
core goes on at its pc, with IE = 1 thread 0 takes the interrupt first (10 R224).
The model's own choice here, no rule of the spec: an instruction is a command that reaches decode, and its bundle acts
when the one with STOP has come (log entry 61); a cause that is pending already ends the wait at once (log entry 77). -/
def Obligations.WfiWaitsAndWakes : Prop :=
  (∀ (n : CoreId) (t : ThreadId) (f : Fields) (s : State), s.alone n t (slotOf 3 0x0A f) = true →
    ∃ u, exec (.wfi n t f) s = .next u ∧
      u.chargedFrom ((s.past n t (slotOf 3 0x0A f)).modCore n fun c => { c with stat := 2 }) n) ∧
  ∀ (n : CoreId) (s : State), s.cclkStopped = false → s.cores[n].stat = 2 →
    s.cores[n].ctl.getLsbD 0 = true →
    (s.anyLine n = false → exec (.wfiWake n) s = .next s) ∧
    (s.anyLine n = true → (s.thread n 0).ie = false →
      ∃ u, exec (.wfiWake n) s = .next u ∧ u.chargedFrom (s.modCore n fun c => { c with stat := 1 }) n) ∧
    (s.anyLine n = true → (s.thread n 0).live = true → (s.thread n 0).latch = [] →
      s.due n 0 = some (.interrupt (lowestBit (s.lines n))) → s.stackReady n 0 = true →
      ∃ u, exec (.wfiWake n) s = .next u ∧ u.cores[n].stat = 1 ∧
        u.enteredFrom s n 0 { code := codeInterrupt, info := lowestBit (s.lines n), addr := none } (s.thread n 0).pc)

/-! ## The V unit (10 R225 to R227; 04 R60, R79 to R85) -/

/-- ssw, sswa, smov and sclr write their S register, one 64-bit word of it or all; rsw writes Dd with one word (10 R225). -/
def Sys2Proof.Claims.DescriptorRegisterMoves : Prop :=
  ∀ (n : CoreId) (t : ThreadId) (f : Fields) (s : State),
    let c := s.cores[n]
    let h := s.thread n t
    let w := 64 * (f.md.toNat % 4)
    let past := fun (op : Nat) => s.past n t (slotOf 4 op f)
    let putS := fun (v : State) (x : Desc) => v.modCore n fun c => { c with s := c.s.set (⟨f.rd.toNat % 8, by omega⟩ : Fin 8) x }
    let word := fun (x : Word) => (c.rS f.rd &&& ~~~((0xFFFFFFFFFFFFFFFF : Desc) <<< w)) ||| (x.setWidth 256 <<< w)
    (s.alone n t (slotOf 4 0x10 f) = true → ∃ u, exec (.ssw n t f) s = .next u ∧
      u.chargedFrom (putS (past 0x10) (word (h.rD f.ra))) n) ∧
    (s.alone n t (slotOf 4 0x11 f) = true → ∃ u, exec (.sswa n t f) s = .next u ∧
      u.chargedFrom (putS (past 0x11) (word (h.rA f.ra))) n) ∧
    (s.alone n t (slotOf 4 0x12 f) = true → ∃ u, exec (.rsw n t f) s = .next u ∧
      u.chargedFrom ((past 0x12).modThread n t fun h => { h with
        d := h.d.set (⟨f.rd.toNat % 32, by omega⟩ : Fin 32) ((c.rS f.ra).extractLsb' w 64) }) n) ∧
    (s.alone n t (slotOf 4 0x13 f) = true → ∃ u, exec (.smov n t f) s = .next u ∧
      u.chargedFrom (putS (past 0x13) (c.rS f.ra)) n) ∧
    (s.alone n t (slotOf 4 0x14 f) = true → ∃ u, exec (.sclr n t f) s = .next u ∧ u.chargedFrom (putS (past 0x14) 0) n)

/-- chiss: a chain word that passes every check of R170 is captured with the S registers, the options and the strip length
as the chain's queued launch (10 R226, 04 R60, R61). -/
def Sys2Proof.Claims.ChainIssueQueuesLaunch : Prop :=
  ∀ (n : CoreId) (t : ThreadId) (f : Fields) (k : ChainId) (s : State),
    let c := s.cores[n]
    let h := s.thread n t
    let a := h.rA f.ra
    let o := h.rD f.rb
    let ch := s.chains[k]
    let ps := c.chainWord a
    chainOf n = some k → s.alone n t (slotOf 4 0x00 f) = true → ch.exc = false →
    a.toNat % 8 = 0 → a.toNat < dmemSize →
    c.dmemBad a.toNat (min (8 * chainWordLen ps.1) (dmemSize - a.toNat)) = none →
    launchCheck ps.1 ps.2 o c.s ch.stripLen h.levelK ch.markCfg = none →
    ∃ u, exec (.chiss n t f) s = .next u ∧
      u.chargedFrom (((s.past n t (slotOf 4 0x00 f)).modChain k fun x => { x with
        queued := some { word := ps.1.flatten, sregs := c.s, n := (o.extractLsb' 0 41).toNat, caClear := o.extractLsb' 48 8,
                         overlap := o.getLsbD 56, sl := 2 ^ (12 + ch.gang.toNat), levelK := h.levelK, markCfg := ch.markCfg,
                         serial := ch.issued + 1 }
        issued := ch.issued + 1 }).fixWords n
          (c.dmemSoft a.toNat (min (8 * chainWordLen ps.1) (dmemSize - a.toNat)))) n

/-- A chain word that fails a check of R170 launches nothing: CORE_LCHK says why, and the core takes CHAIN_ILLEGAL with the
check's code as INFO (08 R169, R170; 11 R231). -/
def Sys2Proof.Claims.ChainIssueRefusesBadWord : Prop :=
  ∀ (n : CoreId) (t : ThreadId) (f : Fields) (k : ChainId) (e : LaunchFail) (s : State),
    let c := s.cores[n]
    let h := s.thread n t
    let a := h.rA f.ra
    let ps := c.chainWord a
    chainOf n = some k → s.alone n t (slotOf 4 0x00 f) = true → s.chains[k].exc = false → s.stackReady n t = true →
    a.toNat % 8 = 0 → a.toNat < dmemSize →
    c.dmemBad a.toNat (min (8 * chainWordLen ps.1) (dmemSize - a.toNat)) = none →
    launchCheck ps.1 ps.2 (h.rD f.rb) c.s s.chains[k].stripLen h.levelK s.chains[k].markCfg = some e →
    ∃ u, exec (.chiss n t f) s = .next u ∧
      u.enteredFrom (s.modChain k fun x => { x with lchk := e.lchk }) n t
        { code := codeChain, info := e.code, addr := none } h.pc

/-- chwait goes on once its chain is idle and waits in decode until then; chstop asks its chain to stop, and the queued launch
is dropped (04 R82, R83, R85; 10 R225; 09 R192). -/
def Sys2Proof.Claims.ChainWaitAndStop : Prop :=
  ∀ (n : CoreId) (t : ThreadId) (f : Fields) (k : ChainId) (s : State), chainOf n = some k →
    (s.alone n t (slotOf 4 0x01 f) = true → s.chains[k].exc = false →
      s.chains[k].idle = true ∧ ∃ u, exec (.chwait n t f) s = .next u ∧ u.chargedFrom (s.past n t (slotOf 4 0x01 f)) n) ∧
    (s.arrives n t (slotOf 4 0x01 f) f.parcels = true → s.decodeFault n t [slotOf 4 0x01 f] = none →
      s.chains[k].exc = false → s.chains[k].idle = false →
      exec (.chwait n t f) s = .next (s.modThread n t fun h => { h with latch := [], waited := true })) ∧
    (s.alone n t (slotOf 4 0x02 f) = true → s.chains[k].stopReq = false → s.chains[k].exc = false →
      ∃ u, exec (.chstop n t f) s = .next u ∧ u.chains[k].stopReq = true ∧ u.chains[k].queued = none ∧
        u.mem = s.mem ∧ (u.thread n t).pc = s.nextPc n t (slotOf 4 0x02 f) ∧ (u.thread n t).d = (s.thread n t).d ∧
        ∀ c, c ≠ k → u.chains[c] = s.chains[c])

/-- rdch reads a chain register at once, or becomes an outstanding read behind the launches issued before it; wrch writes the
fields of type RW of CORE_SL and CORE_MARK_CFG and clears bits of CORE_NUMF (04 R83, 06 R119, 10 R227). -/
def Sys2Proof.Claims.ChainRegisterMoves : Prop :=
  ∀ (n : CoreId) (t : ThreadId) (f : Fields) (k : ChainId) (s : State), chainOf n = some k →
    let off := 4 * (f.ra.toNat * 32 + f.rb.toNat)
    let ch := s.chains[k]
    let past := s.past n t (slotOf 4 0x05 f)
    (s.alone n t (slotOf 4 0x04 f) = true → chainReadWaits off = false ∨ ch.hasEnded ch.issued = true →
      ∃ u, exec (.rdch n t f) s = .next u ∧
        u.chargedFrom ((s.past n t (slotOf 4 0x04 f)).modThread n t fun h => { h with
          d := h.d.set (⟨f.rd.toNat % 32, by omega⟩ : Fin 32) (ch.read off) }) n) ∧
    (s.alone n t (slotOf 4 0x04 f) = true → chainReadWaits off = true → ch.hasEnded ch.issued = false →
      ∃ u, exec (.rdch n t f) s = .next u ∧
        u.chargedFrom ((s.past n t (slotOf 4 0x04 f)).modCore n fun c => { c with
          loads := c.loads ++ [{ thread := t, dest := regD f.rd, kind := .chainReg off ch.issued, loc := .here 0, va := 0,
                                 cached := false, hit := none, seq := c.seq,
                                 levelK := (s.thread n t).levelK }]
          seq := c.seq + 1 }) n) ∧
    (s.alone n t (slotOf 4 0x05 f) = true → ∃ u, exec (.wrch n t f) s = .next u ∧
      let v : Half := ((s.thread n t).rD f.rd).setWidth 32
      (off = 0x000 → u.chargedFrom (past.modChain k fun x => { x with gang := v.extractLsb' 24 2 }) n) ∧
      (off = 0x058 → u.chargedFrom (past.modChain k fun x => { x with markCfg := v &&& 0x7FFF7FFF }) n) ∧
      (off = 0x218 → u.chargedFrom (past.modChain k fun x => { x with numf := x.numf &&& ~~~(v &&& 0x0001333F) }) n) ∧
      (chainWritable off = false → u.chargedFrom past n))

/-- ldca and rdca keep launch order: with every launch issued before ended, CAn is written, and read, at once; before that,
ldca waits on the chain and rdca becomes an outstanding read (04 R79, R80, R83). -/
def Sys2Proof.Claims.AccumulatorMovesInLaunchOrder : Prop :=
  ∀ (n : CoreId) (t : ThreadId) (f : Fields) (k : ChainId) (s : State), chainOf n = some k →
    let ch := s.chains[k]
    let x := s.cores[n].rX f.ra
    let i : Fin 8 := ⟨f.rd.toNat % 8, by omega⟩
    let j : Fin 8 := ⟨f.ra.toNat % 8, by omega⟩
    (s.alone n t (slotOf 4 0x08 f) = true → ch.caLoads = [] → ch.hasEnded ch.issued = true →
      ∃ u, exec (.ldca n t f) s = .next u ∧
        u.chargedFrom ((s.past n t (slotOf 4 0x08 f)).modChain k fun c => { c with ca := c.ca.set i x }) n) ∧
    (s.alone n t (slotOf 4 0x08 f) = true → ch.caLoads = [] → ch.hasEnded ch.issued = false →
      ∃ u, exec (.ldca n t f) s = .next u ∧
        u.chargedFrom ((s.past n t (slotOf 4 0x08 f)).modChain k fun c => { c with caLoads := [(ch.issued, i, x)] }) n) ∧
    (s.alone n t (slotOf 4 0x09 f) = true → ch.hasEnded ch.issued = true →
      ∃ u, exec (.rdca n t f) s = .next u ∧
        u.chargedFrom ((s.past n t (slotOf 4 0x09 f)).modCore n fun c => { c with
          x := c.x.set (⟨f.rd.toNat % 8, by omega⟩ : Fin 8) ch.ca[j] }) n) ∧
    (s.alone n t (slotOf 4 0x09 f) = true → ch.hasEnded ch.issued = false →
      ∃ u, exec (.rdca n t f) s = .next u ∧
        u.chargedFrom ((s.past n t (slotOf 4 0x09 f)).modCore n fun c => { c with
          loads := c.loads ++ [{ thread := t, dest := regX f.rd, kind := .chainAcc j ch.issued, loc := .here 0, va := 0,
                                 cached := false, hit := none, seq := c.seq,
                                 levelK := (s.thread n t).levelK }]
          seq := c.seq + 1 }) n)

/-! ## A core's own events (09 R186, R191; 10 R211, R213) -/

/-- LOAD_RESPONSE: a scratch word, a CSR or DDR line that no host cache holds, and host memory answer a load whose turn at the
port has come; the register is written and the load is no longer outstanding.  A poisoned word writes nothing and holds a
deferred error with INFO 2, and eret learns that a word of its frame has failed (09 R191; 10 R211, R213, R214; 11 R233; 13 R263). -/
def Sys2Proof.Claims.LoadResponseWritesRegister : Prop :=
  ∀ (n : CoreId) (i : Nat) (l : Load) (r : Reply) (s : State),
    s.cores[n].loads[i]? = some l → s.cclkStopped = false → s.portTurn n l.seq = true → l.hit = none →
    (∀ off size sext, l.loc = .here off → l.kind = .read size sext → l.cached = false → s.place off = .scratch →
      s.poisoned off size = false →
      ∃ u, exec (.loadResponse n i r) s = .next u ∧ u.mem = s.mem ∧
        u.cores[n] = ({ s.cores[n] with loads := s.cores[n].loads.filter (·.seq ≠ l.seq) }.setReg l.thread l.dest
          (loadValue (s.memRead off size) sext)).settle) ∧
    (∀ off v, l.loc = .here off → l.kind = .aadd v → s.place off = .scratch → s.poisoned off 8 = false →
      ∃ u, exec (.loadResponse n i r) s = .next u ∧
        u.mem.cells = writeCells s.mem.cells off (bytesOf 8 (wordOf (s.memRead off 8) + v).toNat) ∧
        u.cores[n] = ({ s.cores[n] with loads := s.cores[n].loads.filter (·.seq ≠ l.seq) }.setReg l.thread l.dest
          (loadValue (s.memRead off 8) false)).settle) ∧
    (∀ off v, l.loc = .here off → l.kind = .aswp v → s.place off = .scratch → s.poisoned off 8 = false →
      ∃ u, exec (.loadResponse n i r) s = .next u ∧
        u.mem.cells = writeCells s.mem.cells off (bytesOf 8 v.toNat) ∧
        u.cores[n] = ({ s.cores[n] with loads := s.cores[n].loads.filter (·.seq ≠ l.seq) }.setReg l.thread l.dest
          (loadValue (s.memRead off 8) false)).settle) ∧
    (∀ off size sext, l.loc = .here off → l.kind = .read size sext → l.cached = false → s.place off = .scratch →
      s.poisoned off size = true →
      ∃ u, exec (.loadResponse n i r) s = .next u ∧ u.mem = s.mem ∧
        u.cores[n] = Core.settle { s.cores[n].failFrame l with
          loads := s.cores[n].loads.filter (·.seq ≠ l.seq)
          deferred := s.cores[n].deferred ++ [{ thread := l.thread, info := 2, addr := l.va }] })

/-- STORE_ACCEPT: the oldest posted store reaches scratch once every earlier load has been accepted; its bytes take effect and
it leaves the queue (09 R186, R191; 13 R259). -/
def Sys2Proof.Claims.StoreAcceptWritesScratch : Prop :=
  ∀ (n : CoreId) (x : Store) (rest : List Store) (off : Nat) (r : Reply) (s : State),
    s.cores[n].stores = x :: rest → s.cclkStopped = false → s.loadBefore n x.seq = false →
    x.loc = .here off → s.place off = .scratch →
    ∃ u, exec (.storeAccept n r) s = .next u ∧
      u.mem.cells = writeCells s.mem.cells off x.bytes ∧
      u.cores[n] = Core.settle { s.cores[n] with stores := rest } ∧ u.chains = s.chains

/-- FETCH_RESPONSE: a line of scratch on a cacheable page fills the instruction cache; a poisoned line within the bundle at pc
takes MEM_ERROR with INFO 2 precisely (09 R185, 10 R211, 11 R231). -/
def Sys2Proof.Claims.FetchResponseFillsOrFaults : Prop :=
  ∀ (n : CoreId) (t : ThreadId) (va : Word) (off : Nat) (r : Reply) (s : State),
    s.cclkStopped = false → s.cores[n].runs t = true →
    s.fetchPlace s.cores[n] (s.thread n t).levelK va = (s.cores[n], some (.here off, true)) → s.place off = .scratch →
    s.cores[n].icacheOn = true →
    (s.poisoned (off / 64 * 64) 64 = false →
      ∃ u, exec (.fetchResponse n t va r) s = .next u ∧ u.mem = s.mem ∧
        u.cores[n] = { s.cores[n] with
          icache := cachePut { line := off / 64, bytes := s.memRead (off / 64 * 64) 64 } s.cores[n].icache }) ∧
    (s.poisoned (off / 64 * 64) 64 = true → (va - (s.thread n t).pc).toNat < 40 → (s.thread n t).latch = [] →
      (s.thread n t).ie = false → s.stackReady n t = true →
      ∃ u, exec (.fetchResponse n t va r) s = .next u ∧
        u.enteredFrom s n t { code := codeMem, info := 2, addr := some va } (s.thread n t).pc)

/-! ## Launches and strips (04 R60 to R85; 05 R94 to R107; 07 R151; 08 R174 to R183) -/

/-- LAUNCH_BEGIN and RESERVATION_GRANT: a queued launch begins on a chain that runs none, with OPA, OPB and the mark count at 0
and the accumulators of CACLEAR cleared; it holds its whole reservation at once, or waits in its cluster's order until
the unreserved part covers it; a launch of no elements ends (04 R61 to R64, R78; 05 R106). -/
def Sys2Proof.Claims.LaunchesBeginAndReserve : Prop :=
  (∀ (c : ChainId) (l : Launch) (s : State),
    let h := s.chains[c]
    let p := s.pools[clusterOf c]
    let need := reservation l.stations l.sregs l.sl
    h.run = none → h.queued = some l → h.stopReq = false → h.exc = false →
    h.excHeld = false → h.cause = none →
    ∃ u, exec (.launchBegin c) s = .next u ∧ u.mem = s.mem ∧ u.cores = s.cores ∧ u.out = s.out ∧
      (∀ k, k ≠ c → u.chains[k] = s.chains[k]) ∧ (∀ k, k ≠ clusterOf c → u.pools[k] = s.pools[k]) ∧
      u.chains[c].queued = none ∧ u.chains[c].opa = 0 ∧ u.chains[c].opb = 0 ∧ u.chains[c].markCnt = 0 ∧
      u.chains[c].msc = h.msc ∧
      (h.caLoads = [] → ∀ i : Fin 8, u.chains[c].ca[i] = if l.caClear.getLsbD i.val then 0 else h.ca[i]) ∧
      (l.n = 0 → u.chains[c].run = none) ∧
      (l.n ≠ 0 → p.waiting = [] → need ≤ p.free →
        u.chains[c].run = some { Run.start l need with granted := true } ∧ u.chains[c].lwait = false ∧
        u.pools[clusterOf c] = { p with free := p.free - need, reserved := p.reserved + need } ∧
        ∀ i : Fin 6, u.chains[c].held[i] = h.held[i] + l.perStream[i]) ∧
      (l.n ≠ 0 → p.waiting ≠ [] ∨ p.free < need →
        u.chains[c].run = some (Run.start l need) ∧ u.chains[c].lwait = true ∧ u.chains[c].held = h.held ∧
        u.pools[clusterOf c] = { p with waiting := p.waiting ++ [c] })) ∧
  ∀ (k : ClusterId) (c : ChainId) (rest : List ChainId) (r : Run) (s : State),
    s.pools[k].waiting = c :: rest → clusterOf c = k → s.chains[c].run = some r → r.need ≤ s.pools[k].free →
    ∃ u, exec (.reservationGrant k) s = .next u ∧ u.mem = s.mem ∧ u.cores = s.cores ∧
      u.chains[c].run = some { r with granted := true } ∧ u.chains[c].lwait = false ∧
      u.pools[k] = { s.pools[k] with
        free := s.pools[k].free - r.need, reserved := s.pools[k].reserved + r.need, waiting := rest } ∧
      (∀ i : Fin 6, u.chains[c].held[i] = s.chains[c].held[i] + r.launch.perStream[i]) ∧
      ∀ m, m ≠ c → u.chains[m] = s.chains[m]

/-- The pages that a strip's Translate stage looks up first: the footprints of strip `k`, with DEC's table for the first
strip and PRB's footprint where the launch has not translated it yet. -/
def Sys2Proof.Claims.firstFoots (s : State) (c : ChainId) (r : Run) (k : Nat) : List Foot :=
  r.launch.foots k s.chains[c].opa.toNat s.chains[c].opb.toNat (r.active + r.launch.sizeOf k)
    (k = 0) r.prbMap.isNone

/-- STRIP_TRANSLATE: the next strip of a running, granted launch enters Translate; with every page found it has its map, a
page that the second-level TLB lacks raises STREAM_MISS and a page that refuses raises STREAM_FAULT, each recorded in
CORE_TLB_SREC, and the translation waits (12 R253, R254; 11 R231). -/
def Sys2Proof.Claims.StripTranslations : Prop :=
  ∀ (c : ChainId) (dir : List Word) (r : Run) (s : State),
    let h := s.chains[c]
    let table := r.prbMap.getD []
    let look := s.checkFoots s.cores[seqOf c] r.launch table (Sys2Proof.Claims.firstFoots s c r r.nextK)
    h.run = some r → r.granted = true → h.advances = true → r.trans = none → r.nextK < r.launch.strips →
    (∀ q ∈ r.launch.stations, ¬ (q.kind = .inp ∧ dKind (descOf r.launch.sregs q) = 4)) →
    (∀ map st acc, look = (.ok map, st, acc) →
      ∃ u, exec (.stripTranslate c dir) s = .next u ∧ u.mem = s.mem ∧ u.cores = s.cores ∧ u.pools = s.pools ∧
        (∀ k, k ≠ c → u.chains[k] = s.chains[k]) ∧ u.chains[c].cause = none ∧ u.chains[c].msc = h.msc ∧
        ∃ r', u.chains[c].run = some r' ∧ r'.nextK = r.nextK + 1 ∧ r'.strips = r.strips ∧ r'.launch = r.launch ∧
          r'.trans = some { k := r.nextK, map := map, done := true, waiting := false, replay := false, flushOnce := false,
                             restarted := false, opa := h.opa.toNat, opb := h.opb.toNat,
                             act := r.active + r.launch.sizeOf r.nextK, dir := [] }) ∧
    (∀ map st acc a, look = (.miss map a, st, acc) →
      ∃ u, exec (.stripTranslate c dir) s = .next u ∧ u.mem = s.mem ∧ u.cores = s.cores ∧ u.pools = s.pools ∧
        (∀ k, k ≠ c → u.chains[k] = s.chains[k]) ∧ u.chains[c].msc = h.msc ∧
        u.chains[c].srec = BitVec.ofNat 32 (acc * 64 + st) ∧
        u.chains[c].cause = some { code := 0x0D, info := BitVec.ofNat 8 (acc * 16 + st), addr := a } ∧
        ∃ r', u.chains[c].run = some r' ∧ r'.strips = r.strips ∧
          r'.trans = some { k := r.nextK, map := map, done := false, waiting := true, replay := false, flushOnce := false,
                             restarted := false, opa := h.opa.toNat, opb := h.opb.toNat,
                             act := r.active + r.launch.sizeOf r.nextK, dir := [] }) ∧
    (∀ map kind st acc a, look = (.fault map kind a, st, acc) → kind ≠ 0 →
      ∃ u, exec (.stripTranslate c dir) s = .next u ∧ u.mem = s.mem ∧ u.cores = s.cores ∧ u.pools = s.pools ∧
        (∀ k, k ≠ c → u.chains[k] = s.chains[k]) ∧
        u.chains[c].srec = BitVec.ofNat 32 (kind * 256 + acc * 64 + st) ∧
        u.chains[c].cause = some { code := 0x0E, info := BitVec.ofNat 8 kind, addr := a } ∧
        ∃ r', u.chains[c].run = some r' ∧ r'.strips = r.strips ∧
          r'.trans = some { k := r.nextK, map := map, done := false, waiting := true, replay := false, flushOnce := false,
                             restarted := false, opa := h.opa.toNat, opb := h.opb.toNat,
                             act := r.active + r.launch.sizeOf r.nextK, dir := [] })

/-- STRIP_ISSUE: a translated strip issues behind at most one other, alone if the launch is non-restartable or the strip was
discarded with an older one; while the chain stops (but for a restarted strip), is halted or holds a cause, and behind two strips,
nothing issues; when COUNT plus the issued strips reaches
2^40 − 1 the chain stops, and no strip issues beyond (04 R68, R73; 08 R174).  BUFFER_GRANT: one unreserved buffer goes to the next stream of the round that asks (05 R106). -/
def Sys2Proof.Claims.StripsIssueAndTakeBuffers : Prop :=
  (∀ (c : ChainId) (r : Run) (t : Translating) (s : State),
    let h := s.chains[c]
    h.run = some r → r.trans = some t → t.done = true → h.advances = true →
    (if r.launch.nonRestart = true ∨ r.again = some t.k then r.strips = [] else r.strips.length < 2) →
    (h.msc.toNat + r.strips.length + 1 < 2 ^ 40 - 1 →
      ∃ u, exec (.stripIssue c) s = .next u ∧ u = s.modChain c fun x => { x with
        tries := h.tries + 1
        run := some { r with
          trans := none
          strips := r.strips ++
            [{ k := t.k, att := h.tries + 1, size := r.launch.sizeOf t.k, map := t.map, lines := [], asked := [], rle := [],
               stations := r.launch.stations.map fun _ => StationRun.start, shadows := [], marks := [], lost := 0,
               flags := 0, abort := none, replay := t.replay, flushOnce := t.flushOnce, held := [], outA := 0,
               outB := 0 }] } }) ∧
    (2 ^ 40 - 1 ≤ h.msc.toNat + r.strips.length + 1 → h.stopReq = false →
      ∃ u, exec (.stripIssue c) s = .next u ∧ u.chains[c].stopReq = true ∧ u.chains[c].wrapped = true ∧
        u.chains[c].queued = none ∧ u.chains[c].msc = h.msc ∧ u.mem = s.mem ∧ u.cores = s.cores)) ∧
  (∀ (c : ChainId) (r : Run) (t : Translating) (s : State),
    let h := s.chains[c]
    h.run = some r → r.trans = some t →
    (h.stopReq = true ∧ t.restarted = false) ∨ h.exc = true ∨ h.excHeld = true ∨ h.cause ≠ none ∨ t.done = false ∨
      2 ≤ r.strips.length ∨ ((r.launch.nonRestart = true ∨ r.again = some t.k) ∧ r.strips ≠ []) →
    exec (.stripIssue c) s = .next s) ∧
  ∀ (k : ClusterId) (c : ChainId) (i : Fin 6) (x : Nat) (s : State),
    s.pools[k].free ≠ 0 →
    (clusterStreams k s.pools[k].turn).find? (fun y => s.chains[y.1].asks y.2.1) = some (c, i, x) →
    ∃ u, exec (.bufferGrant k) s = .next u ∧ u.mem = s.mem ∧ u.cores = s.cores ∧
      u.pools[k] = { s.pools[k] with free := s.pools[k].free - 1, turn := (x + 1) % 48 } ∧
      u.chains[c].held[i] = s.chains[c].held[i] + 1 ∧ (∀ j, j ≠ i → u.chains[c].held[j] = s.chains[c].held[j]) ∧
      u.chains[c].run = s.chains[c].run ∧ ∀ m, m ≠ c → u.chains[m] = s.chains[m]

/-- STREAM_LINE_FILL: a line of scratch that a strip needs and has a buffer for arrives in its buffer, and an RLE input takes the
block of its next element out of the lines; a poisoned line discards the strip with every younger one and stops the chain
(05 R94, R99, R109; 13 R263). -/
def Sys2Proof.Claims.StreamLinesArrive : Prop :=
  ∀ (c : ChainId) (i : Fin 2) (stream : Nat) (va : Word) (rep : Reply) (r : Run) (t : Strip) (q : Stn) (off : Nat) (s : State),
    let put := fun (x : Strip) =>
      (({ x with
          lines := x.lines ++ [{ stream := stream, va := va, bytes := s.memRead off 64 }]
          asked := x.asked.filter (· ≠ (stream, va.toNat)) } : Strip).absorbAll
        r.launch).freeLines r.launch stream
    s.chains[c].run = some r → r.strips[i.val]? = some t → (∀ j < i.val, ∀ x, r.strips[j]? = some x → x.att ≠ t.att) →
    r.launch.inputOf stream = some q → s.chains[c].mayFetch r = true →
    s.chains[c].wantsLine r t stream va.toNat = true →
    s.streamPhys t.map stream (dPhys (descOf r.launch.sregs q)) va = some (.here off) → s.place off = .scratch →
    (s.poisoned off 64 = false →
      ∃ u, exec (.streamLineFill c i stream va rep) s = .next u ∧ u.mem = s.mem ∧ u.cores = s.cores ∧
        (∀ k, k ≠ c → u.chains[k] = s.chains[k]) ∧
        u.chains[c].run = some { r with strips := modifyAt put i.val r.strips }) ∧
    (s.poisoned off 64 = true →
      ∃ u, exec (.streamLineFill c i stream va rep) s = .next u ∧ u.mem = s.mem ∧ u.cores = s.cores ∧
        u.chains[c].failed = true ∧ u.chains[c].stopReq = true ∧
        ∀ r', u.chains[c].run = some r' → r'.strips = r.strips.take i.val)

/-- STATION_STEP: an input station takes the elements whose lines are there, at most as many as its wires have room for; any
other station puts on its wires what it makes of each element it takes, gathers its flags, and with no condition raised
aborts and marks nothing; ACC's reduction slots take each element into the strip's shadows; PRB lets the results of its
oldest flights leave in order and takes elements into flight (04 R76, R77; 05 R92; 06 R112; 07 R151, R157).
The model's own choice here, no rule of the spec: how far a station may run ahead (log entry 18), and that a step is a
command. -/
def Obligations.StationsStep : Prop :=
  ∀ (c : ChainId) (i : Fin 2) (p : Fin 16) (r : Run) (t : Strip) (q : Stn) (ws : List Wire) (sr : StationRun) (s : State),
    s.chains[c].run = some r → r.strips[i.val]? = some t → r.launch.rows[p.val]? = some (q, ws) →
    t.stations[p.val]? = some sr → r.mayStep i.val p.val = true →
    (q.kind = .inp →
      let d := descOf r.launch.sregs q
      let stream := streamOf r.launch.stations r.launch.sregs q
      let a := (r.launch.span t.k).1
      let n := t.readyRun d q.m1 stream a
        (min (min (q.stepWidth ws d) (t.room r.launch q ws sr)) (t.limit r.launch - sr.taken)) sr.taken
      ∃ u t', exec (.stationStep c i p) s = .next u ∧ u.mem = s.mem ∧ u.cores = s.cores ∧
        (∀ k, k ≠ c → u.chains[k] = s.chains[k]) ∧
        u.chains[c].run = some { r with strips := modifyAt (fun _ => t') i.val r.strips } ∧
        t'.stations = modifyAt (fun _ => { sr with
          taken := sr.taken + n
          out1 := sr.out1 ++ (upto n).map fun k => t.inputElem d q.m1 stream r.launch.n (a + sr.taken + k) })
          p.val t.stations ∧
        t'.held = t.held ∧ t'.abort = t.abort ∧ ∀ b ∈ t'.lines, b ∈ t.lines) ∧
    let now := fun (u : State) (t' : Strip) =>
      u.mem = s.mem ∧ u.cores = s.cores ∧ u.pools = s.pools ∧ (∀ k, k ≠ c → u.chains[k] = s.chains[k]) ∧
        u.chains[c].run = some { r with strips := modifyAt (fun _ => t') i.val r.strips }
    (q.kind = .acc → q.group = false →
      let n := r.stepCount s.chains[c] t q ws sr
      n ≤ 8 ∧
      ∃ u t', exec (.stationStep c i p) s = .next u ∧ now u t' ∧
        t'.stations = modifyAt (fun _ => { sr with taken := sr.taken + n }) p.val t.stations ∧
        t'.shadows = (upto n).foldl (fun hs k => (accTake t q ws (sr.taken + k) hs).1) (t.shadowsOf q) ∧ t'.held = t.held) ∧
    (q.kind = .prb →
      let left := min (t.room r.launch q ws sr) (sr.flight.takeWhile fun f => match f.st with
        | .done _ => true
        | _ => false).length
      let sr0 := { sr with
        out1 := sr.out1 ++ (sr.flight.take left).flatMap fun f => match f.st with
          | .done e => [e]
          | _ => []
        flight := sr.flight.drop left }
      let n := r.stepCount s.chains[c] t q ws sr0
      n ≤ 8 ∧
      ∃ u t', exec (.stationStep c i p) s = .next u ∧ now u t' ∧ t'.held = t.held ∧
        t'.stations = modifyAt (fun _ => (upto n).foldl (fun (x : StationRun) _ =>
          let e := stationElem r.launch r.dict t q ws x.taken (dbits (descOf r.launch.sregs q) 167 128 + r.inserted + x.count)
          { x with taken := x.taken + 1, flight := x.flight ++ e.flight, count := x.count + b2n e.used }) sr0)
          p.val t.stations) ∧
    (q.kind ≠ .inp → q.kind ≠ .prb → ¬ (q.kind = .acc ∧ q.group = false) →
      let n := r.stepCount s.chains[c] t q ws sr
      let made := (upto n).map fun k => stationElem r.launch r.dict t q ws (sr.taken + k) 0
      n ≤ 8 ∧
      ∃ u t', exec (.stationStep c i p) s = .next u ∧ now u t' ∧
        t'.flags = t.flags ||| BitVec.ofNat 32 (made.foldl (fun x e => x ||| e.flags) 0) ∧
        ((∀ e ∈ made, e.raised = none) → t'.abort = t.abort ∧ t'.marks = t.marks) ∧
        t'.stations = modifyAt (fun _ => { sr with
          taken := sr.taken + n
          out1 := sr.out1 ++ made.flatMap fun e => e.out1.toList
          out2 := sr.out2 ++ made.flatMap fun e => e.out2.toList
          flight := sr.flight ++ made.flatMap fun e => e.flight }) p.val t.stations ∧
        t'.held = t.held ++ made.flatMap fun e => e.held)

/-- STATION_ACCESS_RESPONSE: an atomic flight on a scratch word that no earlier one precedes is performed at the bank, and the
flight is gone; a GATHER takes the word it read; INSERT writes its entry and goes on to the swap of the bucket head (05
R102; 07 R151; 13 R266). -/
def Sys2Proof.Claims.StationAccessesAnswer : Prop :=
  ∀ (c : ChainId) (i : Fin 2) (p : Fin 16) (j : Nat) (rep : Reply) (r : Run) (t : Strip) (q : Stn) (ws : List Wire)
    (sr : StationRun) (f : Flight) (off : Nat) (s : State),
    let d := descOf r.launch.sregs q
    let take := fun (u : State) (f' : Option Flight) =>
      ∃ t', u.chains[c].run = some { r with strips := modifyAt (fun _ => t') i.val r.strips } ∧
        t'.stations = modifyAt (fun x => { x with flight := match f' with
          | some f => modifyAt (fun _ => f) j x.flight
          | none => removeAt j x.flight }) p.val t.stations
    s.chains[c].run = some r → r.strips[i.val]? = some t → r.launch.rows[p.val]? = some (q, ws) →
    t.stations[p.val]? = some sr → sr.flight[j]? = some f → s.mustWait t q d sr.flight j f = false → s.place off = .scratch →
    (∀ a aop v, f.st = .atomic a aop v → q.kind = .out →
      s.streamPhys t.map q.code (dPhys d) a = some (.here off) → s.poisoned off 8 = false →
      ∃ u, exec (.stationAccessResponse c i p j rep) s = .next u ∧
        u.mem.cells = writeCells s.mem.cells off (bytesOf 8 (aopFun aop v (wordOf (s.memRead off 8))).toNat) ∧
        take u none ∧ u.cores = s.cores ∧ ∀ k, k ≠ c → u.chains[k] = s.chains[k]) ∧
    (f.st = .gather → q.kind = .prb →
      s.streamPhys t.map 7 (d.getLsbD 222) (BitVec.ofNat 64 (dbits d 127 64 + 8 * f.h.toNat)) = some (.here off) →
      s.poisoned off 8 = false →
      ∃ u, exec (.stationAccessResponse c i p j rep) s = .next u ∧ u.mem = s.mem ∧
        take u (some { f with st := .done { pos := f.elem.pos, null := false, lo := wordOf (s.memRead off 8), hi := 0,
                                            bad := false } })) ∧
    (∀ idx, f.st = .put idx → q.kind = .prb → s.streamPhys t.map 7 (d.getLsbD 222) (tEntry d idx) = some (.here off) →
      s.poisoned off 64 = false →
      ∃ u, exec (.stationAccessResponse c i p j rep) s = .next u ∧
        u.mem.cells = writeCells s.mem.cells off (entryBytes d f) ∧ take u (some { f with st := .swap idx }))

/-- The shadows that a strip folds at its commit. -/
def Sys2Proof.Claims.foldedBy (r : Run) (t : Strip) : List Shadow :=
  match r.launch.stations.find? fun q => q.kind = .acc && !q.group with
  | some q => t.shadowsOf q
  | none => []

/-- STRIP_COMMIT: the oldest strip, whose elements have all left their stations and which no condition aborts, commits: MSC
advances by 1, OPA and OPB by what it wrote, its flags are kept, its accumulators folded, and its output goes to the
drain; the launch ends with its last strip, and in a stop with the last strip that the stop has kept (04 R67, R73, R78; 06 R119; 07 R157). -/
def Sys2Proof.Claims.StripCommits : Prop :=
  ∀ (c : ChainId) (r : Run) (t : Strip) (rest : List Strip) (s : State),
    let h := s.chains[c]
    let l := r.launch
    let last : Bool := (h.stopReq && rest.isEmpty) || decide (l.strips ≤ t.k + 1)
    let writes := l.stations.flatMap fun q =>
      if q.kind = .out then s.outWrites l t q (if q.code = 4 then h.opa.toNat else h.opb.toNat) else []
    h.run = some r → r.strips = t :: rest → t.abort = none → t.drained l = true →
    ∃ u, exec (.stripCommit c) s = .next u ∧ u.mem = s.mem ∧ (∀ k, k ≠ c → u.chains[k] = s.chains[k]) ∧
      u.chains[c].msc = h.msc + 1 ∧
      u.chains[c].opa = h.opa + BitVec.ofNat 41 t.outA ∧ u.chains[c].opb = h.opb + BitVec.ofNat 41 t.outB ∧
      u.chains[c].replays = (if t.replay = true ∧ h.replays ≠ 0xFFFFFFFF then h.replays + 1 else h.replays) ∧
      u.chains[c].drains = (if writes = [] then h.drains else h.drains ++ [{ serial := l.serial, writes := writes }]) ∧
      u.chains[c].stopReq = h.stopReq ∧ u.chains[c].queued = h.queued ∧
      (last = true → u.chains[c].run = none) ∧
      (last = false → u.chains[c].run = some { r with 
        strips := rest, inserted := r.inserted + t.insertedBy l, again := if r.again = some (t.k + 1) then none else r.again }) ∧
      (t.marks = [] → ∀ n : CoreId, u.cores[n].dmem = s.cores[n].dmem) ∧
      (Sys2Proof.Claims.foldedBy r t = [] →
        u.chains[c].numf = h.numf ||| t.flags ||| (if t.replay then 0x10000 else 0) ∧
        (h.caLoads = [] → u.chains[c].ca = h.ca ∧ u.chains[c].cas = h.cas)) ∧
      (∀ x : Shadow, Sys2Proof.Claims.foldedBy r t = [x] → h.caLoads = [] →
        u.chains[c].ca = h.ca.set x.ca
          (x.fold h.ca[x.ca] ((h.cas.toNat >>> (4 * x.ca.val)) % 16) (Config.freeNat s.free)).ca)

/-- DRAIN_ACCEPT: a write of the oldest drain to scratch that no earlier write of its stream meets takes effect and leaves the
drain; the drain is accepted with its last write.  No later write of a stream to a word takes effect before an earlier
one, nor two of a chain to a line of host memory (04 R70, R72; 05 R94, R100; 15 R312). -/
def Sys2Proof.Claims.DrainsAreAccepted : Prop :=
  ∀ (c : ChainId) (i : Nat) (rep : Reply) (d : Drain) (rest : List Drain) (w : HeldWrite) (s : State),
    s.chains[c].drains = d :: rest → d.writes[i]? = some w →
    (∀ off, d.behind i w = false → w.loc = .here off →
      s.place off = .scratch →
      ∃ u, exec (.drainAccept c i rep) s = .next u ∧ u.mem.cells = w.parts.foldl (fun m p => writeCells m (off + p.1) p.2) s.mem.cells ∧
        u.cores = s.cores ∧ (∀ k, k ≠ c → u.chains[k] = s.chains[k]) ∧ u.chains[c].run = s.chains[c].run ∧
        u.chains[c].drains =
          (if removeAt i d.writes = [] then rest else { d with writes := removeAt i d.writes } :: rest)) ∧
    (d.behind i w = true →
      exec (.drainAccept c i rep) s = .next s)

/-- STRIP_ABORT: the aborted strip, whose elements have all left their stations, is discarded with every younger one; EXS,
EXPOS and EXVAL say why, and the chain halts, or ends its launch if a stop was requested (04 R69; 08 R174 to R178).
STREAM_ACCESS_FAILURE discards a strip and every younger one and stops the chain (05 R99).  CHAIN_STOPPED: when the last
drain is accepted, STOPREQ clears and the chain's event is raised (04 R85, 11 R240).
The model's own choice here, no rule of the spec: a failed access is a stop request (log entry 36), and one during a
stop joins it (log entry 49). -/
def Obligations.StripsAbortAndChainsStop : Prop :=
  (∀ (c : ChainId) (r : Run) (t : Strip) (rest : List Strip) (a : Abort) (s : State),
    s.chains[c].run = some r → r.strips = t :: rest → t.abort = some a → t.drained r.launch = true →
    ∃ u, exec (.stripAbort c) s = .next u ∧ u.mem = s.mem ∧ u.cores = s.cores ∧
      (∀ k, k ≠ c → u.chains[k] = s.chains[k]) ∧
      u.chains[c].exs = BitVec.ofNat 64 (a.parcel <<< 52 + b2n t.replay <<< 51 + a.which.toNat <<< 49 + a.cond.toNat <<< 45
        + a.stn.toNat <<< 40 + t.k) ∧
      u.chains[c].expos = BitVec.ofNat 64 a.pos ∧ u.chains[c].exval0 = a.val0 ∧ u.chains[c].exval1 = a.val1 ∧
      u.chains[c].msc = s.chains[c].msc ∧ u.chains[c].opa = s.chains[c].opa ∧ u.chains[c].cas = s.chains[c].cas ∧
      u.chains[c].drains = s.chains[c].drains ∧
      (s.chains[c].stopReq = false → u.chains[c].ca = s.chains[c].ca ∧ u.chains[c].exc = true ∧
        u.chains[c].excHeld = true ∧
        u.chains[c].run = some { r with
          strips := [], trans := none, nextK := t.k, again := if rest.length = 1 then some (t.k + 1) else r.again }) ∧
        u.chains[c].cause = none ∧
      (s.chains[c].stopReq = true → u.chains[c].run = none ∧ u.chains[c].exc = s.chains[c].exc)) ∧
  (∀ (c : ChainId) (i : Fin 2) (r : Run) (s : State),
    s.chains[c].run = some r → i.val < r.strips.length → s.chains[c].stopReq = false →
    ∃ u, exec (.streamAccessFailure c i) s = .next u ∧ u.mem = s.mem ∧ u.cores = s.cores ∧
      (∀ k, k ≠ c → u.chains[k] = s.chains[k]) ∧ u.chains[c].failed = true ∧ u.chains[c].stopReq = true ∧
      u.chains[c].queued = none ∧ u.chains[c].msc = s.chains[c].msc ∧ u.chains[c].drains = s.chains[c].drains ∧
      (i.val = 0 → u.chains[c].run = none) ∧
      (i.val = 1 → u.chains[c].run = some { r with trans := none, strips := r.strips.take 1 })) ∧
  ∀ (c : ChainId) (s : State), s.chains[c].stopReq = true → s.chains[c].run = none → s.chains[c].drains = [] →
    exec (.chainStopped c) s = .next ((s.modChain c fun h => { h with stopReq := false }).raise c.val)


/-! ## Commands that are one register write (02 R28 to R37; 04 R82 to R85; 08 R179 to R181; 09 R195 to R200; 11; 12 R248) -/

/-- CHAIN_STOP, FLUSH_Q, CLR_MSC, EXCTL_RESTART, EXCTL_REPLAY, EXCTL_ABANDON: a stop drops the queued launch and every strip
but the oldest issued one, for which a restarted strip stands, a stop of a halted chain abandons, and a second request joins the first; FLUSH_Q drops the
queued launch; CLR_MSC acts on an idle chain alone; the answers to an abort act on a halted chain alone (04 R73, R85; 08
R179 to R181).
The model's own choice here, no rule of the spec: what STOP reads (log entry 28), the answers to an abort act at once
(log entry 48), and a request during a stop joins it (log entry 49). -/
def Obligations.ChainControlActs : Prop :=
  ∀ (src : Src) (c : ChainId) (s : State),
    let h := s.chains[c]
    let at' := fun (off : Nat) => s.reaches src (0x4000000 + 0x100000 * c.val + off) = true
    let ended := fun (u : State) =>
      u.chains[c].run = none ∧ u.chains[c].queued = none ∧ u.chains[c].exc = false ∧ u.chains[c].stopReq = true
    (at' 0x80014 → ∃ u, exec (.chainStop src c) s = .next u ∧ u.mem = s.mem ∧ u.cores = s.cores ∧
      (∀ k, k ≠ c → u.chains[k] = s.chains[k]) ∧ u.chains[c].drains = h.drains ∧ u.chains[c].msc = h.msc ∧
      (h.exc = true → ended u) ∧
      (h.exc = false → h.stopReq = true → u = s) ∧
      (h.exc = false → h.stopReq = false → u.chains[c].stopReq = true ∧ u.chains[c].queued = none ∧
        ∀ r, h.run = some r →
          (r.strips = [] → (∀ t, r.trans = some t → t.restarted = false) → u.chains[c].run = none) ∧
          (∀ t, r.strips = [] → r.trans = some t → t.restarted = true → u.chains[c].run = some r) ∧
          (r.strips ≠ [] → u.chains[c].run = some { r with trans := none, strips := r.strips.take 1 }))) ∧
    (at' 0x80014 → h.caLoads = [] → exec (.flushQ src c) s = .next (s.modChain c fun x => { x with queued := none })) ∧
    (at' 0x80014 → exec (.clrMsc src c) s =
      .next (if h.exc = false ∧ h.stopReq = false ∧ h.idle = true then
        s.modChain c fun x => { x with msc := 0, numf := 0, replays := 0 } else s)) ∧
    (∀ f r, at' 0x80050 → h.exc = true → h.run = some r →
      let again := fun (replay : Bool) => s.modChain c fun x => { x with
        exc := false
        run := some { r with
          trans := some { k := r.nextK, map := [], done := false, waiting := false, replay := replay, flushOnce := f,
                          restarted := true, opa := h.opa.toNat, opb := h.opb.toNat, act := r.launch.sizeOf r.nextK, dir := [] }
          nextK := r.nextK + 1 } }
      exec (.exctlRestart src c f) s = .next (again false) ∧ exec (.exctlReplay src c f) s = .next (again true)) ∧
    (at' 0x80050 → h.exc = true → ∃ u, exec (.exctlAbandon src c) s = .next u ∧ ended u ∧ u.mem = s.mem ∧
      u.cores = s.cores ∧ ∀ k, k ≠ c → u.chains[k] = s.chains[k]) ∧
    (∀ f, at' 0x80050 → h.exc = false → exec (.exctlRestart src c f) s = .next s ∧ exec (.exctlReplay src c f) s = .next s ∧
      exec (.exctlAbandon src c) s = .next s)

/-- SCTL_RETRY looks a waiting stream translation up again; SCTL_ABANDON drops the strip that waits and stops its chain, whose
issued strips go on (in a stop already under way it drops the strip alone); with no translation waiting both
change nothing (12 R254, R255). -/
def Sys2Proof.Claims.StreamTranslationAnswers : Prop :=
  ∀ (src : Src) (c : ChainId) (dir : List Word) (r : Run) (t : Translating) (s : State),
    let h := s.chains[c]
    let table := if t.map.any (·.stream = 7) then [] else r.prbMap.getD []
    let look := s.checkFoots s.cores[seqOf c] r.launch (t.map ++ table) 
      (r.launch.foots t.k t.opa t.opb t.act (t.k = 0) r.prbMap.isNone)
    s.reaches src (0x4000000 + 0x100000 * c.val + 0x80814) = true → h.run = some r → r.trans = some t →
    (∀ q ∈ r.launch.stations, ¬ (q.kind = .inp ∧ dKind (descOf r.launch.sregs q) = 4)) →
    (t.waiting = true →
      (∀ map st acc, look = (.ok map, st, acc) →
        ∃ u r', exec (.sctlRetry src c dir) s = .next u ∧ u.mem = s.mem ∧ u.cores = s.cores ∧
          u.chains[c].run = some r' ∧ r'.trans = some { t with map := map, done := true, waiting := false } ∧
          ∀ k, k ≠ c → u.chains[k] = s.chains[k]) ∧
      (∀ map st acc a, look = (.miss map a, st, acc) →
        ∃ u, exec (.sctlRetry src c dir) s = .next u ∧ u.mem = s.mem ∧ u.cores = s.cores ∧
          u.chains[c].cause = some { code := 0x0D, info := BitVec.ofNat 8 (acc * 16 + st), addr := a } ∧
          u.chains[c].srec = BitVec.ofNat 32 (acc * 64 + st)) ∧
      ∃ u, exec (.sctlAbandon src c) s = .next u ∧ u.chains[c].stopReq = true ∧
        (h.stopReq = false → u.chains[c].queued = none) ∧
        u.chains[c].cause = none ∧ (r.strips = [] → u.chains[c].run = none) ∧
        (r.strips ≠ [] → r.strips.length ≤ 2 → u.chains[c].run = some { r with trans := none }) ∧
        u.mem = s.mem ∧ u.cores = s.cores ∧ ∀ k, k ≠ c → u.chains[k] = s.chains[k]) ∧
    (t.waiting = false → exec (.sctlRetry src c dir) s = .next s ∧ exec (.sctlAbandon src c) s = .next s)

/-- CORE_START starts thread 0 at CORE_ENTRY at the level given; CORE_STOP stops the core at its bundle boundary and keeps its
registers, and gives up a bundle that waits; CORE_CFG takes its five bits, another source's at a bundle boundary at once, with the cache it turns off emptied,
and else it falls due; CORE_DB_RING sets the writer's pending bit (09
R185, R195, R198, R200; 11 R236). -/
def Sys2Proof.Claims.CoreControl : Prop :=
  ∀ (src : Src) (n : CoreId) (s : State),
    let c := s.cores[n]
    let at' := fun (off : Nat) => s.reaches src (0x4000000 + 0x100000 * n.val + off) = true
    let rest := fun (u : State) => u.mem = s.mem ∧ u.chains = s.chains ∧ ∀ m, m ≠ n → u.cores[m] = s.cores[m]
    (∀ k : Bool, at' 0x90004 → c.ctl.getLsbD 0 = false →
      ∃ u, exec (.coreStart src n k) s = .next u ∧ rest u ∧ u.cores[n].stat = 1 ∧
        u.cores[n].ctl = (if k then 3 else 1) ∧ u.cores[n].dmem = c.dmem ∧ u.cores[n].x = c.x ∧
        u.evt.halt = cellSet s.evt.halt n.val 0 ∧
        u.thread n 0 = { s.thread n 0 with
          pc := c.entry, latch := [], waited := false, hold := false, frame := Vector.replicate 2 .unread, buf := none, prev := none,
          live := true,
          status := ((s.thread n 0).status &&& ~~~(2 : Word)) ||| (if k then 2 else 0) }) ∧
    (∀ k : Bool, at' 0x90004 → c.ctl.getLsbD 0 = true →
      exec (.coreStart src n k) s = .next (s.modCore n fun c => { c with ctl := if k then 3 else 1 })) ∧
    (at' 0x90004 → c.ctl.getLsbD 0 = true →
      ∃ u, exec (.coreStop src n) s = .next u ∧ rest u ∧ u.cores[n].ctl = (c.ctl &&& 2) ∧ u.cores[n].dmem = c.dmem ∧
        u.cores[n].x = c.x ∧ u.cores[n].loads = c.loads.filter (fun l => !l.ofFrame) ∧ u.cores[n].stores = c.stores ∧
        (∀ t : ThreadId, u.thread n t = { s.thread n t with
          latch := [], waited := false, prev := none, hold := false, frame := Vector.replicate 2 .unread }) ∧
        (c.loads = [] → c.stores = [] → c.divider = none → u.cores[n].stat = 0)) ∧
    (∀ v : Half, at' 0x90000 →
      (src = .core n ∨ c.atBoundary = false → exec (.coreCfg src n v) s = .next (s.modCore n fun c =>
        { c with cfg := v &&& 0x1F, cfgDue := some { value := v &&& 0x1F, own := decide (src = .core n) } })) ∧
      (src ≠ .core n → c.atBoundary = true → exec (.coreCfg src n v) s = .next (s.modCore n fun c =>
        let c := { c with cfg := v &&& 0x1F, mode := v &&& 0x1F, cfgDue := none }
        { c with icache := if c.icacheOn then c.icache else [], dcache := if c.dcacheOn then c.dcache else [] }))) ∧
    (at' 0x90100 →
      exec (.coreDbRing src n) s = .next (s.modCore n fun c => { c with
        dbPend := c.dbPend ||| (1 : Word) <<< (match src with | .core m => m.val | _ => 63) }))

/-- EVT_ROUTE stores the route of a source, and turning HOST_EN on while the source is pending sends its message; EVT_SWSET
makes a software source pending; PRIORITY_WRITE stores the priorities of a master; PWR_WAKE_CLEAR clears the flags that
are written 1; TGL_PORT_ENABLE on an enabled port changes nothing (03 R59; 11 R241; 14 R286, R287; 16 R320; 17 R369). -/
def Sys2Proof.Claims.EventAndPriorityWrites : Prop :=
  (∀ (src : Src) (e : Fin 2048) (v : Half) (s : State), s.reaches src (0x10000 + 4 * e.val) = true →
    let s' := { s with evt := { s.evt with route := cellSet s.evt.route e.val (v &&& 0xFFFC07FF) } }
    exec (.evtRoute src e v) s =
      .next (if (cellGet s.evt.route e.val).getLsbD 30 = false ∧ v.getLsbD 30 = true ∧ s.pendingSrc e.val = true then
        s'.msix (v.toNat % 2048) else s')) ∧
  (∀ (src : Src) (v : Half) (s : State), s.reaches src 0x14200 = true →
    (0x400 ≤ v.toNat % 2048 → ∃ u, exec (.evtSwset src v) s = .next u ∧ u.pendingSrc (v.toNat % 2048) = true ∧
      u.mem = s.mem ∧ u.cores = s.cores ∧ u.evt.route = s.evt.route ∧
      ∀ e, e ≠ v.toNat % 2048 → u.pendingSrc e = s.pendingSrc e) ∧
    (v.toNat % 2048 < 0x400 → exec (.evtSwset src v) s = .next s)) ∧
  (∀ (src : Src) (k : ClusterId) (m : Fin 25) (w : Fin 33) (v : Half) (s : State),
    s.reaches src (0x410000 + 0x10000 * k.val + 0x200 * m.val + 4 * w.val) = true →
    ∃ u, exec (.priorityWrite src (.cluster k) m w v) s = .next u ∧ u.mem = s.mem ∧ u.cores = s.cores ∧
      u.jnc.rpri = s.jnc.rpri ∧
      u.jnc.cpri = cellSet s.jnc.cpri ((k.val * 25 + m.val) * 33 + w.val) (v &&& (if w.val = 32 then 0x7 else 0x77777777)) ∧
      (∀ i < 8, (u.tport (.cluster k) (8 * w.val + i)).layby = none) ∧
      ∀ j t, j ≠ .cluster k → t < 512 → u.tport j t = s.tport j t) ∧
  (∀ (src : Src) (m : Fin 25) (w : Fin 33) (v : Half) (s : State), m.val < 22 → w.val < 4 →
    s.reaches src (0x460000 + 0x10 * m.val + 4 * w.val) = true →
    ∃ u, exec (.priorityWrite src .root m w v) s = .next u ∧ u.mem = s.mem ∧ u.cores = s.cores ∧ u.jnc.cpri = s.jnc.cpri ∧
      u.jnc.rpri = cellSet s.jnc.rpri (m.val * 4 + w.val) (v &&& (if w.val = 3 then 0x07777777 else 0x77777777)) ∧
      ∀ i < 8, (u.tport .root (8 * w.val + i)).layby = none) ∧
  (∀ (src : Src) (v : Half) (s : State), s.reaches src 0x210020 = true →
    exec (.pwrWakeClear src v) s = .next { s with chip := { s.chip with
      wake := s.chip.wake &&& ~~~(v.setWidth 3), pwrreqN := s.chip.pwrreqN || v.getLsbD 0 } }) ∧
  ∀ (src : Src) (p : PortId) (s : State), s.reaches src (0x2000004 + 0x100000 * p.val) = true → s.tgl[p].en = true →
    exec (.tglPortEnable src p true) s = .next s

/-- Core control, events, priorities, wake flags and an enabled TGL port (03 R59; 09 R185, R195, R198, R200; 11 R236, R241; 14
R286, R287; 16 R320; 17 R369).
The model's own choice here, no rule of the spec: the boundary at which a write of CORE_CFG by another source acts
(log entry 75); a stop drops what decode has latched, and a start runs with the registers as they stand (log entry
76); the bits of a pair that the map does not list read 0 (log entry 89); the writes take the path and the grant of
their source (log entry 102). -/
def Obligations.CoreControlAndEventWritesAct : Prop :=
  Sys2Proof.Claims.CoreControl ∧ Sys2Proof.Claims.EventAndPriorityWrites

/-! ## What a station makes of an element (06 R113 to R134; 07 R138 to R145, R156, R157) -/

/-- Element `i` of a station goes on as one value, and raises nothing. -/
def Sys2Proof.Claims.makes (e : ElemRes) (pos : Nat) (null : Bool) (lo hi : Word) : Prop :=
  e = { out1 := some { pos := pos, null := null, lo := lo, hi := hi, bad := false }, out2 := none, flags := 0, raised := none,
        held := [], flight := [], used := false }

/-- An element raises a condition: it goes on as null, and its flag is set in flush and mark modes. -/
def Sys2Proof.Claims.raises (e : ElemRes) (pos mode cond which flag : Nat) (v0 : Word) : Prop :=
  e.out1 = some { pos := pos, null := true, lo := 0, hi := 0, bad := false } ∧ e.out2 = none ∧ e.held = [] ∧ e.flight = [] ∧
    e.flags = (if mode = 0 then 0 else flag) ∧
    ∃ r, e.raised = some r ∧ r.cond = cond ∧ r.which = which ∧ r.v0 = some v0

/-- What an unchecked ALU operation makes of a and b (06 R120). -/
def Sys2Proof.Claims.aluResult (op : Nat) (a b r : Word) : Prop :=
  let k := b.toNat % 64
  match op with
  | 0x00 => r = a + b
  | 0x01 => r = a - b
  | 0x04 => r = 0 - a
  | 0x06 => r = if a.msb then 0 - a else a
  | 0x08 => r.toInt = min a.toInt b.toInt
  | 0x09 => r.toInt = max a.toInt b.toInt
  | 0x0A => r.toNat = min a.toNat b.toNat
  | 0x0B => r.toNat = max a.toNat b.toNat
  | 0x10 => ∀ j < 64, r.getLsbD j = (a.getLsbD j && b.getLsbD j)
  | 0x11 => ∀ j < 64, r.getLsbD j = (a.getLsbD j || b.getLsbD j)
  | 0x12 => ∀ j < 64, r.getLsbD j = (a.getLsbD j != b.getLsbD j)
  | 0x13 => ∀ j < 64, r.getLsbD j = (a.getLsbD j && !b.getLsbD j)
  | 0x14 => ∀ j < 64, r.getLsbD j = !a.getLsbD j
  | 0x18 => ∀ j < 64, r.getLsbD j = (decide (k ≤ j) && a.getLsbD (j - k))
  | 0x19 => ∀ j < 64, r.getLsbD j = a.getLsbD (j + k)
  | 0x1A => ∀ j < 64, r.getLsbD j = a.getLsbD (min (j + k) 63)
  | 0x1B => ∀ j < 64, r.getLsbD ((j + k) % 64) = a.getLsbD j
  | 0x20 => ∀ j < 64, r.getLsbD j = a.getLsbD (min j k)
  | 0x21 => ∀ j < 64, r.getLsbD j = (decide (j ≤ k) && a.getLsbD j)
  | 0x24 => r.toNat ≤ 64 ∧ (∀ j < 64, 64 - r.toNat ≤ j → a.getLsbD j = false) ∧
      (r.toNat < 64 → a.getLsbD (63 - r.toNat) = true)
  | 0x25 => r.toNat ≤ 64 ∧ (∀ j < r.toNat, a.getLsbD j = false) ∧ (r.toNat < 64 → a.getLsbD r.toNat = true)
  | 0x26 => r.toNat = (List.range 64).countP a.getLsbD
  | 0x27 => ∀ j < 64, r.getLsbD j = a.getLsbD (8 * (7 - j / 8) + j % 8)
  | 0x33 => r = a
  | _ => False

/-- The exact result of a checked ALU operation (06 R120). -/
def Sys2Proof.Claims.aluExact (op : Nat) (a b : Word) : Option Int :=
  match op with
  | 0x02 => some (a.toInt + b.toInt)
  | 0x03 => some (a.toInt - b.toInt)
  | 0x05 => some (-a.toInt)
  | 0x07 => some |a.toInt|
  | _ => none

/-- ALU: a null operand gives null; an unchecked operation gives its result; a checked one its exact result, or integer overflow
where that does not fit; SELECT, NVL and ISNULL by their own rules (06 R116, R117, R120). -/
def Sys2Proof.Claims.AluComputes : Prop :=
  ∀ (l : Launch) (dict : List Word) (t : Strip) (q : Stn) (ws : List Wire) (i idx : Nat), q.kind = .alu →
    let a := t.operand q ws q.a i
    let b := t.operand q ws q.b i
    let p := t.operand q ws q.c i
    let e := stationElem l dict t q ws i idx
    let pos := t.posOf q ws i
    let gives := Sys2Proof.Claims.makes e pos
    (q.op < 0x30 ∨ q.op = 0x33 → a.null = true ∨ (aluUsesB q.op = true ∧ b.null = true) → gives true 0 0) ∧
    (a.null = false → (aluUsesB q.op = true → b.null = false) →
      (∀ r, Sys2Proof.Claims.aluResult q.op a.lo b.lo r → gives false r 0) ∧
      ∀ x, Sys2Proof.Claims.aluExact q.op a.lo b.lo = some x →
        (-(2 ^ 63 : Int) ≤ x ∧ x < (2 ^ 63 : Int) → ∃ r : Word, r.toInt = x ∧ gives false r 0) ∧
        (x < -(2 ^ 63 : Int) ∨ (2 ^ 63 : Int) ≤ x →
          Sys2Proof.Claims.raises e pos (q.mode t.flushOnce) 1 3 0x100 a.lo)) ∧
    (q.op = 0x30 →
      let v := if p.null = false ∧ p.lo ≠ 0 then a else b
      gives v.null (if v.null then 0 else v.lo) 0) ∧
    (q.op = 0x31 →
      let v := if a.null = false then a else b
      gives v.null (if v.null then 0 else v.lo) 0) ∧
    (q.op = 0x32 → gives false (if a.null then 1 else 0) 0)

/-- MAC's integer operations: low and high products, multiply-add, the checked one with its overflow, and the wide products
(06 R116, R134). -/
def Sys2Proof.Claims.MacComputes : Prop :=
  ∀ (l : Launch) (dict : List Word) (t : Strip) (q : Stn) (ws : List Wire) (i idx : Nat), q.kind = .mac →
    let a := t.operand q ws q.a i
    let b := t.operand q ws q.b i
    let c := t.operand q ws q.c i
    let e := stationElem l dict t q ws i idx
    let pos := t.posOf q ws i
    let gives := Sys2Proof.Claims.makes e pos
    (a.null = true ∨ b.null = true ∨ (macUsesC q.op = true ∧ c.null = true) → gives true 0 0) ∧
    (a.null = false → b.null = false → (macUsesC q.op = true → c.null = false) →
      (q.op = 0 → gives false (a.lo * b.lo) 0) ∧
      (q.op = 1 → gives false (BitVec.ofInt 64 (a.lo.toInt * b.lo.toInt / 2 ^ 64)) 0) ∧
      (q.op = 2 → gives false (BitVec.ofNat 64 (a.lo.toNat * b.lo.toNat / 2 ^ 64)) 0) ∧
      (q.op = 3 → gives false (a.lo * b.lo + c.lo) 0) ∧
      (q.op = 4 →
        let x := a.lo.toInt * b.lo.toInt + c.lo.toInt
        (-(2 ^ 63 : Int) ≤ x ∧ x < (2 ^ 63 : Int) → ∃ r : Word, r.toInt = x ∧ gives false r 0) ∧
        (x < -(2 ^ 63 : Int) ∨ (2 ^ 63 : Int) ≤ x →
          Sys2Proof.Claims.raises e pos (q.mode t.flushOnce) 1 3 0x100 a.lo)) ∧
      (q.op = 6 → ∃ lo hi : Word, hi.toInt * 2 ^ 64 + lo.toNat = a.lo.toInt * b.lo.toInt ∧ gives false lo hi) ∧
      (q.op = 7 → ∃ lo hi : Word, hi.toNat * 2 ^ 64 + lo.toNat = a.lo.toNat * b.lo.toNat ∧ gives false lo hi))

/-- DIV at the width that W selects: operands outside the range, a divisor of 0 and DIVS of the least value by −1 raise the
divide-range condition; else quotients truncate, and remainders take the sign of a (06 R116, R118, R127). -/
def Sys2Proof.Claims.DivComputes : Prop :=
  ∀ (l : Launch) (dict : List Word) (t : Strip) (q : Stn) (ws : List Wire) (i idx : Nat), q.kind = .div → q.op < 4 → q.m1 < 4 →
    let w := 64 / 2 ^ q.m1
    let a := t.operand q ws q.a i
    let b := t.operand q ws q.b i
    let e := stationElem l dict t q ws i idx
    let pos := t.posOf q ws i
    let gives := Sys2Proof.Claims.makes e pos
    let signed := q.op = 0 ∨ q.op = 2
    let fits := fun (x : Word) =>
      (signed → -(2 ^ (w - 1) : Int) ≤ x.toInt ∧ x.toInt < (2 ^ (w - 1) : Int)) ∧ (¬ signed → x.toNat < 2 ^ w)
    let range := fun (k : Nat) => Sys2Proof.Claims.raises e pos (q.mode t.flushOnce) 2 k 0x200 a.lo
    (a.null = true ∨ b.null = true → gives true 0 0) ∧
    (a.null = false → b.null = false →
      (¬ fits a.lo → range 0) ∧ (fits a.lo → ¬ fits b.lo → range 1) ∧ (fits a.lo → b.lo = 0 → range 3) ∧
      (fits a.lo → fits b.lo → b.lo ≠ 0 →
        (q.op = 0 → a.lo.toInt = -(2 ^ (w - 1) : Int) → b.lo.toInt = -1 → range 3) ∧
        (q.op = 0 → ¬ (a.lo.toInt = -(2 ^ (w - 1) : Int) ∧ b.lo.toInt = -1) →
          ∃ r : Word, r.toInt = Int.tdiv a.lo.toInt b.lo.toInt ∧ gives false r 0) ∧
        (q.op = 1 → ∃ r : Word, r.toNat = a.lo.toNat / b.lo.toNat ∧ gives false r 0) ∧
        (q.op = 2 → ∃ r : Word, r.toInt = Int.tmod a.lo.toInt b.lo.toInt ∧ gives false r 0) ∧
        (q.op = 3 → ∃ r : Word, r.toNat = a.lo.toNat % b.lo.toNat ∧ gives false r 0)))

/-- `v` is the number `x` as packed decimal of `nd` digits; sign codes A, B and E count in exact replay alone (06 R129, R130). -/
def Sys2Proof.Claims.isDec (nd : Nat) (exact : Bool) (v : Nat) (x : Int) : Prop :=
  let digit := fun (k : Nat) => v / 16 ^ (k + 1) % 16
  let d := ((List.range nd).map fun k => digit k * 10 ^ k).sum
  (∀ k < nd, digit k ≤ 9) ∧
    (((v % 16 = 0xC ∨ v % 16 = 0xF ∨ (exact = true ∧ (v % 16 = 0xA ∨ v % 16 = 0xE))) ∧ x = d) ∨
      ((v % 16 = 0xD ∨ (exact = true ∧ v % 16 = 0xB)) ∧ x = -(d : Int)))

/-- `v` is `x` as a packed decimal result: sign C or D, and C for zero (06 R131). -/
def Sys2Proof.Claims.isDecResult (nd v : Nat) (x : Int) : Prop :=
  v < 16 ^ (nd + 1) ∧ Sys2Proof.Claims.isDec nd false v x ∧ (v % 16 = 0xC ∨ (v % 16 = 0xD ∧ x ≠ 0))

/-- A decimal operation: a is P16, b (if there is one) is P16, the result is P16, and the exact result (06 R132). -/
def Sys2Proof.Claims.dcmRows : List (Nat × Bool × Option Bool × Bool × (Int → Int → Int)) :=
  [(0x00, false, some false, false, fun x y => x + y), (0x01, false, some false, false, fun x y => x - y),
   (0x02, true, some true, true, fun x y => x + y), (0x03, true, some true, true, fun x y => x - y),
   (0x04, false, some false, true, fun x y => x * y), (0x05, true, some false, true, fun x y => x * y),
   (0x08, false, none, false, fun x _ => -x), (0x09, true, none, true, fun x _ => -x),
   (0x0A, false, none, false, fun x _ => |x|), (0x0B, true, none, true, fun x _ => |x|),
   (0x0C, false, none, false, fun x _ => x), (0x0D, true, none, true, fun x _ => x),
   (0x10, false, none, true, fun x _ => x), (0x11, true, none, false, fun x _ => x)]

/-- DCM: an operand that is no decimal raises decimal invalid, a first before b; a result of more digits than its format holds
raises decimal overflow; else the exact result with the sign of R131; the conversions from and to integers, the comparisons
and the byte reversals; RESCALE stands in RescaleRounds (06 R116, R118, R129 to R132, R136). -/
def Sys2Proof.Claims.DcmComputes : Prop :=
  ∀ (l : Launch) (dict : List Word) (t : Strip) (q : Stn) (ws : List Wire) (i idx : Nat), q.kind = .dcm →
    let a := t.operand q ws q.a i
    let b := t.operand q ws q.b i
    let e := stationElem l dict t q ws i idx
    let pos := t.posOf q ws i
    let gives := Sys2Proof.Claims.makes e pos
    let mode := q.mode t.flushOnce
    let bits := fun (wide : Bool) (v : Elem) => if wide then v.lo.toNat + v.hi.toNat * 2 ^ 64 else v.lo.toNat
    let dec := fun (wide : Bool) (v : Elem) (x : Int) => Sys2Proof.Claims.isDec (if wide then 31 else 15) t.replay (bits wide v) x
    let result := fun (wide : Bool) (x : Int) =>
      (|x| < 10 ^ (if wide then 31 else 15) → ∃ lo hi : Word, (wide = false → hi = 0) ∧
        Sys2Proof.Claims.isDecResult (if wide then 31 else 15) (lo.toNat + hi.toNat * 2 ^ 64) x ∧ gives false lo hi) ∧
      (10 ^ (if wide then 31 else 15) ≤ |x| → Sys2Proof.Claims.raises e pos mode 5 3 0x2000 a.lo)
    let cmp := fun (x y : Int) => gives false (if x < y then -1 else if x = y then 0 else 1) 0
    (∀ row ∈ Sys2Proof.Claims.dcmRows, row.1 = q.op →
      let (_, wa, wb, wr, f) := row
      (a.null = true ∨ (wb ≠ none ∧ b.null = true) → gives true 0 0) ∧
      (a.null = false → (wb ≠ none → b.null = false) →
        ((∀ x, ¬ dec wa a x) → Sys2Proof.Claims.raises e pos mode 4 0 0x1000 a.lo) ∧
        ∀ x, dec wa a x →
          (wb = none → result wr (f x 0)) ∧
          ∀ w, wb = some w → ((∀ y, ¬ dec w b y) → Sys2Proof.Claims.raises e pos mode 4 1 0x1000 b.lo) ∧
            ∀ y, dec w b y → result wr (f x y))) ∧
    (q.op = 0x12 → a.null = false → result true a.lo.toInt) ∧
    (q.op = 0x13 → a.null = false → ∀ x, dec true a x →
      (-(2 ^ 63 : Int) ≤ x ∧ x < (2 ^ 63 : Int) → ∃ r : Word, r.toInt = x ∧ gives false r 0) ∧
      (x < -(2 ^ 63 : Int) ∨ (2 ^ 63 : Int) ≤ x → Sys2Proof.Claims.raises e pos mode 5 3 0x2000 a.lo)) ∧
    (q.op = 0x15 → a.null = false → b.null = false → ∀ x y, dec true a x → dec true b y → cmp x y) ∧
    (q.op = 0x16 → a.null = false → b.null = false → ∀ x y, dec false a x → dec false b y → cmp x y) ∧
    (q.op = 0x18 → a.null = false → q.m3 < 8 → ∃ r : Word, gives false r 0 ∧
      ∀ k < 8, r.toNat / 256 ^ k % 256 = if k ≤ q.m3 then a.lo.toNat / 256 ^ (q.m3 - k) % 256 else 0) ∧
    (q.op = 0x19 → a.null = false → q.m3 < 16 → ∃ lo hi : Word, gives false lo hi ∧
      ∀ k < 16, (lo.toNat + hi.toNat * 2 ^ 64) / 256 ^ k % 256 =
        if k ≤ q.m3 then bits true a / 256 ^ (q.m3 - k) % 256 else 0) ∧
    (q.op ∈ [0x12, 0x13, 0x14, 0x15, 0x16, 0x18, 0x19] → a.null = true ∨ (q.op ∈ [0x15, 0x16] ∧ b.null = true) →
      gives true 0 0)

/-- The number that TYPE reads in an element, so that numbers order as elements do; none for a NaN (07 R140). -/
def Sys2Proof.Claims.selNumber (ty len : Nat) (v : Elem) : Option Int :=
  let fp := fun (x n inf : Nat) =>
    let mag := x % 2 ^ (n - 1)
    if inf < mag then none else some (if x / 2 ^ (n - 1) % 2 = 1 then -(mag : Int) else mag)
  let str := fun (x : Nat) => ((List.range len).map fun k => x / 256 ^ k % 256 * 256 ^ (len - 1 - k)).sum
  match ty with
  | 0 => some v.lo.toInt
  | 1 => some v.lo.toNat
  | 2 => fp v.lo.toNat 64 0x7FF0000000000000
  | 3 => fp v.lo.toNat 32 0x7F800000
  | 4 => some (str v.lo.toNat)
  | _ => some (str (v.lo.toNat + v.hi.toNat * 2 ^ 64))

/-- A predicate as a number: 0 false, 1 unknown, 2 true (07 R138). -/
def Sys2Proof.Claims.truth (v : Elem) : Nat := if v.null then 1 else if v.lo = 0 then 0 else 2

/-- SEL: its comparison by TYPE (unordered with a NaN: NE alone is true), NULLP and PRED, unknown with a null operand, combined
with p by three-valued logic, in which AND is the lesser and OR the greater (07 R138 to R141). -/
def Sys2Proof.Claims.SelComputes : Prop :=
  ∀ (l : Launch) (dict : List Word) (t : Strip) (q : Stn) (ws : List Wire) (i idx : Nat), q.kind = .sel → q.op ≤ 9 → q.m1 < 4 →
    q.m2 ≤ 5 →
    let a := t.operand q ws q.a i
    let b := t.operand q ws q.b i
    let c := t.operand q ws q.c i
    let p := Sys2Proof.Claims.truth (t.operand q ws q.p i)
    let num := Sys2Proof.Claims.selNumber q.m2 (q.m3 + 1)
    let gives := fun (r : Nat) =>
      let v := match q.m1 with
        | 0 => r
        | 1 => min r p
        | 2 => max r p
        | _ => min r (2 - p)
      Sys2Proof.Claims.makes (stationElem l dict t q ws i idx) (t.posOf q ws i) (decide (v = 1)) (if v = 2 then 1 else 0) 0
    (q.op = 8 → gives (if a.null then 2 else 0)) ∧
    (q.op = 9 → gives (Sys2Proof.Claims.truth a)) ∧
    (q.op < 8 → a.null = true ∨ b.null = true ∨ (6 ≤ q.op ∧ c.null = true) → gives 1) ∧
    (q.op < 8 → a.null = false → b.null = false → (6 ≤ q.op → c.null = false) →
      (num a = none ∨ num b = none ∨ (6 ≤ q.op ∧ num c = none) → gives (if q.op = 1 then 2 else 0)) ∧
      ∀ x y, num a = some x → num b = some y →
        (q.op < 6 →
          gives (if [decide (x = y), decide (x ≠ y), decide (x < y), decide (x ≤ y), decide (y < x),
            decide (y ≤ x)].getD q.op false then 2 else 0)) ∧
        ∀ z, num c = some z →
          (q.op = 6 → gives (if y ≤ x ∧ x ≤ z then 2 else 0)) ∧ (q.op = 7 → gives (if y ≤ x ∧ x < z then 2 else 0)))

/-- CPT emits the elements of the positions whose p is true, POS as the position itself, and nothing at others; HSH the key hash of
one word or two (07 R142 to R145). -/
def Sys2Proof.Claims.CptAndHshCompute : Prop :=
  (∀ (l : Launch) (dict : List Word) (t : Strip) (q : Stn) (ws : List Wire) (i idx : Nat), q.kind = .cpt →
    let e := stationElem l dict t q ws i idx
    let pos := t.posOf q ws i
    let out := fun (code : Nat) (x : Elem) =>
      x = if code = 28 then { pos := pos, null := false, lo := BitVec.ofNat 64 pos, hi := 0, bad := false }
        else { t.operand q ws code i with pos := pos, bad := false }
    e.flags = 0 ∧ e.raised = none ∧ e.held = [] ∧ e.flight = [] ∧
    (Sys2Proof.Claims.truth (t.operand q ws q.p i) = 2 →
      (∃ x, e.out1 = some x ∧ out q.a x) ∧ (q.b = 0 → e.out2 = none) ∧ (q.b ≠ 0 → ∃ y, e.out2 = some y ∧ out q.b y)) ∧
    (Sys2Proof.Claims.truth (t.operand q ws q.p i) ≠ 2 → e.out1 = none ∧ e.out2 = none)) ∧
  ∀ (l : Launch) (dict : List Word) (t : Strip) (q : Stn) (ws : List Wire) (i idx : Nat), q.kind = .hsh → q.op < 2 →
    let a := t.operand q ws q.a i
    let b := t.operand q ws q.b i
    let gives := Sys2Proof.Claims.makes (stationElem l dict t q ws i idx) (t.posOf q ws i)
    let mix := fun (x : Word) =>
      let x := (x ^^^ (x >>> 33)) * 0x8C3A61D5F2E94B17
      x ^^^ (x >>> 29)
    let two := q.op = 1 ∧ wideAt ws q.a = false
    (a.null = true ∨ (two ∧ b.null = true) → gives true 0 0) ∧
    (a.null = false → (two → b.null = false) →
      (q.op = 0 → gives false (mix (a.lo ^^^ q.imm)) 0) ∧
      (q.op = 1 → gives false (mix (mix (a.lo ^^^ q.imm) ^^^ (if wideAt ws q.a then a.hi else b.lo))) 0))

/-- An integer, decimal or counting accumulator at a strip's commit: the sum of the strip's elements, or the least or greatest of
them, is taken into CAn; a strip without an element that is not null leaves it as it is, but for COUNTALL and SUMF; CAS records what the
strip had (07 R156, R157, R159). -/
def Sys2Proof.Claims.AccumulatorsFold : Prop :=
  ∀ (ca : Fin 8) (op : BitVec 5) (wide : Bool) (es : List Elem) (old : Wide) (cas : Nat) (free : Int),
    let h := (es.zipIdx).foldl (fun (h : Shadow) e => (h.take wide ⟨e.2 % 8, by omega⟩ e.1).1) (Shadow.start ca op)
    let r := h.fold old cas free
    let there := es.filter fun e => !e.null
    let signed := fun (e : Elem) => if wide then e.lo.toNat + e.hi.toInt * 2 ^ 64 else e.lo.toInt
    let plain := fun (e : Elem) => if wide then e.lo.toNat + e.hi.toNat * 2 ^ 64 else e.lo.toNat
    let wraps := fun (x : Int) => r.ca.toInt = x.bmod (2 ^ 128) ∧
      (r.cas.testBit 2 = true ↔ cas.testBit 2 = true ∨ x < -(2 ^ 127 : Int) ∨ (2 ^ 127 : Int) ≤ x)
    (op.toNat ∈ [0, 1, 4, 5, 8, 9, 10, 11] →
      (r.cas.testBit 0 = true ↔ cas.testBit 0 = true ∨ there ≠ []) ∧
      (r.cas.testBit 1 = true ↔ cas.testBit 1 = true ∨ there.length ≠ es.length) ∧ r.flags = 0) ∧
    (op.toNat ≠ 2 → op.toNat ≠ 5 → there = [] → r.ca = old) ∧
    (op = 0 → wraps (old.toInt + (there.map signed).sum)) ∧
    (op = 4 → wraps (old.toInt + there.length)) ∧
    (op = 5 → wraps (old.toInt + es.length)) ∧
    (op = 1 → r.ca.toNat = (old.toNat + (there.map plain).sum) % 2 ^ 128 ∧
      (r.cas.testBit 2 = true ↔ cas.testBit 2 = true ∨ 2 ^ 128 ≤ old.toNat + (there.map plain).sum)) ∧
    (there ≠ [] →
      let held : List Int := if cas.testBit 0 then [if op.toNat < 10 then old.toInt else (old.toNat : Int)] else []
      (op = 8 ∨ op = 10 → ∃ m ∈ held ++ there.map (fun e => if op = 8 then e.lo.toInt else (e.lo.toNat : Int)),
        r.ca = BitVec.ofInt 128 m ∧ ∀ x ∈ held ++ there.map (fun e => if op = 8 then e.lo.toInt else (e.lo.toNat : Int)), m ≤ x) ∧
      (op = 9 ∨ op = 11 → ∃ m ∈ held ++ there.map (fun e => if op = 9 then e.lo.toInt else (e.lo.toNat : Int)),
        r.ca = BitVec.ofInt 128 m ∧ ∀ x ∈ held ++ there.map (fun e => if op = 9 then e.lo.toInt else (e.lo.toNat : Int)), x ≤ m))

/-- The values, flags and conditions of the ALU, MAC (its integer operations), DIV, DCM, SEL, CPT, HSH and the integer accumulators,
by their tables (06 R116 to R120, R127, R129 to R134; 07 R138 to R145, R156, R157, R159). -/
def Obligations.StationOperationsCompute : Prop :=
  Sys2Proof.Claims.AluComputes ∧ Sys2Proof.Claims.MacComputes ∧ Sys2Proof.Claims.DivComputes ∧ Sys2Proof.Claims.DcmComputes ∧
    Sys2Proof.Claims.SelComputes ∧ Sys2Proof.Claims.CptAndHshCompute ∧ Sys2Proof.Claims.AccumulatorsFold

/-- CORE_TLB_CMD: WRITE_L2 replaces the entry of the same page or writes the way, READ_L2 copies a way, the lock commands load
and clear lock slots, and an invalidation takes what it covers from the fill entries and clears V of the second-level ways
that it covers at once, and keeps the lock slots; one whose pages an issued strip uses waits at the chain (12 R248 to R250, R255). -/
def Sys2Proof.Claims.TlbCommandWrites : Prop :=
  ∀ (src : Src) (n : CoreId) (s : State), s.reaches src (0x4000000 + 0x100000 * n.val + 0x80810) = true →
    let c := s.cores[n]
    let entry := tlbEntryOf c.tlbTag c.tlbData
    let rest := fun (u : State) => u.mem = s.mem ∧ (∀ m, m ≠ n → u.cores[m] = s.cores[m])
    let words : TlbEntry := entry.getD { tag := c.tlbTag, data := c.tlbData &&& ~~~(1 : Word) }
    let same := c.l2.find? fun p => p.2.valid && decide (p.1 / 8 = l2Set (psOf c.tlbTag) c.tlbTag) &&
      decide (psOf p.2.tag = psOf c.tlbTag) && decide (p.2.tag.toNat >>> 16 = c.tlbTag.toNat >>> 16)
    let idle := ∀ k, chainOf n = some k → s.chains[k].run = none
    (∀ (way : BitVec 4) (wsel : Bool) (dir : List Word), way.toNat < 8 → idle →
      let idx := match same with
        | some p => p.1
        | none => l2Set (psOf c.tlbTag) c.tlbTag * 8 + (if wsel then way.toNat else c.victim.toNat)
      ∃ u, exec (.writeL2 src n way wsel dir) s = .next u ∧ rest u ∧ u.cores[n].hit = same.isSome ∧
        u.cores[n].victim = (if wsel then c.victim else c.victim + 1) ∧ u.cores[n].ifill = c.ifill ∧
        u.cores[n].dlock = c.dlock ∧
        (∀ p, p ∈ u.cores[n].l2 ↔ (p ∈ c.l2 ∧ p.1 ≠ idx) ∨ (p.1 = idx ∧ p.2 = words))) ∧
    (∀ slot : BitVec 4, slot.toNat < 4 →
      exec (.writeIlock src n slot) s = .next (s.modCore n fun c => { c with
        ilock := c.ilock.set (⟨slot.toNat % 4, by omega⟩ : Fin 4) entry }) ∧
      exec (.writeDlock src n slot) s = .next (s.modCore n fun c => { c with
        dlock := c.dlock.set (⟨slot.toNat % 4, by omega⟩ : Fin 4) entry })) ∧
    (exec (.clearLocks src n) s = .next (s.modCore n fun c => { c with
      ilock := Vector.replicate 4 none, dlock := Vector.replicate 4 none })) ∧
    (∀ way : BitVec 4, way.toNat < 8 →
      let e := (alookup (l2Set (psOf c.tlbTag) c.tlbTag * 8 + way.toNat) c.l2).getD { tag := 0, data := 0 }
      exec (.readL2 src n way) s = .next (s.modCore n fun c => { c with
        tlbTag := e.tag, tlbData := e.data, hit := e.data.getLsbD 0 })) ∧
    ∀ (i : Inval) (cmd : Instr),
      (cmd = .invalVa src n ∧ i = .va c.tlbTag) ∨ (cmd = .invalUser src n ∧ i = .user) ∨ (cmd = .invalAll src n ∧ i = .all) →
      ∃ u, exec cmd s = .next u ∧ rest u ∧ u.cores[n].ilock = c.ilock ∧ u.cores[n].dlock = c.dlock ∧
        u.cores[n].ifill = c.ifill.map (·.filter fun e => !i.hits e) ∧
        u.cores[n].dfill = c.dfill.map (·.filter fun e => !i.hits e) ∧
        u.cores[n].l2 = c.l2.map (fun p => (p.1, if i.hits p.2 then { p.2 with data := p.2.data &&& ~~~(1 : Word) } else p.2)) ∧
        (idle → u.cores[n].invals = c.invals) ∧
        (∀ k, chainOf n = some k → s.chains[k].usesPage i = true → u.cores[n].invals = c.invals ++ [i])

/-- TLB_INVAL_EFFECT: a waiting invalidation takes effect once no issued strip of the chain uses a page that it covers, and
waits while one does (12 R255). -/
def Sys2Proof.Claims.InvalidationTakesEffect : Prop :=
  ∀ (n : CoreId) (i : Inval) (s : State), s.cores[n].invals = [i] →
    ((∀ k, chainOf n = some k → s.chains[k].usesPage i = false) →
      exec (.tlbInvalEffect n) s = .next (s.modCore n fun c => { c with invals := [] })) ∧
    (∀ k, chainOf n = some k → s.chains[k].usesPage i = true → exec (.tlbInvalEffect n) s = .next s)


/-! ## Rules of numeric stations that stand alone (06 R124, R131, R133) -/

/-- FMIN and FMAX of operands that are no NaN return one of them bit for bit, subnormal or not: the lesser or the greater, with −0
below +0.  They, and FABS and FNEG, set no flag and raise no condition in any exception mode (06 R124). -/
def Obligations.FloatMinMaxReturnOperands : Prop :=
  ∀ (l : Launch) (dict : List Word) (t : Strip) (q : Stn) (ws : List Wire) (i idx : Nat), q.kind = .fpu →
    let n : Nat := if q.m1 = 1 then 32 else 64
    let inf : Nat := if q.m1 = 1 then 0x7F800000 else 0x7FF0000000000000
    let x := t.operand q ws q.a i
    let y := t.operand q ws q.b i
    let a := x.lo.toNat % 2 ^ n
    let b := y.lo.toNat % 2 ^ n
    let mag : Nat → Nat := fun v => v % 2 ^ (n - 1)
    let key : Nat → Int := fun v => if v < 2 ^ (n - 1) then (mag v : Int) else -(mag v : Int) - 1
    let gives := fun (r : Nat) =>
      Sys2Proof.Claims.makes (stationElem l dict t q ws i idx) (t.posOf q ws i) false (BitVec.ofNat 64 r) 0
    (q.op = 5 ∨ q.op = 6 → x.null = false → y.null = false → mag a ≤ inf → mag b ≤ inf →
      ∃ r, gives r ∧ (r = a ∨ r = b) ∧ (q.op = 5 → key r ≤ key a ∧ key r ≤ key b) ∧
        (q.op = 6 → key a ≤ key r ∧ key b ≤ key r)) ∧
    (q.op = 7 → x.null = false → gives (mag a)) ∧
    (q.op = 8 → x.null = false → gives (if a < 2 ^ (n - 1) then a + 2 ^ (n - 1) else mag a))

/-- Every packed decimal result of DCM carries the sign 0xC or 0xD and only valid digits, and a zero carries 0xC.  A zero with a
negative sign code equals one with a positive sign code in every operation: the result and the flags are the same, and CMP8 and
CMP16 report them as equal (06 R131). -/
def Obligations.DecimalResultsAreSigned : Prop :=
  ∀ (l : Launch) (dict : List Word) (t : Strip) (q : Stn) (ws : List Wire) (i idx : Nat), q.kind = .dcm →
    let bits := fun (wide : Bool) (v : Elem) => if wide then v.lo.toNat + v.hi.toNat * 2 ^ 64 else v.lo.toNat
    let zero := fun (wide : Bool) (v : Elem) =>
      v.null = false ∧ Sys2Proof.Claims.isDec (if wide then 31 else 15) t.replay (bits wide v) 0
    let wa := q.op ∈ [0x02, 0x03, 0x05, 0x09, 0x0B, 0x0D, 0x11, 0x13, 0x14, 0x15]
    let wb := q.op ∈ [0x02, 0x03, 0x15]
    let e := stationElem l dict t q ws i idx
    (∀ x, e.out1 = some x → x.null = false →
      (q.op ∈ [0x00, 0x01, 0x08, 0x0A, 0x0C, 0x11] → x.hi = 0 ∧ ∃ v, Sys2Proof.Claims.isDecResult 15 (bits false x) v) ∧
      (q.op ∈ [0x02, 0x03, 0x04, 0x05, 0x09, 0x0B, 0x0D, 0x10, 0x12, 0x14] →
        ∃ v, Sys2Proof.Claims.isDecResult 31 (bits true x) v)) ∧
    (∀ t' : Strip, t'.replay = t.replay → q.op ≤ 0x16 → q.op ≠ 0x12 →
      let alike := fun (wide : Bool) (v w : Elem) => v = w ∨ (zero wide v ∧ zero wide w)
      alike (decide wa) (t.operand q ws q.a i) (t'.operand q ws q.a i) →
      alike (decide wb) (t.operand q ws q.b i) (t'.operand q ws q.b i) →
      let e' := stationElem l dict t' q ws i idx
      e.out1.map (fun x => (x.null, x.lo, x.hi)) = e'.out1.map (fun x => (x.null, x.lo, x.hi)) ∧
        (q.mode t.flushOnce = q.mode t'.flushOnce → e.flags = e'.flags)) ∧
    (q.op = 0x15 ∨ q.op = 0x16 → zero (decide wa) (t.operand q ws q.a i) → zero (decide wb) (t.operand q ws q.b i) →
      Sys2Proof.Claims.makes e (t.posOf q ws i) false 0 0)

/-- RESCALE's result `r` for `x`, K = `k` and RD = `rd` (06 R133). -/
def Sys2Proof.Claims.rescaled (k : Int) (rd : Nat) (x r : Int) : Prop :=
  if 0 ≤ k then r = x * 10 ^ k.toNat
  else
    let m : Int := 10 ^ (-k).toNat
    let q := |r|
    (r = 0 ∨ (0 < r ↔ 0 < x)) ∧
      (rd = 0 → q * m ≤ |x| ∧ |x| < (q + 1) * m) ∧
      (rd = 1 → (2 * q - 1) * m ≤ 2 * |x| ∧ 2 * |x| < (2 * q + 1) * m) ∧
      (rd = 2 → (2 * q - 1) * m ≤ 2 * |x| ∧ 2 * |x| ≤ (2 * q + 1) * m ∧
        (2 * |x| = (2 * q - 1) * m ∨ 2 * |x| = (2 * q + 1) * m → q % 2 = 0))

/-- RESCALE by K and RD: a × 10^K, or a ÷ 10^−K rounded by RD; a result above 31 digits raises decimal overflow, and one that
rounds to zero is +0 with sign 0xC (06 R133). -/
def Obligations.RescaleRounds : Prop :=
  ∀ (l : Launch) (dict : List Word) (t : Strip) (q : Stn) (ws : List Wire) (i idx : Nat), q.kind = .dcm → q.op = 0x14 →
    q.m2 ≤ 2 →
    let a := t.operand q ws q.a i
    let e := stationElem l dict t q ws i idx
    let pos := t.posOf q ws i
    ∀ x, a.null = false → Sys2Proof.Claims.isDec 31 t.replay (a.lo.toNat + a.hi.toNat * 2 ^ 64) x →
      ∃ r, Sys2Proof.Claims.rescaled (toSigned 6 q.m1) q.m2 x r ∧
        (|r| < 10 ^ 31 → ∃ lo hi : Word, Sys2Proof.Claims.isDecResult 31 (lo.toNat + hi.toNat * 2 ^ 64) r ∧
          Sys2Proof.Claims.makes e pos false lo hi ∧ (r = 0 → lo = 0xC ∧ hi = 0)) ∧
        (10 ^ 31 ≤ |r| → Sys2Proof.Claims.raises e pos (q.mode t.flushOnce) 5 3 0x2000 a.lo)

/-! ## Clocks, power and heat (17 R352 to R369) -/

/-- RELOCK and QUICK_SWITCH: a write of CLK_PLL[k] takes its fields; a change of REF or MULT, or a write while the loop coasts,
is a relock, a change of POSTDIV alone a quick switch, and either stops the domain, a DPLL's controllers entering
self-refresh; a write during a switch is held behind it (17 R355, R356; 13 R277). -/
def Sys2Proof.Claims.ClockWritesSwitch : Prop :=
  ∀ (src : Src) (k : PllId) (s : State), s.reaches src (0x200000 + 4 * k.val) = true →
    let p := s.plls[k]
    let rest := fun (u : State) => u.mem = s.mem ∧ u.cores = s.cores ∧ u.chains = s.chains ∧ u.pwr = s.pwr ∧
      (∀ j, j ≠ k → u.plls[j] = s.plls[j]) ∧
      ∀ n : CtrlId, u.ddr[n] = (if u.plls[k].switching = true ∧ 2 + n.val / 4 = k.val ∧ s.ddr[n].state = 2 then
        { s.ddr[n] with state := 3 } else s.ddr[n])
    (∀ v : Half, p.switching = false →
      let again : Bool := p.coast || decide (v.getLsbD 24 ≠ p.ref) || decide (v.extractLsb' 16 8 ≠ p.mult)
      ∃ u, exec (.relock src k v) s = .next u ∧ rest u ∧
        u.plls[k] = { p with
          loss := p.loss && !v.getLsbD 31, lock := p.lock && !again
          ref := v.getLsbD 24, mult := v.extractLsb' 16 8, postdiv := v.extractLsb' 0 8
          relock := again, switching := again || decide (v.extractLsb' 0 8 ≠ p.postdiv) }) ∧
    (∀ d : Byte, p.switching = false → p.coast = false →
      ∃ u, exec (.quickSwitch src k d) s = .next u ∧ rest u ∧
        u.plls[k] = { p with postdiv := d, relock := false, switching := decide (d ≠ p.postdiv) }) ∧
    (∀ v : Half, p.switching = true →
      exec (.relock src k v) s = .next (s.modPll k fun p => { p with held := p.held ++ [v] }))

/-- The home agent holds nothing, and no ACI command waits for it. -/
def Sys2Proof.Claims.homeQuiet (s : State) : Prop := s.cxl.held = [] ∧ s.cxl.hostHeld = [] ∧ s.aci.cmds = []

/-- A link that was up has gone down, and the event of its port says so (15 R317). -/
def Sys2Proof.Claims.fellDown (u s : State) (l : LinkId) : Prop :=
  u.cxl.links[l].up = false ∧ (s.cxl.links[l].up = true → u.pendingSrc (linkEvent l (if l.val = 3 ∨ l.val = 5 then 1 else 0)) = true)

/-- A port that may train has begun to, and sends training frames (16 R320). -/
def Sys2Proof.Claims.trains (u : State) (p : PortId) : Prop :=
  u.tgl[p].up = false ∧ u.tgl[p].train = none ∧ u.tgl[p].same = 0 ∧ ∃ bytes, Out.tglFrame p bytes ∈ u.out

/-- CLOCK_SWITCH_END: with its source there the domain runs again, a relocked loop locked and no longer coasting, and the
controllers that a DPLL's switch put into self-refresh leave it; without its source the loop coasts.  PLL_LOSS: a loop
whose source stops sets LOSS and COAST, clears LOCK and raises its event, and the loss of CLKIN, which a loop with REF = 1
does not notice, takes every CXL and TGL link down; CLKIN_RETURN relocks nothing, and the ports that may train begin to
(16 R320; 17 R355, R356). -/
def Sys2Proof.Claims.ClockSourcesAndSwitches : Prop :=
  (∀ (k : PllId) (present : Bool) (s : State), s.plls[k].switching = true → s.plls[k].held = [] → Sys2Proof.Claims.homeQuiet s →
    s.chip.late = [] →
    let p := s.plls[k]
    let there := present = true ∧ (p.ref = true ∨ s.chip.clkin = true)
    ∃ u, exec (.clockSwitchEnd k present) s = .next u ∧ u.mem = s.mem ∧ u.cores = s.cores ∧ u.chains = s.chains ∧
      (∀ j, j ≠ k → u.plls[j] = s.plls[j]) ∧
      (there → u.plls[k] = { p with
        switching := false, relock := false, coast := p.coast && !p.relock, lock := p.lock || p.relock }) ∧
      (¬ there → u.plls[k] = { p with switching := false, relock := false, loss := true, coast := true, lock := false } ∧
        (p.loss = false → u.pendingSrc (0x2A0 + k.val) = true)) ∧
      ∀ n : CtrlId, u.ddr[n].state = (if 2 + n.val / 4 = k.val ∧ s.ddr[n].state = 3 then 2 else s.ddr[n].state)) ∧
  (∀ (k : PllId) (clkin : Bool) (s : State), s.plls[k].switching = false → s.clocksOff = false →
    let coasts := { s.plls[k] with loss := true, coast := true, lock := false }
    ∃ u, exec (.pllLoss ⟨k, clkin⟩) s = .next u ∧
      (clkin = false → s.plls[k].ref = true → u.mem = s.mem ∧ u.cores = s.cores ∧ u.chains = s.chains ∧ u.tgl = s.tgl ∧
        u.cxl.links = s.cxl.links ∧ u.chip = s.chip ∧ (∀ j, j ≠ k → u.plls[j] = s.plls[j]) ∧
        u.plls[k] = coasts ∧ (s.plls[k].loss = false → u.pendingSrc (0x2A0 + k.val) = true)) ∧
      (clkin = true ∨ s.plls[k].ref = false → (∀ l : LinkId, s.cxl.links[l].d2h = []) →
        (∀ p : PortId, s.tgl[p].hold = []) → Sys2Proof.Claims.homeQuiet s →
        u.plls[k] = (if s.plls[k].ref then s.plls[k] else coasts) ∧ u.chip.clkin = false ∧
        u.mem = s.mem ∧ u.cores = s.cores ∧ (∀ l : LinkId, Sys2Proof.Claims.fellDown u s l) ∧ ∀ p : PortId, u.tgl[p].up = false)) ∧
  ∀ s : State,
    (s.chip.clkin = true → exec .clkinReturn s = .next s) ∧
    (s.chip.clkin = false → ∃ u, exec .clkinReturn s = .next u ∧ u.mem = s.mem ∧ u.cores = s.cores ∧ u.chains = s.chains ∧
      u.plls = s.plls ∧ u.cxl = s.cxl ∧ u.chip = { s.chip with clkin := true } ∧
      ∀ p : PortId, if u.canTrain p = true ∧ s.tgl[p].up = false then Sys2Proof.Claims.trains u p else u.tgl[p] = s.tgl[p])

/-- CLK_GATE takes its 29 bits; the links of a block that stops go down, up ones too, and a TGL port that restarts trains.  PWR_GATE takes a bit for every core but MC0; a
core gates once it has stopped, its chain is idle and its ports have no request at a junction, and a core whose bit is cleared wakes with the state of R368: the
TLBs as after reset, caches empty, memories and registers 0, WAKES one more (17 R357, R367, R368; 12 R250, R251).
The model's own choice here, no rule of the spec: the chain registers that the table of the wake does not list are
free (log entry 153); a gated block holds accesses (log entry 102). -/
def Obligations.GatingActs : Prop :=
  (∀ (src : Src) (v : Half) (s : State), s.reaches src 0x200100 = true → Sys2Proof.Claims.homeQuiet s →
    (∀ l : LinkId, s.cxl.links[l].d2h = []) → (∀ p : PortId, s.tgl[p].hold = []) →
    ∃ u, exec (.clkGate src v) s = .next u ∧ u.chip.clkGate = (v &&& 0x1FFFFFFF) ∧ u.mem = s.mem ∧ u.cores = s.cores ∧
      u.plls = s.plls ∧
      (∀ l : LinkId, if s.chip.clkGate.getLsbD (24 + portOf l) = true ∧ v.getLsbD (24 + portOf l) = false then
        Sys2Proof.Claims.fellDown u s l else u.cxl.links[l] = s.cxl.links[l]) ∧
      ∀ p : PortId,
        (s.chip.clkGate.getLsbD (16 + p.val) = v.getLsbD (16 + p.val) → u.tgl[p] = s.tgl[p]) ∧
        (s.chip.clkGate.getLsbD (16 + p.val) = true → v.getLsbD (16 + p.val) = false → u.tgl[p].up = false) ∧
        (s.chip.clkGate.getLsbD (16 + p.val) = false → v.getLsbD (16 + p.val) = true →
          if u.canTrain p = true ∧ s.tgl[p].up = false then Sys2Proof.Claims.trains u p else u.tgl[p] = s.tgl[p])) ∧
  (∀ (src : Src) (v : Word) (s : State), s.reaches src 0x210010 = true →
    exec (.pwrGate src v) s = .next { s with pwr := { s.pwr with gate := v &&& 0xEFFFFFFFF } }) ∧
  (∀ (n : CoreId) (s : State), s.pwr.gate.getLsbD n.val = true → s.pwr.gated.getLsbD n.val = false →
    ((s.cores[n].stat = 0 ∧ (∀ c, chainOf n = some c → s.chains[c].idle = true) ∧ s.portsQuiet n = true) →
      exec (.coreGateDone n) s =
        .next { s with pwr := { s.pwr with gated := s.pwr.gated ||| (1 : Word) <<< n.val } }) ∧
    (s.cores[n].stat ≠ 0 ∨ (∃ c, chainOf n = some c ∧ s.chains[c].idle = false) ∨ s.portsQuiet n = false →
      exec (.coreGateDone n) s = .next s)) ∧
  ∀ (n : CoreId) (s : State), s.pwr.gated.getLsbD n.val = true → s.pwr.gate.getLsbD n.val = false →
    ∃ u, exec (.coreWakeDone n) s = .next u ∧ u.pwr.gated.getLsbD n.val = false ∧ u.mem = s.mem ∧
      (∀ m, m ≠ n → u.cores[m] = s.cores[m] ∧ u.pwr.gated.getLsbD m.val = s.pwr.gated.getLsbD m.val) ∧
      u.cores[n] = { Core.reset with wakes := s.cores[n].wakes + 1, sqos := s.cores[n].sqos, seq := s.cores[n].seq } ∧
      ∀ c, chainOf n = some c → (∀ k, k ≠ c → u.chains[k] = s.chains[k]) ∧ u.chains[c].msc = 0 ∧ u.chains[c].ca = Vector.replicate 8 0 ∧
        u.chains[c].cas = 0 ∧ u.chains[c].opa = 0 ∧ u.chains[c].opb = 0 ∧ u.chains[c].numf = 0 ∧ u.chains[c].replays = 0 ∧
        u.chains[c].markCfg = 0 ∧ u.chains[c].gang = 0 ∧ u.chains[c].held = Vector.replicate 6 0 ∧ u.chains[c].run = none

/-- GOVERNOR_PERIOD: the credits lose what P and I are above their limits and gain what they are below, within 0 and their
capacities; an active limit lowers VCORE by 5 mV down to VMIN_MV, where it sets FLOOR, and without one a P below 0.98 ×
PPT_W raises it by 5 mV up to VMAX_MV; a failed frame holds VCORE and sets AVS_ERR (17 R360 to R362). -/
def Sys2Proof.Claims.GovernorActs : Prop :=
  ∀ (p i : Nat) (s : State), s.pwr.on = true →
    let g := s.pwr
    (∃ u, exec (.governorPeriod p i false) s = .next u ∧ u.pwr = { g with avsErr := true } ∧ u.mem = s.mem ∧ u.cores = s.cores ∧
      u.plls = s.plls ∧ (g.avsErr = false → u.pendingSrc 0x2AC = true)) ∧
    ∃ u, exec (.governorPeriod p i true) s = .next u ∧ u.mem = s.mem ∧ u.cores = s.cores ∧ u.plls = s.plls ∧
      u.pwr.cfg = g.cfg ∧ u.pwr.peakW = g.peakW ∧ u.pwr.avsErr = g.avsErr ∧
      (g.ppt ≤ p → u.pwr.burst = min ((g.peak - g.ppt) * 50000) (g.burst - (p - g.ppt))) ∧
      (p ≤ g.ppt → u.pwr.burst = min ((g.peak - g.ppt) * 50000) (g.burst + (g.ppt - p))) ∧
      (800 ≤ i → u.pwr.current = min 6000000 (g.current - (i - 800))) ∧
      (i ≤ 800 → u.pwr.current = min 6000000 (g.current + (800 - i))) ∧
      u.pwr.limPeak = decide (g.peak < p) ∧ u.pwr.limBurst = decide (g.ppt < p ∧ u.pwr.burst = 0) ∧
      u.pwr.limCurrent = decide (920 < i ∨ (800 < i ∧ u.pwr.current = 0)) ∧
      u.pwr.limThermal = decide (s.thm.tlimit < tempOf s.thm.max) ∧
      let active : Bool := u.pwr.limPeak || u.pwr.limBurst || u.pwr.limCurrent || u.pwr.limThermal
      (active = true → g.vmin < g.vcoreMv → u.pwr.vcoreMv = max g.vmin (g.vcoreMv - 5) ∧ u.pwr.floor = false) ∧
      (active = true → g.vcoreMv ≤ g.vmin → u.pwr.vcoreMv = g.vcoreMv ∧ u.pwr.floor = true) ∧
      (active = false → 100 * p < 98 * g.ppt → g.vcoreMv ≤ g.vmax → u.pwr.vcoreMv = min g.vmax (g.vcoreMv + 5)) ∧
      (active = false → 98 * g.ppt ≤ 100 * p → u.pwr.vcoreMv = g.vcoreMv) ∧
      (u.pwr.limBurst = true → g.limBurst = false → u.pendingSrc 0x2A8 = true) ∧
      (u.pwr.limThermal = true → g.limThermal = false → u.pendingSrc 0x2AA = true)

/-- SENSOR_UPDATE: each sensor's reading, with CAL_TOFS added unless the defaults are in force, and THM_MAX the hottest, whose
crossing of ALERT raises its event; one at 155 °C, or 147 °C under CAL_DEFAULTS, trips the device.  THM_WEAR_TICK counts a second above 125 °C, with an event at each 1,000 hours of the
total.  WEAR_STORE adds the count into the stored total, and the total it shows is unchanged (17 R364 to R366; 18 R395). -/
def Sys2Proof.Claims.SensorsAndWearCount : Prop :=
  (∀ (temps : List (BitVec 16)) (s : State), temps.length = 64 → s.clocksOff = false →
    let reading := fun (n : Fin 64) => temps[n.val]?.getD 0 + (if s.chip.calStat then 0 else cellGet s.chip.tofs n.val)
    let limit : Int := if s.chip.calStat then 1176 else 1240
    ((∀ n, tempOf (reading n) < limit) →
      ∃ u, exec (.sensorUpdate temps) s = .next u ∧ u.mem = s.mem ∧ u.cores = s.cores ∧ u.pwr = s.pwr ∧
        u.thm.cfg = s.thm.cfg ∧ u.thm.wear = s.thm.wear ∧ (∀ n : Fin 64, u.thm.t[n] = reading n) ∧
        (∃ n : Fin 64, u.thm.max = u.thm.t[n]) ∧ (∀ n : Fin 64, tempOf u.thm.t[n] ≤ tempOf u.thm.max) ∧
        (tempOf s.thm.max < s.thm.alert → s.thm.alert ≤ tempOf u.thm.max → u.pendingSrc 0x2B0 = true)) ∧
    (∀ n, limit ≤ tempOf (reading n) →
      ∃ u, exec (.sensorUpdate temps) s = .next u ∧ u.chip.phase = .tripped ∧ u.chip.thermtripN = false ∧
        u.chip.wake = s.chip.wake ||| 2 ∧
        ((∀ k ∈ s.aci.cmds, k.phase = .running → k.op ≠ 0x20 ∧ k.op ≠ 0x24 ∧ k.op ≠ 0x26) → u.flash = s.flash))) ∧
  (∀ s : State, 1000 < tempOf s.thm.max →
    ∃ u, exec .thmWearTick s = .next u ∧ u.mem = s.mem ∧ u.cores = s.cores ∧
      u.thm = { s.thm with wear := s.thm.wear + 1 } ∧
      ((s.thm.stored + s.thm.wear + 1).toNat % 3600000 = 0 → u.pendingSrc 0x2B1 = true)) ∧
  (∀ s : State, tempOf s.thm.max ≤ 1000 → exec .thmWearTick s = .next s) ∧
  ∀ s : State, s.chip.phase = .firmware → s.chip.clkGate.getLsbD 26 = true →
    ∃ u c, exec .wearStore s = .next u ∧ u.mem = s.mem ∧ u.cores = s.cores ∧ u.wearTotal = s.wearTotal ∧ u.thm.wear = 0 ∧
      c.seconds = s.wearTotal ∧ (u.flash.wear[0] = wearBytes c ∨ u.flash.wear[1] = wearBytes c)


/-! ## Resets, boot, sideband (18 R371 to R375, R384, R397; 19 R404 to R406, R411) -/

/-- No FW_STAGE, SETTINGS_COMMIT or CAL_WRITE runs, whose write of the flash a reset could cut short (18 R396). -/
def Sys2Proof.Claims.noFlashWrite (s : State) : Prop :=
  ∀ k ∈ s.aci.cmds, k.phase = .running → k.op ≠ 0x20 ∧ k.op ≠ 0x24 ∧ k.op ≠ 0x26

/-- What every device reset does (18 R373): every unit at its reset value, memories empty, and fuses, the pins of the
standby domain, the commands that wait and, with no write of it under way, the flash untouched. -/
def Sys2Proof.Claims.resetFrom (u s : State) : Prop :=
  u.cores = State.reset.cores ∧ u.chains = State.reset.chains ∧ u.pools = State.reset.pools ∧ u.aci = State.reset.aci ∧
  u.evt = State.reset.evt ∧ u.mem = State.reset.mem ∧ u.ddr = State.reset.ddr ∧ u.jnc = State.reset.jnc ∧
  u.cxl = State.reset.cxl ∧ u.xl = State.reset.xl ∧ u.tgl = State.reset.tgl ∧ u.plls = State.reset.plls ∧
  u.pwr = State.reset.pwr ∧ u.thm = State.reset.thm ∧ u.scr = { Scr.reset with rpr := s.scr.rpr } ∧
  (Sys2Proof.Claims.noFlashWrite s → u.flash = s.flash) ∧ u.chip.serial = s.chip.serial ∧ u.chip.keyHash = s.chip.keyHash ∧ u.chip.dbgFuse = s.chip.dbgFuse ∧
  u.pending = s.pending ∧ u.out = s.out

/-- The sources of a device reset, each with its CAUSE, and PWR_WAKE kept but for UV at an undervoltage and TRIP at a thermal
trip, at 155 °C or, under CAL_DEFAULTS, 147 °C, which holds the device with THERMTRIP_N asserted until its rails are removed (17 R365, R369; 18 R371 to R373). -/
def Sys2Proof.Claims.ResetSourcesReset : Prop :=
  ∀ s : State,
    let resets := fun (c : Instr) (phase : Phase) (cause : BitVec 4) (wake : BitVec 3) =>
      ∃ u, exec c s = .next u ∧ Sys2Proof.Claims.resetFrom u s ∧ u.chip.phase = phase ∧ u.chip.cause = cause ∧
        u.chip.wake = wake ∧ u.chip.thermtripN = (if phase = .tripped then false else if cause = 1 then true else s.chip.thermtripN)
    (s.chip.phase = .off → resets .powerOnReset .reset 0 s.chip.wake) ∧
    (s.chip.phase ≠ .off → resets .railsRestored .reset 1 s.chip.wake) ∧
    (s.chip.phase ≠ .off → s.chip.phase ≠ .tripped →
      resets .resetN .reset 2 s.chip.wake ∧ (∀ r, resets (.undervoltage r) .reset 3 (s.chip.wake ||| 4)) ∧
      ∀ n temp, (if s.chip.calStat then (1176 : Int) else 1240) ≤ tempOf temp →
        resets (.thermalTrip ⟨n, temp⟩) .tripped s.chip.cause (s.chip.wake ||| 2)) ∧
    (∀ n temp, tempOf temp < (if s.chip.calStat then (1176 : Int) else 1240) → exec (.thermalTrip ⟨n, temp⟩) s = .next s) ∧
    (s.chip.resetDue = true → resets .firmwareReset .reset 4 s.chip.wake) ∧
    (s.chip.resetDue = false → exec .firmwareReset s = .next s) ∧
    (s.chip.phase = .tripped → exec .resetN s = .next s ∧ ∀ r, exec (.undervoltage r) s = .next s)

/-- WAKE_N sets WAKEREQ and asserts PWRREQ_N; the loss of VSTBY clears PWR_WAKE and releases both pins (17 R369). -/
def Sys2Proof.Claims.StandbyDomain : Prop :=
  ∀ s : State,
    (s.chip.phase ≠ .off →
      exec .wakeN s = .next { s with chip := { s.chip with wake := s.chip.wake ||| 1, pwrreqN := false } }) ∧
    ∃ u, exec .vstbyLost s = .next u ∧ Sys2Proof.Claims.resetFrom u s ∧ u.chip.phase = .off ∧ u.chip.wake = 0 ∧
      u.chip.thermtripN = true ∧ u.chip.pwrreqN = true

/-- What the reset state holds where the spec gives a reset value: data TLB lock slot 0 (12 R251), the loops (17 R353), CORE_CFG
(09 R195), RUN of MC0 alone (18 R373), and the registers of the tables of 13, 14, 16 and 17. -/
def Obligations.ResetStateHoldsSpecValues : Prop :=
  let s := State.reset
  (∀ n : CoreId, s.cores[n].dlock[0] = some { tag := 0x00000FF000000300, data := 0x00000FF00000021B } ∧
    s.cores[n].dlock[1] = none ∧ s.cores[n].dlock[2] = none ∧ s.cores[n].dlock[3] = none ∧
    (∀ i : Fin 4, s.cores[n].ilock[i] = none) ∧ s.cores[n].ifill.toList.all (·.isNone) = true ∧
    s.cores[n].dfill.toList.all (·.isNone) = true ∧ s.cores[n].l2 = [] ∧ s.cores[n].victim = 0 ∧ s.cores[n].cfg = 0x1F ∧
    s.cores[n].ctl = (if n.val = 32 then 1 else 0) ∧ s.cores[n].entry = 0 ∧ s.cores[n].imem = [] ∧ s.cores[n].dmem = [] ∧
    ∀ t : ThreadId, (s.thread n t).status = 0 ∧ (s.thread n t).d = Vector.replicate 32 0 ∧
      (s.thread n t).a = Vector.replicate 16 0) ∧
  s.plls.map (fun p => (p.mult, p.postdiv, p.lock)) =
    #v[(64, 4, true), (32, 8, true), (48, 6, true), (48, 6, true), (48, 6, true), (48, 6, true)] ∧
  (∀ k : ClusterId, s.pools[k].free = 2048) ∧ s.jnc.cfg = 0x4003 ∧ s.scr.scrub = 0x000E1001 ∧
  (∀ n : CtrlId, s.ddr[n].scrub = 0x1801) ∧ s.thm.cfg = 0x008C0096 ∧ s.xl.hbCfg = 0x0A08080A ∧
  s.xl.timeout = 0x646403E8 ∧ s.pwr.peakW = 900 ∧ s.pwr.ppt = 700 ∧ s.chip.clkGate = 0x1FFFFFFF ∧ s.mem.cells = [] ∧
  s.pending = []

/-- RESET_END: the straps and DBG_LOCK are read, MC0 starts at level F, its code starts threads 1 to 3 in barrel mode in the ROM, and the ROM chooses the active slot if its
image is good, the other one if that is good, and recovery if neither is; the ports that may train begin to (16 R320; 18
R373, R374, R381, R384; 19 R404). -/
def Sys2Proof.Claims.ResetEndStartsTheRom : Prop :=
  ∀ (bif0 bif1 a0 a1 : Bool) (s : State), s.chip.phase = .reset →
    let good := fun (slot : Bool) => (s.flash.bootChoice.2 &&& slotBit slot ≠ 0) ∧
      imageValid s.chip.keyHash (s.flash.slotOf slot) = true
    let first := s.flash.bootChoice.1
    ∃ u, exec (.resetEnd bif0 bif1 a0 a1 true) s = .next u ∧ u.flash = s.flash ∧ u.chains = s.chains ∧ u.plls = s.plls ∧
      u.chip.straps = BitVec.ofNat 4 (b2n bif0 + 2 * b2n bif1 + 4 * b2n a0 + 8 * b2n a1) ∧ u.cxl.bifd = #v[bif0, bif1] ∧
      u.chip.dbgLock = s.chip.dbgFuse ∧ u.cores[(32 : CoreId)].barrel = true ∧
      (s.cores[(32 : CoreId)].barrel = false → ∀ t : ThreadId, (u.thread 32 t).live = true ∧
        (u.thread 32 t).pc.toNat < 0x8000 ∧ (u.thread 32 t).status.getLsbD 1 = false) ∧
      u.cores[(32 : CoreId)].stat = 1 ∧ (∀ n : CoreId, n.val < 32 → u.cores[n] = s.cores[n]) ∧
      (∀ p : PortId, if u.canTrain p = true ∧ s.tgl[p].up = false then Sys2Proof.Claims.trains u p else u.tgl[p] = s.tgl[p]) ∧
      (good first → u.chip.phase = .rom ∧ u.chip.slot = first ∧ u.chip.result = 0 ∧ u.mem = s.mem) ∧
      (¬ good first → good (!first) → u.chip.phase = .rom ∧ u.chip.slot = (!first) ∧ u.chip.result = 1 ∧ u.mem = s.mem) ∧
      (¬ good first → ¬ good (!first) → u.chip.phase = .recovery ∧ u.chip.result = 2 ∧
        u.mem.cells = writeCells s.mem.cells (0xFFFC0000000 + 0x17FFFF00) (bytesOf 8 0x10))

/-- HANDOVER by MC0 ends the ROM: firmware starts at CORE_ENTRY at level F with the overlay gone and the governor started; from
any other source, or later, it is ignored.  RECOVERY_GO, in scratch without poison, answers a go with 2 for an image it has programmed into slot A,
3 for an invalid one and 4 for a flash error.  DBG_LOCK_PROGRAM burns the fuse with the right key alone (18 R374, R375,
R384, R397). -/
def Sys2Proof.Claims.BootHandover : Prop :=
  (∀ s : State, s.reaches (.core 32) 0x310000 = true → s.chip.phase = .rom → (∀ p : PortId, s.tgl[p].hold = []) →
    ∃ u, exec (.handover (.core 32)) s = .next u ∧ u.cores[(32 : CoreId)].barrel = false ∧ u.chip.phase = .firmware ∧ u.chip.romOverlay = false ∧ u.pwr.on = true ∧
      (u.thread 32 0).pc = s.cores[(32 : CoreId)].entry ∧ (u.thread 32 0).live = true ∧
      (u.thread 32 0).status.getLsbD 1 = false) ∧
  (∀ (src : Src) (s : State), s.reaches src 0x310000 = true → src ≠ .core 32 ∨ s.chip.phase ≠ .rom →
    exec (.handover src) s = .next s) ∧
  (∀ (ok : Bool) (s : State), s.chip.phase = .recovery → s.chip.resetDue = false → s.flashOn = true →
    s.mem.badScratch = [] → natOf (s.memRead mailbox 8) = 1 →
    let n := natOf (s.memRead (mailbox + 8) 8)
    let im := s.memRead scratchBase n
    let valid := 4096 + imageLength im ≤ n ∧ n ≤ 0x200000 ∧ imageValid s.chip.keyHash im = true
    ∃ u, exec (.recoveryGo ok) s = .next u ∧ u.cores = s.cores ∧ u.chains = s.chains ∧
      (valid → ok = true → u.mem.cells = writeCells s.mem.cells mailbox (bytesOf 8 2) ∧ u.chip.resetDue = true ∧ u.flash.slotOf false = im) ∧
      (valid → ok = false → u.mem.cells = writeCells s.mem.cells mailbox (bytesOf 8 4) ∧ u.chip.resetDue = false) ∧
      (¬ valid → u.mem.cells = writeCells s.mem.cells mailbox (bytesOf 8 3) ∧ u.flash = s.flash ∧ u.chip.resetDue = false)) ∧
  ∀ (src : Src) (key : Half) (s : State), s.reaches src 0x310008 = true →
    exec (.dbgLockProgram src key) s =
      .next (if key = 0x0DB610C4 then { s with chip := { s.chip with dbgFuse := true } } else s)

/-- An SMBus block read that the device serves: its byte count, its data and a PEC behind it (19 R405). -/
def Sys2Proof.Claims.reads (c : Instr) (s : State) (data : List Byte) : Prop :=
  ∃ pec, exec c s = .next (s.emit (.smbus (BitVec.ofNat 8 data.length :: data ++ [pec])))

/-- The SMBus codes: ID and TEMP whenever no reset is in progress and the block's clock runs, the others while firmware serves
them, and a NACK otherwise; PREPARE_OFF with 0xA5 stores the wear total, once the flash has a clock, and ends the fetching of
commands, and a write with another address, code or a wrong PEC is not acknowledged and does nothing (19 R405; 18 R395). -/
def Sys2Proof.Claims.SmbusAnswers : Prop :=
  ∀ s : State,
    (s.smbOn = true →
      Sys2Proof.Claims.reads .id s (bytesOf 4 idDevice ++ bytesOf 4 idPkg ++ bytesOf 8 s.chip.serial.toNat) ∧
      Sys2Proof.Claims.reads .temp s (bytesOf 2 s.thm.max.toNat)) ∧
    (s.smbOn = true → s.chip.phase = .firmware →
      Sys2Proof.Claims.reads .power s (bytesOf 8 s.pwrStat.toNat) ∧
      Sys2Proof.Claims.reads .state s
        (bytesOf 4 s.aci.status.toNat ++ bytesOf 4 s.chip.setBoot.toNat ++ bytesOf 1 s.chip.byte49) ∧
      Sys2Proof.Claims.reads .wear s (bytesOf 8 s.wearTotal.toNat) ∧
      Sys2Proof.Claims.reads .offReady s [if s.chip.offReady then 1 else 0] ∧
      ∀ w : SmbWrite,
        (w.addr.toNat = s.chip.smbAddr → w.code = 0x10 → w.pec = none ∨ w.pec = some (pecOf w) →
          (w.data = 0xA5 → ∃ u, exec (.prepareOff w) s = .next u ∧ u.chip.preparing = true ∧ u.mem = s.mem ∧ u.cores = s.cores ∧
            u.wearTotal = s.wearTotal ∧ (s.flashOn = true → u.chip.offReady = true ∧ u.thm.wear = 0) ∧
            (s.flashOn = false → u.chip.offReady = false ∧ u.thm = s.thm ∧ u.flash = s.flash)) ∧
          (w.data ≠ 0xA5 → exec (.prepareOff w) s = .next s)) ∧
        (w.addr.toNat ≠ s.chip.smbAddr ∨ w.code ≠ 0x10 ∨ (∃ p, w.pec = some p ∧ p ≠ pecOf w) →
          exec (.prepareOff w) s = .next (s.emit .smbusNack))) ∧
    (s.chip.clkGate.getLsbD 28 = false → ∀ w, ∀ c ∈ [Instr.id, .temp, .power, .state, .wear, .offReady, .prepareOff w],
      exec c s = .next (s.emit .smbusNack)) ∧
    (s.chip.phase ≠ .firmware → ∀ w, ∀ c ∈ [Instr.power, .state, .wear, .offReady, .prepareOff w],
      exec c s = .next (s.emit .smbusNack))

/-- JTAG_INSTRUCTION: SAMPLE/PRELOAD captures the signals into the boundary-scan register and loads it, EXTEST drives them from it
besides, BYPASS is taken, IDCODE shifts out 0x2D70_72E7, and under DBG_LOCK the debug
access path acts as BYPASS; without the lock what it does is not in the spec, and the model stops by name (18 R397, 19
R406). -/
def Sys2Proof.Claims.JtagInstructions : Prop :=
  ∀ s : State, s.chip.phase ≠ .off →
    let scanned := fun (pins cells : BitVec 26) =>
      (∀ i < 26, scanIns.getLsbD i = true → cells.getLsbD i = pins.getLsbD i) ∧ cells.getLsbD 8 = s.chip.pwrreqN ∧
        cells.getLsbD 9 = s.chip.thermtripN ∧ (cells.getLsbD 12 = false ↔ s.thm.alert ≤ tempOf s.thm.max ∨ s.pwr.avsErr = true)
    (exec (.jtagInstruction .bypass) s = .next { s with chip := { s.chip with jtag := .bypass } }) ∧
    (∀ pins load, ∃ cells, scanned pins cells ∧ exec (.jtagInstruction (.samplePreload pins load)) s = .next { s with
      chip := { s.chip with jtag := .samplePreload pins load, bsr := load }
      out := s.out ++ [.jtagScan cells], free := s.free + 1 }) ∧
    (∀ pins load, ∃ cells, scanned pins cells ∧ exec (.jtagInstruction (.extest pins load)) s = .next { s with
      chip := { s.chip with jtag := .extest pins load, bsr := load }
      out := s.out ++ [.pinsDriven s.chip.bsr, .jtagScan cells], free := s.free + 1 }) ∧
    (exec (.jtagInstruction .idcode) s =
      .next (State.emit { s with chip := { s.chip with jtag := .idcode } } (.jtagCode 0x2D7072E7))) ∧
    (s.chip.dbgLock = true → ∀ k, exec (.jtagInstruction (.debug k)) s =
      .next { s with chip := { s.chip with jtag := .bypass } }) ∧
    (s.chip.dbgLock = false → ∀ k, exec (.jtagInstruction (.debug k)) s = .refused .debugUnit)


/-! ## Scratch, DDR and the home agent (13 R260 to R277; 15 R306 to R309) -/

/-- DDR_BRINGUP: firmware records each controller's slots and refuses a module it cannot read with REASON 3, a population that
breaks the rules with 1 and an unsupported module with 2; any other population trains, with its capacity and speed found
and the DPLLs set to that speed (02 R18, R21; 13 R268 to R271; 17 R353).  DDR_TRAINING_DONE: every controller active, or REASON 4 naming those that failed.
DDR_ZEROING_DONE: with every controller's clock running, DDR holds zeros without poison, and D is its capacity (13 R271; 17 R357). -/
def Sys2Proof.Claims.DdrBringUp : Prop :=
  (∀ (slots : List (Slot × Slot)) (s : State), s.chip.phase = .firmware → s.ddrInit = 0 →
    let unread := (allSlots slots).any (fun p => p.1 == .unreadable || p.2 == .unreadable) = true
    let broken := populationBroken slots = true
    let unsup := unsupportedModule slots = true
    let paired := pairedMrdimm slots = true
    ∃ u, exec (.ddrBringup slots) s = .next u ∧ u.mem.cells = s.mem.cells ∧ u.mem.d = s.mem.d ∧ u.cores = s.cores ∧
      (∀ n : CtrlId, u.ddr[n].slots = slotBits ((allSlots slots).getD n.val (.empty, .empty))) ∧
      (unread → u.mem.init = initWord 4 3 0 0) ∧
      (¬ unread → broken → ¬ unsup → u.mem.init = initWord 4 1 0 0) ∧
      (¬ unread → ¬ broken → unsup → u.mem.init = initWord 4 2 0 0) ∧
      (¬ unread → broken → unsup → u.mem.init = initWord 4 1 0 0 ∨ u.mem.init = initWord 4 2 0 0) ∧
      (¬ unread → ¬ broken → ¬ unsup → ¬ paired →
        u.mem.init = initWord 2 0 0 (speedOf (dimmsOf slots)) ∧ u.mem.dNext = capacityOf (dimmsOf slots) ∧
        (∀ n : CtrlId, u.ddr[n].state = 1) ∧
        ∀ k : PllId, 2 ≤ k.val → s.plls[k].switching = false →
          u.plls[k].mult = BitVec.ofNat 8 (dpllMult (speedOf (dimmsOf slots))) ∧ u.plls[k].postdiv = 6)) ∧
  (∀ (failed : BitVec 16) (s : State), s.ddrInit = 2 → (∀ n : CtrlId, s.ddr[n].state = 1) →
    (∀ n : CtrlId, s.ctrlStopped n = false) →
    ∃ u, exec (.ddrTrainingDone failed) s = .next u ∧ u.mem.cells = s.mem.cells ∧ u.cores = s.cores ∧
      (failed = 0 → u.mem = s.mem ∧ ∀ n : CtrlId, u.ddr[n].state = 2) ∧
      (failed ≠ 0 → u.mem.init = initWord 5 4 failed.toNat (bits s.mem.init.toNat 27 24) ∧
        ∀ n : CtrlId, failed.getLsbD n.val = true → u.ddr[n].state = 4 ∧ u.pendingSrc (0x104 + 16 * n.val) = true)) ∧
  ∀ s : State, s.ddrInit = 2 → (∀ n : CtrlId, s.ddr[n].state = 2) →
    ((∃ n : CtrlId, s.ctrlStopped n = true) → exec .ddrZeroingDone s = .next s) ∧
    ((∀ n : CtrlId, s.ctrlStopped n = false) → ∃ u, exec .ddrZeroingDone s = .next u ∧ u.mem.d = s.mem.dNext ∧ u.mem.badDdr = [] ∧ u.mem.softDdr = [] ∧
      u.mem.badScratch = s.mem.badScratch ∧ u.cores = s.cores ∧ u.ddr = s.ddr ∧ bits u.mem.init.toNat 2 0 = 3 ∧
      (∀ a, a < s.mem.dNext → cellGet u.mem.cells a = 0) ∧
      ∀ a, s.mem.dNext ≤ a → cellGet u.mem.cells a = cellGet s.mem.cells a)

/-- DDR_SR_ENTRY, DDR_SR_EXIT and REFRESH_RATE_POLL: an idle controller enters self-refresh after its IDLE_US, a request brings
it back, and a change of the ranks' refresh-rate indication changes REFX2 and raises the controller's event; a controller whose clock
is stopped does none of them (13 R275, R277; 17 R356, R357). -/
def Sys2Proof.Claims.DdrSelfRefresh : Prop :=
  ∀ (n : CtrlId) (s : State),
    let d := s.ddr[n]
    (s.ctrlStopped n = true → exec (.ddrSrEntry n) s = .next s ∧
      ∀ x y : Bool, exec (.ddrSrExit n x y) s = .next s ∧ exec (.refreshRatePoll n x y) s = .next s) ∧
    (s.ddrInit = 3 → d.state = 2 → s.ctrlStopped n = false → d.srCfg.extractLsb' 0 16 ≠ 0 →
      exec (.ddrSrEntry n) s = .next (s.modDdr n fun d => { d with state := 3 })) ∧
    (d.srCfg.extractLsb' 0 16 = 0 ∨ d.state ≠ 2 → exec (.ddrSrEntry n) s = .next s) ∧
    ∀ x y : Bool,
      (d.state = 3 → s.ctrlStopped n = false → ∃ u, exec (.ddrSrExit n x y) s = .next u ∧ u.mem = s.mem ∧ u.cores = s.cores ∧
        u.ddr[n] = { d with state := 2, refx2 := x || y } ∧ (∀ m, m ≠ n → u.ddr[m] = s.ddr[m]) ∧
        (d.refx2 ≠ (x || y) → u.pendingSrc (0x103 + 16 * n.val) = true)) ∧
      (d.state = 2 → s.ctrlStopped n = false → ∃ u, exec (.refreshRatePoll n x y) s = .next u ∧ u.mem = s.mem ∧ u.cores = s.cores ∧
        u.ddr[n] = { d with refx2 := x || y } ∧ (∀ m, m ≠ n → u.ddr[m] = s.ddr[m]) ∧
        (d.refx2 ≠ (x || y) → u.pendingSrc (0x103 + 16 * n.val) = true))

/-- DDR_SCRUB of an active controller that runs: a corrected line counts in CE and owes its write-back, an uncorrectable one is poisoned, counts in UE
and raises the scrub event; an offset at or above D names no line and stops (02 R18; 13 R273, R274). -/
def Sys2Proof.Claims.DdrPatrolScrub : Prop :=
  ∀ (n : CtrlId) (off : Nat) (found : EccFind) (device : BitVec 4) (s : State),
    (s.mem.d ≤ off → exec (.ddrScrub n off found device) s = .fault .noSuchDdr) ∧
    (off < s.mem.d → off < scratchBase → (ddrSplit off).1 = n → s.ddr[n].state = 2 → s.ctrlStopped n = false →
      s.ddr[n].scrub.getLsbD 0 = true →
      ∃ u, exec (.ddrScrub n off found device) s = .next u ∧ u.mem.cells = s.mem.cells ∧ u.cores = s.cores ∧
        (∀ m, m ≠ n → u.ddr[m] = s.ddr[m]) ∧
        (s.poisoned (off / 64 * 64) 64 = false → found = .clean → off / 64 ∉ s.mem.softDdr → u = s) ∧
        (s.poisoned (off / 64 * 64) 64 = false → found = .corrected ∨ (found = .clean ∧ off / 64 ∈ s.mem.softDdr) →
          off / 64 ∈ u.mem.ddrBack ∧ u.mem.badDdr = s.mem.badDdr ∧
          u.ddr[n] = { s.ddr[n] with ecc := eccCe s.ddr[n].ecc } ∧
          (s.ddr[n].ecc.extractLsb' 0 32 = 0 → u.pendingSrc (0x100 + 16 * n.val) = true)) ∧
        (found = .uncorrectable → u.poisoned (off / 64 * 64) 64 = true ∧ u.pendingSrc (0x102 + 16 * n.val) = true ∧
          u.ddr[n].ecc = eccUe s.ddr[n].ecc))

/-- The bank's answer to a request, and SCRATCH_SCRUB and SCRATCH_WRITE_BACK: a read answers the bytes, a write stores them,
the atomics store the sum or the new word and answer the old one, each counted for its master; poisoned words are
answered poisoned and no atomic stores to them; a word with a single-bit error is corrected and owes its write-back; a gated unit's port carries no request, and with no clock nothing happens; an offset that no bank holds stops
(02 R22; 13 R259 to R267; 17 R365, R367). -/
def Sys2Proof.Claims.ScratchBanksAnswer : Prop :=
  (∀ (m : Fin 71) (wait off : Nat) (op : BankOp) (s : State),
    let cells := s.mem.cells
    let old := s.memRead off (bankSpan op)
    let counted := fun (u : State) =>
      u.scr.req = cellSet s.scr.req m.val (satAdd (cellGet s.scr.req m.val) 1) ∧
      u.scr.conf = cellSet s.scr.conf m.val (satAdd (cellGet s.scr.conf m.val) wait) ∧ u.cores = s.cores ∧ u.chains = s.chains
    (inScratch off (bankSpan op) = false → ∀ f, exec (.scratchRequest m wait off op f) s = .fault .noSuchScratch) ∧
    (inScratch off (bankSpan op) = true → s.clocksOff = true ∨ s.masterGated m = true →
      ∀ f, exec (.scratchRequest m wait off op f) s = .next s) ∧
    let answers := fun (u : State) (r : Out) => ∃ o, u.out = o ++ [r] ∧
      ((bankReads off op).any (· ∈ s.scr.soft) = false → o = s.out)
    (inScratch off (bankSpan op) = true → s.clocksOff = false → s.masterGated m = false → (bankReads off op).any (· ∈ s.mem.badScratch) = false →
      ∃ u, exec (.scratchRequest m wait off op .clean) s = .next u ∧ counted u ∧
        match op with
        | .read _ => u.mem = s.mem ∧ answers u (.bankRsp m.val old false) ∧
            ∀ w ∈ bankReads off op, w ∈ s.scr.soft → w ∈ u.scr.writeBack
        | .write bs => u.mem.cells = writeCells cells off bs ∧
            ((bankReads off op).any (· ∈ s.scr.soft) = false → u.out = s.out)
        | .addI64 v => u.mem.cells = writeCells cells off (bytesOf 8 (wordOf old + v).toNat) ∧
            answers u (.bankRsp m.val old false)
        | .addF64 v => u.mem.cells = writeCells cells off (bytesOf 8 (bankAddF64 (wordOf old) v).toNat) ∧
            answers u (.bankRsp m.val old false)
        | .swap v => u.mem.cells = writeCells cells off (bytesOf 8 v.toNat) ∧
            answers u (.bankRsp m.val old false)) ∧
    (inScratch off (bankSpan op) = true → s.clocksOff = false → s.masterGated m = false → (bankReads off op).any (· ∈ s.mem.badScratch) = true → (∀ bs, op ≠ .write bs) →
      ∃ u, exec (.scratchRequest m wait off op .clean) s = .next u ∧ u.mem = s.mem ∧ u.pendingSrc 0x2E1 = true ∧
        u.cores = s.cores ∧ ∃ o, u.out = o ++ [.bankRsp m.val old true])) ∧
  (∀ (off : Nat) (found : EccFind) (s : State),
    (inScratch (off / 8 * 8) 8 = false → exec (.scratchScrub off found) s = .fault .noSuchScratch ∧
      exec (.scratchWriteBack off) s = .fault .noSuchScratch) ∧
    (inScratch (off / 8 * 8) 8 = true → s.clocksOff = false → s.scr.scrub.getLsbD 0 = true →
      ∃ u, exec (.scratchScrub off found) s = .next u ∧ u.mem.cells = s.mem.cells ∧ u.cores = s.cores ∧
        (s.poisoned (off / 8 * 8) 8 = false → found = .clean → off / 8 ∉ s.scr.soft → u = s) ∧
        (s.poisoned (off / 8 * 8) 8 = false → found = .corrected ∨ (found = .clean ∧ off / 8 ∈ s.scr.soft) → u.mem = s.mem ∧ u.scr.ecc = eccCe s.scr.ecc ∧
          off / 8 ∈ u.scr.writeBack) ∧
        (found = .uncorrectable → u.poisoned (off / 8 * 8) 8 = true ∧ u.scr.ecc = eccUe s.scr.ecc ∧
          u.pendingSrc 0x2E1 = true)) ∧
    (inScratch (off / 8 * 8) 8 = true → ∃ u, exec (.scratchWriteBack off) s = .next u ∧ u.mem = s.mem ∧ u.cores = s.cores ∧
      (off / 8 ∈ s.scr.writeBack → off / 8 ∉ u.scr.soft) ∧
      ∀ w, w ∈ u.scr.writeBack ↔ (w ∈ s.scr.writeBack ∧ w ≠ off / 8)))

/-- HOME_AGENT_ACCESS: a device access to a DDR line that no host cache holds is served at once; a line in S passes reads
alone; any other line is snooped, with data for a read, and the access is held, as is one behind a held access; an offset at or above D stops (02 R18; 15
R306, R308).
The model's own choice here, no rule of the spec: a finding that memory does not hold is the command's operand (log
entry 80), and an offset that no line has stops by name (log entry 44). -/
def Obligations.HomeAgentServesOrSnoops : Prop :=
  ∀ (tag off : Nat) (op : LineOp) (device : BitVec 4) (s : State),
    let line := off / 64
    (s.mem.d ≤ off → ∀ f, exec (.homeAgentAccess tag off op f device) s = .fault .noSuchDdr) ∧
    (off < s.mem.d → s.heldOn line = true →
      exec (.homeAgentAccess tag off op .clean device) s =
        .next (s.hold { line := line, who := .tag tag, op := op, snooped := false })) ∧
    (off < s.mem.d → s.mem.d ≤ scratchBase → s.ctrlStopped (ddrSplit (line * 64)).1 = false → s.heldOn line = false →
      s.plls[dpllOf (ddrSplit (line * 64)).1].coast = false → s.ddr[(ddrSplit (line * 64)).1].state = 2 →
      s.poisoned (line * 64) 64 = false → line ∉ s.mem.softDdr →
      (s.sfOf line = none ∨ s.sfOf line = some .pr ∨ (s.sfOf line = some .s ∧ op = .read) →
        (op = .read → ∃ u, exec (.homeAgentAccess tag off op .clean device) s = .next u ∧ u.mem = s.mem ∧
          u.out = s.out ++ [.lineRsp tag (s.memRead (line * 64) 64) false] ∧ u.cxl = s.cxl ∧ u.cores = s.cores) ∧
        (∀ a bs, op = .write a bs → a + bs.length ≤ 64 →
          ∃ u, exec (.homeAgentAccess tag off op .clean device) s = .next u ∧
            u.mem.cells = writeCells s.mem.cells (line * 64 + a) bs ∧
            u.out = s.out ++ [.lineRsp tag [] false] ∧ u.cxl = s.cxl ∧ u.cores = s.cores) ∧
        (∀ ps, op = .parts ps →
          ∃ u, exec (.homeAgentAccess tag off op .clean device) s = .next u ∧
            u.mem.cells = ps.foldl (fun m p => writeCells m (line * 64 + p.1) p.2) s.mem.cells ∧
            u.out = s.out ++ [.lineRsp tag [] false] ∧ u.cxl = s.cxl ∧ u.cores = s.cores)) ∧
      (s.sfOf line = some .a ∨ (s.sfOf line = some .s ∧ op ≠ .read) → s.snoops < 1024 →
        ∃ u, exec (.homeAgentAccess tag off op .clean device) s = .next u ∧ u.mem = s.mem ∧ u.cores = s.cores ∧
          u.sfOf line = some .pi ∧
          u.cxl.held = s.cxl.held ++ [{ line := line, who := .tag tag, op := op, snooped := true }] ∧
          u.cxl.biCnt = satAdd s.cxl.biCnt 1 ∧
          u.out = s.out ++ [if op = .read then .biSnpData line else .biSnpInv line]) ∧
      (s.sfOf line = some .pi →
        exec (.homeAgentAccess tag off op .clean device) s =
          .next (s.hold { line := line, who := .tag tag, op := op, snooped := false })))

/-! ## The host link (15 R300 to R317; 03 R59) -/

/-- Nothing but the home agent's filter, its held requests, DDR and the outputs has changed. -/
def Sys2Proof.Claims.onlyHome (u s : State) : Prop :=
  u.cores = s.cores ∧ u.chains = s.chains ∧ u.aci = s.aci ∧ u.xl = s.xl ∧ u.tgl = s.tgl ∧ u.plls = s.plls ∧
  u.cxl.links = s.cxl.links ∧ u.cxl.decoder = s.cxl.decoder

/-- The entry a request's MetaValue asks for: none for I, S for S, A for A (15 R307). -/
def Sys2Proof.Claims.asked : Meta → Option SfState
  | .i => none
  | .s => some .s
  | .a => some .a

/-- A host request to the DDR line `l` acts at once: the HDM link's function is not in D3hot, the decoder maps its address there, no snoop is out for the line, nothing that
arrived earlier waits for it, its set has room for the state it asks for, and its controller runs; the line is good. -/
def Sys2Proof.Claims.hostReady (s : State) (hpa : Word) (mv : Meta) (l : Nat) : Prop :=
  s.hdm.isSome = true ∧ (∀ k, s.hdm = some k → s.cxl.links[k].cfg.d3hot = false) ∧ s.lineOf hpa = some l ∧ (s.cxl.hostHeld.any (·.line = l)) = false ∧ s.heldOn l = false ∧
  s.sfOf l ≠ some .pi ∧ s.sfOf l ≠ some .pr ∧ (s.sfOf l ≠ none ∨ mv = .i ∨ (s.sfWays l).length < 16) ∧
  l * 64 + 64 ≤ scratchBase ∧ s.ctrlStopped (ddrSplit (l * 64)).1 = false ∧
  s.plls[dpllOf (ddrSplit (l * 64)).1].coast = false ∧ s.ddr[(ddrSplit (l * 64)).1].state = 2 ∧
  l ∉ s.mem.badDdr ∧ l ∉ s.mem.softDdr

/-- MEM_RD, MEM_RD_DATA, MEM_INV, MEM_INV_NT, MEM_CLN_EVCT, MEM_WR, MEM_WR_PTL and MEM_SPEC_RD complete: for a line that no
snoop is out for, that no earlier access waits for, and whose set has room, each takes its effect at once, sets the line's
state by its MetaValue and is answered, a read with the line; a partial write merges by its byte enables; poisoned data
poison the line (15 R305, R307, R315).  MEM_SPEC_RD changes nothing. -/
def Sys2Proof.Claims.HostRequestsServed : Prop :=
  ∀ (hpa : Word) (mv : Meta) (l : Nat) (s : State), Sys2Proof.Claims.hostReady s hpa mv l →
    let state := fun (u : State) (m : Meta) => u.sfOf l = Sys2Proof.Claims.asked m ∧ (∀ k, k ≠ l → u.sfOf k = s.sfOf k) ∧
      Sys2Proof.Claims.onlyHome u s
    let line := s.memRead (l * 64) 64
    let data' := fun (u : State) => ∃ load : BitVec 2, u.out = s.out ++ [.s2mData hpa line false load]
    let done' := fun (u : State) => ∃ load : BitVec 2, u.out = s.out ++ [.s2mDone hpa load]
    (∃ u, exec (.memRd hpa mv) s = .next u ∧ u.mem = s.mem ∧ state u mv ∧ data' u) ∧
    (∃ u, exec (.memRdData hpa mv) s = .next u ∧ u.mem = s.mem ∧ state u mv ∧ data' u) ∧
    (∃ u, exec (.memInv hpa mv) s = .next u ∧ u.mem = s.mem ∧ state u mv ∧ done' u) ∧
    (∃ u, exec (.memInvNt hpa mv) s = .next u ∧ u.mem = s.mem ∧ state u mv ∧ done' u) ∧
    (∃ u, exec (.memClnEvct hpa) s = .next u ∧ u.mem = s.mem ∧ state u .i ∧ done' u) ∧
    (∀ (data : List Byte) (poison : Bool), data.length = 64 →
      ∃ u, exec (.memWr hpa mv data poison) s = .next u ∧ u.mem.cells = writeCells s.mem.cells (l * 64) data ∧
        u.sfOf l = Sys2Proof.Claims.asked mv ∧ (∀ k, k ≠ l → u.sfOf k = s.sfOf k) ∧ u.cores = s.cores ∧
        (l ∈ u.mem.badDdr ↔ poison = true) ∧ (poison = false → state u mv ∧ done' u)) ∧
    (∀ (be : BitVec 64) (data : List Byte), data.length = 64 → be ≠ BitVec.allOnes 64 →
      ∃ u, exec (.memWrPtl hpa mv be data) s = .next u ∧
        u.mem.cells = writeCells s.mem.cells (l * 64) (mergeBytes be.toNat 0 line data) ∧
        u.mem.badDdr = s.mem.badDdr ∧ state u mv ∧ done' u) ∧
    exec (.memSpecRd hpa) s = .next s

/-- Requests that do not act at once: one outside the committed range raises the port's event and is answered, a read with
poison (MEM_SPEC_RD has no answer); with no HDM link, or its function in D3hot, none does anything; a read of a line whose snoop is out is held; a
write that finds its line in PI crosses the snoop, acts at once and is counted; a request that needs an entry in a full
set evicts the least recently used S or A entry and waits (15 R299, R305, R307, R309, R310). -/
def Sys2Proof.Claims.HostRequestsWaitOrCross : Prop :=
  (∀ (hpa : Word) (mv : Meta) (k : LinkId) (s : State), s.hdm = some k → s.lineOf hpa = none →
    let event := 0x285 + 16 * portOf k
    (s.cxl.links[k].cfg.d3hot = false →
      ∃ u load, exec (.memRd hpa mv) s = .next u ∧ u.mem = s.mem ∧ u.pendingSrc event = true ∧ u.cxl.sf = s.cxl.sf ∧
      ∃ o, u.out = o ++ [.s2mData hpa [] true load]) ∧
    (s.cxl.links[k].cfg.d3hot = false → ∀ data, ∃ u load, exec (.memWr hpa mv data false) s = .next u ∧ u.mem = s.mem ∧ u.pendingSrc event = true ∧
      ∃ o, u.out = o ++ [.s2mDone hpa load]) ∧
    ∃ u, exec (.memSpecRd hpa) s = .next u ∧ u.mem = s.mem ∧ u.pendingSrc event = true ∧ u.cores = s.cores) ∧
  (∀ (hpa : Word) (mv : Meta) (data : List Byte) (be : BitVec 64) (s : State),
    (∀ k, s.hdm = some k → s.cxl.links[k].cfg.d3hot = true) →
    exec (.memRd hpa mv) s = .next s ∧ exec (.memRdData hpa mv) s = .next s ∧ exec (.memInv hpa mv) s = .next s ∧
    exec (.memInvNt hpa mv) s = .next s ∧ exec (.memClnEvct hpa) s = .next s ∧
    (∀ b, exec (.memWr hpa mv data b) s = .next s) ∧ exec (.memWrPtl hpa mv be data) s = .next s) ∧
  (∀ (hpa : Word) (mv : Meta) (l : Nat) (k : LinkId) (s : State), s.hdm = some k → s.cxl.links[k].cfg.d3hot = false →
    s.lineOf hpa = some l →
    (s.sfOf l = some .pi ∨ s.sfOf l = some .pr →
      exec (.memRd hpa mv) s = .next { s with cxl := { s.cxl with hostHeld := s.cxl.hostHeld ++
        [{ hpa := hpa, line := l, mv := mv, wr := none, data := true, poison := false, clean := false, behind := none }] } }) ∧
    (s.sfOf l = some .pi → mv ≠ .i → l * 64 + 64 ≤ scratchBase → s.ctrlStopped (ddrSplit (l * 64)).1 = false →
      s.plls[dpllOf (ddrSplit (l * 64)).1].coast = false → s.ddr[(ddrSplit (l * 64)).1].state = 2 → ∀ data, data.length = 64 →
      ∃ u load, exec (.memWr hpa mv data false) s = .next u ∧ u.mem.cells = writeCells s.mem.cells (l * 64) data ∧
        u.out = s.out ++ [.s2mDone hpa load] ∧ u.cxl.biXing = satAdd s.cxl.biXing 1 ∧ u.sfOf l = some .pi) ∧
    (∀ v, s.sfOf l = none → mv ≠ .i → (s.cxl.hostHeld.any (·.line = l)) = false → s.heldOn l = false →
      s.ctrlStopped (ddrSplit (l * 64)).1 = false → 16 ≤ (s.sfWays l).length →
      victimOf (s.sfWays l) = some v → s.snoops < 1024 →
      ∃ u, exec (.memRd hpa mv) s = .next u ∧ u.mem = s.mem ∧ u.sfOf v = some .pi ∧
        u.cxl.sfEvict = satAdd s.cxl.sfEvict 1 ∧ u.out = s.out ++ [.biSnpInv v] ∧
        u.cxl.hostHeld.map (·.hpa) = s.cxl.hostHeld.map (·.hpa) ++ [hpa]))

/-- BI_RSP_S and BI_RSP_I complete: they end the snoop of a line with nothing held, and the line is in S, or leaves the filter;
for a line without a snoop nothing changes.  BI_CONFLICT completes and is answered; H2D_SNOOP is answered with RspIHitI, since the device caches no host
line, but by no function in D3hot (15 R299, R308, R310, R311, R313). -/
def Sys2Proof.Claims.SnoopResponses : Prop :=
  (∀ (hpa : Word) (l : Nat) (s : State), s.lineOf hpa = some l →
    (s.sfOf l = some .pi ∨ s.sfOf l = some .pr → Sys2Proof.Claims.homeQuiet s →
      (∃ u, exec (.biRspS hpa) s = .next u ∧ u.mem = s.mem ∧ u.cores = s.cores ∧ u.chains = s.chains ∧ u.sfOf l = some .s ∧
        ∀ k, k ≠ l → u.sfOf k = s.sfOf k) ∧
      ∃ u, exec (.biRspI hpa) s = .next u ∧ u.mem = s.mem ∧ u.cores = s.cores ∧ u.chains = s.chains ∧ u.sfOf l = none ∧
        ∀ k, k ≠ l → u.sfOf k = s.sfOf k) ∧
    (s.sfOf l ≠ some .pi → s.sfOf l ≠ some .pr → exec (.biRspS hpa) s = .next s ∧ exec (.biRspI hpa) s = .next s)) ∧
  (∀ (hpa : Word) (s : State), s.hdm.isSome = true → exec (.biConflict hpa) s = .next (s.emit (.biConflictAck hpa))) ∧
  ∀ (k : LinkId) (hpa : Word) (s : State), s.cxl.links[k].up = true → s.cxl.links[k].cxl = true →
    exec (.h2dSnoop k hpa) s = .next (if s.cxl.links[k].cfg.d3hot then s else s.emit (.rspIHitI hpa))

/-- A held device access proceeds with the BIRsp of its line: a read that waits is answered with the line as the host left it
(15 R308). -/
def Sys2Proof.Claims.SnoopReleasesHeldAccess : Prop :=
  ∀ (hpa : Word) (l tag : Nat) (snooped : Bool) (s : State), s.lineOf hpa = some l → s.sfOf l = some .pi →
    s.cxl.held = [{ line := l, who := .tag tag, op := .read, snooped := snooped }] → s.cxl.hostHeld = [] →
    s.aci.cmds = [] → l * 64 + 64 ≤ scratchBase → s.ctrlStopped (ddrSplit (l * 64)).1 = false →
    s.plls[dpllOf (ddrSplit (l * 64)).1].coast = false →
    s.ddr[(ddrSplit (l * 64)).1].state = 2 → l ∉ s.mem.badDdr → l ∉ s.mem.softDdr →
    ∃ u, exec (.biRspI hpa) s = .next u ∧ u.mem = s.mem ∧ u.cores = s.cores ∧ u.cxl.held = [] ∧ u.sfOf l = none ∧
      u.out = s.out ++ [.lineRsp tag (s.memRead (l * 64) 64) false]

/-- DECODER_COMMIT: with DDR up, a base and a size in multiples of 256 MiB, a size within D, one way and no skip, the decoder
commits; else it reports an error and does not; a committed one that is asked to commit, and a locked one, ignore it;
clearing the commit empties the snoop filter; while BCLK is stopped the write waits (15 R304, R305; 17 R356). -/
def Sys2Proof.Claims.DecoderCommits : Prop :=
  ∀ (base size : Word) (ways1 : Bool) (skip : Word) (lock : Bool) (s : State),
    let ok : Bool := decide (bits s.mem.init.toNat 2 0 = 3) && decide (base.toNat % 2 ^ 28 = 0) &&
      decide (size.toNat % 2 ^ 28 = 0) && decide (2 ^ 28 ≤ size.toNat) && decide (size.toNat ≤ s.mem.d) && ways1 && decide (skip = 0)
    let put := fun (d : Decoder) (commit : Bool) => ({ s with cxl := { s.cxl with
      decoder := d
      hdmRegs := { s.cxl.hdmRegs with
        base := base, size := size, skip := skip, ways := if ways1 then 0 else 1, lock := lock, commit := commit } } } : State)
    (s.bclkStopped = true → ∀ b, exec (.decoderCommit base size ways1 skip lock b) s = .next s) ∧
    (s.bclkStopped = false → s.cxl.decoder.locked = false → s.cxl.decoder.committed = false →
      exec (.decoderCommit base size ways1 skip lock true) s = .next (put
        { base := base, size := size, committed := ok, notCommitted := !ok, locked := ok && lock } true) ∧
      exec (.decoderCommit base size ways1 skip lock false) s = .next (put
        { base := base, size := size, committed := false, notCommitted := false, locked := false } false)) ∧
    (s.bclkStopped = false → s.cxl.decoder.locked = false → s.cxl.decoder.committed = true →
      exec (.decoderCommit base size ways1 skip lock true) s = .next s ∧
      (Sys2Proof.Claims.homeQuiet s → ∃ u, exec (.decoderCommit base size ways1 skip lock false) s = .next u ∧
        u.cxl.decoder.committed = false ∧ u.cxl.sf = [] ∧ u.mem = s.mem ∧ u.cores = s.cores)) ∧
    (s.cxl.decoder.locked = true → ∀ b, exec (.decoderCommit base size ways1 skip lock b) s = .next s)

/-- CXL_LINK_UP: a link that can train comes up with its width, speed and configuration, no CXL protocol below 32 GT/s, CXL.mem
on the link that HDM_LINK names alone, and raises its event, and the narrow-link event below full width or speed.  CXL_LINK_DOWN and PERST_N: a link
or a port's links go down, with their event.  MSIX_UNMASK sends a pending message.  LINK_LEVEL_RETRY counts in CXL_LERR, and AER reports a replay, by a message where it may; the fall of the link whose function may
carry CXL.mem empties the snoop filter and ends the decoder's commit
(15 R300, R302, R315, R316, R317; 18 R371). -/
def Sys2Proof.Claims.CxlLinksTrainAndFail : Prop :=
  (∀ (k : LinkId) (w sp : BitVec 4) (cxl cacheEn memEn msixEn fnMask : Bool) (s : State),
    s.cxl.links[k].up = false → s.linkCanTrain k = true → s.hdm = none → s.cxl.pba = [] →
    w ≠ 0 → w.toNat ≤ (if k.val < 2 then 3 else 2) → sp ≠ 0 → sp.toNat ≤ 6 →
    let on : Bool := cxl && decide (5 ≤ sp.toNat)
    let named := decide (s.cxl.hdmLink.toNat = k.val)
    ∃ u, exec (.cxlLinkUp k w sp cxl cacheEn memEn msixEn fnMask) s = .next u ∧ u.mem = s.mem ∧ u.cores = s.cores ∧
      u.chains = s.chains ∧
      u.cxl.links[k] = { s.cxl.links[k] with
        up := true, cxl := on, width := w, speed := sp, cacheEn := on && cacheEn, memEn := on && memEn && named, memCap := named
        ide := false, msixEn := msixEn, fnMask := fnMask, d2h := []
        cfg := { s.cxl.links[k].cfg with command := if msixEn then 6 else 2 } } ∧
      (∀ j, j ≠ k → u.cxl.links[j].up = s.cxl.links[j].up) ∧
      u.pendingSrc (0x280 + 16 * portOf k + (if k.val = 3 ∨ k.val = 5 then 1 else 0)) = true ∧
      (sp.toNat < 6 ∨ w.toNat < (if k.val < 2 then 3 else 2) ∨ on = false → u.pendingSrc (0x282 + 16 * portOf k) = true)) ∧
  (∀ (k : LinkId) (bad : Bool) (s : State), s.cxl.links[k].up = true →
    s.cxl.links[k].d2h = [] → Sys2Proof.Claims.homeQuiet s →
    let aer := s.cxl.links[k].cfg.aer
    ∃ u, exec (.cxlLinkDown k bad) s = .next u ∧ u.mem = s.mem ∧ u.cores = s.cores ∧
      (s.cxl.links[k].memCap = true → u.cxl.sf = [] ∧ u.cxl.decoder = Decoder.none) ∧
      (s.cxl.links[k].memCap = false → u.cxl.sf = s.cxl.sf ∧ u.cxl.decoder = s.cxl.decoder) ∧
      u.cxl.links[k] = { Link.reset with cfg := { LinkCfg.reset with
        aer := if bad then { aer with unc := aer.unc ||| 0x400000 } else aer } } ∧
      (∀ j, j ≠ k → u.cxl.links[j] = s.cxl.links[j]) ∧
      u.pendingSrc (0x280 + 16 * portOf k + (if k.val = 3 ∨ k.val = 5 then 1 else 0)) = true ∧
      (bad = true → u.pendingSrc (0x283 + 16 * portOf k) = true)) ∧
  (∀ (p : Fin 2) (s : State), (∀ k : LinkId, s.cxl.links[k].d2h = []) →
    Sys2Proof.Claims.homeQuiet s →
    ∃ u, exec (.perstN p) s = .next u ∧ u.mem = s.mem ∧ u.cores = s.cores ∧ u.chains = s.chains ∧
      ∀ k : LinkId, if portOf k = p.val then u.cxl.links[k].up = false else u.cxl.links[k] = s.cxl.links[k]) ∧
  (∀ (v : Fin 2048) (j : LinkId) (s : State), s.cxl.pba = [v.val] → s.messageLink = some s.cxl.links[j] →
    s.cxl.links[j].fnMask = false →
    (s.bclkStopped = true → exec (.msixUnmask v) s = .next s) ∧
    (s.bclkStopped = false → ∃ u, exec (.msixUnmask v) s = .next u ∧ u.out = s.out ++ [.msix v.val] ∧ u.cxl.pba = [] ∧ u.unmasked v.val = true ∧
      u.mem = s.mem ∧ u.cores = s.cores ∧ ∀ w, w ≠ v.val → u.unmasked w = s.unmasked w)) ∧
  ∀ (k : LinkId) (fec : Bool) (s : State), s.cxl.links[k].up = true →
    let counted : State := { s with cxl := { s.cxl with lerr := s.cxl.lerr.set k (errAdd s.cxl.lerr[k] (!fec)) } }
    let told := counted.modLink k fun x => { x with
      cfg := { x.cfg with aer := { x.cfg.aer with cor := x.cfg.aer.cor ||| 1 } } }
    let cfg := s.cxl.links[k].cfg
    exec (.linkLevelRetry k fec) s = .next (if fec then counted
      else if cfg.aer.corMask.getLsbD 0 = false ∧ cfg.devCtl.getLsbD 0 = true then told.emit (.errMsg k 0) else told)

/-- D2H_RESPONSE: the answer to the write of a completion record takes the request off its link, and a failed one halts the
record's pair; the answer to a core's posted store ends it, and a failed one leaves a deferred error; an answer for a core waits
while CCLK is stopped (03 R46; 09 R186; 15 R311, R313; 17 R356). -/
def Sys2Proof.Claims.D2hRequestsAreAnswered : Prop :=
  (∀ (k : LinkId) (d : D2h) (r : RecordRef) (p : Pair) (s : State), s.cxl.links[k].d2h = [d] → d.who = .record r →
    s.aci.pairs = [(r.qid, p)] → p.gen = r.gen → s.aci.cmds = [] → p.halted = false →
    (∃ u, exec (.d2hResponse k d.tag .hostError) s = .next u ∧ u.cxl.links[k].d2h = [] ∧ u.mem = s.mem ∧ u.cores = s.cores ∧
      ∃ p', u.pair r.qid = some p' ∧ p'.halted = true) ∧
    ∃ u, exec (.d2hResponse k d.tag (.ok [])) s = .next u ∧ u.cxl.links[k].d2h = [] ∧ u.mem = s.mem ∧ u.cores = s.cores) ∧
  ∀ (k : LinkId) (d : D2h) (n : CoreId) (x : Store) (rest : List Store) (s : State), s.cxl.links[k].d2h = [d] →
    d.who = .want (.store n) → s.cores[n].stores = x :: rest →
    (s.cclkStopped = true → ∃ u, exec (.d2hResponse k d.tag (.ok [])) s = .next u ∧ u.cxl.links[k].d2h = [] ∧ u.mem = s.mem ∧
      u.cores = s.cores ∧ u.chip.late = s.chip.late ++ [.reply (.store n) (.ok [])]) ∧
    (s.cclkStopped = false → ∃ u, exec (.d2hResponse k d.tag (.ok [])) s = .next u ∧ u.cxl.links[k].d2h = [] ∧ u.mem = s.mem ∧
      u.cores[n].stores = rest ∧ u.cores[n].deferred = s.cores[n].deferred ∧ ∀ m, m ≠ n → u.cores[m] = s.cores[m]) ∧
    (s.cclkStopped = false → ∃ u, exec (.d2hResponse k d.tag .hostError) s = .next u ∧ u.cxl.links[k].d2h = [] ∧ u.mem = s.mem ∧
      u.cores[n].stores = rest ∧ u.pendingSrc (0x286 + 16 * portOf k) = true ∧
      ∃ e, u.cores[n].deferred = s.cores[n].deferred ++ [e] ∧ e.thread = x.thread ∧ e.addr = x.va)

/-! ## The Amtik Command Interface: queues and records (03 R38 to R59) -/

/-- Command `h` of state `s` has finished with this record, and firmware goes on with what it can do at once (03 R49). -/
def Sys2Proof.Claims.ended (s : State) (h : Half) (status : BitVec 16) (detail : Half) (milestones : Nat) (result : Word) : State :=
  State.aciSettle (s.modCmd h fun c => { c with
    phase := .finished
    record := some { status := status, detail := detail, milestones := milestones, result := result } })

/-- The ACI is enabled, ready and not in a reset, firmware runs, and CCLK does: commands are served. -/
def Sys2Proof.Claims.serves (s : State) : Prop :=
  s.chip.phase = .firmware ∧ s.cclkStopped = false ∧ s.aci.ready = true ∧ s.aci.resetting = false ∧
  s.aci.fatal = false

/-- ACI_ENABLE and ACI_READY: with a sound configuration the generation of pair 0 advances, pair 0 is created empty and READY is
set; with one that breaks R38 ACI_ERR.CONFIG is set and READY stays 0.  ACI_RESET deletes every pair, discards the
cancels and ends the grant, and with ACI_RESET_COMPLETE READY clears once the kernels have ended (03 R38, R43, R45).
The model's own choice here, no rule of the spec: a command whose occasion is absent leaves the state (log entry 9). -/
def Obligations.AciEnableAndReset : Prop :=
  (∀ (src : Src) (s : State), s.reaches src 0x100000 = true →
    exec (.aciEnable src) s = .next { s with aci := { s.aci with enable := true } } ∧
    (s.aci.enable = false → exec (.aciReset src) s = .next s) ∧
    (s.aci.enable = true → s.aci.resetting = false → (∀ c ∈ s.aci.cmds, ¬ (c.phase = .running ∧ c.op = 0x10)) →
      ∃ u, exec (.aciReset src) s = .next u ∧ u.mem = s.mem ∧ u.cores = s.cores ∧ u.chains = s.chains ∧
        u.aci.enable = false ∧ u.aci.resetting = s.aci.ready ∧ u.aci.pairs = [] ∧ u.aci.cancels = [] ∧ u.aci.cmds = [] ∧
        u.aci.version = none ∧ u.aci.grant = none ∧ u.aci.dropped = s.aci.dropped ∧ u.aci.err = s.aci.err)) ∧
  (∀ s : State, s.chip.phase = .firmware → s.cclkStopped = false → s.aci.enable = true → s.aci.ready = false →
    s.aci.resetting = false → s.aci.failed = false →
    let sq := (s.aci.aqCfg.extractLsb' 0 5).toNat
    let cq := (s.aci.aqCfg.extractLsb' 8 5).toNat
    let dev := s.aci.aqCfg.getLsbD 16
    let good := s.ringOk dev s.aci.sqBase.toNat sq 64 = true ∧ s.ringOk dev s.aci.cqBase.toNat cq 32 = true ∧ sq ≤ cq
    ∃ u, exec .aciReady s = .next u ∧ u.mem = s.mem ∧ u.cores = s.cores ∧
      (good → u.aci.ready = true ∧ u.aci.aqGen = s.aci.aqGen + 1 ∧ ∃ p, u.aci.pairs = [(0, p)] ∧ p.gen = s.aci.aqGen + 1 ∧
        p.sqLog2 = sq ∧ p.cqLog2 = cq ∧ p.sqBase = s.aci.sqBase ∧ p.cqBase = s.aci.cqBase ∧ p.sqHead = 0 ∧ p.sqTail = 0 ∧
        p.cqHead = 0 ∧ p.cqNext = 0 ∧ p.tag = 0 ∧ p.phase = true ∧ p.coalCount = 0 ∧ p.coalTime = 0 ∧ p.halted = false) ∧
      (¬ good → u.aci.ready = false ∧ u.aci.err.getLsbD 3 = true ∧ u.aci.pairs = s.aci.pairs)) ∧
  ∀ s : State, s.aci.resetting = true →
    ((∀ c ∈ s.aci.cmds, ∀ n : CoreId, (c.at 32 4).testBit n.val = true → s.cores[n].stat = 0 ∧
        ∀ k, chainOf n = some k → s.chains[k].idle = true ∧ s.chains[k].stopReq = false) →
      exec .aciResetComplete s = .next { s with aci := { s.aci with resetting := false, ready := false, cmds := [] } }) ∧
    (∀ c ∈ s.aci.cmds, ∀ n : CoreId, (c.at 32 4).testBit n.val = true → s.cores[n].stat ≠ 0 →
      exec .aciResetComplete s = .next s)

/-- The doorbells: a value below the depth is accepted (what it adds to a pair that is being deleted is flushed), a CQ_HEAD only up to the slot that firmware writes next; any other is
dropped and sets ACI_ERR.DOORBELL.  ACI_CANCEL puts a handle into the 256-entry FIFO, and one that finds it full is
dropped (03 R48, R57, R58, R417).
The model's own choice here, no rule of the spec: how cancels and handles meet (log entry 131), and the flags of a
command flushed unread (log entry 142). -/
def Obligations.DoorbellsAndCancels : Prop :=
  ∀ (q : Byte) (v : Half) (s : State), s.bclkStopped = false →
    let x := v.toNat % 65536
    (∀ p : Pair, s.pair q.toNat = some p →
      let rung : State := { s with aci := { s.aci with pairs := aset q.toNat { p with sqTail := x } s.aci.pairs } }
      (x < 2 ^ p.sqLog2 → p.deleting = false ∨ p.halted = true → exec (.aciSqTail q v) s = .next rung) ∧
      (x < 2 ^ p.sqLog2 → p.deleting = true → p.halted = false → exec (.aciSqTail q v) s =
        .next (rung.flushWritten q.toNat ({ p with sqTail := x } : Pair).waiting).aciSettle) ∧
      (2 ^ p.sqLog2 ≤ x → exec (.aciSqTail q v) s = .next (s.aciError 0 q.toNat)) ∧
      (x < 2 ^ p.cqLog2 → (x + 2 ^ p.cqLog2 - p.cqHead) % 2 ^ p.cqLog2 ≤ p.unread → exec (.aciCqHead q v) s =
        .next (State.aciSettle { s with aci := { s.aci with pairs := aset q.toNat { p with cqHead := x } s.aci.pairs } })) ∧
      (2 ^ p.cqLog2 ≤ x ∨ p.unread < (x + 2 ^ p.cqLog2 - p.cqHead) % 2 ^ p.cqLog2 →
        exec (.aciCqHead q v) s = .next (s.aciError 0 q.toNat))) ∧
    (s.pair q.toNat = none → exec (.aciSqTail q v) s = .next (s.aciError 0 q.toNat) ∧
      exec (.aciCqHead q v) s = .next (s.aciError 0 q.toNat) ∧ (s.aciError 0 q.toNat).aci.err.getLsbD 0 = true ∧
      (s.aciError 0 q.toNat).aci.pairs = s.aci.pairs) ∧
    (s.aci.resetting = false → s.aci.cancels.length < 256 →
      exec (.aciCancel v) s = .next { s with aci := { s.aci with cancels := s.aci.cancels ++ [v] } }) ∧
    (s.aci.resetting = false → 256 ≤ s.aci.cancels.length → ∃ u, exec (.aciCancel v) s = .next u ∧ u.aci.dropped = true ∧
      u.aci.cancels = s.aci.cancels ∧ u.mem = s.mem ∧ u.cores = s.cores ∧
      (s.aci.dropped = false → u.pendingSrc 0x87 = true))

/-- SQ_FETCH reads the entry at the head of the pair whose turn it is, a line of host memory: the head and the tag advance, and the command waits to be
dispatched under the handle that the tag gives (03 R40, R42, R47).  COMMAND_DISPATCH commits the command that became
ready first, a COPY or FILL with its chains, or completes one that breaks a rule with the status of the first check it fails (03 R44, R50, R57).
The model's own choice here, no rule of the spec: the order of the checks (log entry 130), cancels (log entry 131), a
flag of a feature that is not enabled (log entry 147), a range from DDR into scratch (log entry 148), and the answer
of host memory as an operand (log entries 14, 132). -/
def Obligations.CommandsAreFetchedAndDispatched : Prop :=
  (∀ (q : Byte) (p : Pair) (same : Bool) (e : List Byte) (s : State),
    let n := q.toNat
    let h : Half := BitVec.ofNat 32 (n <<< 24 + p.gen.toNat <<< 20 + p.tag.toNat)
    let round := fun (a : Aci) => if n = 0 then a
      else if same then { a with roundTaken := a.roundTaken + 1 } else { a with roundQid := n, roundTaken := 1 }
    let at' := p.sqBase.toNat + 64 * p.sqHead
    ∀ l : LinkId, Sys2Proof.Claims.serves s → s.chip.preparing = false → s.aci.cancels = [] →
    s.endVisit.nextFetch = some (n, same) →
    s.pair n = some p → p.entry = none → p.dev = false → at' % 64 = 0 → at' < 2 ^ 52 →
    s.cacheLink (BitVec.ofNat 64 at') = some l → s.cxl.links[l].d2h.length < 512 → s.d2hOf (.entry h) = none →
    e.length = 64 → s.aci.marked.contains h = false → fieldAt e 4 4 = h.toNat →
    let v := s.endVisit.emit (.rdCurr l (freeTag s.cxl.links[l].d2h) (at' / 64))
    let a := round v.aci
    exec (.sqFetch q (.ok e)) s = .next (State.aciSettle (State.endVisit { v with aci := { a with
      cmds := s.aci.cmds ++ [Cmd.new n h e]
      marked := s.aci.marked.filter (· ≠ h)
      pairs := aset n { p with sqHead := (p.sqHead + 1) % 2 ^ p.sqLog2, tag := p.tag + 1 } s.aci.pairs } }))) ∧
  (∀ (c : Cmd) (rest : List Half) (s : State),
    Sys2Proof.Claims.serves s → s.aciSettle = s → s.aci.readyQ = c.handle :: rest → s.aci.cancels = [] →
    s.cmd c.handle = some c → c.phase = .ready →
    (s.checkCmd c = none →
      exec .commandDispatch s = .next (State.aciSettle ((s.assignChains c).modCmd c.handle fun k => { k with phase := .running }))) ∧
    (∀ st d, s.checkCmd c = some (st, d) → exec .commandDispatch s = .next (Sys2Proof.Claims.ended s c.handle st d 0 0))) ∧
  ∀ (c : Cmd) (s : State),
    (opInfo c.op = none → s.checkCmd c = some (0x10, 0)) ∧
    ((opInfo c.op).isSome = true → s.aci.version = none → c.op ≠ 1 → c.op ≠ 2 → s.checkCmd c = some (0x13, 0)) ∧
    ((opInfo c.op).isSome = true → s.aci.version = some (1, 2) → c.op ∉ [2, 0x10, 0x11, 0x12] → c.qid ≠ 0 →
      s.checkCmd c = some (0x15, 0))

/-- The record of a finished command goes to the slot that its pair writes next, through the cache link of the slot's host
address: the handle, STATUS, PHASE, the SQ head, DETAIL, MILESTONES and RESULT, after which the slot advances and PHASE
inverts at a wrap (03 R41, R49; 15 R311 to R313).  COAL_TIME_EXPIRY and DIAG_GRANT_EXPIRY act on what waits (03 R54,
R59). -/
def Sys2Proof.Claims.RecordsAndExpiries : Prop :=
  (∀ (c : Cmd) (r : CmdRecord) (p : Pair) (l : LinkId) (s : State),
    s.aci.cmds = [c] → c.phase = .finished → c.record = some r → s.pair c.qid = some p → p.dev = false → p.halted = false →
    p.gen = c.handle.extractLsb' 20 4 → p.unread + 1 < 2 ^ p.cqLog2 →
    s.cacheLink (BitVec.ofNat 64 (p.cqBase.toNat + 32 * p.cqNext)) = some l → (∀ k : LinkId, s.cxl.links[k].d2h = []) →
    let bytes := bytesOf 4 c.handle.toNat ++ bytesOf 2 r.status.toNat ++ bytesOf 2 (if p.phase then 1 else 0) ++
      bytesOf 4 p.sqHead ++ bytesOf 4 r.detail.toNat ++ bytesOf 8 r.milestones ++ bytesOf 8 r.result.toNat
    let u := s.aciSettle
    u.out = s.out ++ [d2hWrite l 0 (BitVec.ofNat 64 (p.cqBase.toNat + 32 * p.cqNext)) [(0, bytes)]] ∧ u.aci.cmds = [] ∧
      u.mem = s.mem ∧ u.cores = s.cores ∧ bytes.length = 32 ∧
      ∃ p', u.pair c.qid = some p' ∧ p'.cqNext = (p.cqNext + 1) % 2 ^ p.cqLog2 ∧
        p'.phase = (if p'.cqNext = 0 then !p.phase else p.phase) ∧ p'.cqHead = p.cqHead) ∧
  (∀ (q : Byte) (p : Pair) (s : State), s.pair q.toNat = some p →
    (0 < p.counted → p.coalTime ≠ 0 → exec (.coalTimeExpiry q) s = .next
      (State.msix { s with aci := { s.aci with pairs := aset q.toNat { p with counted := 0 } s.aci.pairs } } p.vector)) ∧
    (p.counted = 0 ∨ p.coalTime = 0 → exec (.coalTimeExpiry q) s = .next s)) ∧
  ∀ (g : Grant) (s : State), s.aci.grant = some g →
    (g.limitMs ≠ 0 → exec .diagGrantExpiry s = .next { s with aci := { s.aci with grant := none } }) ∧
    (g.limitMs = 0 → exec .diagGrantExpiry s = .next s)

/-! ## The Amtik Command Interface: the commands (03 R51 to R58, R415, R416) -/

/-- A committed command of an opcode that firmware works on. -/
def Sys2Proof.Claims.runs (s : State) (h : Half) (op : Nat) (c : Cmd) : Prop :=
  Sys2Proof.Claims.serves s ∧ s.cmd h = some c ∧ c.phase = .running ∧ c.op = op

/-- NEGOTIATE takes the highest common version and the features it may enable, and fails without a common major version.
IDENTIFY writes its 4,096 bytes.  CREATE_QP creates an empty pair of the next generation, SET_COALESCE changes a pair's
coalescing, DELETE_QP of a pair with nothing outstanding deletes it (of a pair that is gone, either answers BAD_FIELD at its QID; of a
pair that exists, CREATE_QP answers BUSY), and DIAG_OPEN and DIAG_CLOSE open and end the grant
(03 R47, R53 to R59, R417). -/
def Sys2Proof.Claims.AdminCommands : Prop :=
  ∀ (h : Half) (c : Cmd) (s : State),
    let aci := fun (g : Aci → Aci) => ({ s with aci := g s.aci } : State)
    let ok := fun (u : State) (result : Word) => Host.Outcome.next (Sys2Proof.Claims.ended u h 0 0 0 result)
    (Sys2Proof.Claims.runs s h 0x01 c →
      let minor := min (c.at 19 1) 2
      let f := c.at 36 4 &&& (if minor = 0 then 0x07 else if minor = 1 then 0x0F else 0x3F)
      ((c.at 16 2).testBit 1 = true → exec (.negotiate h) s = ok
        (aci fun a => { a with version := some (1, minor), features := BitVec.ofNat 32 f })
        (BitVec.ofNat 64 (f <<< 32 + 256 + minor))) ∧
      ((c.at 16 2).testBit 1 = false → exec (.negotiate h) s = .next (Sys2Proof.Claims.ended s h 0x14 0 0 0))) ∧
    (Sys2Proof.Claims.runs s h 0x02 c →
      (∀ w u, s.fwWrite c 0 (c.at 16 8) s.identity w = (u, .done []) → exec (.identify h w) s = ok u 0) ∧
      (∀ w u, s.fwWrite c 0 (c.at 16 8) s.identity w = (u, .fail) →
        exec (.identify h w) s = .next (Sys2Proof.Claims.ended u h 0x18 0 0 0))) ∧
    (Sys2Proof.Claims.runs s h 0x03 c →
      let q := c.at 16 2
      let gen := cellGet s.aci.gens q + 1
      let p : Pair := {
        gen := gen, sqLog2 := c.at 18 1, cqLog2 := c.at 19 1, dev := c.at 23 1 = 1,
        sqBase := BitVec.ofNat 64 (c.at 24 8), cqBase := BitVec.ofNat 64 (c.at 32 8), vector := c.at 20 2,
        weight := c.at 22 1, sqHead := 0, sqTail := 0, cqHead := 0, cqNext := 0, phase := true, tag := 0, halted := false,
        deleting := false, coalCount := c.at 40 1, coalTime := c.at 42 2, counted := 0, entry := none }
      ((s.pair q).isSome = true → exec (.createQp h) s = .next (Sys2Proof.Claims.ended s h 0x16 0 0 0)) ∧
      (s.pair q = none → exec (.createQp h) s = ok (aci fun a => { a with gens := cellSet a.gens q gen, pairs := aset q p a.pairs })
        (gen.setWidth 64))) ∧
    (Sys2Proof.Claims.runs s h 0x05 c → ∀ p, s.pair (c.at 16 2) = some p →
      let p' := { p with coalCount := c.at 18 1, coalTime := c.at 20 2 }
      let put := fun (p : Pair) => aci fun a => { a with pairs := aset (c.at 16 2) p a.pairs }
      (p.counted < max (c.at 18 1) 1 → exec (.setCoalesce h) s = ok (put p') 0) ∧
      (max (c.at 18 1) 1 ≤ p.counted → ∃ u, exec (.setCoalesce h) s = .next u ∧ u.mem = s.mem ∧
        u = Sys2Proof.Claims.ended ((put p').cqInterrupt (c.at 16 2)) h 0 0 0 0)) ∧
    (s.pair (c.at 16 2) = none →
      (Sys2Proof.Claims.runs s h 0x05 c → exec (.setCoalesce h) s = .next (Sys2Proof.Claims.ended s h 0x11 16 0 0)) ∧
      (Sys2Proof.Claims.runs s h 0x04 c → exec (.deleteQp h) s = .next (Sys2Proof.Claims.ended s h 0x11 16 0 0))) ∧
    (Sys2Proof.Claims.runs s h 0x04 c → ∀ p, s.pair (c.at 16 2) = some p → s.aci.cmds = [c] → c.qid ≠ c.at 16 2 →
      c.samePair (p.handle (c.at 16 2) 0) = false → p.deleting = false → p.waiting = 0 →
      s.recordsInFlight (c.at 16 2) = 0 → p.halted = false →
      ∃ u, exec (.deleteQp h) s = .next u ∧ u.pair (c.at 16 2) = none ∧ u.cores = s.cores ∧ u.chains = s.chains) ∧
    (Sys2Proof.Claims.runs s h 0x40 c →
      let g : Grant := { blocks := BitVec.ofNat 16 (c.at 16 2), write := c.at 18 1 = 1, limitMs := c.at 20 4 }
      (s.aci.grant = none → exec (.diagOpen h) s = ok (aci fun a => { a with grant := some g }) 0) ∧
      (s.aci.grant.isSome = true → exec (.diagOpen h) s = .next (Sys2Proof.Claims.ended s h 0x16 0 0 0))) ∧
    (Sys2Proof.Claims.runs s h 0x41 c → s.aci.grant.isSome = true →
      exec (.diagClose h) s = ok (aci fun a => { a with grant := none }) 0)

/-- What IDENTIFY writes (03 R53). -/
def Sys2Proof.Claims.IdentityFields : Prop :=
  ∀ s : State, s.mem.d < 2 ^ 64 →
    s.identity.length = 4096 ∧ fieldAt s.identity 0 4 = 0xD7072040 ∧ fieldAt s.identity 4 4 = 0x1729019B ∧
    fieldAt s.identity 8 8 = s.chip.serial.toNat ∧ fieldAt s.identity 16 8 = s.mem.d ∧
    fieldAt s.identity 56 8 = s.xl.epoch.toNat ∧ fieldAt s.identity 48 1 = (if s.chip.slot then 1 else 0) ∧
    sliceAt s.identity 64 32 = s.fwVersion

/-- KERNEL_RUN starts every sequencer that it names at the image's entry at level K, with SP at the top of DMEM, the other
registers 0, the image in IMEM, the arguments in DMEM, its chain's counts and strip length cleared, and the runtime's page
table holding the default mapping; the other cores and chains are unchanged; while a sequencer is not in STATE 0 firmware
stops it and waits.  KERNEL_RUN_COMPLETE: once every sequencer has ended by trap 0 and every chain is at rest with nothing
failed, and every store of the sequencers is accepted, the command completes with the sum of the MSCs (01 R13; 03 R52,
R415, R416; 12 R413).
The model's own choice here, no rule of the spec: the entry of the runtime is an unknown constant (log entry 21); how
ends and failures are told (log entry 133). -/
def Obligations.KernelsRunAndComplete : Prop :=
  (∀ (h : Half) (c : Cmd) (image args : Reply) (im ar : List Byte) (s1 s2 s : State),
    Sys2Proof.Claims.runs s h 0x10 c → c.started = false → c.cancelled = false →
    (∀ n ∈ c.cores, s.pwr.gated.getLsbD n.val = false ∧ s.cores[n].stat = 0 ∧ s.cores[n].ctl.getLsbD 0 = false) →
    s.fwRead c 0 (c.at 16 8) (c.at 24 4) image = (s1, .done im) → s1.fwRead c 1 (c.at 40 8) (c.at 36 4) args = (s2, .done ar) →
    ∃ u, exec (.kernelRun h image args) s = .next u ∧ u.mem = s2.mem ∧ u.out = s2.out ∧
      (∃ c', u.cmd h = some c' ∧ c'.started = true ∧ c'.table = s2.defaultMap) ∧
      (∀ n : CoreId, (c.at 32 4).testBit n.val = false → u.cores[n] = s2.cores[n] ∧
        ∀ k, chainOf n = some k → u.chains[k] = s2.chains[k]) ∧
      ∀ n : CoreId, (c.at 32 4).testBit n.val = true →
        (u.thread n 0).pc = BitVec.ofNat 64 (2 * c.at 28 4) ∧ (u.thread n 0).a = (Vector.replicate 16 (0 : Word)).set 15 0x40000 ∧
        (u.thread n 0).d = Vector.replicate 32 0 ∧ (u.thread n 0).levelK = true ∧ (u.thread n 0).live = true ∧
        u.cores[n].ctl.getLsbD 0 = true ∧ u.cores[n].stat = 1 ∧ u.cores[n].x = Vector.replicate 8 0 ∧
        u.cores[n].s = Vector.replicate 8 0 ∧ u.cores[n].dmem = writeCells [] 0 ar ∧
        u.cores[n].imem = writeCells s2.cores[n].imem 0 im ∧
        ∀ k, chainOf n = some k → u.chains[k].msc = 0 ∧ u.chains[k].gang = 0 ∧ u.chains[k].numf = 0 ∧ u.chains[k].replays = 0 ∧
          u.chains[k].markCfg = 0) ∧
  (∀ (h : Half) (c : Cmd) (image args : Reply) (n : CoreId) (s : State),
    Sys2Proof.Claims.runs s h 0x10 c → c.started = false → c.cancelled = false →
    (∀ m ∈ c.cores, s.pwr.gated.getLsbD m.val = false) → n ∈ c.cores → s.cores[n].stat ≠ 0 →
    ∃ u, exec (.kernelRun h image args) s = .next u ∧ u.aci = s.aci ∧ u.mem = s.mem ∧ u.cores[n].ctl.getLsbD 0 = false ∧
      ∀ m : CoreId, (c.at 32 4).testBit m.val = false → u.cores[m] = s.cores[m]) ∧
  ∀ (h : Half) (c : Cmd) (s : State),
    Sys2Proof.Claims.runs s h 0x10 c → c.started = true → c.cancelled = false → c.failure = none →
    (∀ n ∈ c.cores, c.endOf n = some .normal ∧ s.seqFailure c n = none ∧ s.chainAtRest n = true) →
    let v := c.cores.foldl (fun s n => s.clearRun n) s
    (v.coresAtRest c.cores = true → exec (.kernelRunComplete h) s = .next (Sys2Proof.Claims.ended v h 0 0
      (s.mscSum c.cores) (if c.flags.testBit 2 then c.inline else BitVec.ofNat 64 (c.at 48 8)))) ∧
    (v.coresAtRest c.cores = false → exec (.kernelRunComplete h) s = .next v)

/-- What firmware, or a chain that it has copy, reads and writes in scratch for a command, line by line as scratch master `m`: a
read gives the bytes, or fails where a word of them is poisoned, and memory stays as it is; a write leaves its bytes, and every
other byte of memory as it is (03 R50, R52; 13 R263, R267). -/
def Sys2Proof.Claims.ScratchCarriesCommands : Prop :=
  ∀ (m k a off n : Nat) (c : Cmd) (r : Reply) (s : State), s.mem.wf = true → c.io = [] → c.hostptr.testBit k = false →
    (∀ i, i < n → s.route (BitVec.ofNat 64 (a + i)) = .here (off + i) ∧ s.place (off + i) = .scratch) →
    (0 < n → ∃ u, s.readBy m c k a n r = (u, if s.poisoned off n then .fail else .done (s.memRead off n)) ∧ u.mem = s.mem ∧
      u.cores = s.cores ∧ u.chains = s.chains ∧ u.aci = s.aci) ∧
    ∀ bs : List Byte, bs.length = n → ∃ u, s.writeBy m c k a bs r = (u, .done []) ∧ u.memRead off n = bs ∧
      (∀ x l, x + l ≤ off ∨ off + n ≤ x → u.memRead x l = s.memRead x l) ∧
      u.cores = s.cores ∧ u.chains = s.chains ∧ u.aci = s.aci

/-- COPY and FILL of up to 1 MiB, by one of the chains assigned to the command: the destination takes the source's bytes, or the pattern, and a whole 1 MiB is one
milestone; a source or a destination that fails ends the command with ACCESS_FAULT (03 R50 to R52; 13 R263, R267).
The model's own choice here, no rule of the spec: which chains a copy takes and which of them moves a piece are free,
pieces of 1 MiB move whole, and one that fails is not written further (log entries 134, 136). -/
def Obligations.CopiesAndFillsComplete : Prop :=
  Sys2Proof.Claims.ScratchCarriesCommands ∧
  (∀ (h : Half) (c : Cmd) (k : Nat) (r acc : Reply) (s : State),
    Sys2Proof.Claims.runs s h 0x11 c → c.cancelled = false → c.milestones = 0 → c.io = [] →
    let n := c.at 32 8
    let m := (s.copyMaster c).2
    let part := match r with
      | .ok bs => if n ≤ bs.length then Reply.ok (bs.take n) else .hostError
      | x => x
    let read := (s.copyMaster c).1.readBy m c 0 (c.at 16 8) n part
    (n = 0 → exec (.copy h k r acc) s = .next (Sys2Proof.Claims.ended s h 0 0 0 0)) ∧
    (0 < n → n ≤ 0x100000 → read.2 = .fail →
      exec (.copy h k r acc) s = .next (Sys2Proof.Claims.ended read.1 h 0x18 0 0 0)) ∧
    ∀ bs, 0 < n → n ≤ 0x100000 → read.2 = .done bs →
      let wrote := read.1.writeBy m c 1 (c.at 24 8) bs acc
      (wrote.2 = .done [] → n = 0x100000 → exec (.copy h k r acc) s = .next (Sys2Proof.Claims.ended wrote.1 h 0 0 1 0)) ∧
      (wrote.2 = .done [] → n < 0x100000 → ∃ done,
        exec (.copy h k r acc) s = .next (Sys2Proof.Claims.ended wrote.1.tick h 0 0 done 0)) ∧
      (wrote.2 = .fail → exec (.copy h k r acc) s = .next (Sys2Proof.Claims.ended wrote.1 h 0x18 0 0 0))) ∧
  ∀ (h : Half) (c : Cmd) (k : Nat) (acc : Reply) (s : State),
    Sys2Proof.Claims.runs s h 0x12 c → c.cancelled = false → c.milestones = 0 → c.io = [] →
    let n := c.at 24 8
    let wrote := (s.copyMaster c).1.writeBy (s.copyMaster c).2 c 0 (c.at 16 8) (List.replicate (n / 8) (bytesOf 8 (c.at 32 8))).flatten acc
    (n = 0 → exec (.fill h k acc) s = .next (Sys2Proof.Claims.ended s h 0 0 0 0)) ∧
    (wrote.2 = .done [] → n = 0x100000 → exec (.fill h k acc) s = .next (Sys2Proof.Claims.ended wrote.1 h 0 0 1 0)) ∧
    (wrote.2 = .done [] → 0 < n → n < 0x100000 → ∃ m,
      exec (.fill h k acc) s = .next (Sys2Proof.Claims.ended wrote.1.tick h 0 0 m 0)) ∧
    (wrote.2 = .fail → 0 < n → n ≤ 0x100000 → exec (.fill h k acc) s = .next (Sys2Proof.Claims.ended wrote.1 h 0x18 0 0 0))

/-- The commands on the flash: FW_STAGE makes the inactive slot invalid before it writes, FW_STAGE_PIECE programs up to 64 KiB
a milestone, FW_ACTIVATE writes the boot record for a valid image and, with WHEN = 1, asks for a reset, SETTINGS_READ,
SETTINGS_WRITE and SETTINGS_COMMIT read, stage and commit a record, CAL_READ and CAL_WRITE read and replace the
calibration set (18 R377, R382, R383, R388 to R393; 03 R50).
The model's own choice here, no rule of the spec: the staging by pieces (log entry 138), the ranges and DETAIL of
settings and calibration (log entries 139, 140), and the constants of ECDSA (log entry 22). -/
def Obligations.FlashCommandsComplete : Prop :=
  ∀ (h : Half) (c : Cmd) (r : Reply) (s : State), s.chip.clkGate.getLsbD 26 = true →
    let slot : Bool := !s.chip.slot
    let ok := fun (u : State) (ms : Nat) (result : Word) => Host.Outcome.next (Sys2Proof.Claims.ended u h 0 0 ms result)
    (Sys2Proof.Claims.runs s h 0x20 c → c.started = false →
      let b := s.flash.bootChoice
      let u := s.program fun f => f.bootWrite (if b.1 = slot then s.chip.slot else b.1) (b.2 &&& ~~~(if slot then (2 : BitVec 2) else 1))
      (c.at 24 4 = 0 → exec (.fwStage h) s = ok u 0 0) ∧
      (c.at 24 4 ≠ 0 → exec (.fwStage h) s = .next (u.modCmd h fun k => { k with started := true }))) ∧
    (Sys2Proof.Claims.runs s h 0x20 c → c.started = true → c.cancelled = false →
      let o := 0x10000 * c.milestones
      let n := min 0x10000 (c.at 24 4 - o)
      ∀ bs s1, s.fwRead c 0 (c.at 16 8 + o) n r = (s1, .done bs) → s1.chip = s.chip →
        let put := (s1.program fun f => f.setSlot slot (flashPut (f.slotOf slot) (c.at 28 4 + o) bs)).modCmd h fun k => { k with milestones := k.milestones + 1 }
        (c.at 24 4 ≤ o + n → exec (.fwStagePiece h r true) s = ok put (c.milestones + 1) 0) ∧
        (o + n < c.at 24 4 → exec (.fwStagePiece h r true) s = .next put)) ∧
    (Sys2Proof.Claims.runs s h 0x21 c →
      let x := decide (c.at 16 1 = 1)
      let staging := ∃ k ∈ s.aci.cmds, k.phase = .running ∧ k.op = 0x20 ∧ x = slot
      let u := s.program fun f => f.bootWrite x (f.bootChoice.2 ||| if x then 2 else 1)
      (staging ∨ imageValid s.chip.keyHash (s.flash.slotOf x) = false →
        exec (.fwActivate h) s = .next (Sys2Proof.Claims.ended s h 0x30 0 0 0)) ∧
      (¬ staging → imageValid s.chip.keyHash (s.flash.slotOf x) = true → c.at 17 1 ≠ 1 → exec (.fwActivate h) s = ok u 0 0) ∧
      (¬ staging → imageValid s.chip.keyHash (s.flash.slotOf x) = true → c.at 17 1 = 1 →
        ∃ v, exec (.fwActivate h) s = .next v ∧ v.chip.resetDue = true ∧ v.flash.boot = u.flash.boot ∧ v.thm.wear = 0)) ∧
    (Sys2Proof.Claims.runs s h 0x22 c →
      (∀ g bs s1, (if c.at 28 1 = 0 then s.flash.newest else s.flash.older) = some g →
        s.fwWrite c 0 (c.at 16 8) (g.record.take (c.at 24 4)) r = (s1, .done bs) →
        (parseSettings (imageSchema s1.image) g.record).isSome = true →
        exec (.settingsRead h r) s = ok s1 0 (BitVec.ofNat 64 (g.record.take (c.at 24 4)).length)) ∧
      ((if c.at 28 1 = 0 then s.flash.newest else s.flash.older) = none → exec (.settingsRead h r) s = ok s 0 0)) ∧
    (Sys2Proof.Claims.runs s h 0x23 c → ∀ bs s1, s.fwRead c 0 (c.at 16 8) (c.at 24 4) r = (s1, .done bs) →
      (parseSettings (imageSchema s1.image) bs).isSome = true → fieldAt bs 8 8 = 0 →
      exec (.settingsWrite h r) s = ok { s1 with chip := { s1.chip with stagedSet := some bs } } 0 0) ∧
    (Sys2Proof.Claims.runs s h 0x24 c →
      let gen : Word := match s.flash.newest with
        | some g => g.number + 1
        | none => 1
      let bs := match s.chip.stagedSet with
        | some b => spliceAt b 8 (bytesOf 8 gen.toNat)
        | none => settingsRecord (imageSchema s.image) gen.toNat ((entriesOf 32 s.chip.settings).getD [])
      exec (.settingsCommit h) s = ok
        { s.program (fun f => f.commitSettings gen bs) with
          chip := { s.chip with stagedSet := none, provisional := false, unreadable := false } } 0 gen ∧
      (fieldAt bs 8 8 = gen.toNat →
        (s.program fun f => f.commitSettings gen bs).flash.newest = some { number := gen, record := bs })) ∧
    (Sys2Proof.Claims.runs s h 0x25 c →
      ((calEntries s.chip.serial s.flash.cal).isNone = true →
        exec (.calRead h r) s = .next (Sys2Proof.Claims.ended s h 0x32 0 0 0)) ∧
      (∀ bs s1, (calEntries s.chip.serial s.flash.cal).isSome = true →
        s.fwWrite c 0 (c.at 16 8) ((s.flash.cal.take 3280).take (c.at 24 4)) r = (s1, .done bs) →
        exec (.calRead h r) s = ok s1 0 (BitVec.ofNat 64 ((s.flash.cal.take 3280).take (c.at 24 4)).length))) ∧
    (Sys2Proof.Claims.runs s h 0x26 c → ∀ bs s1, s.fwRead c 0 (c.at 16 8) (c.at 24 4) r = (s1, .done bs) →
      c.at 24 4 = 3280 →
      ((calEntries s1.chip.serial bs).isSome = true →
        exec (.calWrite h r true) s = ok (s1.program fun f => { f with cal := bs }) 0 0) ∧
      ((calEntries s1.chip.serial bs).isNone = true →
        exec (.calWrite h r true) s = .next (Sys2Proof.Claims.ended s1 h 0x11 16 0 0)))


/-! ## Register accesses (02 R26 to R37) -/

/-- An access error has been recorded and nothing else has changed but the error's event: the error's own bit is set, OVERRUN
is set when one of the three was set already, ACC_ADDR keeps the first of them (02 R37). -/
def Sys2Proof.Claims.erred (u s : State) (bit : Fin 3) (src : Src) (space off : Nat) (be : BitVec 8) : Prop :=
  let was := decide (s.evt.accErr.extractLsb' 0 3 ≠ 0)
  (∀ i : Fin 3, u.evt.accErr.getLsbD i.val = (s.evt.accErr.getLsbD i.val || decide (i = bit))) ∧
  u.evt.accErr.getLsbD 3 = (s.evt.accErr.getLsbD 3 || was) ∧
  u.evt.accAddr = (if was then s.evt.accAddr
    else BitVec.ofNat 64 (be.toNat * 2 ^ 40 + srcCode src * 2 ^ 32 + space * 2 ^ 30 + off / 8 * 8 % 2 ^ 29)) ∧
  (s.evt.accErr.getLsbD bit.val = false → u.pendingSrc (0x80 + bit.val) = true) ∧
  u = { s with
    evt := { s.evt with accErr := u.evt.accErr, accAddr := u.evt.accAddr, pend := u.evt.pend }
    out := u.out
    cxl := { s.cxl with pba := u.cxl.pba } }

/-- Plain registers of 32 bits, by CSR offset, with the bits that a write sets. -/
def Sys2Proof.Claims.plainRegs : List (Nat × Half) :=
  [(0x400000, 0xFF03), (0x400010, 0x13F), (0x400018, 0xFFF), (0x400500, 0xFF), (0x500010, 0x00FFFF01),
   (0x600000, 0xFFFFF001), (0x600040, 0xFFFFFFFF), (0x600048, 0xFFFFFFFF), (0x220108, 0x00FF00FF), (0x300000, 1)]

/-- REGISTER_WRITE: a full-width write sets a plain register's bits, which a full-width read then returns; a 64-bit write over
two registers writes both; a write that leaves a byte of its register disabled changes no register and sets NARROW; one
without a grant sets NOGRANT; one through the BARs of a port whose functions are down or in D3hot changes nothing; one by a
core whose posted stores are not all accepted joins them (02 R29, R31, R33, R34, R37; 09 R201; 15 R299). -/
def Sys2Proof.Claims.RegisterWrites : Prop :=
  (∀ row ∈ Sys2Proof.Claims.plainRegs, ∀ (n : CoreId) (v : Half) (s : State), s.reaches (.core n) row.1 = true →
    ∃ u, exec (.registerWrite { path := .core n, offset := row.1, be := 0x0F, data := v.setWidth 64 }) s = .next u ∧
      u.mem = s.mem ∧ u.cores = s.cores ∧ u.chains = s.chains ∧ u.tgl = s.tgl ∧
      exec (.readToClear { path := .core n, offset := row.1, be := 0x0F, data := 0 }) u =
        .next (u.emit (.barData ((v &&& row.2).setWidth 64) false))) ∧
  (∀ (n : CoreId) (k : Fin 18) (v : Word) (s : State), s.reaches (.core n) (0x400400 + 8 * k.val) = true →
    exec (.registerWrite { path := .core n, offset := 0x400400 + 8 * k.val, be := 0xFF, data := v }) s =
      .next ((s.modCore ⟨2 * k.val, by omega⟩ fun c => { c with sqos := v.setWidth 32 &&& 0xFF }).modCore
        ⟨2 * k.val + 1, by omega⟩ fun c => { c with sqos := (v >>> 32).setWidth 32 &&& 0xFF })) ∧
  (∀ (src : Src) (b : Block) (o off : Nat) (be : BitVec 8) (v : Word) (s : State),
    s.reaches src off = true → off % 8 = 0 → blockOf off = some (b, o) →
    (regWidth b o = some 8 ∧ be ≠ 0 ∧ be ≠ 0xFF ∨
      regWidth b o = some 4 ∧ be.extractLsb' 4 4 = (0 : BitVec 4) ∧ be.extractLsb' 0 4 ≠ (0 : BitVec 4) ∧
        be.extractLsb' 0 4 ≠ (0xF : BitVec 4)) →
    ∃ u, exec (.registerWrite { path := pathOf src, offset := off, be := be, data := v }) s = .next u ∧
      Sys2Proof.Claims.erred u s 0 src 0 off be) ∧
  (∀ (p : Fin 2) (off : Nat) (be : BitVec 8) (v : Word) (s : State), off % 8 = 0 → s.bclkStopped = false → s.portUp p = true →
    0x10000 ≤ off ∧ off < 0x20000 ∨ 0x28000 ≤ off ∧ off < 0x28100 →
    be.extractLsb' 4 4 = (0 : BitVec 4) → be.extractLsb' 0 4 ≠ (0 : BitVec 4) → be.extractLsb' 0 4 ≠ (0xF : BitVec 4) →
    ∃ u, exec (.registerWrite { path := .bar0 p, offset := off, be := be, data := v }) s = .next u ∧
      Sys2Proof.Claims.erred u s 0 (.host p) 1 off be) ∧
  (∀ (p : Fin 2) (b : Block) (o off : Nat) (be : BitVec 8) (v : Word) (s : State), off % 8 = 0 → be ≠ 0 →
    s.busWaits off = false → s.portUp p = true → blockOf off = some (b, o) → s.noGrant b true = true →
    ∃ u, exec (.registerWrite { path := .bar4 p, offset := off, be := be, data := v }) s = .next u ∧
      Sys2Proof.Claims.erred u s 2 (.host p) 0 off be) ∧
  (∀ (p : Fin 2) (off : Nat) (be : BitVec 8) (v : Word) (s : State),
    (∀ l : LinkId, portOf l = p.val → s.cxl.links[l].up = false ∨ s.cxl.links[l].cfg.d3hot = true) →
    ∀ path ∈ [Path.bar0 p, .bar2 p, .bar4 p],
      exec (.registerWrite { path := path, offset := off, be := be, data := v }) s = .next s ∧
      exec (.readToClear { path := path, offset := off, be := be, data := v }) s = .next s) ∧
  ∀ (n : CoreId) (off : Nat) (v : Word) (s : State), off % 8 = 0 → s.busWaits off = false → s.cores[n].stores ≠ [] →
    s.cores[n].stores.length < 8 →
    ∃ x u, exec (.registerWrite { path := .core n, offset := off, be := 0xFF, data := v }) s = .next u ∧
      x.loc = .here (csrBase + off) ∧ x.bytes = bytesOf 8 v.toNat ∧ u.cores[n].stores = s.cores[n].stores ++ [x] ∧
      (∀ m, m ≠ n → u.cores[m] = s.cores[m]) ∧ u = { s with cores := u.cores }

/-- READ_TO_CLEAR: a full-width read returns a read-to-clear counter and clears it; a narrow read returns its bytes and clears
nothing; a read without a grant returns zero.  A configuration read of a function gives its Vendor and Device IDs (02 R29, R32;
13, 14, 16, Registers; 15 R303). -/
def Sys2Proof.Claims.RegisterReads : Prop :=
  (∀ (m : CoreId) (s : State),
    let full := fun (off : Nat) => exec (.readToClear { path := .core m, offset := off, be := 0xFF, data := 0 }) s
    let low := fun (off : Nat) => exec (.readToClear { path := .core m, offset := off, be := 0x0F, data := 0 }) s
    let gives := fun (u : State) (v : Word) => u.emit (.barData v false)
    let part := fun (v : Word) => (Host.Outcome.next (s.emit (.barData (v &&& 0xFFFFFFFF) false)) : Outcome)
    (∀ n : Fin 16, s.reaches (.core m) (0x400100 + 8 * n.val) = true →
      full (0x400100 + 8 * n.val) =
        .next (gives { s with jnc := { s.jnc with dlag := s.jnc.dlag.set n 0 } } s.jnc.dlag[n]) ∧
      low (0x400100 + 8 * n.val) = part s.jnc.dlag[n]) ∧
    (∀ p : PortId, s.reaches (.core m) (0x400180 + 8 * p.val) = true →
      full (0x400180 + 8 * p.val) =
        .next (gives { s with jnc := { s.jnc with plag := s.jnc.plag.set p 0 } } s.jnc.plag[p])) ∧
    (∀ p : PortId, s.reaches (.core m) (0x2000018 + 0x100000 * p.val) = true →
      full (0x2000018 + 0x100000 * p.val) = .next (gives (s.modTgl p fun t => { t with err := 0 }) s.tgl[p].err) ∧
      full (0x2000020 + 0x100000 * p.val) = .next (gives (s.modTgl p fun t => { t with refused := 0 }) s.tgl[p].refused) ∧
      low (0x2000018 + 0x100000 * p.val) = part s.tgl[p].err) ∧
    (∀ n : CtrlId, s.reaches (.core m) (0x1000008 + 0x100000 * n.val) = true →
      full (0x1000008 + 0x100000 * n.val) =
        .next (gives (s.modDdr n fun d => { d with ecc := d.ecc &&& 0xFFFF000000000000 }) s.ddr[n].ecc) ∧
      low (0x1000008 + 0x100000 * n.val) = part s.ddr[n].ecc)) ∧
  (∀ (p : Fin 2) (b : Block) (o off : Nat) (be : BitVec 8) (s : State), off % 8 = 0 → s.busWaits off = false →
    s.portUp p = true → blockOf off = some (b, o) → s.noGrant b false = true →
    ∃ u, exec (.readToClear { path := .bar4 p, offset := off, be := be, data := 0 }) s =
        .next (u.emit (.barData 0 false)) ∧
      Sys2Proof.Claims.erred u s 2 (.host p) 0 off be) ∧
  ∀ (l : LinkId) (s : State), s.clocksOff = false → s.cxl.links[l].up = true →
    exec (.readToClear { path := .config l, offset := 0, be := 0x0F, data := 0 }) s =
      .next (s.emit (.barData 0xD7071F3C false))

/-- An access to an unmapped CSR offset or to a reserved BAR0 or BAR2 offset: a read returns zero, a write is dropped, and either
sets UNMAPPED (02 R36, with R26, R27 and R37).
The model's own choice here, no rule of the spec: the host port that carries the access has a link up (log entry 102). -/
def Obligations.UnmappedAccessesAreReported : Prop :=
  (∀ (src : Src) (off : Nat) (be : BitVec 8) (v : Word) (s : State), blockOf off = none → off % 8 = 0 → be ≠ 0 →
    s.busWaits off = false → (∀ p, src = .host p → s.portUp p = true) → (∀ n, src = .core n → s.cores[n].stores = []) →
    ∃ u, exec (.registerWrite { path := pathOf src, offset := off, be := be, data := v }) s = .next u ∧
      Sys2Proof.Claims.erred u s 1 src 0 off be) ∧
  (∀ (p : Fin 2) (off : Nat) (be : BitVec 8) (v : Word) (s : State), s.bclkStopped = false →
    s.portUp p = true → off % 8 = 0 → be ≠ 0 →
    (0x2000 ≤ off ∧ off < 0x10000 ∨ 0x28100 ≤ off ∧ off < 0x100000 →
      ∃ u, exec (.registerWrite { path := .bar0 p, offset := off, be := be, data := v }) s = .next u ∧
        Sys2Proof.Claims.erred u s 1 (.host p) 1 off be) ∧
    (0x18000000 ≤ off ∧ off < 0x20000000 →
      ∃ u, exec (.registerWrite { path := .bar2 p, offset := off, be := be, data := v }) s = .next u ∧
        Sys2Proof.Claims.erred u s 1 (.host p) 2 off be)) ∧
  (∀ (src : Src) (off : Nat) (be : BitVec 8) (s : State), blockOf off = none → off % 8 = 0 → s.busWaits off = false →
    (∀ p, src = .host p → s.portUp p = true) →
    ∃ u, exec (.readToClear { path := pathOf src, offset := off, be := be, data := 0 }) s = .next (u.emit (.barData 0 false)) ∧
      Sys2Proof.Claims.erred u s 1 src 0 off be) ∧
  ∀ (p : Fin 2) (off : Nat) (be : BitVec 8) (s : State), s.bclkStopped = false → s.portUp p = true →
    off % 8 = 0 →
    (0x2000 ≤ off ∧ off < 0x10000 ∨ 0x28100 ≤ off ∧ off < 0x100000 →
      ∃ u, exec (.readToClear { path := .bar0 p, offset := off, be := be, data := 0 }) s =
          .next (u.emit (.barData 0 false)) ∧ Sys2Proof.Claims.erred u s 1 (.host p) 1 off be) ∧
    (0x18000000 ≤ off ∧ off < 0x20000000 →
      ∃ u, exec (.readToClear { path := .bar2 p, offset := off, be := be, data := 0 }) s =
          .next (u.emit (.barData 0 false)) ∧ Sys2Proof.Claims.erred u s 1 (.host p) 2 off be)

/-! ## The junction (14 R279 to R297) -/

/-- `u` is `s` with target port `t` of junction `j` as given; what goes on by uplinks and downlinks, and whose turn it is at the
root, are as given too; the counter of the free values may have advanced. -/
def Sys2Proof.Claims.portSet (u s : State) (j : Junction) (t : Nat) (p : TPort) (hops : List JReq) (turn : Nat) : Prop :=
  u.tport j t = p ∧ (∀ j' t', t' < 512 → (j' ≠ j ∨ t' ≠ t) → u.tport j' t' = s.tport j' t') ∧
    u = { s with free := u.free, jnc := { s.jnc with ports := u.jnc.ports, hops := hops, turn := turn } }

/-- QOS and class at the entry of a cluster junction: a core's ports take them from its JNC_SQOS, in the control class; a chain's
requests take the descriptor's QOS, in the data class (14 R288, R290).  What came by an uplink or a downlink keeps its own. -/
def Sys2Proof.Claims.EntersWith (s : State) (j : Junction) (t : Nat) (r : JReq) : Prop :=
  let e := s.atEntry j t r
  (∀ (c : Fin 4) (k : Fin 8) (n : CoreId), j = .cluster c → n.val = 8 * c.val + k.val →
    (r.master = 8 + k.val → e = { r with qos := s.cores[n].sqos.extractLsb' 0 4, control := true, trail := [] }) ∧
    (r.master = 16 + k.val → e = { r with qos := s.cores[n].sqos.extractLsb' 4 4, control := true, trail := [] })) ∧
  (∀ (c : Fin 4) (k : Fin 8) (n : ChainId) (l : Run) (q : Stn) (ws : List Wire), j = .cluster c → n.val = 8 * c.val + k.val →
    r.master = k.val → s.chains[n].run = some l → l.launch.rows.find? (fun p => p.1.code = r.unit) = some (q, ws) →
    q.kind ≠ .dec → e = { r with qos := q.qos (descOf l.launch.sregs q), control := false, trail := [] }) ∧
  ∀ h, (j = .root ∧ r.master < 4 ∨ j ≠ .root ∧ r.master = 24) →
    s.jnc.hops.find? (fun h => h.master = r.master && h.tag = r.tag) = some h →
    e = { r with qos := h.qos, control := h.control, unit := h.unit, trail := h.trail }

/-- What keeps a request at its master port: its core is gated; a core has four reads or eight writes that no target has accepted;
a TGL port has no credit for the whole response (14 R291; 09 R191; 17 R367). -/
def Sys2Proof.Claims.KeptAtMaster (s : State) (j : Junction) (e : JReq) : Prop :=
  ((∃ n, portCore j e.master = some n ∧ s.pwr.gated.getLsbD n.val = true) → s.mayIssue j e = false) ∧
  (∀ c : Fin 4, j = .cluster c → 8 ≤ e.master → e.master < 16 →
    let mine := (s.unaccepted j e.master).map (·.2)
    ((hasData e = true ∧ 4 ≤ (mine.filter hasData).length ∨ hasData e = false ∧ 8 ≤ (mine.filter fun q => !hasData q).length) →
      s.mayIssue j e = false)) ∧
  ∀ p : PortId, j = .root → e.master = 4 + p.val →
    s.tgl[p].vcs[vcFin (if e.control then 3 else 1)].credit < jreqSlots e → s.mayIssue j e = false

/-- REQUEST_ARRIVAL and GRANT_END: a request waits with the QOS and the class of its entry, and passes at once in a lay-by of its
own master; one whose master holds no space for the response, or that finds no toll of its class, does not arrive; a
control-class one waits while another of its master is unaccepted at another port.  A port that grants decides nothing.  A grant that
ends in a lay-by passes the next request of its master without a decision; one that ends with nothing waiting leaves a lay-by
where they are on, and the request goes on by the uplink with its QOS; at the root the grant ends in the ports' turn (14 R279,
R281, R282, R285, R288, R290, R291; 17 R367). -/
def Sys2Proof.Claims.GrantsDecided : Prop :=
  ∀ (j : Junction) (t : Nat) (s : State), targetExists j t = true → s.clocksOff = false →
    let p := s.tport j t
    (∀ r : JReq, masterExists j r.master = true →
      let e := s.atEntry j t r
      let hops := s.jnc.hops.filter fun h => !(h.master = r.master && h.tag = r.tag)
      let new : Waiting := { req := e, lost := 0 }
      Sys2Proof.Claims.EntersWith s j t r ∧ Sys2Proof.Claims.KeptAtMaster s j e ∧
      (s.mayIssue j e = true → s.controlElsewhere j t e = false → p.roomFor e.control = true →
        (¬ (s.laybyOn j = true ∧ p.layby = some r.master) →
          ∃ u, exec (.requestArrival j t [r]) s = .next u ∧ Sys2Proof.Claims.portSet u s j t
            { p with layby := none, waiting := p.waiting ++ [new] } hops s.jnc.turn) ∧
        (s.laybyOn j = true → p.layby = some r.master →
          ∃ u, exec (.requestArrival j t [r]) s = .next u ∧ Sys2Proof.Claims.portSet u s j t
            (if p.grant = none ∧ p.waiting = [] then { p with grant := some e } else { p with waiting := p.waiting ++ [new] })
            hops s.jnc.turn)) ∧
      (s.controlElsewhere j t e = true ∨ s.mayIssue j e = false ∨ p.roomFor e.control = false →
        ∃ u, exec (.requestArrival j t [r]) s = .next u ∧ u = { s with free := u.free })) ∧
    (∀ r, p.grant = some r →
      let on : Prop := s.laybyOn j = true
      let after : TPort := if on ∧ p.layby ≠ none
        then { grant := p.waiting.head?.map (·.req), layby := p.layby, waiting := p.waiting.tail }
        else { grant := none, layby := if p.waiting = [] ∧ on then some r.master else none, waiting := p.waiting }
      let onward := fun (m : Nat) => ({ r with master := m, trail := r.trail ++ [(junctionIx j, r.master, t)] } : JReq)
      exec (.junctionDecision j t) s = .next s ∧
      (∀ c : Fin 4, j = .cluster c → ∃ u, exec (.grantEnd j t) s = .next u ∧
        Sys2Proof.Claims.portSet u s j t after (s.jnc.hops ++ if t = 256 then [onward c.val] else []) s.jnc.turn) ∧
      (j = .root → s.jnc.turn < 31 →
        (∀ t' < 31, t' ≠ t → (s.tport .root t').grant ≠ none → (t + 31 - s.jnc.turn) % 31 < (t' + 31 - s.jnc.turn) % 31) →
        ∃ u, exec (.grantEnd j t) s = .next u ∧
          Sys2Proof.Claims.portSet u s j t after
            (s.jnc.hops ++ if 26 ≤ t ∧ t < 30 then [onward 24] else []) ((t + 1) % 31)))

/-- JUNCTION_DECISION chooses among the oldest request of each master in each class, so that a master's requests are granted in
the order issued: an aged one whatever the keys, the oldest first; with none aged the greatest PRI << 4 | QOS, the oldest of
equals.  Every other waiting request loses the decision, and AGE_LIMIT lost ones age a request (14 R284, with R283, R289).
The model's own choice here, no rule of the spec: a decision is a command of its own (log entry 11). -/
def Obligations.AgedRequestsOutrank : Prop :=
  ∀ (j : Junction) (t : Nat) (s : State), targetExists j t = true → s.clocksOff = false →
    let p := s.tport j t
    let limit := (s.jnc.cfg.extractLsb' 8 8).toNat
    let aged := fun (x : Waiting) => limit ≠ 0 ∧ limit ≤ x.lost
    let key := fun (x : Waiting) => s.pri j x.req.master t * 16 + x.req.qos.toNat
    let stands := fun (k : Nat) (x : Waiting) => p.waiting[k]? = some x ∧ ∀ i y, i < k → p.waiting[i]? = some y →
      ¬ (y.req.master = x.req.master ∧ y.req.control = x.req.control)
    p.grant = none → p.waiting ≠ [] →
      ∃ u i w, exec (.junctionDecision j t) s = .next u ∧ stands i w ∧
        Sys2Proof.Claims.portSet u s j t
          { grant := some w.req, layby := none
            waiting := (p.waiting.eraseIdx i).map fun x => { x with lost := x.lost + 1 } } s.jnc.hops s.jnc.turn ∧
        ((∃ k x, stands k x ∧ aged x) → aged w ∧ ∀ k x, k < i → stands k x → ¬ aged x) ∧
        ((∀ k x, stands k x → ¬ aged x) → ∀ k x, stands k x → key x ≤ key w ∧ (k < i → key x ≠ key w))

/-- BCLK_PERIOD: JNC_TIME advances.  The lag counter of a destination slot advances while a request waits for its budget; that
of a port, while an admitted request waits there for link credits alone; that of a controller, while it keeps a request of its
port waiting; that of an output station, while writes or atomics of its stream wait for acceptance.  No other counts, and an event is raised when the watched
bit goes from 0 to 1 (14 R296, R297). -/
def Sys2Proof.Claims.LagCountersCount : Prop :=
  ∀ (ws : List Nat) (s : State),
    let one := fun (v : Word) => BitVec.ofNat 64 (min (v.toNat + 1) (2 ^ 64 - 1))
    let b := (s.jnc.lagCfg.extractLsb' 0 6).toNat
    let room := max 1 (s.jnc.rBudget.toNat % 4096) * 1024
    let waits := fun (k : Fin 64) => room ≤ s.jnc.slots[k].out ∧
      ∃ q ∈ s.xl.remote, q.msg.control = false ∧ q.slot = none ∧ s.jnc.slotFor (q.msg.addr.toNat / 2 ^ 44) = some k
    let short := fun (p : PortId) => s.tgl[p].up = true ∧
      ∃ x ∈ s.tgl[p].hold, isRequest x.1 = true ∧ s.verdict p x = .pass ∧ s.tgl[p].vcs[vcFin (vcOf x)].credit < slotsOf x
    let holds := fun (n : CtrlId) => (s.tport .root n.val).grant ≠ none ∨ (s.tport .root n.val).waiting ≠ [] ∨
      ∃ h ∈ s.cxl.held, (ddrSplit (h.line * 64)).1 = n
    let steps := fun (u : State) (count : Prop) (v v' : Word) (src : Option Nat) =>
      (count → v' = one v ∧ ∀ e, src = some e → s.jnc.lagCfg.getLsbD 8 = true → v.getLsbD b = false →
        (one v).getLsbD b = true → u.pendingSrc e = true) ∧ (¬ count → v' = v)
    (s.bclkStopped = true → exec (.bclkPeriod ws) s = .next s) ∧
    (s.bclkStopped = false → ∃ u, exec (.bclkPeriod ws) s = .next u ∧ u.jnc.time = s.jnc.time + 1 ∧
      u.mem = s.mem ∧ u.cores = s.cores ∧ u.chains = s.chains ∧ u.tgl = s.tgl ∧ u.xl = s.xl ∧ u.jnc.ports = s.jnc.ports ∧
      (∀ n : Fin 16, steps u (holds n ∧ (n.val ∈ ws ∨ s.ctrlStopped n = true)) s.jnc.dlag[n] u.jnc.dlag[n] (some (0x2F0 + n.val))) ∧
      (∀ k : Fin 64, u.jnc.slots[k] = { s.jnc.slots[k] with lag := u.jnc.slots[k].lag } ∧
        steps u (waits k) s.jnc.slots[k].lag u.jnc.slots[k].lag (some (0x300 + k.val))) ∧
      (∀ p : PortId, steps u (short p) s.jnc.plag[p] u.jnc.plag[p] (some (0x340 + p.val))) ∧
      (∀ (c : ChainId) (r : Run) (x : Nat) (q : Stn) (l : List Wire), s.chains[c].run = some r →
        (r.launch.rows.map (·.1.code)).Nodup → r.launch.rows[x]? = some (q, l) → q.kind = .out → q.code ≤ 0x12 →
        let i := 32 * c.val + q.code
        steps u ((∃ d ∈ s.chains[c].drains, ∃ w ∈ d.writes, w.stream = q.code) ∨
          ∃ k ∈ r.strips, ∃ sr, k.stations[x]? = some sr ∧ sr.flight ≠ []) (cellGet s.jnc.slag i) (cellGet u.jnc.slag i)
          none) ∧
      ∀ (c : ChainId) (i : Nat), i < 32 → s.chains[c].run = none →
        cellGet u.jnc.slag (32 * c.val + i) = cellGet s.jnc.slag (32 * c.val + i))

/-- The message goes out now: its entry in the active table is valid and its primary port up, nothing waits at the port, which is
in state NORMAL with the peer at version 1.1, holds the credits and may have the frames unacknowledged (16 R324, R329 to
R331, R342). -/
def Sys2Proof.Claims.wayOut (s : State) (x : Packet) (p : PortId) : Prop :=
  let e := s.routeEntry (x.2.addr.toNat / 2 ^ 44)
  s.xl.culdesac = false ∧ e.getLsbD 31 = true ∧ p.val = (e.extractLsb' 0 3).toNat ∧ s.tgl[p].up = true ∧
    s.tgl[p].hold = [] ∧ s.tgl[p].rel = 2 ∧ s.tgl[p].minor ≠ 0 ∧ s.tgl[p].room (vcOf x) (slotsOf x) = true

/-- The message has gone out at port `p`: its slots are sent in sequenced frames, and a request of this device waits for its
response. -/
def Sys2Proof.Claims.gone (s : State) (x : Packet) (p : PortId) : State :=
  ((s.sendSlots p (vcOf x) (packetSlots x)).markSent x).emit (.tglMsg p x.1 x.2)

/-- DESTINATION_ADMISSION: a data-class request whose slot holds fewer bytes than the budget takes the slot, which counts its
bytes, and goes out; at the budget it waits, and behind an earlier request of the same uplink for the same destination
(14 R292). -/
def Sys2Proof.Claims.DestinationsAdmit : Prop :=
  ∀ (tid : BitVec 16) (q : RemoteReq) (s : State),
    s.xl.remote.find? (·.tid = tid) = some q → q.msg.control = false → q.slot = none →
    (earlierWaits q s.xl.remote = true → exec (.destinationAdmission tid) s = .next s) ∧
    ∀ k : Fin 64, earlierWaits q s.xl.remote = false → s.jnc.slotFor (q.msg.addr.toNat / 2 ^ 44) = some k →
    let room := max 1 (s.jnc.rBudget.toNat % 4096) * 1024
    (room ≤ s.jnc.slots[k].out → exec (.destinationAdmission tid) s = .next s) ∧
    (∀ p : PortId, s.jnc.slots[k].out < room → Sys2Proof.Claims.wayOut s (q.opc, q.msg) p →
      ∃ v, v.jnc.slots[k].out = s.jnc.slots[k].out + (if q.opc = 0x03 then 8 else q.msg.len) ∧
        v.jnc.slots[k].node = BitVec.ofNat 20 (q.msg.addr.toNat / 2 ^ 44) ∧ v.jnc.slots[k].valid = true ∧
        (∀ m, m ≠ k → v.jnc.slots[m] = s.jnc.slots[m]) ∧ v.mem = s.mem ∧ v.cores = s.cores ∧ v.chains = s.chains ∧
        v.tgl = s.tgl ∧ v.xl.remote = s.xl.remote.map (fun r => if r.tid = tid then { r with slot := some k } else r) ∧
        exec (.destinationAdmission tid) s = .next (Sys2Proof.Claims.gone v (q.opc, q.msg) p))

/-- Register accesses of every width (02 R26 to R37).
The model's own choice here, no rule of the spec: an access of a gated block, and the path that a row's command takes
(log entry 102), the two halves of a wide access act together (log entry 146), and the layout of the configuration
space (log entry 143). -/
def Obligations.RegisterAccessesAct : Prop := Sys2Proof.Claims.RegisterWrites ∧ Sys2Proof.Claims.RegisterReads

/-- The junction (14 R282 to R297).
The model's own choice here, no rule of the spec: lay-bys and the control class (log entry 86), a controller whose
rate keeps its port waiting is the command's operand (log entry 87), the root's capacity (log entry 106), and the
choice of a slot (log entry 88). -/
def Obligations.JunctionArbitrates : Prop :=
  Sys2Proof.Claims.GrantsDecided ∧ Sys2Proof.Claims.LagCountersCount ∧ Sys2Proof.Claims.DestinationsAdmit

/-! ## The Tchigor link: training, loss, frames, heartbeats (16 R320 to R323, R329, R330, R341, R342) -/

/-- Memory, cores, chains and every other port are as they were. -/
def Sys2Proof.Claims.elsewhere (u s : State) (p : PortId) : Prop :=
  u.mem = s.mem ∧ u.cores = s.cores ∧ u.chains = s.chains ∧ ∀ q, q ≠ p → u.tgl[q] = s.tgl[q]

/-- This device's training frame on a port where `own` halves are locked: kind TRAINING, slot 0 with the device's identity, the
protocol version 1.1, its waymark and the sizes of its receive buffers (16 R321, R323, R328). -/
def Sys2Proof.Claims.trainingOf (s : State) (p : PortId) (own : BitVec 2) : TrainFrame :=
  { serial := s.chip.serial, node := s.xl.node, port := BitVec.ofNat 8 p.val, lanes := own, major := 1, minor := 1
    epoch := s.xl.epoch, digest0 := s.xl.digest[0], digest1 := s.xl.digest[1]
    credits := [256, 1024, 64, 64, 256, 1024, 64, 64, 64] }

/-- Where a training frame's bytes stand (16 R321, R323). -/
def Sys2Proof.Claims.TrainingLaidOut : Prop :=
  ∀ (s : State) (p : PortId) (own : BitVec 2),
    let b := trainBytes (Sys2Proof.Claims.trainingOf s p own)
    b.length = 288 ∧ fieldAt b 0 8 = s.chip.serial.toNat ∧ fieldAt b 8 4 = s.xl.node.toNat ∧ fieldAt b 12 1 = p.val ∧
      fieldAt b 13 1 = own.toNat ∧ fieldAt b 14 2 = 0x0101 ∧ fieldAt b 16 8 = s.xl.epoch.toNat ∧
      fieldAt b 24 8 = s.xl.digest[0].toNat ∧ fieldAt b 32 8 = s.xl.digest[1].toNat ∧ fieldAt b 40 2 = 256 ∧
      fieldAt b 42 2 = 1024 ∧ fieldAt b 56 2 = 64 ∧ fieldAt b 280 2 = 0x2000 ∧ fieldAt b 285 3 = crc24 (b.take 285)

/-- The port has begun to train again: it has sent its own training frame, with the halves that it takes for locked, which only
a peer's frame shows (16 R320, R321). -/
def Sys2Proof.Claims.trainsAgain (s : State) (p : PortId) : State :=
  let own : BitVec 2 := BitVec.ofNat 2 (1 + Config.freeNat s.free % 3)
  { (s.modTgl p fun t => { t with train := none, same := 0, locked := own }) with
    free := s.free + 1, out := s.out ++ [.tglFrame p (trainBytes (Sys2Proof.Claims.trainingOf s p own))] }

/-- TRAINING_FRAME and TRAINING_TIMEOUT: the device answers each with its own frame; the eighth identical frame in a row brings
the link up at major version 1, with the lower minor version, on eight lanes where both ends have locked both halves, with
the peer's credits and state TRAINING, raises the link's events, and sends an unassigned device with an assigned neighbour
to the cul-de-sac; a peer of another major version and 100 ms without lock leave it down with the reason, and it trains again (16 R320 to R322,
R342, R348). -/
def Sys2Proof.Claims.LinksTrain : Prop :=
  ∀ (p : PortId) (own : BitVec 2) (tf : TrainFrame) (s : State), s.canTrain p = true → s.tgl[p].up = false →
    let n := if s.tgl[p].train = some tf then s.tgl[p].same + 1 else 1
    let frame := Out.tglFrame p (trainBytes (Sys2Proof.Claims.trainingOf s p own))
    (own ≠ 0 → tf.lanes ≠ 0 → n < 8 →
      exec (.trainingFrame p ⟨own, tf⟩) s =
        .next ((s.modTgl p fun t => { t with train := some tf, same := n, locked := own }).emit frame)) ∧
    (own ≠ 0 → tf.lanes ≠ 0 → 8 ≤ n → tf.major = 1 →
      ∃ u, exec (.trainingFrame p ⟨own, tf⟩) s = .next u ∧ Sys2Proof.Claims.elsewhere u s p ∧
        u.tgl[p].up = true ∧ u.tgl[p].rel = 1 ∧ u.tgl[p].major = 1 ∧ u.tgl[p].minor = (if tf.minor = 0 then 0 else 1) ∧
        u.tgl[p].lanes = (if tf.lanes = 3 ∧ own = 3 then 2 else 1) ∧ u.tgl[p].peer = tf.serial ∧
        u.tgl[p].peerNode = tf.node ∧ u.tgl[p].sent = [] ∧ u.tgl[p].rx = s.tgl[p].rx ∧ u.tgl[p].rxOpen = none ∧ u.tgl[p].txSeq = 0 ∧ u.tgl[p].hb = none ∧
        (∀ v : Fin 9, u.tgl[p].vcs[v] = { credit := ((tf.credits[v.val]?).getD 0).toNat, used := 0, owed := 0 }) ∧
        frame ∈ u.out ∧ u.pendingSrc (0x200 + 16 * p.val) = true ∧
        (tf.lanes ≠ 3 ∨ own ≠ 3 → u.pendingSrc (0x201 + 16 * p.val) = true) ∧
        u.xl.culdesac = (s.xl.culdesac || (!s.xl.node.getLsbD 0 && tf.node.getLsbD 0))) ∧
    (own ≠ 0 → tf.lanes ≠ 0 → 8 ≤ n → tf.major ≠ 1 →
      exec (.trainingFrame p ⟨own, tf⟩) s =
        .next (Sys2Proof.Claims.trainsAgain ((s.modTgl p fun t => { t with downr := 4 }).emit frame) p)) ∧
    exec (.trainingTimeout p) s = .next (Sys2Proof.Claims.trainsAgain (s.modTgl p fun t => { t with downr := 1 }) p)

/-- An up port has gone down for a reason: DOWN, without credits or frames outstanding, with the link's event; the messages of
accepted frames stay in its buffer (16 R333), and where it can train it sends its training frame. -/
def Sys2Proof.Claims.fallen (u s : State) (p : PortId) (reason : BitVec 4) : Prop :=
  let stays := s.tgl[p].rx.filter fun r => match r.body with
    | .mgt m => m.opc ≠ 0x40
    | .routed _ _ => true
  Sys2Proof.Claims.elsewhere u s p ∧ u.xl = s.xl ∧ u.tgl[p].up = false ∧ u.tgl[p].rel = 0 ∧ u.tgl[p].downr = reason ∧
    u.tgl[p].lanes = 0 ∧ u.tgl[p].sent = [] ∧ u.tgl[p].rx.map (·.body) = stays.map (·.body) ∧ (∀ r ∈ u.tgl[p].rx, r.slots = 0) ∧ u.tgl[p].hold = [] ∧ u.tgl[p].mgt = [] ∧
    u.tgl[p].hb = none ∧
    u.tgl[p].err = s.tgl[p].err ∧ u.pendingSrc (0x200 + 16 * p.val) = true ∧
    (u.canTrain p = true → ∃ own, Out.tglFrame p (trainBytes (Sys2Proof.Claims.trainingOf s p own)) ∈ u.out)

/-- FEC_LOCK_LOSS, HEARTBEAT_MISS, REPLAY_TIMEOUT after the sixteenth replay, and TGL_PORT_ENABLE with EN 0 take an up port down,
each with its reason; a replay sends every unacknowledged frame again, which REPLAY counts once (log entry 112); TGL_PORT_ENABLE with EN 1 has the port train where it was not
enabled and can (16 R320, R330, R333, R341; Registers). -/
def Sys2Proof.Claims.LinksFall : Prop :=
  ∀ (p : PortId) (s : State), s.tgl[p].hold = [] →
    (s.tgl[p].up = true →
      (∃ u, exec (.fecLockLoss p) s = .next u ∧ Sys2Proof.Claims.fallen u s p 2) ∧
      (∃ u, exec (.heartbeatMiss p) s = .next u ∧ Sys2Proof.Claims.fallen u s p 5) ∧
      (s.tgl[p].sent ≠ [] → 16 ≤ s.tgl[p].replays →
        ∃ u, exec (.replayTimeout p) s = .next u ∧ Sys2Proof.Claims.fallen u s p 3 ∧
          u.pendingSrc (0x203 + 16 * p.val) = true) ∧
      (s.tgl[p].sent ≠ [] → s.tgl[p].replays < 16 →
        let t := s.tgl[p]
        let v := s.modTgl p fun t => { t with replays := t.replays + 1, err := errAdd t.err true }
        exec (.replayTimeout p) s = .next { v with
          out := s.out ++ t.sent.map fun f => .tglFrame p (frameBytes 0 f t.rxSeq false) }) ∧
      (s.tgl[p].sent = [] → exec (.replayTimeout p) s = .next s)) ∧
    (∀ src : Src, s.reaches src (0x2000004 + 0x100000 * p.val) = true →
      (s.tgl[p].en = true → exec (.tglPortEnable src p true) s = .next s) ∧
      (s.tgl[p].en = false → s.tgl[p].up = false →
        let v := s.modTgl p fun t => { t with en := true }
        exec (.tglPortEnable src p true) s = .next (if v.canTrain p = true then Sys2Proof.Claims.trainsAgain v p else v)) ∧
      (s.tgl[p].en = true → s.tgl[p].up = true →
        ∃ u, exec (.tglPortEnable src p false) s = .next u ∧ Sys2Proof.Claims.fallen u s p 6 ∧ u.tgl[p].en = false) ∧
      (s.tgl[p].en = true → s.tgl[p].up = false →
        exec (.tglPortEnable src p false) s =
          .next (s.modTgl p fun t => { t with en := false, downr := 6, train := none, same := 0, locked := 0 })))

/-- FRAME_RECEIVE: a frame with an error is counted and answered with NAK, once until the frame that is missing comes; the next frame in order fills the receive buffer with
its slots, is acknowledged, and its credits and acknowledgement are taken; a repeated frame is discarded, and one after a
gap is discarded with NAK (16 R323, R324, R329, R330). -/
def Sys2Proof.Claims.FramesReceived : Prop :=
  ∀ (p : PortId) (frame : List Byte) (fecOk : Bool) (s : State), s.tgl[p].up = true →
    let t := s.tgl[p]
    let fcw := frame.drop 256
    let good := fecOk = true ∧ frame.length = 288 ∧ crc24 (frame.take 285) = fieldAt fcw 29 3
    let seq := fieldAt fcw 24 2 % 4096
    let kind := fieldAt fcw 24 2 / 4096
    let ack := fieldAt fcw 26 2
    let ret := fieldAt fcw 28 1
    let acked := (ack % 4096 + 4097 - (t.txSeq.toNat + 4096 - t.sent.length % 4096) % 4096) % 4096
    let left := if acked ≤ t.sent.length ∧ 0 < acked then t.sent.drop acked else t.sent
    let quiet := t.hold = [] ∧ t.mgt = [] ∧ (∀ v : Fin 9, t.vcs[v].owed = 0)
    let filled := (List.range 4).foldl (fun (t : Tgl) i => t.fillSlot (fieldAt fcw (6 * i) 6) (sliceAt frame (64 * i) 64))
      { t with rxSeq := BitVec.ofNat 12 seq, nakSent := false }
    let empty := ∀ i < 4, fieldAt fcw (6 * i) 6 % 8 = 0
    let idle := fun (r : BitVec 12) (nak : Bool) => Out.tglFrame p (idleBytes t.txSeq r nak)
    let dropped := fun (nak : Bool) =>
      ((s.modTgl p fun t => { t with nakSent := t.nakSent || nak, err := errAdd t.err false }).emit
        (idle t.rxSeq (nak && !t.nakSent)))
    (¬ good → exec (.frameReceive p frame fecOk) s = .next (dropped true)) ∧
    (good → kind = 0 → seq = (t.rxSeq.toNat + 1) % 4096 → ack < 4096 → quiet →
      ∃ u more, exec (.frameReceive p frame fecOk) s = .next u ∧ Sys2Proof.Claims.elsewhere u s p ∧ u.xl = s.xl ∧
        u.out = s.out ++ idle (BitVec.ofNat 12 seq) false :: more ∧ u.tgl[p].rxSeq = BitVec.ofNat 12 seq ∧
        u.tgl[p].nakSent = false ∧ u.tgl[p].err = t.err ∧ left <+: u.tgl[p].sent ∧
        u.tgl[p].rx = filled.rx ∧ u.tgl[p].rxOpen = filled.rxOpen ∧
        (empty → more = [] ∧ u.tgl[p].sent = left ∧ u.tgl[p].rx = t.rx ∧ u.tgl[p].rxOpen = t.rxOpen) ∧
        ∀ v : Fin 9, u.tgl[p].vcs[v].credit = t.vcs[v].credit + (if v.val = ret % 16 then ret / 16 else 0)) ∧
    (good → kind = 0 → seq ≠ (t.rxSeq.toNat + 1) % 4096 →
      exec (.frameReceive p frame fecOk) s = .next (dropped (decide ((seq + 4095 - t.rxSeq.toNat) % 4096 < 2048)))) ∧
    (good → kind = 1 → t.nakSent = false → ack < 4096 → quiet →
      exec (.frameReceive p frame fecOk) s = .next (if acked ≤ t.sent.length ∧ 0 < acked then
        s.modTgl p fun t => { t with sent := left, replays := 0 } else s)) ∧
    (good → kind = 1 → t.nakSent = true → exec (.frameReceive p frame fecOk) s = .next (dropped false))

/-- Sending one to four slots of a VC spends their credits and sends one sequenced frame that awaits acknowledgement: its slots
and their descriptors, SEQ, ACK and NAK, no credit return, and the CRC stand where the flit and the control word have them
(16 R323, R329, R330). -/
def Sys2Proof.Claims.FramesSent : Prop :=
  ∀ (p : PortId) (v : Fin 9) (slots : List FlitSlot) (s : State),
    slots ≠ [] → slots.length ≤ 4 → (∀ x ∈ slots, x.bytes.length = 64) →
    let t := s.tgl[p]
    let f : TxFrame := { slots := slots, seq := t.txSeq, cvc := 15, ccnt := 0 }
    let b := frameBytes 0 f t.rxSeq false
    s.sendSlots p v.val slots = ((s.modTgl p fun t => { t with
      vcs := t.vcs.set v { t.vcs[v] with credit := t.vcs[v].credit - slots.length }
      txSeq := t.txSeq + 1, sent := t.sent ++ [f] }).emit (.tglFrame p b)) ∧
    b.length = 288 ∧ (∀ i x, slots[i]? = some x → sliceAt b (64 * i) 64 = x.bytes ∧ fieldAt b (256 + 6 * i) 6 = x.desc.toNat) ∧
    fieldAt b 280 2 = t.txSeq.toNat ∧ fieldAt b 282 2 = t.rxSeq.toNat ∧
    fieldAt b 284 1 = 15 ∧ fieldAt b 285 3 = crc24 (b.take 285)

/-- HEARTBEAT_SEND sends the device's waymark to the peer where the management channel has room, in one HDR and one DATA slot
(16 R338, R341). -/
def Sys2Proof.Claims.HeartbeatsSent : Prop :=
  ∀ (p : PortId) (s : State),
    let b := heartbeatBytes (s.ownHeartbeat p)
    let x := s.xl
    let h : MgtHdr := { fhops := 0, fseq := 0, origin := s.chip.serial }
    let head := sliceAt ([0x40, 0, 0, 63, 0, 0, 0, 0] ++ bytesOf 8 s.chip.serial.toNat) 0 64
    (s.tgl[p].up = true → s.tgl[p].mgt = [] → s.tgl[p].room 8 2 = true →
      exec (.heartbeatSend p) s = .next
        ((s.sendSlots p 8 [{ desc := 0x41, bytes := head }, { desc := 3, bytes := b }]).emit (.tglMgt p 0x40 h b))) ∧
    (s.tgl[p].up = false → exec (.heartbeatSend p) s = .next s) ∧
    b.length = 64 ∧ fieldAt b 0 8 = s.chip.serial.toNat ∧ fieldAt b 8 4 = x.node.toNat ∧ fieldAt b 12 1 = p.val ∧
    fieldAt b 13 1 = (if x.culdesac then 1 else 0) + (if x.staged then 2 else 0) ∧ fieldAt b 14 2 = 0x0101 ∧
    fieldAt b 16 8 = x.epoch.toNat ∧ fieldAt b 24 8 = x.digest[0].toNat ∧ fieldAt b 32 8 = x.digest[1].toNat ∧
    fieldAt b 40 8 = (if x.staged then x.pEpoch.toNat else 0) ∧
    fieldAt b 48 8 = (if x.staged then x.pDigest[0].toNat else 0) ∧
    fieldAt b 56 8 = (if x.staged then x.pDigest[1].toNat else 0)

/-- HEARTBEAT and CATCHING_UP_EXPIRY: a heartbeat that stands first in the management channel's buffer is taken; the port takes the first state of R342 that applies; a higher epoch without a staged
waymark leads to the cul-de-sac; a waymark staged here and reached by the peer is committed (16 R342, R346 to R348). -/
def Sys2Proof.Claims.HeartbeatsJudged : Prop :=
  ∀ (p : PortId) (hb : HeartbeatMsg) (s : State),
    s.tgl[p].up = true → s.tgl[p].hold = [] → s.tgl[p].mgt = [] →
    (∃ r h, s.tgl[p].firstOf 8 = some r ∧ r.body = .mgt { opc := 0x40, h := h, payload := heartbeatBytes hb }) →
    let x := s.xl
    let took := fun (u : State) (rel : BitVec 4) => u.mem = s.mem ∧ u.cores = s.cores ∧ u.chains = s.chains ∧
      u.tgl[p].hb = some hb ∧ u.tgl[p].pepoch = hb.epoch ∧ u.tgl[p].peerNode = hb.node ∧ u.tgl[p].rel = rel
    let inside := x.culdesac = false ∧ hb.culdesac = false ∧ (x.node.getLsbD 0 = true ∨ hb.node.getLsbD 0 = false)
    (inside → x.staged = false → hb.staged = false → hb.epoch = x.epoch →
      ∃ u, exec (.heartbeat p hb) s = .next u ∧ u.xl = x ∧ took u
        (if hb.digest0 = x.digest[0] then (if hb.digest1 = x.digest[1] then 2 else 4) else 5)) ∧
    (x.staged = false → hb.staged = false → x.epoch.toNat < hb.epoch.toNat →
      ∃ u, exec (.heartbeat p hb) s = .next u ∧ took u 6 ∧ u.xl.culdesac = true ∧ u.xl.epoch = x.epoch ∧
        u.pendingSrc (0x205 + 16 * p.val) = true) ∧
    (inside → x.staged = false → s.tgl[p].ranOut = false → hb.staged = true → hb.pepoch = x.epoch →
      hb.pdigest0 = x.digest[0] → hb.pdigest1 = x.digest[1] →
      ∃ u, exec (.heartbeat p hb) s = .next u ∧ u.xl = x ∧ took u 3) ∧
    (∀ f, inside → s.tgl[p].ranOut = false → x.staged = true → x.pEpoch = hb.epoch → x.pDigest[0] = hb.digest0 →
      x.pDigest[1] = hb.digest1 → parseFabric x.stagedRec = some f →
      ∃ u, exec (.heartbeat p hb) s = .next u ∧ took u 3 ∧ u.xl.epoch = hb.epoch ∧ u.xl.digest = x.pDigest ∧
        u.xl.rtBank = !x.rtBank ∧ u.xl.staged = false ∧ u.xl.record = x.stagedRec ∧ u.xl.atomics = f.atomics ∧
        u.xl.remoteCsr = f.remote) ∧
    (s.tgl[p].rel = 3 → ∃ u, exec (.catchingUpExpiry p) s = .next u ∧ Sys2Proof.Claims.elsewhere u s p ∧ u.xl = x ∧
      u.tgl[p].rel = 5 ∧ u.tgl[p].ranOut = true)

/-- Links train, go down, are enabled and replay (16 R320 to R322, R330).
The model's own choice here, no rule of the spec: this end's lock of its lanes is the row's operand (log entry 111),
the seventeenth cause to replay takes the link down (log entry 112). -/
def Obligations.LinksTrainAndFall : Prop :=
  Sys2Proof.Claims.LinksTrain ∧ Sys2Proof.Claims.TrainingLaidOut ∧ Sys2Proof.Claims.LinksFall

/-- Frames and heartbeats (16 R323, R329, R330, R341, R342).
The model's own choice here, no rule of the spec: which frame a message takes (log entry 110), the numbers of the
first frames and a NAK once for a gap (log entry 111), bits of a header that the format leaves open (log entry 161),
and when relations are recomputed (log entry 117). -/
def Obligations.FramesAndHeartbeats : Prop :=
  Sys2Proof.Claims.FramesReceived ∧ Sys2Proof.Claims.FramesSent ∧ Sys2Proof.Claims.HeartbeatsSent ∧ Sys2Proof.Claims.HeartbeatsJudged

/-! ## Requests to other nodes and of other nodes (16 R325 to R327, R331, R335 to R337) -/

/-- The message stands first in its VC in the receive buffer of the port, where it stays when the link goes
down (16 R324, R333). -/
def Sys2Proof.Claims.standsFirst (s : State) (p : PortId) (opc : BitVec 8) (m : Msg) (r : RxMsg) : Prop :=
  s.tgl[p].firstOf (vcOf (opc, m)) = some r ∧ r.body = .routed opc m

/-- RD, WR and ATOM of this device: an access that its place in another node asks for is registered under its TID with the
message's address, source and class; a core's goes out in the control class at once, and a stream's, with its QOS, waits for
its destination slot; a TID in use registers nothing, nor does a core's request while its previous one is unanswered
(14 R288, R290, R292; 16 R325, R334, R336). -/
def Sys2Proof.Claims.OwnRequests : Prop :=
  ∀ row ∈ ([(Instr.rd, 0x01), (Instr.wr, 0x02), (Instr.atom, 0x03)] : List ((Origin → Msg → Instr) × BitVec 8)),
    ∀ (a : Asker) (m : Msg) (q : Request) (s : State),
    s.requestOf a = some q → q.opc = row.2 → s.asked q.who = false →
    let msg := s.requestMsg q m
    let entry : RemoteReq := { tid := m.tid, who := q.who, opc := row.2, msg := msg, sent := false, slot := none }
    let v := { s with xl := { s.xl with remote := s.xl.remote ++ [entry] } }
    (msg.tid = m.tid ∧ msg.src = BitVec.ofNat 20 s.nodeId ∧ msg.addr = q.ga ∧ msg.len = q.len ∧ msg.data = q.data ∧
      msg.hops = 0 ∧ msg.layer = false ∧ msg.control = q.core.isSome ∧
      (q.core = none → msg.qos = q.qos) ∧
      ∀ n levelF, q.core = some (n, levelF) → (msg.mc = true ↔ levelF = true ∧ 32 ≤ n.val)) ∧
    ((∀ x ∈ s.xl.remote, x.tid ≠ m.tid ∧ (q.core.isSome = true → x.msg.control = true → x.who.source ≠ q.who.source)) →
      (q.core = none → ∃ u, exec (row.1 (.own a) m) s = .next u ∧ u = { v with chains := u.chains } ∧
        ((∀ c att stream va, q.who ≠ .line c att stream va) → u.chains = s.chains) ∧
        ∀ c att stream va, q.who = .line c att stream va → u.chains = (s.lineAsked c att stream va).chains) ∧
      (∀ p : PortId, q.core.isSome = true → Sys2Proof.Claims.wayOut s (row.2, msg) p →
        exec (row.1 (.own a) m) s = .next (Sys2Proof.Claims.gone v (row.2, msg) p))) ∧
    ((∃ x ∈ s.xl.remote, x.tid = m.tid ∨
        (q.core.isSome = true ∧ x.msg.control = true ∧ x.who.source = q.who.source)) →
      exec (row.1 (.own a) m) s = .next s)

/-- What a core asks another node: the bytes of its load, the bytes of its oldest store, and its atomic, each at the address
where its translation leads (12 R243; 16 R325). -/
def Sys2Proof.Claims.CoreRequests : Prop :=
  ∀ (n : CoreId) (ga : Word) (s : State),
    (∀ (l : Load), s.cores[n].loadOf l.seq = some l → l.loc = .remote ga → s.portTurn n l.seq = true →
      (∀ size sext, l.kind = .read size sext → s.requestOf (.load n l.seq) =
        some { who := .load n l.seq, opc := 0x01, ga := ga, len := size, data := [], aop := 0, ret := false,
               core := some (n, !l.levelK), qos := 0 }) ∧
      (∀ v, l.kind = .aadd v → s.requestOf (.load n l.seq) =
        some { who := .load n l.seq, opc := 0x03, ga := ga, len := 8, data := bytesOf 8 v.toNat, aop := 0, ret := true,
               core := some (n, !l.levelK), qos := 0 }) ∧
      (∀ v, l.kind = .aswp v → s.requestOf (.load n l.seq) =
        some { who := .load n l.seq, opc := 0x03, ga := ga, len := 8, data := bytesOf 8 v.toNat, aop := 2, ret := true,
               core := some (n, !l.levelK), qos := 0 })) ∧
    (∀ x rest, s.cores[n].stores = x :: rest → x.loc = .remote ga → s.loadBefore n x.seq = false →
      s.requestOf (.store n) = some { who := .store n, opc := 0x02, ga := ga, len := x.bytes.length, data := x.bytes, aop := 0,
                                      ret := false, core := some (n, !x.levelK), qos := 0 })

/-- RD, WR and ATOM that a port receives for this node: scratch answers and is written, an atomic stores its sum or word and
answers the old one where it is asked for; registers answer a management core's control-class request where REMOTE_CSR
allows it; what the node cannot serve is refused with its reason; without credits for the response the request waits
(14 R291; 16 R327, R335). -/
def Sys2Proof.Claims.RequestsServed : Prop :=
  ∀ (p q : PortId) (m : Msg) (r : RxMsg) (s : State),
    let off := m.addr.toNat % 2 ^ 44
    let here := fun (opc : BitVec 8) => Sys2Proof.Claims.standsFirst s p opc m r ∧ s.responseRoom p (opc, m) = true
    let at' := s.takeRx p r
    let resp := fun (bytes : List Byte) => respMsg m bytes false 0
    let refused := fun (opc : BitVec 8) (reason : Nat) => here opc ∧
      Sys2Proof.Claims.wayOut at' (0x22, respMsg m [] false reason) q ∧ m.src.toNat ≠ s.nodeId
    let refusal := fun (reason : Nat) =>
      (Host.Outcome.next (Sys2Proof.Claims.gone at' (0x22, respMsg m [] false reason) q) : Outcome)
    let alike := fun (v : State) => v.tgl = at'.tgl ∧ v.xl = s.xl ∧ v.cores = s.cores ∧
      v.chains = s.chains
    s.xl.culdesac = false → m.addr.toNat / 2 ^ 44 = s.nodeId →
    (Sys2Proof.Claims.standsFirst s p 0x01 m r → s.responseRoom p (0x01, m) = false → exec (.rd (.port p) m) s = .next s) ∧
    (s.place off = .scratch → s.populated off m.len = true →
      (∀ x, x = (if m.control then (0x20 : BitVec 8) else 0x23, resp (s.memRead off m.len)) → s.poisoned off m.len = false →
        here 0x01 → Sys2Proof.Claims.wayOut at' x q →
        ∃ v, exec (.rd (.port p) m) s = .next (Sys2Proof.Claims.gone v x q) ∧ v.mem = s.mem ∧ alike v) ∧
      (here 0x02 → Sys2Proof.Claims.wayOut at' (0x21, resp []) q →
        ∃ v, exec (.wr (.port p) m) s = .next (Sys2Proof.Claims.gone v (0x21, resp []) q) ∧ alike v ∧
          v.mem.cells = writeCells s.mem.cells off (m.data.take m.len))) ∧
    (∀ x f, s.place off = .scratch → s.populated off 8 = true → off % 8 = 0 → s.xl.atomics = true →
      s.poisoned off 8 = false → here 0x03 →
      (m.aop = 0 ∧ f = (fun a b : Word => a + b) ∨ m.aop = 1 ∧ f = bankAddF64 ∨ m.aop = 2 ∧ f = (fun _ b => b)) →
      x = (if m.ret then (0x20 : BitVec 8) else 0x21, resp (if m.ret then s.memRead off 8 else [])) →
      Sys2Proof.Claims.wayOut (at') x q →
      ∃ v, exec (.atom (.port p) m) s = .next (Sys2Proof.Claims.gone v x q) ∧ alike v ∧
        v.mem.cells = writeCells s.mem.cells off (bytesOf 8 (f (wordOf (s.memRead off 8)) (wordOf m.data)).toNat)) ∧
    (s.place off = .csr → s.populated off m.len = true → s.csrWaits (off - csrBase) m.len = false →
      (m.control = true → m.mc = true → s.xl.remoteCsr = true →
        (let c := at'.csrBytes .fabric (off - csrBase) m.len
         here 0x01 → Sys2Proof.Claims.wayOut c.1 (0x20, resp c.2) q →
          exec (.rd (.port p) m) s = .next (Sys2Proof.Claims.gone c.1 (0x20, resp c.2) q)) ∧
        (let v := at'.csrPut .fabric (off - csrBase) (m.data.take m.len)
         here 0x02 → Sys2Proof.Claims.wayOut v (0x21, resp []) q →
          exec (.wr (.port p) m) s = .next (Sys2Proof.Claims.gone v (0x21, resp []) q))) ∧
      (m.control = false ∨ m.mc = false ∨ s.xl.remoteCsr = false →
        (refused 0x01 2 → exec (.rd (.port p) m) s = refusal 2) ∧
        (refused 0x02 2 → exec (.wr (.port p) m) s = refusal 2))) ∧
    (s.place off = .nothing →
      (refused 0x01 1 → exec (.rd (.port p) m) s = refusal 1) ∧
      (refused 0x02 1 → exec (.wr (.port p) m) s = refusal 1) ∧
      (refused 0x03 1 → exec (.atom (.port p) m) s = refusal 1)) ∧
    (s.place off = .scratch → s.populated off 8 = true → off % 8 ≠ 0 ∨ s.xl.atomics = false → refused 0x03 3 →
      exec (.atom (.port p) m) s = refusal 3)

/-- A message for another node goes on, one hop more, at the primary port or, where that is down, in layer 1 at the detour; the
sixteenth hop and a node without a usable route are refused with their reasons; in the cul-de-sac nothing enters, and a
refusal that is refused is dropped; what has not arrived changes nothing (16 R327, R331). -/
def Sys2Proof.Claims.MessagesPass : Prop :=
  ∀ row ∈ ([(fun p m => Instr.rd (.port p) m, 0x01), (fun p m => Instr.wr (.port p) m, 0x02),
      (fun p m => Instr.atom (.port p) m, 0x03), (Instr.rspData, 0x20), (Instr.rspAcc, 0x21), (Instr.rspRefuse, 0x22),
      (Instr.rdata, 0x23)] : List ((PortId → Msg → Instr) × BitVec 8)),
    ∀ (p q : PortId) (m : Msg) (r : RxMsg) (s : State),
    let on : Packet := (row.2, { m with hops := m.hops + 1 })
    let around : Packet := (row.2, { m with hops := m.hops + 1, layer := true })
    let s' := s.takeRx p r
    let e := s.routeEntry (m.addr.toNat / 2 ^ 44)
    let primary := portField e 0
    let refused := fun (reason : Nat) => row.2 ≠ 0x22 ∧ m.src.toNat ≠ s.nodeId ∧
      Sys2Proof.Claims.wayOut s' (0x22, respMsg m [] false reason) q
    let refusal := fun (reason : Nat) =>
      (Host.Outcome.next (Sys2Proof.Claims.gone s' (0x22, respMsg m [] false reason) q) : Outcome)
    (s.tgl[p].firstOf (vcOf (row.2, m)) = none → exec (row.1 p m) s = .next s) ∧
    (Sys2Proof.Claims.standsFirst s p row.2 m r → s.xl.culdesac = true → row.2 = 0x22 → s.tgl[p].refused ≠ 0 →
      exec (row.1 p m) s = .next (s'.modTgl p fun t => { t with refused := satAdd t.refused 1 })) ∧
    (Sys2Proof.Claims.standsFirst s p row.2 m r → m.addr.toNat / 2 ^ 44 ≠ s.nodeId → s.xl.culdesac = false →
      (isRequest row.2 = true → s.responseRoom p (row.2, m) = true) →
      (m.hops < 15 → Sys2Proof.Claims.wayOut s' on q → exec (row.1 p m) s = .next (Sys2Proof.Claims.gone s' on q)) ∧
      (m.hops < 15 → m.layer = false → e.getLsbD 31 = true → s.tgl[primary].up = false → e.getLsbD 30 = true →
        q.val = (e.extractLsb' 4 3).toNat → s'.tgl[q].up = true → s'.tgl[q].hold = [] → s'.tgl[q].rel = 2 →
        s'.tgl[q].minor ≠ 0 → s'.tgl[q].room (vcOf around) (slotsOf around) = true →
        exec (row.1 p m) s = .next (Sys2Proof.Claims.gone s' around q)) ∧
      (m.hops < 15 → e.getLsbD 31 = false → refused 4 → exec (row.1 p m) s = refusal 4) ∧
      (m.hops < 15 → e.getLsbD 31 = true → s.tgl[primary].up = false → e.getLsbD 30 = false ∨ m.layer = true → refused 5 →
        exec (row.1 p m) s = refusal 5) ∧
      (15 ≤ m.hops → refused 8 → exec (row.1 p m) s = refusal 8))

/-- The request has been answered: it awaits no response, and its destination slot has its bytes back (14 R292). -/
def Sys2Proof.Claims.freed (s : State) (q : RemoteReq) : State :=
  let s' := { s with xl := { s.xl with remote := s.xl.remote.filter (·.tid ≠ q.tid) } }
  match q.slot with
  | none => s'
  | some k => { s' with jnc := { s'.jnc with slots := s'.jnc.slots.set k { s'.jnc.slots[k] with
      out := s'.jnc.slots[k].out - (if q.opc = 0x03 then 8 else q.msg.len) } } }

/-- RSP_DATA, RDATA, RSP_ACC and RSP_REFUSE for this node, and REQUEST_TIMEOUT of a request that has been sent, end the request
and answer what asked for it: a load gets its register, and a refusal or a timeout its deferred error with INFO 1; a response
that nothing waits for is only taken from the buffer; the acceptance of an atomic that found poison is an access failure
(10 R211; 13 R263; 16 R326, R336, R337). -/
def Sys2Proof.Claims.ResponsesEnd : Prop :=
  ∀ (p : PortId) (m : Msg) (r : RxMsg) (s : State),
    let taken := s.takeRx p r
    let first := fun (opc : BitVec 8) => Sys2Proof.Claims.standsFirst s p opc m r
    (s.xl.culdesac = false → m.addr.toNat / 2 ^ 44 = s.nodeId →
      (s.xl.remote.find? (·.tid = m.tid) = none →
        (first 0x20 → exec (.rspData p m) s = .next taken) ∧ (first 0x21 → exec (.rspAcc p m) s = .next taken) ∧
        (first 0x22 → exec (.rspRefuse p m) s = .next taken) ∧ (first 0x23 → exec (.rdata p m) s = .next taken)) ∧
      (∀ q, s.xl.remote.find? (·.tid = m.tid) = some q →
        let data := if m.poison then Reply.poison else .ok (m.data.take q.msg.len)
        let freed := Sys2Proof.Claims.freed taken q
        (first 0x20 → exec (.rspData p m) s = .next (freed.answer q.who data)) ∧
        (first 0x23 → exec (.rdata p m) s = .next (freed.answer q.who data)) ∧
        (first 0x22 → exec (.rspRefuse p m) s = .next (freed.answer q.who .refused)) ∧
        (first 0x21 → q.opc ≠ 0x03 → m.poison = false → exec (.rspAcc p m) s = .next (freed.answer q.who (.ok []))) ∧
        (first 0x21 → q.opc = 0x03 → exec (.rspAcc p m) s =
          .next (freed.answer q.who (if m.poison then .poison else .ok (bytesOf 8 0)))) ∧
        (∀ n l size sext, s.cclkStopped = false → q.who = .load n l.seq → s.cores[n].loadOf l.seq = some l → l.kind = .read size sext →
          (first 0x20 → q.msg.len = size → size ≤ m.data.length → m.poison = false →
            ∃ u, exec (.rspData p m) s = .next u ∧ u.mem = s.mem ∧ u.chains = s.chains ∧
              u.cores[n] = ({ s.cores[n] with loads := s.cores[n].loads.filter (·.seq ≠ l.seq) }.setReg l.thread l.dest
                (loadValue (m.data.take size) sext)).settle) ∧
          (first 0x22 → ∃ u, exec (.rspRefuse p m) s = .next u ∧ u.mem = s.mem ∧ u.chains = s.chains ∧
            u.cores[n] = Core.settle { s.cores[n] with
              loads := s.cores[n].loads.filter (·.seq ≠ l.seq)
              deferred := s.cores[n].deferred ++ [{ thread := l.thread, info := 1, addr := l.va }] })) ∧
        (∀ n x rest ga, s.cclkStopped = false → q.who = .store n → q.opc = 0x02 → s.cores[n].stores = x :: rest → x.loc = .remote ga →
          first 0x21 → m.poison = false → ∃ u, exec (.rspAcc p m) s = .next u ∧ u.mem = s.mem ∧ u.chains = s.chains ∧
            u.cores[n] = Core.settle { s.cores[n] with stores := rest } ∧ ∃ o, u.out = o ++ [.farStore ga x.bytes]))) ∧
    (∀ (tid : BitVec 16) q, s.xl.remote.find? (·.tid = tid) = some q →
      (q.sent = false → exec (.requestTimeout tid) s = .next s) ∧
      (q.sent = true → exec (.requestTimeout tid) s = .next ((Sys2Proof.Claims.freed s q).answer q.who .refused)))

/-- Requests and responses of the fabric (16 R325 to R337).
The model's own choice here, no rule of the spec: which ground of two is named (log entry 104), HOPS (log entry 113),
where refusals count (log entry 114), a TID in use registers nothing (log entry 115), what asks gives class and
address (log entry 116), credits of a response (log entry 108). -/
def Obligations.FabricRequestsAndResponses : Prop :=
  Sys2Proof.Claims.OwnRequests ∧ Sys2Proof.Claims.CoreRequests ∧ Sys2Proof.Claims.RequestsServed ∧
    Sys2Proof.Claims.MessagesPass ∧ Sys2Proof.Claims.ResponsesEnd

/-! ## Management of the fabric (16 R338 to R349) -/

/-- A management message of `len` payload bytes can be sent at the port now. -/
def Sys2Proof.Claims.mgtRoom (s : State) (q : PortId) (len : Nat) : Prop :=
  s.tgl[q].up = true ∧ s.tgl[q].mgt = [] ∧ s.tgl[q].room 8 (1 + (len + 63) / 64) = true

/-- The message has gone out at the port. -/
def Sys2Proof.Claims.mgtGone (s : State) (q : PortId) (opc : BitVec 8) (h : MgtHdr) (payload : List Byte) : State :=
  (s.sendSlots q 8 (mgtSlots { opc := opc, h := h, payload := payload })).emit (.tglMgt q opc h payload)

/-- The message stands first in the management channel's buffer of the port, for running firmware to take (16 R324, R338). -/
def Sys2Proof.Claims.mgtFirst (s : State) (p : PortId) (opc : BitVec 8) (h : MgtHdr) (payload : List Byte) (r : RxMsg) : Prop :=
  s.chip.phase = .firmware ∧ s.tgl[p].firstOf 8 = some r ∧
    r.body = .mgt { opc := opc, h := h, payload := payload }

/-- Every up port but `p` that has room has sent the message. -/
def Sys2Proof.Claims.spread (u s : State) (p : Option PortId) (opc : BitVec 8) (h : MgtHdr) (payload : List Byte) : Prop :=
  ∀ q : PortId, some q ≠ p → Sys2Proof.Claims.mgtRoom s q payload.length → Out.tglMgt q opc h payload ∈ u.out

/-- The flood's key is held with its arrival port. -/
def Sys2Proof.Claims.keyed (u : State) (h : MgtHdr) (p : Option PortId) : Prop :=
  ∃ k ∈ u.xl.keys, k.origin = h.origin ∧ k.fseq = h.fseq ∧ k.port = p ∧ k.live = true

/-- The header of the answer to a flood on its reverse path. -/
def Sys2Proof.Claims.back (h : MgtHdr) : MgtHdr := { fhops := 0, fseq := h.fseq, origin := h.origin }

/-- Memory, cores and chains are as they were. -/
def Sys2Proof.Claims.calm (u s : State) : Prop := u.mem = s.mem ∧ u.cores = s.cores ∧ u.chains = s.chains

/-- Discovery: DISCOVERY_START takes the device's own SERIAL and sends HELLO on every up port; a HELLO with a lower SERIAL makes its
port the parent and goes on, one that lowers nothing is consumed; NEIGH goes to the parent or is held at the root; the
root builds the record of epoch 1, stages and proposes it (16 R339, R340, R345). -/
def Sys2Proof.Claims.Discovery : Prop :=
  ∀ (s : State),
    let hello := fun (q : PortId) (lowest : Word) => bytesOf 8 s.chip.serial.toNat ++ bytesOf 8 lowest.toNat ++
      bytesOf 4 s.xl.node.toNat ++ bytesOf 1 q.val ++ bytesOf 3 0
    let own : MgtHdr := { fhops := 0, fseq := 0, origin := s.chip.serial }
    (s.mayDiscover = true →
      ∃ u, exec .discoveryStart s = .next u ∧ Sys2Proof.Claims.calm u s ∧ u.xl.discovering = true ∧
        u.xl.lowest = some s.chip.serial ∧ u.xl.parent = none ∧
        u.xl.neighs = (s.xl.neighs.filter fun x => x.serial ≠ s.chip.serial) ++ [s.ownNeigh] ∧
        ∀ q : PortId, Sys2Proof.Claims.mgtRoom s q 24 → Out.tglMgt q 0x41 own (hello q s.chip.serial) ∈ u.out) ∧
    (s.mayDiscover = false → exec .discoveryStart s = .next s) ∧
    (∀ (p : PortId) (serial lowest l : Word) (node : Half) (port : Byte) (h : MgtHdr) (r : RxMsg),
      Sys2Proof.Claims.mgtFirst s p 0x41 h (helloBytes serial lowest node port) r → s.xl.discovering = true →
      s.xl.lowest = some l →
      ∃ u, exec (.hello p serial lowest node port) s = .next u ∧ Sys2Proof.Claims.calm u s ∧ u.tgl[p].peerNode = node ∧
        (l.toNat ≤ lowest.toNat → u.xl = s.xl) ∧
        (lowest.toNat < l.toNat → u.xl.lowest = some lowest ∧ u.xl.parent = some p ∧ u.xl.discovering = true ∧
          ∀ q : PortId, q ≠ p → Sys2Proof.Claims.mgtRoom s q 24 → Out.tglMgt q 0x41 own (hello q lowest) ∈ u.out)) ∧
    (∀ (p : PortId) (r : Neigh) (h : MgtHdr) (x : RxMsg), Sys2Proof.Claims.mgtFirst s p 0x42 h (neighPayload r) x →
      ∃ u, exec (.neigh p r) s = .next u ∧ Sys2Proof.Claims.calm u s ∧
        (s.xl.parent = none → u.xl = { s.xl with
          neighs := (s.xl.neighs.filter fun x => x.serial ≠ r.serial) ++ [r] }) ∧
        (∀ q : PortId, s.xl.parent = some q → u.xl = s.xl ∧ (q ≠ p → Sys2Proof.Claims.mgtRoom s q (neighPayload r).length →
          Out.tglMgt q 0x42 { fhops := 0, fseq := 0, origin := r.serial } (neighPayload r) ∈ u.out))) ∧
    (∀ f : Fabric, s.chip.phase = .firmware → s.xl.discovering = true → s.xl.lowest = some s.chip.serial →
      s.xl.proposals = [] →
      let rs := ((s.xl.neighs.filter fun x => x.serial ≠ s.chip.serial) ++ [s.ownNeigh]).foldl (fun l r => insNeigh r l) []
      s.xl.staged = false → s.divergent = false → parseFabric (rootRecord rs) = some f →
      f.floorMet = true → (∃ m ∈ f.roster, m.serial ≠ s.chip.serial) →
      ∃ u, exec .discoveryRoot s = .next u ∧ u.cores = s.cores ∧ u.chains = s.chains ∧ u.xl.epoch = s.xl.epoch ∧
        u.xl.staged = true ∧ u.xl.pEpoch = s.xl.epoch + 1 ∧ u.xl.stagedRec = rootRecord rs ∧
        u.xl.proposals = [{ e := s.xl.epoch + 1, handle := none, auto := true, fseq := s.xl.fseq + 1,
                            acks := [s.chip.serial], passed := false }]) ∧
    (s.xl.discovering = false → exec .discoveryRoot s = .next s)

/-- Floods of PROPOSE, COMMIT and ABORT, and STAGE_EXPIRY: a first arrival is recorded with its port and goes on at every other up
port; PROPOSE is pulled from its port first; COMMIT of the staged proposal commits it and begins to store it (18 R394), ABORT and the expiry drop it, after
which its proposer can no longer commit it; a
second arrival is discarded; FLOOD_KEY_EXPIRY forgets a key, then its port (16 R338, R345 to R347). -/
def Sys2Proof.Claims.ProposalFloods : Prop :=
  ∀ (p : PortId) (h : MgtHdr) (e d0 d1 : Word) (length : Half) (r : RxMsg) (s : State),
    let on : MgtHdr := { h with fhops := h.fhops + 1 }
    let all := bytesOf 8 e.toNat ++ bytesOf 8 d0.toNat ++ bytesOf 8 d1.toNat
    let abort := Sys2Proof.Claims.mgtFirst s p 0x46 h (bytesOf 8 e.toNat) r
    let commit := Sys2Proof.Claims.mgtFirst s p 0x45 h all r
    let propose := Sys2Proof.Claims.mgtFirst s p 0x43 h (all ++ bytesOf 4 length.toNat ++ bytesOf 4 0) r
    (s.keyHeld h = true →
      (abort → exec (.abort p h e) s = .next (s.takeRx p r)) ∧ (commit → exec (.commit p h e d0 d1) s = .next (s.takeRx p r)) ∧
      (propose → exec (.propose p h e d0 d1 length) s = .next (s.takeRx p r))) ∧
    (s.keyHeld h = false →
      (abort → ∃ u, exec (.abort p h e) s = .next u ∧ Sys2Proof.Claims.calm u s ∧ Sys2Proof.Claims.keyed u h (some p) ∧
        (h.fhops < 255 → Sys2Proof.Claims.spread u s (some p) 0x46 on (bytesOf 8 e.toNat)) ∧
        u.xl.epoch = s.xl.epoch ∧ u.xl.record = s.xl.record ∧
        (∀ x ∈ u.xl.proposals, x.e = e → x.passed = false) ∧
        (s.xl.staged = true → s.xl.pEpoch = e → u.xl.staged = false ∧ u.xl.stagedRec = []) ∧
        (s.xl.pEpoch ≠ e → u.xl.staged = s.xl.staged ∧ u.xl.stagedRec = s.xl.stagedRec)) ∧
      (commit → ∃ u, exec (.commit p h e d0 d1) s = .next u ∧ Sys2Proof.Claims.calm u s ∧ Sys2Proof.Claims.keyed u h (some p) ∧
        (h.fhops < 255 → Sys2Proof.Claims.spread u s (some p) 0x45 on all) ∧
        (∀ f, s.xl.staged = true → s.xl.pEpoch = e → s.xl.pDigest[0] = d0 → s.xl.pDigest[1] = d1 →
          parseFabric s.xl.stagedRec = some f →
          u.xl.epoch = e ∧ u.xl.digest = s.xl.pDigest ∧ u.xl.rtBank = !s.xl.rtBank ∧ u.xl.staged = false ∧
            u.xl.record = s.xl.stagedRec ∧ u.xl.atomics = f.atomics ∧ u.xl.remoteCsr = f.remote ∧
            (∀ m, f.member s.chip.serial = some m → u.xl.node = m.node ∧ u.xl.culdesac = false ∧
              u.xl.toStore = some { node := m.node, epoch := e, record := s.xl.stagedRec } ∧
              (s.chip.clkGate.getLsbD 26 = true → ∃ i : Fin 2, u.flash.fabric[i] = [] ∧
                u.endStore.flash.fabric[i] = fabricBytes { node := m.node, epoch := e, record := s.xl.stagedRec }))) ∧
        (s.xl.pEpoch ≠ e ∨ s.xl.staged = false → u.xl.epoch = s.xl.epoch ∧ u.xl.staged = s.xl.staged ∧ u.flash = s.flash)) ∧
      (propose → (∀ x ∈ s.xl.pulls, ¬ (x.port = p ∧ x.epoch = e)) →
        ∃ u, exec (.propose p h e d0 d1 length) s = .next u ∧ Sys2Proof.Claims.calm u s ∧ Sys2Proof.Claims.keyed u h (some p) ∧
          u.xl.staged = s.xl.staged ∧
          u.xl.pulls = s.xl.pulls ++ [{ port := p, epoch := e, staged := true, length := 0, got := [], asked := 65536, tries := 1,
                                        header := some h, announced := length, d0 := d0, d1 := d1 }] ∧
          (Sys2Proof.Claims.mgtRoom (s.takeRx p r) p 24 →
            Out.tglMgt p 0x47 { fhops := 0, fseq := 0, origin := s.chip.serial }
              (bytesOf 8 e.toNat ++ bytesOf 4 0 ++ bytesOf 4 65536 ++ bytesOf 1 1 ++ bytesOf 7 0) ∈ u.out))) ∧
    (s.xl.staged = true → exec .stageExpiry s =
      .next { s with xl := { s.xl with
        staged := false, stagedRec := []
        proposals := s.xl.proposals.filter fun x => !(x.passed && x.e = s.xl.pEpoch) } }) ∧
    (s.xl.staged = false → exec .stageExpiry s = .next s) ∧
    ∀ k, (s.xl.keys.find? fun k => decide (k.origin = h.origin) && decide (k.fseq = h.fseq)) = some k →
      exec (.floodKeyExpiry h.origin h.fseq) s = .next { s with xl := { s.xl with
        keys := if k.live then s.xl.keys.map fun x => if x = k then { x with live := false } else x
          else s.xl.keys.erase k } }

/-- VOTE and VOTE_TIMEOUT: a vote for another proposer goes back toward it; at the proposer a NACK, or the timeout
of its oldest, gives a proposal up, drops its staged copy and floods ABORT, and the last ACK of its roster completes the command (16 R338, R345). -/
def Sys2Proof.Claims.Votes : Prop :=
  ∀ (p : PortId) (h : MgtHdr) (e serial : Word) (result : Byte) (r : RxMsg) (s : State),
    let s' := s.takeRx p r
    let vote := Sys2Proof.Claims.mgtFirst s p 0x44 h
      (bytesOf 8 e.toNat ++ bytesOf 8 serial.toNat ++ bytesOf 1 result.toNat ++ bytesOf 7 0) r
    (∀ k (q : PortId), vote → h.origin ≠ s.chip.serial →
      (s.xl.keys.find? fun k => decide (k.origin = h.origin) && decide (k.fseq = h.fseq)) = some k → k.port = some q →
      Sys2Proof.Claims.mgtRoom s' q 24 →
      exec (.vote p h e serial result) s = .next (Sys2Proof.Claims.mgtGone s' q 0x44 (Sys2Proof.Claims.back h)
        (bytesOf 8 e.toNat ++ bytesOf 8 serial.toNat ++ bytesOf 1 result.toNat ++ bytesOf 7 0))) ∧
    let open' := s.xl.proposals.filter fun y => !y.passed
    let swap := fun (a b : Proposal) (l : List Proposal) => l.map fun z => if z = a then b else z
    ∀ (x : Proposal) (hd : Half) (c : Cmd), x.handle = some hd → x.auto = false → s.cmd hd = some c → c.cancelled = false →
      let lost := fun (u : State) => u.xl.proposals = s.xl.proposals.erase x ∧ u.xl.epoch = s.xl.epoch ∧
        (s.xl.staged = true → s.xl.pEpoch = x.e → (∀ y ∈ s.xl.proposals.erase x, y.passed = false → y.e ≠ x.e) →
          u.xl.staged = false) ∧
        u.cores = s.cores ∧ u.chains = s.chains ∧
        (∀ q, q ≠ p → Sys2Proof.Claims.mgtRoom s q 8 →
          Out.tglMgt q 0x46 { fhops := 0, fseq := s.xl.fseq + 1, origin := s.chip.serial } (bytesOf 8 x.e.toNat) ∈ u.out) ∧
        ∃ v : State, u = v.aciSettle ∧ ∀ k ∈ v.aci.cmds, k.handle = hd → k.phase = .finished ∧
          k.record = some { status := 0x0041, detail := 0, milestones := x.acks.length, result := x.e }
      (open'.head? = some x → (∀ y ∈ s.xl.proposals.erase x, ¬ (y.passed = true ∧ y.e = x.e)) →
        ∃ u, exec .voteTimeout s = .next u ∧ lost u) ∧
      (vote → h.origin = s.chip.serial → open'.find? (fun y => decide (y.e = e) && decide (y.fseq = h.fseq)) = some x →
        (result ≠ 0 → (∀ y ∈ s.xl.proposals.erase x, ¬ (y.passed = true ∧ y.e = x.e)) →
          ∃ u, exec (.vote p h e serial result) s = .next u ∧ lost u) ∧
        (∀ f, result = 0 → parseFabric s.xl.stagedRec = some f →
          let y := { x with acks := if x.acks.contains serial then x.acks else x.acks ++ [serial] }
          let counted := s'.modCmd hd fun k => { k with milestones := y.acks.length }
          let with' := fun (l : List Proposal) => ({ counted with xl := { counted.xl with proposals := l } } : State)
          ((∃ m ∈ f.roster, m.serial ∉ y.acks) →
            exec (.vote p h e serial result) s = .next (with' (swap x y s.xl.proposals)).aciSettle) ∧
          ((∀ m ∈ f.roster, m.serial ∈ y.acks) →
            exec (.vote p h e serial result) s = .next
              (Sys2Proof.Claims.ended (with' (swap y { y with passed := true } (swap x y s.xl.proposals))) hd 0 0
                y.acks.length x.e))))

/-- FSR_REQ is answered with the range of the record it names, up to 240 bytes a message, or with LENGTH 0; FSR_DATA extends what
has been pulled; a complete proposal is checked, staged and voted on; a complete record in the cul-de-sac is committed;
FSR_RETRY asks for the missing range again and gives up after 16 tries (16 R339, R345, R348). -/
def Sys2Proof.Claims.Pulls : Prop :=
  ∀ (p : PortId) (e : Word) (m : MgtHdr) (rx : RxMsg) (s : State),
    let s' := s.takeRx p rx
    let own : MgtHdr := { fhops := 0, fseq := 0, origin := s.chip.serial }
    (∀ (offset count : Half) (which : Byte),
      Sys2Proof.Claims.mgtFirst s p 0x47 m (bytesOf 8 e.toNat ++ bytesOf 4 offset.toNat ++ bytesOf 4 count.toNat ++
        bytesOf 1 which.toNat ++ bytesOf 7 0) rx →
      let req := exec (.fsrReq p e offset count which) s
      ((¬ (which = 0 ∧ s.xl.epoch = e ∧ s.xl.record ≠ []) ∧
          ¬ (which = 1 ∧ s.xl.staged = true ∧ s.xl.pEpoch = e ∧ s.xl.stagedRec ≠ [])) →
        Sys2Proof.Claims.mgtRoom s' p 16 →
        req = .next (Sys2Proof.Claims.mgtGone s' p 0x48 own
          (bytesOf 8 e.toNat ++ bytesOf 4 offset.toNat ++ bytesOf 4 0))) ∧
      (∀ r, r ≠ [] → (which = 0 ∧ s.xl.epoch = e ∧ r = s.xl.record) ∨
          (which = 1 ∧ s.xl.staged = true ∧ s.xl.pEpoch = e ∧ r = s.xl.stagedRec) →
        let n := min (offset.toNat + count.toNat) r.length - offset.toNat
        (0 < n → n ≤ 240 → Sys2Proof.Claims.mgtRoom s' p (16 + n) →
          req = .next (Sys2Proof.Claims.mgtGone s' p 0x48 own
            (bytesOf 8 e.toNat ++ bytesOf 4 offset.toNat ++ bytesOf 4 r.length ++ (r.drop offset.toNat).take n))))) ∧
    (∀ (x : Pull) (offset length : Half) (bytes : List Byte), s.pullOf p e = some x → length ≠ 0 →
      offset.toNat ≤ x.got.length →
      Sys2Proof.Claims.mgtFirst s p 0x48 m (bytesOf 8 e.toNat ++ bytesOf 4 offset.toNat ++ bytesOf 4 length.toNat ++ bytes) rx →
      let got := (x.got ++ bytes.drop (x.got.length - offset.toNat)).take length.toNat
      let data := exec (.fsrData p e offset length bytes) s
      (got.length < length.toNat → got.length < x.asked →
        data = .next (s'.setPull x { x with length := length.toNat, got := got })) ∧
      (∀ f hb, length.toNat ≤ got.length → x.staged = false → s.xl.culdesac = true → s.tgl[p].hb = some hb →
        parseFabric got = some f → hb.epoch = e → f.digest[0] = hb.digest0 → f.digest[1] = hb.digest1 →
        f.floorMet = true → ∀ m, f.member s.chip.serial = some m →
        ∃ u, data = .next u ∧ Sys2Proof.Claims.calm u s ∧ u.xl.epoch = e ∧ u.xl.culdesac = false ∧ u.xl.record = got ∧
          u.xl.digest = f.digest ∧ u.xl.node = m.node ∧ u.xl.rtBank = !s.xl.rtBank) ∧
      (∀ h, length.toNat ≤ got.length → x.staged = true → x.header = some h →
        (s.xl.keys.find? fun k => decide (k.origin = h.origin) && decide (k.fseq = h.fseq)).bind (·.port) = some p →
        Sys2Proof.Claims.mgtRoom s' p 24 →
        let vote := fun (r : Nat) => Out.tglMgt p 0x44 (Sys2Proof.Claims.back h)
          (bytesOf 8 e.toNat ++ bytesOf 8 s.chip.serial.toNat ++ bytesOf 1 r ++ bytesOf 7 0)
        let known := s.xl.culdesac = true ∨ s.xl.epoch = e - 1
        ∃ u, data = .next u ∧ Sys2Proof.Claims.calm u s ∧ u.xl.epoch = s.xl.epoch ∧
          (h.fhops < 255 → Sys2Proof.Claims.spread u s (some p) 0x43 { h with fhops := h.fhops + 1 }
            (bytesOf 8 e.toNat ++ bytesOf 8 x.d0.toNat ++ bytesOf 8 x.d1.toNat ++ bytesOf 4 x.announced.toNat ++
              bytesOf 4 0)) ∧
          (s.xl.staged = true → u.xl.pEpoch = s.xl.pEpoch ∧ vote 1 ∈ u.out) ∧
          (s.xl.staged = false → ¬ known → u.xl.staged = false ∧ vote 2 ∈ u.out) ∧
          (s.xl.staged = false → known → parseFabric got = none → u.xl.staged = false ∧ vote 3 ∈ u.out) ∧
          (∀ f, s.xl.staged = false → known → parseFabric got = some f →
            (f.digest[0] ≠ x.d0 ∨ f.digest[1] ≠ x.d1 → u.xl.staged = false ∧ vote 4 ∈ u.out) ∧
            (f.digest[0] = x.d0 → f.digest[1] = x.d1 →
              (f.floorMet = false → u.xl.staged = false ∧ vote 5 ∈ u.out) ∧
              (f.floorMet = true → s.divergent = true → u.xl.staged = false ∧ vote 6 ∈ u.out) ∧
              (f.floorMet = true → s.divergent = false → u.xl.staged = true ∧ u.xl.pEpoch = e ∧
                u.xl.pDigest = f.digest ∧ u.xl.stagedRec = got ∧ vote 0 ∈ u.out))))) ∧
    (∀ x : Pull, s.pullOf p e = some x → x.asked ≠ 0 → s.chip.phase = .firmware → s.tgl[p].up = true →
      (x.tries < 16 → Sys2Proof.Claims.mgtRoom s p 24 →
        exec (.fsrRetry p e) s = .next (Sys2Proof.Claims.mgtGone (s.setPull x { x with tries := x.tries + 1 }) p 0x47 own
          (bytesOf 8 e.toNat ++ bytesOf 4 x.got.length ++ bytesOf 4 (x.asked - x.got.length) ++
            bytesOf 1 (if x.staged then 1 else 0) ++ bytesOf 7 0))) ∧
      (16 ≤ x.tries → x.staged = false → ∃ u, exec (.fsrRetry p e) s = .next u ∧ Sys2Proof.Claims.calm u s ∧
        u.xl.epoch = s.xl.epoch ∧ u.xl.pulls.length + 1 = s.xl.pulls.length))

/-- FABRIC_SURVEY floods SURVEY_REQ with its own answer first; SURVEY_REQ is answered on the reverse path and goes on; SURVEY_RSP
is counted by its surveyor and passed on by others; SURVEY_COMPLETE writes the header and the records and completes the
command with the count of those that agree (16 R338, R349). -/
def Sys2Proof.Claims.Surveys : Prop :=
  (∀ (hd : Half) (c : Cmd) (s : State), Sys2Proof.Claims.runs s hd 0x30 c → c.started = false → c.cancelled = false →
    s.xl.survey = none →
    ∃ u, exec (.fabricSurvey hd) s = .next u ∧ Sys2Proof.Claims.calm u s ∧ u.xl.fseq = s.xl.fseq + 1 ∧
      u.xl.survey = some { handle := hd, fseq := s.xl.fseq + 1, recs := [s.surveyRec] } ∧
      u.cmd hd = some { c with started := true, milestones := 1 } ∧
      Sys2Proof.Claims.spread u s none 0x49 { fhops := 0, fseq := s.xl.fseq + 1, origin := s.chip.serial }
        (bytesOf 8 s.xl.epoch.toNat)) ∧
  (∀ (p : PortId) (h : MgtHdr) (e : Word) (x : RxMsg) (s : State),
    Sys2Proof.Claims.mgtFirst s p 0x49 h (bytesOf 8 e.toNat) x →
    (s.keyHeld h = true → exec (.surveyReq p h e) s = .next (s.takeRx p x)) ∧
    (s.keyHeld h = false → ∃ u, exec (.surveyReq p h e) s = .next u ∧ Sys2Proof.Claims.calm u s ∧
      Sys2Proof.Claims.keyed u h (some p) ∧
      (h.fhops < 255 → Sys2Proof.Claims.spread u s (some p) 0x49 { h with fhops := h.fhops + 1 } (bytesOf 8 e.toNat)) ∧
      (Sys2Proof.Claims.mgtRoom (s.takeRx p x) p 64 →
        Out.tglMgt p 0x4A (Sys2Proof.Claims.back h) (surveyBytes s.surveyRec false true) ∈ u.out))) ∧
  (∀ (p : PortId) (h : MgtHdr) (r : SurveyRec) (x : RxMsg) (s : State),
    Sys2Proof.Claims.mgtFirst s p 0x4A h (surveyBytes r false true) x →
    let s' := s.takeRx p x
    (∀ k (q : PortId), h.origin ≠ s.chip.serial →
      (s.xl.keys.find? fun k => decide (k.origin = h.origin) && decide (k.fseq = h.fseq)) = some k → k.port = some q →
      Sys2Proof.Claims.mgtRoom s' q 64 →
      exec (.surveyRsp p h r) s =
        .next (Sys2Proof.Claims.mgtGone s' q 0x4A (Sys2Proof.Claims.back h) (surveyBytes r false true))) ∧
    (∀ v, h.origin = s.chip.serial → s.xl.survey = some v → v.fseq = h.fseq →
      exec (.surveyRsp p h r) s = .next (State.modCmd { s' with xl := { s'.xl with
        survey := some { v with recs := v.recs ++ [r] } } } v.handle fun k => { k with milestones := v.recs.length + 1 }))) ∧
  ∀ (hd : Half) (c : Cmd) (late : Bool) (w : Reply) (v : Survey) (bs : List Byte) (s1 s : State),
    Sys2Proof.Claims.runs s hd 0x30 c → c.cancelled = false → s.xl.survey = some v → v.handle = hd →
    let agree := (v.recs.filter fun r => r.epoch = s.xl.epoch ∧ r.digest0 = s.xl.digest[0] ∧ r.digest1 = s.xl.digest[1]).length
    let b := s.surveyBuffer v (c.at 24 4) (c.at 28 4)
    (32 ≤ c.at 24 4 → v.recs.length < 2 ^ 32 → s.roster.length < 2 ^ 32 →
      fieldAt b 4 4 = v.recs.length ∧ fieldAt b 8 4 = agree ∧ fieldAt b 12 4 = s.roster.length ∧
        fieldAt b 16 8 = s.xl.epoch.toNat) ∧
    (late = true ∨ s.allAnswered v = true → s.fwWrite c 0 (c.at 16 8) b w = (s1, .done bs) →
      exec (.surveyComplete hd late w) s = .next (Sys2Proof.Claims.ended
        { s1 with free := s1.free + s1.roster.length, xl := { s1.xl with survey := none } } hd 0 0 v.recs.length
        (BitVec.ofNat 64 agree))) ∧
    (late = false → s.allAnswered v = false → exec (.surveyComplete hd late w) s = .next s)

/-- WAYMARK_PROPOSE of a divergent device fails at once; else the record is staged and proposed with the proposer's own ACK; it
is proposed too, and then rejected, when the proposer's own check fails; one that is under way goes on.  WAYMARK_COMMIT of the proposal that has passed commits it and floods COMMIT; any
other is rejected (16 R345, R346). -/
def Sys2Proof.Claims.Waymarks : Prop :=
  (∀ (hd : Half) (c : Cmd) (r : Reply) (s : State), Sys2Proof.Claims.runs s hd 0x31 c → c.started = false →
    c.cancelled = false →
    (s.divergent = true → exec (.waymarkPropose hd r) s = .next (Sys2Proof.Claims.ended s hd 0x40 0 0 0)) ∧
    ∀ bs s1, s.divergent = false → s.fwRead c 0 (c.at 16 8) (c.at 24 4) r = (s1, .done bs) → s1.xl = s.xl →
      s1.tgl = s.tgl → s1.chip = s.chip → s1.aci = s.aci →
      (∀ f, (∀ y ∈ s.xl.proposals, y.fseq ≠ s.xl.fseq + 1) → s.xl.staged = false → parseFabric bs = some f → f.floorMet = true →
        (∃ m ∈ f.roster, m.serial ≠ s.chip.serial) →
        ∃ u, exec (.waymarkPropose hd r) s = .next u ∧ u.cores = s1.cores ∧ u.chains = s1.chains ∧
          u.xl.epoch = s.xl.epoch ∧ u.xl.staged = true ∧ u.xl.pEpoch = s.xl.epoch + 1 ∧ u.xl.pDigest = f.digest ∧
          u.xl.stagedRec = bs ∧
          u.xl.proposals = s.xl.proposals ++ [{ e := s.xl.epoch + 1, handle := some hd, auto := false, fseq := s.xl.fseq + 1,
                                                acks := [s.chip.serial], passed := false }] ∧
          Sys2Proof.Claims.spread u s none 0x43 { fhops := 0, fseq := s.xl.fseq + 1, origin := s.chip.serial }
            (bytesOf 8 (s.xl.epoch + 1).toNat ++ bytesOf 8 f.digest[0].toNat ++ bytesOf 8 f.digest[1].toNat ++
              bytesOf 4 bs.length ++ bytesOf 4 0)) ∧
      ((∀ y ∈ s.xl.proposals, y.fseq ≠ s.xl.fseq + 1) → s.xl.staged = true ∨ parseFabric bs = none →
        ∃ u v : State, exec (.waymarkPropose hd r) s = .next u ∧ u = v.aciSettle ∧ u.xl.epoch = s.xl.epoch ∧
          ∀ k ∈ v.aci.cmds, k.handle = hd → k.phase = .finished ∧
            k.record = some { status := 0x41, detail := 0, milestones := 0, result := s.xl.epoch + 1 }) ∧
      (∀ f, s.xl.staged = true → parseFabric bs = some f → ∃ u, exec (.waymarkPropose hd r) s = .next u ∧
        Sys2Proof.Claims.spread u s none 0x43 { fhops := 0, fseq := s.xl.fseq + 1, origin := s.chip.serial }
          (bytesOf 8 (s.xl.epoch + 1).toNat ++ bytesOf 8 f.digest[0].toNat ++ bytesOf 8 f.digest[1].toNat ++
            bytesOf 4 bs.length ++ bytesOf 4 0))) ∧
  ∀ (hd : Half) (c : Cmd) (s : State), Sys2Proof.Claims.runs s hd 0x32 c →
    let e : Word := BitVec.ofNat 64 (c.at 16 8)
    (∀ x f, x ∈ s.xl.proposals → x.passed = true → x.e = e → s.xl.staged = true → s.xl.pEpoch = e →
      parseFabric s.xl.stagedRec = some f →
      ∃ v, exec (.waymarkCommit hd) s = .next (Sys2Proof.Claims.ended v hd 0 0 0 e) ∧ Sys2Proof.Claims.calm v s ∧
        v.xl.epoch = e ∧ v.xl.digest = s.xl.pDigest ∧ v.xl.rtBank = !s.xl.rtBank ∧ v.xl.staged = false ∧
        v.xl.proposals = s.xl.proposals.filter (fun y => !y.passed) ∧ v.xl.record = s.xl.stagedRec ∧
        (∃ n, v.xl.toStore = some { node := n, epoch := e, record := s.xl.stagedRec }) ∧
        Sys2Proof.Claims.spread v s none 0x45 { fhops := 0, fseq := s.xl.fseq + 1, origin := s.chip.serial }
          (bytesOf 8 e.toNat ++ bytesOf 8 s.xl.pDigest[0].toNat ++ bytesOf 8 s.xl.pDigest[1].toNat)) ∧
    ((∀ x ∈ s.xl.proposals, x.passed = false ∨ x.e ≠ e) ∨ s.xl.staged = false ∨ s.xl.pEpoch ≠ e →
      exec (.waymarkCommit hd) s = .next (Sys2Proof.Claims.ended s hd 0x41 0 0 0))

/-- Discovery (16 R339, R340).
The model's own choice here, no rule of the spec: a HELLO that lowers nothing is consumed (log entry 122); a flood
goes out when its command comes (log entry 120). -/
def Obligations.DiscoveryBuildsEpochOne : Prop := Sys2Proof.Claims.Discovery

/-- Proposals, votes and commits (16 R338, R345 to R347).
The model's own choice here, no rule of the spec: every first PROPOSE is pulled and checked afterwards, how a failed
proposal ends, and an ABORT names an epoch alone (log entry 118). -/
def Obligations.ProposalsAreVotedAndCommitted : Prop :=
  Sys2Proof.Claims.ProposalFloods ∧ Sys2Proof.Claims.Votes ∧ Sys2Proof.Claims.Waymarks

/-- Record transfer and surveys (16 R339, R348, R349).
The model's own choice here, no rule of the spec: pulls that run one after another and the count of tries (log entry
119), and the order of a survey's records (log entry 121). -/
def Obligations.RecordsAndSurveysTravel : Prop := Sys2Proof.Claims.Pulls ∧ Sys2Proof.Claims.Surveys

/-! ## The invariant of memory -/

/-- Every step keeps the canonical form of DDR and scratch contents: cells strictly rising and none zero, poisoned words and
lines strictly rising, whatever command is at the front of the queue. -/
def Obligations.StepKeepsMemoryCanonical : Prop :=
  ∀ s s' : State, s.mem.wf = true → step s = .next s' → s'.mem.wf = true

/-- Memory after reset is in canonical form. -/
def Obligations.ResetMemoryCanonical : Prop := State.reset.mem.wf = true

/-! ## Statements of several parts -/

/-- The operations of the A, D and X units and the paired fetches, with their bit counts (10 R209, R212, R216, R218, R219).
The model's own choice here, no rule of the spec: an instruction is a command that reaches decode, and its bundle acts
when the one with STOP has come (log entry 61); one register named twice gets both strides (log entry 64). -/
def Obligations.UnitsWriteTheirResults : Prop :=
  Sys2Proof.Claims.AUnitWritesAddress ∧ Sys2Proof.Claims.DUnitRows ∧ Sys2Proof.Claims.BitCountsAndExtensions ∧
    Sys2Proof.Claims.XUnitWritesRegister ∧ Sys2Proof.Claims.PairedFetchMultiplies

/-- The scalar divisions (10 R217; 09 R191).
The model's own choice here, no rule of the spec: an instruction is a command that reaches decode, and its bundle acts
when the one with STOP has come (log entry 61). -/
def Obligations.DivisionsIssueAndComplete : Prop :=
  Sys2Proof.Claims.DivisionIssues ∧ Sys2Proof.Claims.DivisionResults ∧ Sys2Proof.Claims.DivideCompleteWritesRegister

/-- The stores, a load that reads what a store wrote to DMEM, the atomics and the cache instructions (10 R212 to R215).
The model's own choice here, no rule of the spec: an instruction is a command that reaches decode, and its bundle acts
when the one with STOP has come (log entry 61); a posted store waits for its turn (log entry 71). -/
def Obligations.StoresAndAtomicsAct : Prop :=
  Sys2Proof.Claims.StoreRows ∧ Sys2Proof.Claims.DmemStoreThenRead ∧ Sys2Proof.Claims.AtomicsIssue ∧
    Sys2Proof.Claims.CacheInstructionsInvalidate

/-- Trap instructions, interrupts, the frame and eret (11 R232 to R239; 10 R222).
The model's own choice here, no rule of the spec: an instruction is a command that reaches decode, and its bundle acts
when the one with STOP has come (log entry 61); the pushes are checked before the entry (log entry 65). -/
def Obligations.TrapsEnterAndReturn : Prop :=
  Sys2Proof.Claims.TrapInstructionEnters ∧ Sys2Proof.Claims.EretRestoresFrame ∧ Sys2Proof.Claims.EntryFrameReadsBack ∧
    Sys2Proof.Claims.InterruptEntry

/-- Instructions that decode or privilege turns away, and misaligned accesses (10 R210 to R213; 11 R231, R234).
The model's own choice here, no rule of the spec: an instruction is a command that reaches decode, and its bundle acts
when the one with STOP has come (log entry 61). -/
def Obligations.BadInstructionsTrap : Prop :=
  Sys2Proof.Claims.IllegalInstructionTraps ∧ Sys2Proof.Claims.PrivilegedInstructionsTrapAtK ∧
    Sys2Proof.Claims.ChainInstructionsNeedSequencer ∧ Sys2Proof.Claims.MisalignedAccessTraps

/-- Bundles (10 R208, R209).
The model's own choice here, no rule of the spec: an instruction is a command that reaches decode, and its bundle acts
when the one with STOP has come (log entry 61). -/
def Obligations.BundlesGatherAndReadOldValues : Prop :=
  Sys2Proof.Claims.BundleReadsOldValues ∧ Sys2Proof.Claims.BundleGathersInstructions

/-- chiss (10 R226; 04 R60).
The model's own choice here, no rule of the spec: an instruction is a command that reaches decode, and its bundle acts
when the one with STOP has come (log entry 61); a word without STOP records station 0 (log entry 25), and the order
within a code (log entry 45). -/
def Obligations.ChainIssueQueuesOrRefuses : Prop :=
  Sys2Proof.Claims.ChainIssueQueuesLaunch ∧ Sys2Proof.Claims.ChainIssueRefusesBadWord

/-- ssw, sswa, rsw, smov, sclr, chwait, chstop, rdch, wrch, ldca and rdca (10 R225; 04 R79 to R83).
The model's own choice here, no rule of the spec: an instruction is a command that reaches decode, and its bundle acts
when the one with STOP has come (log entry 61); which registers chiss waits for (log entry 70). -/
def Obligations.ChainRegistersWaitAndMove : Prop :=
  Sys2Proof.Claims.DescriptorRegisterMoves ∧ Sys2Proof.Claims.ChainWaitAndStop ∧ Sys2Proof.Claims.ChainRegisterMoves ∧
    Sys2Proof.Claims.AccumulatorMovesInLaunchOrder

/-- Responses to a core (09 R186, R191; 10 R211, R213).
The model's own choice here, no rule of the spec: the order of accesses at the port (log entry 71), failures of posted
accesses (log entry 73) and of a fetch ahead (log entry 74). -/
def Obligations.CoreResponsesTakeEffect : Prop :=
  Sys2Proof.Claims.LoadResponseWritesRegister ∧ Sys2Proof.Claims.StoreAcceptWritesScratch ∧
    Sys2Proof.Claims.FetchResponseFillsOrFaults

/-- Translation of a strip and the answers to its misses (12 R253 to R255).
The model's own choice here, no rule of the spec: the order in which pages are looked up (log entry 46), which address
and which cause a range's fault reports (log entry 58), and a directory that cannot be read (log entry 59). -/
def Obligations.StripsTranslateOrWait : Prop :=
  Sys2Proof.Claims.StripTranslations ∧ Sys2Proof.Claims.StreamTranslationAnswers

/-- The begin of a launch, its reservation and the issue of its strips (04 R60 to R69; 05 R106).
The model's own choice here, no rule of the spec: one command grants one reservation or one buffer (log entry 50), and
which lines share a buffer (log entry 79). -/
def Obligations.LaunchesBeginAndStripsIssue : Prop :=
  Sys2Proof.Claims.LaunchesBeginAndReserve ∧ Sys2Proof.Claims.StripsIssueAndTakeBuffers

/-- Lines of streams and accesses of stations (05 R94 to R99; 07 R150, R151).
The model's own choice here, no rule of the spec: each atomic is its own event (log entry 39). -/
def Obligations.StreamAndStationAccessesAnswer : Prop :=
  Sys2Proof.Claims.StreamLinesArrive ∧ Sys2Proof.Claims.StationAccessesAnswer

/-- Commit and drain of a strip (04 R67 to R72, R78).
The model's own choice here, no rule of the spec: the order of a drain's writes (log entry 38), marks enter their
queue at the commit (log entry 37), and a failed drain (log entry 36). -/
def Obligations.StripsCommitAndDrain : Prop :=
  Sys2Proof.Claims.StripCommits ∧ Sys2Proof.Claims.DrainsAreAccepted

/-- CORE_TLB_CMD and the effect of an invalidation (12 R248 to R250, R255).
The model's own choice here, no rule of the spec: when a waiting invalidation takes effect (log entry 47), and
reserved values (log entry 75). -/
def Obligations.TlbCommandsAct : Prop :=
  Sys2Proof.Claims.TlbCommandWrites ∧ Sys2Proof.Claims.InvalidationTakesEffect

/-- Clock switches and clock sources (17 R353 to R356).
The model's own choice here, no rule of the spec: LOCK during a relock and what a lost source means (log entry 150),
and POSTDIV of a reserved value (log entry 109). -/
def Obligations.ClocksSwitch : Prop :=
  Sys2Proof.Claims.ClockWritesSwitch ∧ Sys2Proof.Claims.ClockSourcesAndSwitches

/-- The governor, the sensors and the wear counter (17 R360 to R366).
The model's own choice here, no rule of the spec: the order of limits and credits (log entry 151), and the load line
of a calibration set (log entry 152). -/
def Obligations.PowerAndHeatAct : Prop :=
  Sys2Proof.Claims.GovernorActs ∧ Sys2Proof.Claims.SensorsAndWearCount

/-- The sources of a device reset and the standby domain (18 R371 to R373; 17 R365, R369).
The model's own choice here, no rule of the spec: a thermal trip leaves CAUSE to the reset that follows (log entry
154). -/
def Obligations.ResetsAndStandby : Prop :=
  Sys2Proof.Claims.ResetSourcesReset ∧ Sys2Proof.Claims.StandbyDomain

/-- The end of reset, the ROM and the handover (18 R373 to R384, R397).
The model's own choice here, no rule of the spec: what the ROM and firmware leave in registers is free (log entries
155, 156), the flash error (log entry 157), the constants of ECDSA (log entry 22) and the fuses and straps (log entry
3), and the flash's layout (log entry 129). -/
def Obligations.BootRunsAndHandsOver : Prop :=
  Sys2Proof.Claims.ResetEndStartsTheRom ∧ Sys2Proof.Claims.BootHandover

/-- SMBus and JTAG (19 R405, R406; 18 R397).
The model's own choice here, no rule of the spec: the polynomial of PEC and the NACK (log entry 41), IDCODE after
reset (log entry 42), the stop of the debug path and the order of the cells (log entry 43), and a write of other data
(log entry 159). -/
def Obligations.SidebandsAnswer : Prop :=
  Sys2Proof.Claims.SmbusAnswers ∧ Sys2Proof.Claims.JtagInstructions

/-- Bring-up, self-refresh and refresh rate of DDR (13 R268 to R277).
The model's own choice here, no rule of the spec: which of two reasons is named (log entry 82), the states in between
(log entry 83), and the indication after self-refresh (log entry 84). -/
def Obligations.DdrComesUpAndRefreshes : Prop :=
  Sys2Proof.Claims.DdrBringUp ∧ Sys2Proof.Claims.DdrSelfRefresh

/-- Scrubs and the scratch banks (13 R259 to R267, R273, R274).
The model's own choice here, no rule of the spec: a finding that the bank does not hold is an operand (log entry 80),
a partial write of a poisoned word (log entry 81), and the stops at offsets that nothing has (log entry 44). -/
def Obligations.ScrubsAndBanksAnswer : Prop :=
  Sys2Proof.Claims.DdrPatrolScrub ∧ Sys2Proof.Claims.ScratchBanksAnswer

/-- Requests of the host (15 R307, R309).
The model's own choice here, no rule of the spec: answers to refused requests (log entry 94), a request waits for its
own victim (log entry 95), and DevLoad is free (log entry 145). -/
def Obligations.HostRequestsAreServed : Prop :=
  Sys2Proof.Claims.HostRequestsServed ∧ Sys2Proof.Claims.HostRequestsWaitOrCross

/-- Snoop responses and what they release (15 R307 to R310).
The model's own choice here, no rule of the spec: a response that nothing awaits changes nothing (log entry 9). -/
def Obligations.SnoopResponsesRelease : Prop :=
  Sys2Proof.Claims.SnoopResponses ∧ Sys2Proof.Claims.SnoopReleasesHeldAccess

/-- The HDM decoder and the CXL links (15 R302 to R305, R315 to R317).
The model's own choice here, no rule of the spec: when HDM_LINK acts (log entry 96), a second commit (log entry 97),
what waits when a link falls (log entry 98), what CXL_LINK_UP includes (log entry 145), and the form of AER (log entry
143). -/
def Obligations.CxlLinksAndDecoderAct : Prop :=
  Sys2Proof.Claims.DecoderCommits ∧ Sys2Proof.Claims.CxlLinksTrainAndFail

/-- Completion records, their answers and the timers (03 R41, R49, R54, R59; 15 R311 to R313).
The model's own choice here, no rule of the spec: the answer of host memory is an operand (log entry 14), and a
poisoned ring line in this device's memory (log entry 99). -/
def Obligations.RecordsAreWrittenAndExpire : Prop :=
  Sys2Proof.Claims.RecordsAndExpiries ∧ Sys2Proof.Claims.D2hRequestsAreAnswered

/-- The administrative commands and what IDENTIFY writes (03 R53 to R59).
The model's own choice here, no rule of the spec: the order of the checks (log entry 130), and bit 2 of byte 49 (log
entry 137). -/
def Obligations.AdminCommandsComplete : Prop :=
  Sys2Proof.Claims.AdminCommands ∧ Sys2Proof.Claims.IdentityFields
end

