-- ==== Sys2Proof/Laws/State.lean ====
section
/-! SUPPORT. The small laws of the state's parts: what replacing one unit leaves alone, and how replacements combine. -/

namespace Sys2Proof.Machine

/-! ## One core -/

@[simp] theorem State.modCore_same (s : State) (n : CoreId) (g : Core → Core) : (s.modCore n g).cores[n] = g s.cores[n] := by
  simp [State.modCore]

theorem State.modCore_other (s : State) (n m : CoreId) (g : Core → Core) (h : m ≠ n) :
    (s.modCore n g).cores[m] = s.cores[m] := by
  have : n.val ≠ m.val := fun e => h (Fin.ext e.symm)
  simp [State.modCore, this]

@[simp] theorem State.modCore_modCore (s : State) (n : CoreId) (g k : Core → Core) :
    (s.modCore n g).modCore n k = s.modCore n fun c => k (g c) := by
  simp [State.modCore]

@[simp] theorem State.modCore_id (s : State) (n : CoreId) : (s.modCore n fun _ => s.cores[n]) = s := by
  simp [State.modCore]

/-! ## One thread -/

@[simp] theorem Core.modThread_same (c : Core) (t : ThreadId) (g : Thread → Thread) :
    (c.modThread t g).threads[t] = g c.threads[t] := by
  simp [Core.modThread]

theorem Core.modThread_other (c : Core) (t r : ThreadId) (g : Thread → Thread) (h : r ≠ t) :
    (c.modThread t g).threads[r] = c.threads[r] := by
  have : t.val ≠ r.val := fun e => h (Fin.ext e.symm)
  simp [Core.modThread, this]

@[simp] theorem Core.modThread_modThread (c : Core) (t : ThreadId) (g k : Thread → Thread) :
    (c.modThread t g).modThread t k = c.modThread t fun h => k (g h) := by
  simp [Core.modThread]

/-! ## One chain, one pool, one controller, one port, one PLL, one link -/

@[simp] theorem State.modChain_same (s : State) (c : ChainId) (g : Chain → Chain) :
    (s.modChain c g).chains[c] = g s.chains[c] := by
  simp [State.modChain]

theorem State.modChain_other (s : State) (c k : ChainId) (g : Chain → Chain) (h : k ≠ c) :
    (s.modChain c g).chains[k] = s.chains[k] := by
  have : c.val ≠ k.val := fun e => h (Fin.ext e.symm)
  simp [State.modChain, this]

@[simp] theorem State.modChain_modChain (s : State) (c : ChainId) (g k : Chain → Chain) :
    (s.modChain c g).modChain c k = s.modChain c fun h => k (g h) := by
  simp [State.modChain]

@[simp] theorem State.modPool_same (s : State) (k : ClusterId) (g : Pool → Pool) :
    (s.modPool k g).pools[k] = g s.pools[k] := by
  simp [State.modPool]

@[simp] theorem State.modDdr_same (s : State) (n : CtrlId) (g : Ddr → Ddr) : (s.modDdr n g).ddr[n] = g s.ddr[n] := by
  simp [State.modDdr]

@[simp] theorem State.modTgl_same (s : State) (p : PortId) (g : Tgl → Tgl) : (s.modTgl p g).tgl[p] = g s.tgl[p] := by
  simp [State.modTgl]

@[simp] theorem State.modPll_same (s : State) (k : PllId) (g : Pll → Pll) : (s.modPll k g).plls[k] = g s.plls[k] := by
  simp [State.modPll]

@[simp] theorem State.modLink_same (s : State) (l : LinkId) (g : Link → Link) :
    (s.modLink l g).cxl.links[l] = g s.cxl.links[l] := by
  simp [State.modLink]

/-! ## One lemma per field per update -/

@[simp] theorem State.modCore_pending (s : State) (n : CoreId) (g) : (s.modCore n g).pending = s.pending := rfl
@[simp] theorem State.modCore_free (s : State) (n : CoreId) (g) : (s.modCore n g).free = s.free := rfl
@[simp] theorem State.modCore_out (s : State) (n : CoreId) (g) : (s.modCore n g).out = s.out := rfl
@[simp] theorem State.modCore_chip (s : State) (n : CoreId) (g) : (s.modCore n g).chip = s.chip := rfl
@[simp] theorem State.modCore_flash (s : State) (n : CoreId) (g) : (s.modCore n g).flash = s.flash := rfl
@[simp] theorem State.modCore_evt (s : State) (n : CoreId) (g) : (s.modCore n g).evt = s.evt := rfl
@[simp] theorem State.modCore_aci (s : State) (n : CoreId) (g) : (s.modCore n g).aci = s.aci := rfl
@[simp] theorem State.modCore_chains (s : State) (n : CoreId) (g) : (s.modCore n g).chains = s.chains := rfl
@[simp] theorem State.modCore_pools (s : State) (n : CoreId) (g) : (s.modCore n g).pools = s.pools := rfl
@[simp] theorem State.modCore_mem (s : State) (n : CoreId) (g) : (s.modCore n g).mem = s.mem := rfl
@[simp] theorem State.modCore_scr (s : State) (n : CoreId) (g) : (s.modCore n g).scr = s.scr := rfl
@[simp] theorem State.modCore_ddr (s : State) (n : CoreId) (g) : (s.modCore n g).ddr = s.ddr := rfl
@[simp] theorem State.modCore_jnc (s : State) (n : CoreId) (g) : (s.modCore n g).jnc = s.jnc := rfl
@[simp] theorem State.modCore_cxl (s : State) (n : CoreId) (g) : (s.modCore n g).cxl = s.cxl := rfl
@[simp] theorem State.modCore_xl (s : State) (n : CoreId) (g) : (s.modCore n g).xl = s.xl := rfl
@[simp] theorem State.modCore_tgl (s : State) (n : CoreId) (g) : (s.modCore n g).tgl = s.tgl := rfl
@[simp] theorem State.modCore_plls (s : State) (n : CoreId) (g) : (s.modCore n g).plls = s.plls := rfl
@[simp] theorem State.modCore_pwr (s : State) (n : CoreId) (g) : (s.modCore n g).pwr = s.pwr := rfl
@[simp] theorem State.modCore_thm (s : State) (n : CoreId) (g) : (s.modCore n g).thm = s.thm := rfl

@[simp] theorem State.modChain_pending (s : State) (c : ChainId) (g) : (s.modChain c g).pending = s.pending := rfl
@[simp] theorem State.modChain_free (s : State) (c : ChainId) (g) : (s.modChain c g).free = s.free := rfl
@[simp] theorem State.modChain_out (s : State) (c : ChainId) (g) : (s.modChain c g).out = s.out := rfl
@[simp] theorem State.modChain_chip (s : State) (c : ChainId) (g) : (s.modChain c g).chip = s.chip := rfl
@[simp] theorem State.modChain_flash (s : State) (c : ChainId) (g) : (s.modChain c g).flash = s.flash := rfl
@[simp] theorem State.modChain_evt (s : State) (c : ChainId) (g) : (s.modChain c g).evt = s.evt := rfl
@[simp] theorem State.modChain_aci (s : State) (c : ChainId) (g) : (s.modChain c g).aci = s.aci := rfl
@[simp] theorem State.modChain_cores (s : State) (c : ChainId) (g) : (s.modChain c g).cores = s.cores := rfl
@[simp] theorem State.modChain_pools (s : State) (c : ChainId) (g) : (s.modChain c g).pools = s.pools := rfl
@[simp] theorem State.modChain_mem (s : State) (c : ChainId) (g) : (s.modChain c g).mem = s.mem := rfl
@[simp] theorem State.modChain_scr (s : State) (c : ChainId) (g) : (s.modChain c g).scr = s.scr := rfl
@[simp] theorem State.modChain_ddr (s : State) (c : ChainId) (g) : (s.modChain c g).ddr = s.ddr := rfl
@[simp] theorem State.modChain_jnc (s : State) (c : ChainId) (g) : (s.modChain c g).jnc = s.jnc := rfl
@[simp] theorem State.modChain_cxl (s : State) (c : ChainId) (g) : (s.modChain c g).cxl = s.cxl := rfl
@[simp] theorem State.modChain_xl (s : State) (c : ChainId) (g) : (s.modChain c g).xl = s.xl := rfl
@[simp] theorem State.modChain_tgl (s : State) (c : ChainId) (g) : (s.modChain c g).tgl = s.tgl := rfl
@[simp] theorem State.modChain_plls (s : State) (c : ChainId) (g) : (s.modChain c g).plls = s.plls := rfl
@[simp] theorem State.modChain_pwr (s : State) (c : ChainId) (g) : (s.modChain c g).pwr = s.pwr := rfl
@[simp] theorem State.modChain_thm (s : State) (c : ChainId) (g) : (s.modChain c g).thm = s.thm := rfl

@[simp] theorem State.modPool_pending (s : State) (k : ClusterId) (g) : (s.modPool k g).pending = s.pending := rfl
@[simp] theorem State.modPool_free (s : State) (k : ClusterId) (g) : (s.modPool k g).free = s.free := rfl
@[simp] theorem State.modPool_out (s : State) (k : ClusterId) (g) : (s.modPool k g).out = s.out := rfl
@[simp] theorem State.modPool_chip (s : State) (k : ClusterId) (g) : (s.modPool k g).chip = s.chip := rfl
@[simp] theorem State.modPool_flash (s : State) (k : ClusterId) (g) : (s.modPool k g).flash = s.flash := rfl
@[simp] theorem State.modPool_evt (s : State) (k : ClusterId) (g) : (s.modPool k g).evt = s.evt := rfl
@[simp] theorem State.modPool_aci (s : State) (k : ClusterId) (g) : (s.modPool k g).aci = s.aci := rfl
@[simp] theorem State.modPool_cores (s : State) (k : ClusterId) (g) : (s.modPool k g).cores = s.cores := rfl
@[simp] theorem State.modPool_chains (s : State) (k : ClusterId) (g) : (s.modPool k g).chains = s.chains := rfl
@[simp] theorem State.modPool_mem (s : State) (k : ClusterId) (g) : (s.modPool k g).mem = s.mem := rfl
@[simp] theorem State.modPool_scr (s : State) (k : ClusterId) (g) : (s.modPool k g).scr = s.scr := rfl
@[simp] theorem State.modPool_ddr (s : State) (k : ClusterId) (g) : (s.modPool k g).ddr = s.ddr := rfl
@[simp] theorem State.modPool_jnc (s : State) (k : ClusterId) (g) : (s.modPool k g).jnc = s.jnc := rfl
@[simp] theorem State.modPool_cxl (s : State) (k : ClusterId) (g) : (s.modPool k g).cxl = s.cxl := rfl
@[simp] theorem State.modPool_xl (s : State) (k : ClusterId) (g) : (s.modPool k g).xl = s.xl := rfl
@[simp] theorem State.modPool_tgl (s : State) (k : ClusterId) (g) : (s.modPool k g).tgl = s.tgl := rfl
@[simp] theorem State.modPool_plls (s : State) (k : ClusterId) (g) : (s.modPool k g).plls = s.plls := rfl
@[simp] theorem State.modPool_pwr (s : State) (k : ClusterId) (g) : (s.modPool k g).pwr = s.pwr := rfl
@[simp] theorem State.modPool_thm (s : State) (k : ClusterId) (g) : (s.modPool k g).thm = s.thm := rfl

@[simp] theorem State.modDdr_pending (s : State) (n : CtrlId) (g) : (s.modDdr n g).pending = s.pending := rfl
@[simp] theorem State.modDdr_free (s : State) (n : CtrlId) (g) : (s.modDdr n g).free = s.free := rfl
@[simp] theorem State.modDdr_out (s : State) (n : CtrlId) (g) : (s.modDdr n g).out = s.out := rfl
@[simp] theorem State.modDdr_chip (s : State) (n : CtrlId) (g) : (s.modDdr n g).chip = s.chip := rfl
@[simp] theorem State.modDdr_flash (s : State) (n : CtrlId) (g) : (s.modDdr n g).flash = s.flash := rfl
@[simp] theorem State.modDdr_evt (s : State) (n : CtrlId) (g) : (s.modDdr n g).evt = s.evt := rfl
@[simp] theorem State.modDdr_aci (s : State) (n : CtrlId) (g) : (s.modDdr n g).aci = s.aci := rfl
@[simp] theorem State.modDdr_cores (s : State) (n : CtrlId) (g) : (s.modDdr n g).cores = s.cores := rfl
@[simp] theorem State.modDdr_chains (s : State) (n : CtrlId) (g) : (s.modDdr n g).chains = s.chains := rfl
@[simp] theorem State.modDdr_pools (s : State) (n : CtrlId) (g) : (s.modDdr n g).pools = s.pools := rfl
@[simp] theorem State.modDdr_mem (s : State) (n : CtrlId) (g) : (s.modDdr n g).mem = s.mem := rfl
@[simp] theorem State.modDdr_scr (s : State) (n : CtrlId) (g) : (s.modDdr n g).scr = s.scr := rfl
@[simp] theorem State.modDdr_jnc (s : State) (n : CtrlId) (g) : (s.modDdr n g).jnc = s.jnc := rfl
@[simp] theorem State.modDdr_cxl (s : State) (n : CtrlId) (g) : (s.modDdr n g).cxl = s.cxl := rfl
@[simp] theorem State.modDdr_xl (s : State) (n : CtrlId) (g) : (s.modDdr n g).xl = s.xl := rfl
@[simp] theorem State.modDdr_tgl (s : State) (n : CtrlId) (g) : (s.modDdr n g).tgl = s.tgl := rfl
@[simp] theorem State.modDdr_plls (s : State) (n : CtrlId) (g) : (s.modDdr n g).plls = s.plls := rfl
@[simp] theorem State.modDdr_pwr (s : State) (n : CtrlId) (g) : (s.modDdr n g).pwr = s.pwr := rfl
@[simp] theorem State.modDdr_thm (s : State) (n : CtrlId) (g) : (s.modDdr n g).thm = s.thm := rfl

@[simp] theorem State.modTgl_pending (s : State) (p : PortId) (g) : (s.modTgl p g).pending = s.pending := rfl
@[simp] theorem State.modTgl_free (s : State) (p : PortId) (g) : (s.modTgl p g).free = s.free := rfl
@[simp] theorem State.modTgl_out (s : State) (p : PortId) (g) : (s.modTgl p g).out = s.out := rfl
@[simp] theorem State.modTgl_chip (s : State) (p : PortId) (g) : (s.modTgl p g).chip = s.chip := rfl
@[simp] theorem State.modTgl_flash (s : State) (p : PortId) (g) : (s.modTgl p g).flash = s.flash := rfl
@[simp] theorem State.modTgl_evt (s : State) (p : PortId) (g) : (s.modTgl p g).evt = s.evt := rfl
@[simp] theorem State.modTgl_aci (s : State) (p : PortId) (g) : (s.modTgl p g).aci = s.aci := rfl
@[simp] theorem State.modTgl_cores (s : State) (p : PortId) (g) : (s.modTgl p g).cores = s.cores := rfl
@[simp] theorem State.modTgl_chains (s : State) (p : PortId) (g) : (s.modTgl p g).chains = s.chains := rfl
@[simp] theorem State.modTgl_pools (s : State) (p : PortId) (g) : (s.modTgl p g).pools = s.pools := rfl
@[simp] theorem State.modTgl_mem (s : State) (p : PortId) (g) : (s.modTgl p g).mem = s.mem := rfl
@[simp] theorem State.modTgl_scr (s : State) (p : PortId) (g) : (s.modTgl p g).scr = s.scr := rfl
@[simp] theorem State.modTgl_ddr (s : State) (p : PortId) (g) : (s.modTgl p g).ddr = s.ddr := rfl
@[simp] theorem State.modTgl_jnc (s : State) (p : PortId) (g) : (s.modTgl p g).jnc = s.jnc := rfl
@[simp] theorem State.modTgl_cxl (s : State) (p : PortId) (g) : (s.modTgl p g).cxl = s.cxl := rfl
@[simp] theorem State.modTgl_xl (s : State) (p : PortId) (g) : (s.modTgl p g).xl = s.xl := rfl
@[simp] theorem State.modTgl_plls (s : State) (p : PortId) (g) : (s.modTgl p g).plls = s.plls := rfl
@[simp] theorem State.modTgl_pwr (s : State) (p : PortId) (g) : (s.modTgl p g).pwr = s.pwr := rfl
@[simp] theorem State.modTgl_thm (s : State) (p : PortId) (g) : (s.modTgl p g).thm = s.thm := rfl

@[simp] theorem State.modPll_pending (s : State) (k : PllId) (g) : (s.modPll k g).pending = s.pending := rfl
@[simp] theorem State.modPll_free (s : State) (k : PllId) (g) : (s.modPll k g).free = s.free := rfl
@[simp] theorem State.modPll_out (s : State) (k : PllId) (g) : (s.modPll k g).out = s.out := rfl
@[simp] theorem State.modPll_chip (s : State) (k : PllId) (g) : (s.modPll k g).chip = s.chip := rfl
@[simp] theorem State.modPll_flash (s : State) (k : PllId) (g) : (s.modPll k g).flash = s.flash := rfl
@[simp] theorem State.modPll_evt (s : State) (k : PllId) (g) : (s.modPll k g).evt = s.evt := rfl
@[simp] theorem State.modPll_aci (s : State) (k : PllId) (g) : (s.modPll k g).aci = s.aci := rfl
@[simp] theorem State.modPll_cores (s : State) (k : PllId) (g) : (s.modPll k g).cores = s.cores := rfl
@[simp] theorem State.modPll_chains (s : State) (k : PllId) (g) : (s.modPll k g).chains = s.chains := rfl
@[simp] theorem State.modPll_pools (s : State) (k : PllId) (g) : (s.modPll k g).pools = s.pools := rfl
@[simp] theorem State.modPll_mem (s : State) (k : PllId) (g) : (s.modPll k g).mem = s.mem := rfl
@[simp] theorem State.modPll_scr (s : State) (k : PllId) (g) : (s.modPll k g).scr = s.scr := rfl
@[simp] theorem State.modPll_ddr (s : State) (k : PllId) (g) : (s.modPll k g).ddr = s.ddr := rfl
@[simp] theorem State.modPll_jnc (s : State) (k : PllId) (g) : (s.modPll k g).jnc = s.jnc := rfl
@[simp] theorem State.modPll_cxl (s : State) (k : PllId) (g) : (s.modPll k g).cxl = s.cxl := rfl
@[simp] theorem State.modPll_xl (s : State) (k : PllId) (g) : (s.modPll k g).xl = s.xl := rfl
@[simp] theorem State.modPll_tgl (s : State) (k : PllId) (g) : (s.modPll k g).tgl = s.tgl := rfl
@[simp] theorem State.modPll_pwr (s : State) (k : PllId) (g) : (s.modPll k g).pwr = s.pwr := rfl
@[simp] theorem State.modPll_thm (s : State) (k : PllId) (g) : (s.modPll k g).thm = s.thm := rfl

@[simp] theorem State.modLink_pending (s : State) (l : LinkId) (g) : (s.modLink l g).pending = s.pending := rfl
@[simp] theorem State.modLink_free (s : State) (l : LinkId) (g) : (s.modLink l g).free = s.free := rfl
@[simp] theorem State.modLink_out (s : State) (l : LinkId) (g) : (s.modLink l g).out = s.out := rfl
@[simp] theorem State.modLink_chip (s : State) (l : LinkId) (g) : (s.modLink l g).chip = s.chip := rfl
@[simp] theorem State.modLink_flash (s : State) (l : LinkId) (g) : (s.modLink l g).flash = s.flash := rfl
@[simp] theorem State.modLink_evt (s : State) (l : LinkId) (g) : (s.modLink l g).evt = s.evt := rfl
@[simp] theorem State.modLink_aci (s : State) (l : LinkId) (g) : (s.modLink l g).aci = s.aci := rfl
@[simp] theorem State.modLink_cores (s : State) (l : LinkId) (g) : (s.modLink l g).cores = s.cores := rfl
@[simp] theorem State.modLink_chains (s : State) (l : LinkId) (g) : (s.modLink l g).chains = s.chains := rfl
@[simp] theorem State.modLink_pools (s : State) (l : LinkId) (g) : (s.modLink l g).pools = s.pools := rfl
@[simp] theorem State.modLink_mem (s : State) (l : LinkId) (g) : (s.modLink l g).mem = s.mem := rfl
@[simp] theorem State.modLink_scr (s : State) (l : LinkId) (g) : (s.modLink l g).scr = s.scr := rfl
@[simp] theorem State.modLink_ddr (s : State) (l : LinkId) (g) : (s.modLink l g).ddr = s.ddr := rfl
@[simp] theorem State.modLink_jnc (s : State) (l : LinkId) (g) : (s.modLink l g).jnc = s.jnc := rfl
@[simp] theorem State.modLink_xl (s : State) (l : LinkId) (g) : (s.modLink l g).xl = s.xl := rfl
@[simp] theorem State.modLink_tgl (s : State) (l : LinkId) (g) : (s.modLink l g).tgl = s.tgl := rfl
@[simp] theorem State.modLink_plls (s : State) (l : LinkId) (g) : (s.modLink l g).plls = s.plls := rfl
@[simp] theorem State.modLink_pwr (s : State) (l : LinkId) (g) : (s.modLink l g).pwr = s.pwr := rfl
@[simp] theorem State.modLink_thm (s : State) (l : LinkId) (g) : (s.modLink l g).thm = s.thm := rfl

@[simp] theorem State.emit_pending (s : State) (o : Out) : (s.emit o).pending = s.pending := rfl
@[simp] theorem State.emit_free (s : State) (o : Out) : (s.emit o).free = s.free := rfl
@[simp] theorem State.emit_chip (s : State) (o : Out) : (s.emit o).chip = s.chip := rfl
@[simp] theorem State.emit_flash (s : State) (o : Out) : (s.emit o).flash = s.flash := rfl
@[simp] theorem State.emit_evt (s : State) (o : Out) : (s.emit o).evt = s.evt := rfl
@[simp] theorem State.emit_aci (s : State) (o : Out) : (s.emit o).aci = s.aci := rfl
@[simp] theorem State.emit_cores (s : State) (o : Out) : (s.emit o).cores = s.cores := rfl
@[simp] theorem State.emit_chains (s : State) (o : Out) : (s.emit o).chains = s.chains := rfl
@[simp] theorem State.emit_pools (s : State) (o : Out) : (s.emit o).pools = s.pools := rfl
@[simp] theorem State.emit_mem (s : State) (o : Out) : (s.emit o).mem = s.mem := rfl
@[simp] theorem State.emit_scr (s : State) (o : Out) : (s.emit o).scr = s.scr := rfl
@[simp] theorem State.emit_ddr (s : State) (o : Out) : (s.emit o).ddr = s.ddr := rfl
@[simp] theorem State.emit_jnc (s : State) (o : Out) : (s.emit o).jnc = s.jnc := rfl
@[simp] theorem State.emit_cxl (s : State) (o : Out) : (s.emit o).cxl = s.cxl := rfl
@[simp] theorem State.emit_xl (s : State) (o : Out) : (s.emit o).xl = s.xl := rfl
@[simp] theorem State.emit_tgl (s : State) (o : Out) : (s.emit o).tgl = s.tgl := rfl
@[simp] theorem State.emit_plls (s : State) (o : Out) : (s.emit o).plls = s.plls := rfl
@[simp] theorem State.emit_pwr (s : State) (o : Out) : (s.emit o).pwr = s.pwr := rfl
@[simp] theorem State.emit_thm (s : State) (o : Out) : (s.emit o).thm = s.thm := rfl

@[simp] theorem State.emit_out (s : State) (o : Out) : (s.emit o).out = s.out ++ [o] := rfl
@[simp] theorem State.tick_free (s : State) : s.tick.free = s.free + 1 := rfl
@[simp] theorem State.tick_pending (s : State) : s.tick.pending = s.pending := rfl
@[simp] theorem State.tick_out (s : State) : s.tick.out = s.out := rfl
@[simp] theorem State.tick_chip (s : State) : s.tick.chip = s.chip := rfl
@[simp] theorem State.tick_flash (s : State) : s.tick.flash = s.flash := rfl
@[simp] theorem State.tick_evt (s : State) : s.tick.evt = s.evt := rfl
@[simp] theorem State.tick_aci (s : State) : s.tick.aci = s.aci := rfl
@[simp] theorem State.tick_cores (s : State) : s.tick.cores = s.cores := rfl
@[simp] theorem State.tick_chains (s : State) : s.tick.chains = s.chains := rfl
@[simp] theorem State.tick_pools (s : State) : s.tick.pools = s.pools := rfl
@[simp] theorem State.tick_mem (s : State) : s.tick.mem = s.mem := rfl
@[simp] theorem State.tick_scr (s : State) : s.tick.scr = s.scr := rfl
@[simp] theorem State.tick_ddr (s : State) : s.tick.ddr = s.ddr := rfl
@[simp] theorem State.tick_jnc (s : State) : s.tick.jnc = s.jnc := rfl
@[simp] theorem State.tick_cxl (s : State) : s.tick.cxl = s.cxl := rfl
@[simp] theorem State.tick_xl (s : State) : s.tick.xl = s.xl := rfl
@[simp] theorem State.tick_tgl (s : State) : s.tick.tgl = s.tgl := rfl
@[simp] theorem State.tick_plls (s : State) : s.tick.plls = s.plls := rfl
@[simp] theorem State.tick_pwr (s : State) : s.tick.pwr = s.pwr := rfl
@[simp] theorem State.tick_thm (s : State) : s.tick.thm = s.thm := rfl

/-! ## Events -/

/-- A message on a vector goes out, or its pending bit is set: nothing else changes. -/
theorem State.msix_frame (s : State) (v : Nat) :
    s.msix v = { s with out := (s.msix v).out, cxl := { s.cxl with pba := (s.msix v).cxl.pba } } := by
  unfold State.msix; split <;> rfl

@[simp] theorem State.msix_evt (s : State) (v : Nat) : (s.msix v).evt = s.evt := by
  unfold State.msix; split <;> rfl

/-- Raising a source changes its pending bit and what its message changes, and nothing else. -/
theorem State.raise_frame (s : State) (k : Nat) :
    s.raise k = { s with
      evt := { s.evt with pend := (s.raise k).evt.pend }
      out := (s.raise k).out
      cxl := { s.cxl with pba := (s.raise k).cxl.pba } } := by
  unfold State.raise
  split
  · rfl
  · split
    · rfl
    · simp only
      split
      · rw [State.msix_frame]
      · rfl

@[simp] theorem State.raise_mem (s : State) (k : Nat) : (s.raise k).mem = s.mem := by rw [State.raise_frame]
@[simp] theorem State.raise_cores (s : State) (k : Nat) : (s.raise k).cores = s.cores := by rw [State.raise_frame]
@[simp] theorem State.raise_chains (s : State) (k : Nat) : (s.raise k).chains = s.chains := by rw [State.raise_frame]
@[simp] theorem State.raise_tgl (s : State) (k : Nat) : (s.raise k).tgl = s.tgl := by rw [State.raise_frame]
@[simp] theorem State.raise_xl (s : State) (k : Nat) : (s.raise k).xl = s.xl := by rw [State.raise_frame]
@[simp] theorem State.raise_ddr (s : State) (k : Nat) : (s.raise k).ddr = s.ddr := by rw [State.raise_frame]
@[simp] theorem State.raise_scr (s : State) (k : Nat) : (s.raise k).scr = s.scr := by rw [State.raise_frame]
@[simp] theorem State.raise_jnc (s : State) (k : Nat) : (s.raise k).jnc = s.jnc := by rw [State.raise_frame]
@[simp] theorem State.raise_aci (s : State) (k : Nat) : (s.raise k).aci = s.aci := by rw [State.raise_frame]
@[simp] theorem State.raise_chip (s : State) (k : Nat) : (s.raise k).chip = s.chip := by rw [State.raise_frame]
@[simp] theorem State.raise_free (s : State) (k : Nat) : (s.raise k).free = s.free := by rw [State.raise_frame]
@[simp] theorem State.raise_pending (s : State) (k : Nat) : (s.raise k).pending = s.pending := by rw [State.raise_frame]

/-- A source that has been raised is pending. -/
theorem State.raise_pendingSrc (s : State) (k : Nat) (h : k < 2048) : (s.raise k).pendingSrc k = true := by
  have hw : fin? 32 (k / 64) = some ⟨k / 64, by omega⟩ := by simp [fin?]; omega
  have hk : k % 64 < 64 := Nat.mod_lt _ (by decide)
  by_cases hb : s.evt.pend[k / 64].getLsbD (k % 64) = true
  · simp [State.raise, State.pendingSrc, hw, hb]
  · have key : (s.raise k).evt.pend = s.evt.pend.set (k / 64) (s.evt.pend[k / 64] ||| (1 : Word) <<< (k % 64)) := by
      simp only [State.raise, hw]
      rw [if_neg (by simpa using hb)]
      split <;> simp
    simp only [State.pendingSrc, hw]
    rw [key]
    simp [hk]

end Sys2Proof.Machine
end

