-- ==== Sys2Proof/Laws/Bundle.lean ====
section
/-! SUPPORT. What an instruction alone in its bundle does once it executes: the lemmas that statements about single
instructions cite in place of the bundle's machinery. -/

namespace Sys2Proof.Machine

@[simp] theorem slotOf_f (unit op : Nat) (f : Fields) : (slotOf unit op f).f = f := rfl

/-- A bundle of one instruction ends at NA. -/
theorem bundleEnd_single (s : State) (n : CoreId) (t : ThreadId) (i : SlotI) :
    bundleEnd s.cores[n].threads[t].pc [i] = s.nextPc n t i := by
  simp [-Fin.getElem_fin, bundleEnd, State.nextPc, State.thread]

/-- Decode of an instruction alone in its bundle comes to the bundle's end. -/
theorem State.coreInstr_alone {s : State} {n : CoreId} {t : ThreadId} {i : SlotI} (h : s.alone n t i = true) :
    s.coreInstr n t i true = s.finishBundle n t [i] := by
  simp only [State.alone, State.arrives, Bool.and_eq_true, Bool.not_eq_true', Bool.or_eq_true, List.isEmpty_iff,
    Option.isNone_iff_eq_none, State.thread] at h
  obtain ⟨⟨⟨⟨⟨⟨⟨⟨⟨hr, hc⟩, hl⟩, hd⟩, hi⟩, hf⟩, hw⟩, hs⟩, -⟩, -⟩ := h
  have hpc : bundleEnd s.cores[n].threads[t].pc [] = s.cores[n].threads[t].pc := by simp [bundleEnd]
  have hf := of_decide_eq_true hf
  have hin : ¬(s.cores[n].threads[t].pc.toNat < imemSize ∧ imemSize < s.cores[n].threads[t].pc.toNat + 2 * i.f.parcels) := by
    rcases hi with hi | hi <;> have := of_decide_eq_true hi <;> omega
  unfold State.coreInstr
  simp only [hr, hc, hl, hd]
  unfold State.readSlot
  simp only [hl, hpc, hs, List.nil_append, List.getLast?_nil, Option.map_none, Option.getD_none,
    Bool.and_eq_true, decide_eq_true_eq, if_true]
  rw [if_neg hin, hf, hw]
  simp [-Fin.getElem_fin, State.fixWords]

/-- An instruction that executes alone and comes to effects other than trap retires with them. -/
theorem State.alone_retires {s u : State} {n : CoreId} {t : ThreadId} {i : SlotI} {es : List Eff}
    (h : s.alone n t i = true) (he : s.abandonOnExc n t (s.nextPc n t i) [i] = s)
    (hr : s.runSlots n t (s.nextPc n t i) [i] = (u, .ok es)) (hs : softOf es = none) :
    s.coreInstr n t i true = u.retire n t (s.nextPc n t i) [i] (s.cores[n].l2Extra (s.thread n t) [i]) es := by
  rw [State.coreInstr_alone h]
  simp only [State.alone, Bool.and_eq_true, Bool.not_eq_true', Option.isNone_iff_eq_none] at h
  simp [-Fin.getElem_fin, State.finishBundle, h.1.2, he, h.2, bundleEnd_single, hr, hs, State.thread]

/-- Only chiss and chwait touch a halted chain. -/
theorem State.abandonOnExc_id {s : State} {n : CoreId} {t : ThreadId} {na : Word} {i : SlotI}
    (h : (i.isV 0 || i.isV 1) = false) : s.abandonOnExc n t na [i] = s := by
  unfold State.abandonOnExc; split <;> simp [h]

/-- The cycles of a bundle change CYCLE and the counter of free values alone. -/
theorem State.chargeBundle_eq (s : State) (n : CoreId) (t : ThreadId) (na : Word) (is : List SlotI) (extra : Nat) :
    ∃ cyc fr, s.chargeBundle n t na is extra = { s.modCore n (fun c => { c with cycle := cyc }) with free := fr } := by
  unfold State.chargeBundle
  simp only
  split
  · exact ⟨_, _, rfl⟩
  · split
    · exact ⟨_, _, rfl⟩
    · split
      · exact ⟨_, s.free, rfl⟩
      · exact ⟨_, _, rfl⟩

/-- A new CYCLE and a value of CORE_CFG that comes into force do not meet. -/
theorem Core.bundleOver_cycle (c : Core) (cyc : Word) :
    ({ c with cycle := cyc } : Core).bundleOver = { c.bundleOver with cycle := cyc } := by
  unfold Core.bundleOver; dsimp only; split <;> simp_all [Core.setMode, Core.icacheOn, Core.dcacheOn, Core.determ]

/-- A retired bundle is the effects on a thread that has gone on, but for the cycles. -/
theorem State.retire_eq (s : State) (n : CoreId) (t : ThreadId) (i : SlotI) (extra : Nat) (es : List Eff) :
    ∃ cyc fr, s.retire n t (s.nextPc n t i) [i] extra es =
      ({ (s.past n t i).modCore n (fun c => { c with cycle := cyc }) with free := fr } : State).applyEffs n t es := by
  obtain ⟨cyc, fr, h⟩ := s.chargeBundle_eq n t (s.nextPc n t i) [i] extra
  refine ⟨cyc, fr, ?_⟩
  simp only [State.retire, h, State.past, State.thread]
  congr 1
  simp [State.modCore, Core.bundleOver_cycle, Core.modThread]

end Sys2Proof.Machine
end

