-- ==== Sys2Proof/Laws/Fabric.lean ====
section
/-! SUPPORT. What sending and taking messages on the Tchigor link can change: the ports and the outputs, and nothing else. -/

namespace Sys2Proof.Machine

/-- Only the Tchigor ports and the outputs differ. -/
def State.PortsOnly (u s : State) : Prop := u = { s with tgl := u.tgl, out := u.out }

theorem State.PortsOnly.refl (s : State) : s.PortsOnly s := rfl

theorem State.PortsOnly.trans {u v s : State} (h : u.PortsOnly v) (k : v.PortsOnly s) : u.PortsOnly s := by
  unfold State.PortsOnly at *
  rw [h, k]

/-- A fold of such steps is such a step. -/
theorem State.portsOnly_foldl {α : Type} (f : State → α → State) (hf : ∀ s a, (f s a).PortsOnly s) (l : List α) :
    ∀ s : State, (l.foldl f s).PortsOnly s := by
  induction l with
  | nil => exact fun _ => rfl
  | cons a l ih => exact fun s => (ih (f s a)).trans (hf s a)

theorem State.modTgl_portsOnly (s : State) (p : PortId) (g : Tgl → Tgl) : (s.modTgl p g).PortsOnly s := rfl

theorem State.sendFrame_portsOnly (s : State) (p : PortId) (slots : List FlitSlot) (cvc ccnt : Nat) :
    (s.sendFrame p slots cvc ccnt).PortsOnly s := rfl

theorem State.sendSlots_portsOnly (s : State) (p : PortId) (v : Nat) (slots : List FlitSlot) :
    (s.sendSlots p v slots).PortsOnly s :=
  (State.portsOnly_foldl _ (fun s i => s.sendFrame_portsOnly p ((slots.drop (4 * i)).take 4) 15 0) _ _).trans
    (s.modTgl_portsOnly p _)

theorem State.returnCredits_portsOnly (s : State) (p : PortId) : (s.returnCredits p).PortsOnly s := by
  unfold State.returnCredits
  split
  · exact State.PortsOnly.refl s
  · refine State.portsOnly_foldl _ (fun s v => ?_) _ s
    dsimp only
    split
    · exact State.PortsOnly.refl s
    · exact (State.sendFrame_portsOnly _ _ _ _ _).trans (State.modTgl_portsOnly _ _ _)

/-- Taking a message from a receive buffer frees its slots and may return credits. -/
theorem State.takeRx_portsOnly (s : State) (p : PortId) (r : RxMsg) : (s.takeRx p r).PortsOnly s :=
  (State.returnCredits_portsOnly _ p).trans
    ((State.modTgl_portsOnly _ p _).trans (State.modTgl_portsOnly s p _))

end Sys2Proof.Machine
end

