-- ==== Sys2Proof/Laws/Memory.lean ====
section
/-! SUPPORT. The laws of sparse arrays and of memory: what a read after a write gives, and that every operation on memory keeps
the canonical form. -/

namespace Sys2Proof.Machine

/-! ## Cells -/

theorem cellsFrom_mono {w : Nat} {lo lo' : Nat} {l : List (Nat × BitVec w)} (h : cellsFrom lo' l = true) (hl : lo ≤ lo') :
    cellsFrom lo l = true := by
  cases l with
  | nil => rfl
  | cons p t => simp [cellsFrom] at h ⊢; exact ⟨⟨by omega, h.1.2⟩, h.2⟩

theorem cellSet_from {w : Nat} {lo : Nat} {l : List (Nat × BitVec w)} (h : cellsFrom lo l = true) {a : Nat} (ha : lo ≤ a)
    (v : BitVec w) : cellsFrom lo (cellSet l a v) = true := by
  induction l generalizing lo with
  | nil => by_cases hv : v = 0#w <;> simp [cellSet, hv, cellsFrom, ha]
  | cons p t ih =>
    obtain ⟨b, x⟩ := p
    simp only [cellsFrom, Bool.and_eq_true, decide_eq_true_eq] at h
    simp only [cellSet]
    split
    · split
      · simp only [cellsFrom, Bool.and_eq_true, decide_eq_true_eq]; exact h
      · rename_i hab hv
        simp only [cellsFrom, Bool.and_eq_true, decide_eq_true_eq]
        exact ⟨⟨ha, hv⟩, ⟨by omega, h.1.2⟩, h.2⟩
    · split
      · split
        · exact cellsFrom_mono h.2 (by omega)
        · rename_i hab hv
          simp only [cellsFrom, Bool.and_eq_true, decide_eq_true_eq]
          exact ⟨⟨ha, hv⟩, by rw [hab]; exact h.2⟩
      · simp only [cellsFrom, Bool.and_eq_true, decide_eq_true_eq]
        exact ⟨h.1, ih h.2 (by omega)⟩

/-- A write of one cell keeps the canonical form. -/
theorem cellSet_wf {w : Nat} {l : List (Nat × BitVec w)} (h : cellsWf l = true) (a : Nat) (v : BitVec w) :
    cellsWf (cellSet l a v) = true := cellSet_from h (Nat.zero_le a) v

/-- A write of bytes keeps the canonical form. -/
theorem writeCells_wf {m : List (Nat × Byte)} (h : cellsWf m = true) (a : Nat) (bs : List Byte) :
    cellsWf (writeCells m a bs) = true := by
  induction bs generalizing m a with
  | nil => exact h
  | cons b t ih => exact ih (cellSet_wf h a b) (a + 1)

theorem cellsFrom_filter {w : Nat} {lo : Nat} {l : List (Nat × BitVec w)} (h : cellsFrom lo l = true)
    (p : Nat × BitVec w → Bool) : cellsFrom lo (l.filter p) = true := by
  induction l generalizing lo with
  | nil => rfl
  | cons c t ih =>
    simp only [cellsFrom, Bool.and_eq_true, decide_eq_true_eq] at h
    by_cases hp : p c
    · simp only [List.filter_cons_of_pos hp, cellsFrom, Bool.and_eq_true, decide_eq_true_eq]
      exact ⟨h.1, ih h.2⟩
    · rw [List.filter_cons_of_neg hp]
      exact cellsFrom_mono (ih h.2) (by omega)

/-- Clearing a range keeps the canonical form. -/
theorem clearCells_wf {m : List (Nat × Byte)} (h : cellsWf m = true) (a n : Nat) : cellsWf (clearCells m a n) = true :=
  cellsFrom_filter h _

theorem cellGet_below {w : Nat} {lo a : Nat} {l : List (Nat × BitVec w)} (h : cellsFrom lo l = true) (ha : a < lo) :
    cellGet l a = 0 := by
  induction l generalizing lo with
  | nil => rfl
  | cons p t ih =>
    simp only [cellsFrom, Bool.and_eq_true, decide_eq_true_eq] at h
    simp only [cellGet]
    rw [if_neg (by omega)]
    exact ih h.2 (by omega)

/-- A cell that has been written reads as what was written. -/
theorem cellGet_cellSet_same {w : Nat} {l : List (Nat × BitVec w)} (h : cellsWf l = true) (a : Nat) (v : BitVec w) :
    cellGet (cellSet l a v) a = v := by
  unfold cellsWf at h
  generalize 0 = lo at h
  induction l generalizing lo with
  | nil => by_cases hv : v = 0#w <;> simp [cellSet, hv, cellGet]
  | cons p t ih =>
    obtain ⟨b, x⟩ := p
    simp only [cellsFrom, Bool.and_eq_true, decide_eq_true_eq] at h
    simp only [cellSet]
    split
    · split
      · rename_i hab hv
        simp only [cellGet]
        rw [if_neg (by omega), hv]
        exact cellGet_below h.2 (by omega)
      · simp [cellGet]
    · split
      · split
        · rename_i hv; rw [hv]; exact cellGet_below h.2 (by omega)
        · simp [cellGet]
      · simp only [cellGet]
        rw [if_neg (by omega)]
        exact ih _ h.2

/-- Every other cell reads as before. -/
theorem cellGet_cellSet_other {w : Nat} (l : List (Nat × BitVec w)) {a k : Nat} (hk : k ≠ a) (v : BitVec w) :
    cellGet (cellSet l a v) k = cellGet l k := by
  induction l with
  | nil => by_cases hv : v = 0#w <;> simp [cellSet, hv, cellGet, hk]
  | cons p t ih =>
    obtain ⟨b, x⟩ := p
    simp only [cellSet]
    split
    · split
      · rfl
      · simp [cellGet, hk]
    · split
      · subst_vars
        split <;> simp [cellGet, hk]
      · simp only [cellGet, ih]

/-- Bytes outside a write read as before. -/
theorem cellGet_writeCells_other (m : List (Nat × Byte)) {a k : Nat} (bs : List Byte) (hk : k < a ∨ a + bs.length ≤ k) :
    cellGet (writeCells m a bs) k = cellGet m k := by
  induction bs generalizing m a with
  | nil => rfl
  | cons b t ih =>
    simp only [List.length_cons] at hk
    rw [writeCells, ih _ (by omega), cellGet_cellSet_other _ (by omega)]

/-- Bytes that a write covers read as what was written. -/
theorem cellGet_writeCells {m : List (Nat × Byte)} (h : cellsWf m = true) (a : Nat) (bs : List Byte) (i : Nat)
    (hi : i < bs.length) : cellGet (writeCells m a bs) (a + i) = bs[i] := by
  induction bs generalizing m a i with
  | nil => simp at hi
  | cons b t ih =>
    cases i with
    | zero =>
      rw [writeCells, cellGet_writeCells_other _ _ (by omega)]
      exact cellGet_cellSet_same h a b
    | succ i =>
      rw [writeCells, show a + (i + 1) = a + 1 + i by omega]
      simpa using ih (cellSet_wf h a b) (a + 1) i (by simpa using hi)

/-- What was written is read back. -/
theorem readCells_writeCells {m : List (Nat × Byte)} (h : cellsWf m = true) (a : Nat) (bs : List Byte) :
    readCells (writeCells m a bs) a bs.length = bs := by
  have key : ∀ n i, n + i = bs.length → readCells (writeCells m a bs) (a + i) n = bs.drop i := by
    intro n
    induction n with
    | zero => intro i hi; simp [readCells, ← hi]
    | succ n ih =>
      intro i hi
      have hlt : i < bs.length := by omega
      rw [readCells, cellGet_writeCells h a bs i hlt, show a + i + 1 = a + (i + 1) by omega, ih (i + 1) (by omega)]
      exact (List.drop_eq_getElem_cons hlt).symm
  simpa using key bs.length 0 rfl

/-! ## Poison -/

theorem risingFrom_mono {lo lo' : Nat} {l : List Nat} (h : risingFrom lo' l = true) (hl : lo ≤ lo') : risingFrom lo l = true := by
  cases l with
  | nil => rfl
  | cons a t => simp [risingFrom] at h ⊢; exact ⟨by omega, h.2⟩

theorem risingFrom_filter {lo : Nat} {l : List Nat} (h : risingFrom lo l = true) (p : Nat → Bool) :
    risingFrom lo (l.filter p) = true := by
  induction l generalizing lo with
  | nil => rfl
  | cons a t ih =>
    simp only [risingFrom, Bool.and_eq_true, decide_eq_true_eq] at h
    by_cases hp : p a
    · simp only [List.filter_cons_of_pos hp, risingFrom, Bool.and_eq_true, decide_eq_true_eq]
      exact ⟨h.1, ih h.2⟩
    · rw [List.filter_cons_of_neg hp]
      exact risingFrom_mono (ih h.2) (by omega)

theorem natIns_rising {lo : Nat} {l : List Nat} (h : risingFrom lo l = true) {n : Nat} (hn : lo ≤ n) :
    risingFrom lo (natIns n l) = true := by
  induction l generalizing lo with
  | nil => simp [natIns, risingFrom, hn]
  | cons a t ih =>
    simp only [risingFrom, Bool.and_eq_true, decide_eq_true_eq] at h
    simp only [natIns]
    split
    · simp only [risingFrom, Bool.and_eq_true, decide_eq_true_eq]
      exact ⟨hn, by omega, h.2⟩
    · split
      · simp only [risingFrom, Bool.and_eq_true, decide_eq_true_eq]; exact h
      · simp only [risingFrom, Bool.and_eq_true, decide_eq_true_eq]
        exact ⟨h.1, ih h.2 (by omega)⟩

theorem natIns_all_rising {l : List Nat} (h : risingFrom 0 l = true) (gs : List Nat) :
    risingFrom 0 (gs.foldl (fun l g => natIns g l) l) = true := by
  induction gs generalizing l with
  | nil => exact h
  | cons g t ih => exact ih (natIns_rising h (Nat.zero_le g))

/-! ## Memory -/

theorem Memory.wf_iff (m : Memory) :
    m.wf = true ↔ cellsWf m.cells = true ∧ risingFrom 0 m.badScratch = true ∧ risingFrom 0 m.badDdr = true := by
  simp [Memory.wf, and_assoc]

/-- A write of memory keeps the canonical form. -/
theorem State.memWrite_wf {s : State} (h : s.mem.wf = true) (off : Nat) (bs : List Byte) : (s.memWrite off bs).mem.wf = true := by
  obtain ⟨h1, h2, h3⟩ := (Memory.wf_iff _).mp h
  have hw := writeCells_wf h1 off bs
  unfold State.memWrite
  split
  · exact (Memory.wf_iff _).mpr ⟨hw, risingFrom_filter h2 _, h3⟩
  · exact (Memory.wf_iff _).mpr ⟨hw, h2, risingFrom_filter h3 _⟩

/-- Poisoning keeps the canonical form. -/
theorem State.poisonAt_wf {s : State} (h : s.mem.wf = true) (off n : Nat) : (s.poisonAt off n).mem.wf = true := by
  obtain ⟨h1, h2, h3⟩ := (Memory.wf_iff _).mp h
  unfold State.poisonAt
  split
  · exact (Memory.wf_iff _).mpr ⟨h1, natIns_all_rising h2 _, h3⟩
  · exact (Memory.wf_iff _).mpr ⟨h1, h2, natIns_all_rising h3 _⟩

/-- A write of memory changes memory and the write-backs that wait, and nothing else. -/
theorem State.memWrite_frame (s : State) (off : Nat) (bs : List Byte) :
    s.memWrite off bs = { s with mem := (s.memWrite off bs).mem, scr := (s.memWrite off bs).scr } := by
  unfold State.memWrite; split <;> rfl

/-- The cells after a write. -/
@[simp] theorem State.memWrite_cells (s : State) (off : Nat) (bs : List Byte) :
    (s.memWrite off bs).mem.cells = writeCells s.mem.cells off bs := by
  unfold State.memWrite; split <;> rfl

/-- Poisoning changes memory's marks, and nothing else. -/
theorem State.poisonAt_frame (s : State) (off n : Nat) :
    s.poisonAt off n = { s with mem := (s.poisonAt off n).mem } := by
  unfold State.poisonAt; split <;> rfl

@[simp] theorem State.poisonAt_cells (s : State) (off n : Nat) : (s.poisonAt off n).mem.cells = s.mem.cells := by
  unfold State.poisonAt; split <;> rfl

/-- What was written is read back. -/
theorem State.memRead_memWrite {s : State} (h : s.mem.wf = true) (off : Nat) (bs : List Byte) :
    (s.memWrite off bs).memRead off bs.length = bs := by
  rw [State.memRead, State.memWrite_cells]
  exact readCells_writeCells ((Memory.wf_iff _).mp h).1 off bs

/-- A byte outside a write reads as before. -/
theorem State.memWrite_other (s : State) (off : Nat) (bs : List Byte) {k : Nat} (hk : k < off ∨ off + bs.length ≤ k) :
    cellGet (s.memWrite off bs).mem.cells k = cellGet s.mem.cells k := by
  rw [State.memWrite_cells]; exact cellGet_writeCells_other _ _ hk

end Sys2Proof.Machine
end

