-- ==== Sys2Proof/Laws/Updates.lean ====
section
/-! SUPPORT. What the operations on commands, queue pairs, junction ports, the flash and the links' training leave alone, each said
once. -/

namespace Sys2Proof.Machine

/-! ## Field by field -/

@[simp] theorem State.modCmd_pending (s : State) (h : Half) (g) : (s.modCmd h g).pending = s.pending := rfl
@[simp] theorem State.modCmd_free (s : State) (h : Half) (g) : (s.modCmd h g).free = s.free := rfl
@[simp] theorem State.modCmd_out (s : State) (h : Half) (g) : (s.modCmd h g).out = s.out := rfl
@[simp] theorem State.modCmd_chip (s : State) (h : Half) (g) : (s.modCmd h g).chip = s.chip := rfl
@[simp] theorem State.modCmd_flash (s : State) (h : Half) (g) : (s.modCmd h g).flash = s.flash := rfl
@[simp] theorem State.modCmd_evt (s : State) (h : Half) (g) : (s.modCmd h g).evt = s.evt := rfl
@[simp] theorem State.modCmd_cores (s : State) (h : Half) (g) : (s.modCmd h g).cores = s.cores := rfl
@[simp] theorem State.modCmd_chains (s : State) (h : Half) (g) : (s.modCmd h g).chains = s.chains := rfl
@[simp] theorem State.modCmd_pools (s : State) (h : Half) (g) : (s.modCmd h g).pools = s.pools := rfl
@[simp] theorem State.modCmd_mem (s : State) (h : Half) (g) : (s.modCmd h g).mem = s.mem := rfl
@[simp] theorem State.modCmd_scr (s : State) (h : Half) (g) : (s.modCmd h g).scr = s.scr := rfl
@[simp] theorem State.modCmd_ddr (s : State) (h : Half) (g) : (s.modCmd h g).ddr = s.ddr := rfl
@[simp] theorem State.modCmd_jnc (s : State) (h : Half) (g) : (s.modCmd h g).jnc = s.jnc := rfl
@[simp] theorem State.modCmd_cxl (s : State) (h : Half) (g) : (s.modCmd h g).cxl = s.cxl := rfl
@[simp] theorem State.modCmd_xl (s : State) (h : Half) (g) : (s.modCmd h g).xl = s.xl := rfl
@[simp] theorem State.modCmd_tgl (s : State) (h : Half) (g) : (s.modCmd h g).tgl = s.tgl := rfl
@[simp] theorem State.modCmd_plls (s : State) (h : Half) (g) : (s.modCmd h g).plls = s.plls := rfl
@[simp] theorem State.modCmd_pwr (s : State) (h : Half) (g) : (s.modCmd h g).pwr = s.pwr := rfl
@[simp] theorem State.modCmd_thm (s : State) (h : Half) (g) : (s.modCmd h g).thm = s.thm := rfl

@[simp] theorem State.setTport_pending (s : State) (j : Junction) (t : Nat) (p : TPort) : (s.setTport j t p).pending = s.pending := rfl
@[simp] theorem State.setTport_free (s : State) (j : Junction) (t : Nat) (p : TPort) : (s.setTport j t p).free = s.free := rfl
@[simp] theorem State.setTport_out (s : State) (j : Junction) (t : Nat) (p : TPort) : (s.setTport j t p).out = s.out := rfl
@[simp] theorem State.setTport_chip (s : State) (j : Junction) (t : Nat) (p : TPort) : (s.setTport j t p).chip = s.chip := rfl
@[simp] theorem State.setTport_flash (s : State) (j : Junction) (t : Nat) (p : TPort) : (s.setTport j t p).flash = s.flash := rfl
@[simp] theorem State.setTport_evt (s : State) (j : Junction) (t : Nat) (p : TPort) : (s.setTport j t p).evt = s.evt := rfl
@[simp] theorem State.setTport_aci (s : State) (j : Junction) (t : Nat) (p : TPort) : (s.setTport j t p).aci = s.aci := rfl
@[simp] theorem State.setTport_cores (s : State) (j : Junction) (t : Nat) (p : TPort) : (s.setTport j t p).cores = s.cores := rfl
@[simp] theorem State.setTport_chains (s : State) (j : Junction) (t : Nat) (p : TPort) : (s.setTport j t p).chains = s.chains := rfl
@[simp] theorem State.setTport_pools (s : State) (j : Junction) (t : Nat) (p : TPort) : (s.setTport j t p).pools = s.pools := rfl
@[simp] theorem State.setTport_mem (s : State) (j : Junction) (t : Nat) (p : TPort) : (s.setTport j t p).mem = s.mem := rfl
@[simp] theorem State.setTport_scr (s : State) (j : Junction) (t : Nat) (p : TPort) : (s.setTport j t p).scr = s.scr := rfl
@[simp] theorem State.setTport_ddr (s : State) (j : Junction) (t : Nat) (p : TPort) : (s.setTport j t p).ddr = s.ddr := rfl
@[simp] theorem State.setTport_cxl (s : State) (j : Junction) (t : Nat) (p : TPort) : (s.setTport j t p).cxl = s.cxl := rfl
@[simp] theorem State.setTport_xl (s : State) (j : Junction) (t : Nat) (p : TPort) : (s.setTport j t p).xl = s.xl := rfl
@[simp] theorem State.setTport_tgl (s : State) (j : Junction) (t : Nat) (p : TPort) : (s.setTport j t p).tgl = s.tgl := rfl
@[simp] theorem State.setTport_plls (s : State) (j : Junction) (t : Nat) (p : TPort) : (s.setTport j t p).plls = s.plls := rfl
@[simp] theorem State.setTport_pwr (s : State) (j : Junction) (t : Nat) (p : TPort) : (s.setTport j t p).pwr = s.pwr := rfl
@[simp] theorem State.setTport_thm (s : State) (j : Junction) (t : Nat) (p : TPort) : (s.setTport j t p).thm = s.thm := rfl

@[simp] theorem State.delay_pending (s : State) (x : Late) : (s.delay x).pending = s.pending := rfl
@[simp] theorem State.delay_free (s : State) (x : Late) : (s.delay x).free = s.free := rfl
@[simp] theorem State.delay_out (s : State) (x : Late) : (s.delay x).out = s.out := rfl
@[simp] theorem State.delay_flash (s : State) (x : Late) : (s.delay x).flash = s.flash := rfl
@[simp] theorem State.delay_evt (s : State) (x : Late) : (s.delay x).evt = s.evt := rfl
@[simp] theorem State.delay_aci (s : State) (x : Late) : (s.delay x).aci = s.aci := rfl
@[simp] theorem State.delay_cores (s : State) (x : Late) : (s.delay x).cores = s.cores := rfl
@[simp] theorem State.delay_chains (s : State) (x : Late) : (s.delay x).chains = s.chains := rfl
@[simp] theorem State.delay_pools (s : State) (x : Late) : (s.delay x).pools = s.pools := rfl
@[simp] theorem State.delay_mem (s : State) (x : Late) : (s.delay x).mem = s.mem := rfl
@[simp] theorem State.delay_scr (s : State) (x : Late) : (s.delay x).scr = s.scr := rfl
@[simp] theorem State.delay_ddr (s : State) (x : Late) : (s.delay x).ddr = s.ddr := rfl
@[simp] theorem State.delay_jnc (s : State) (x : Late) : (s.delay x).jnc = s.jnc := rfl
@[simp] theorem State.delay_cxl (s : State) (x : Late) : (s.delay x).cxl = s.cxl := rfl
@[simp] theorem State.delay_xl (s : State) (x : Late) : (s.delay x).xl = s.xl := rfl
@[simp] theorem State.delay_tgl (s : State) (x : Late) : (s.delay x).tgl = s.tgl := rfl
@[simp] theorem State.delay_plls (s : State) (x : Late) : (s.delay x).plls = s.plls := rfl
@[simp] theorem State.delay_pwr (s : State) (x : Late) : (s.delay x).pwr = s.pwr := rfl
@[simp] theorem State.delay_thm (s : State) (x : Late) : (s.delay x).thm = s.thm := rfl

@[simp] theorem State.startStore_pending (s : State) (c : FabricCopy) : (s.startStore c).pending = s.pending := rfl
@[simp] theorem State.startStore_free (s : State) (c : FabricCopy) : (s.startStore c).free = s.free := rfl
@[simp] theorem State.startStore_out (s : State) (c : FabricCopy) : (s.startStore c).out = s.out := rfl
@[simp] theorem State.startStore_chip (s : State) (c : FabricCopy) : (s.startStore c).chip = s.chip := rfl
@[simp] theorem State.startStore_evt (s : State) (c : FabricCopy) : (s.startStore c).evt = s.evt := rfl
@[simp] theorem State.startStore_aci (s : State) (c : FabricCopy) : (s.startStore c).aci = s.aci := rfl
@[simp] theorem State.startStore_cores (s : State) (c : FabricCopy) : (s.startStore c).cores = s.cores := rfl
@[simp] theorem State.startStore_chains (s : State) (c : FabricCopy) : (s.startStore c).chains = s.chains := rfl
@[simp] theorem State.startStore_pools (s : State) (c : FabricCopy) : (s.startStore c).pools = s.pools := rfl
@[simp] theorem State.startStore_mem (s : State) (c : FabricCopy) : (s.startStore c).mem = s.mem := rfl
@[simp] theorem State.startStore_scr (s : State) (c : FabricCopy) : (s.startStore c).scr = s.scr := rfl
@[simp] theorem State.startStore_ddr (s : State) (c : FabricCopy) : (s.startStore c).ddr = s.ddr := rfl
@[simp] theorem State.startStore_jnc (s : State) (c : FabricCopy) : (s.startStore c).jnc = s.jnc := rfl
@[simp] theorem State.startStore_cxl (s : State) (c : FabricCopy) : (s.startStore c).cxl = s.cxl := rfl
@[simp] theorem State.startStore_tgl (s : State) (c : FabricCopy) : (s.startStore c).tgl = s.tgl := rfl
@[simp] theorem State.startStore_plls (s : State) (c : FabricCopy) : (s.startStore c).plls = s.plls := rfl
@[simp] theorem State.startStore_pwr (s : State) (c : FabricCopy) : (s.startStore c).pwr = s.pwr := rfl
@[simp] theorem State.startStore_thm (s : State) (c : FabricCopy) : (s.startStore c).thm = s.thm := rfl

/-! ## What an operation can do -/

/-- Changing a pair changes the list of pairs alone. -/
theorem State.modPair_frame (s : State) (q : Nat) (g : Pair → Pair) :
    s.modPair q g = { s with aci := { s.aci with pairs := (s.modPair q g).aci.pairs } } := by
  unfold State.modPair; split <;> rfl

/-- The end of a waymark's write changes the flash and what is left to write. -/
theorem State.endStore_frame (s : State) :
    s.endStore = { s with flash := s.endStore.flash, xl := { s.xl with toStore := s.endStore.xl.toStore } } := by
  unfold State.endStore; split
  · rfl
  · split <;> rfl

/-- A write of the flash changes the flash, and ends a waymark's write. -/
theorem State.program_frame (s : State) (f : Flash → Flash) :
    s.program f = { s with flash := f s.endStore.flash, xl := { s.xl with toStore := s.endStore.xl.toStore } } := by
  unfold State.program; dsimp only; rw [State.endStore_frame]

/-- Without a waymark to write, a write of the flash is that write. -/
@[simp] theorem State.program_idle (s : State) (f : Flash → Flash) (h : s.xl.toStore = none) :
    s.program f = { s with flash := f s.flash } := by
  simp [State.program, State.endStore, h]

/-- A port that begins to train changes its port, sends a frame and draws a free value; a port that may not train is as before. -/
theorem State.startTraining_frame (s : State) (p : PortId) :
    s.startTraining p = { s with
      tgl := (s.startTraining p).tgl, out := (s.startTraining p).out, free := (s.startTraining p).free } := by
  unfold State.startTraining; split <;> rfl

/-- Training that begins at one port leaves every other port as it is. -/
theorem State.startTraining_other (s : State) (p q : PortId) (h : q ≠ p) : (s.startTraining p).tgl[q] = s.tgl[q] := by
  unfold State.startTraining
  split
  · simp only [State.emit_tgl, State.tick_tgl]
    have : (p : Nat) ≠ q := fun e => h (Fin.ext e.symm)
    simp [State.modTgl, this]
  · rfl

/-- An AER record changes its link and may send a message. -/
theorem State.aerUnc_frame (s : State) (l : LinkId) (b : Nat) :
    s.aerUnc l b = { s with cxl := { s.cxl with links := (s.aerUnc l b).cxl.links }, out := (s.aerUnc l b).out } := by
  unfold State.aerUnc; dsimp only; split <;> split <;> rfl

theorem State.aerCor_frame (s : State) (l : LinkId) (b : Nat) :
    s.aerCor l b = { s with cxl := { s.cxl with links := (s.aerCor l b).cxl.links }, out := (s.aerCor l b).out } := by
  unfold State.aerCor; dsimp only; split <;> rfl

/-- A line that is being fetched is noted in the strips of its chain alone. -/
theorem State.lineAsked_frame (s : State) (c : ChainId) (att stream : Nat) (va : Word) :
    s.lineAsked c att stream va = { s with chains := (s.lineAsked c att stream va).chains } := rfl

/-- A port whose lay-by goes on passes the request that stands first of those that wait, without a decision. -/
@[simp] theorem TPort.passed_layby (p : TPort) (r : JReq) (m : Nat) (w : Waiting) (ws : List Waiting)
    (hl : p.layby = some m) (hw : p.waiting = w :: ws) :
    p.passed true r = { grant := some w.req, layby := some m, waiting := ws } := by
  simp [TPort.passed, hl, hw]

/-- What a frame read leaves of a core: nothing but the two words of one thread's frame. -/
theorem Core.failFrame_frame (c : Core) (l : Load) : c.failFrame l = { c with threads := (c.failFrame l).threads } := by
  unfold Core.failFrame; split <;> rfl

end Sys2Proof.Machine
end

