-- ==== Sys2Proof/Tests/Slice0.lean ====
section
/-! SUPPORT. Tests: each statement's hypotheses hold of a concrete state, small checks of single commands against worked values of
spec/, and a term that each well-formedness check refuses. -/

namespace Sys2Proof.Tests

set_option Elab.async false

open Sys2Proof.Machine Sys2Proof.Claims

/-- Core `n` runs thread 0 at level F at pc 0, with the changes given. -/
def runner (n : CoreId) (g : Core → Core) : State :=
  State.reset.modCore n fun c => g { c.modThread 0 (fun h => { h with live := true }) with ctl := 1, stat := 1 }

/-- Thread 0 of a core with the D and A registers given. -/
def regs (d : List Word) (a : List Word) (c : Core) : Core :=
  c.modThread 0 fun h => { h with
    d := Vector.ofFn fun i => (d[i.val]?).getD 0
    a := Vector.ofFn fun i => (a[i.val]?).getD 0 }

/-- Fields with STOP. -/
def fl (len : BitVec 2) (md : BitVec 4) (rd ra rb : BitVec 5) (imm : Half) : Fields :=
  { stop := true, len := len, md := md, rd := rd, ra := ra, rb := rb, rsv := false, imm := imm }

/-- The state that a command leaves has a property. -/
def leaves (o : Outcome) (p : State → Bool) : Bool :=
  match o with
  | .next u => p u
  | _ => false

/-- The D, A and X registers that the tests run on; D1 = 1, D2 = 2, A1 = 100H, A2 = 200H, A4 leads to scratch. -/
def regged (c : Core) : Core :=
  { regs [0, 1, 2, 0xFFFFFFFFFFFFFFFF, 0x8000000000000000] [0, 0x100, 0x200, 0x308, 0xFFFC0000040] c with
    dmem := writeCells [] 0x200 (bytesOf 8 0x8877665544332211 ++ bytesOf 8 0x1122334455667788) }

/-- Core 0 runs with those registers and a stack at 4000H. -/
def s0 : State := runner 0 fun c => (regged c).modThread 0 fun h => { h with a := h.a.set 15 0x4000 }

/-- The same with asserted interrupt line 0 (doorbell 0), enabled at its source. -/
def withLine (s : State) : State := s.modCore 0 fun c => { c with dbPend := 1, dbEn := 1 }

/-- A data access leaves the core as it is and lands at a place with a property. -/
def lands (r : Core × Except Cause DataLoc) (c : Core) (p : DataLoc → Bool) : Bool :=
  decide (r.1 = c) && match r.2 with
    | .ok l => p l
    | .error _ => false

/-- The place is DMEM at `a`. -/
def inDmem (a : Nat) (l : DataLoc) : Bool :=
  match l with
  | .dmem b => decide (a = b)
  | _ => false

/-- The place is scratch at the address of A4. -/
def atA4 (l : DataLoc) : Bool :=
  match l with
  | .far loc _ => decide (loc = .here 0xFFFC0000040)
  | _ => false

/-- A chain word of two stations: INA reads 8-byte elements by S0, OUTA writes them by S1. -/
def word0 : List Parcel := [0x0010, 0x0000, 0x9010, 0x2100]

/-- S0 and S1: LINEAR, 8 bytes, physical, at the start of scratch and 64 KiB above. -/
def sregs0 : Vector Desc 8 :=
  ((Vector.replicate 8 0).set 0 (0x9800000fffc0000000)).set 1 0x9800000fffc0010000

/-- A launch of 8 elements of that word. -/
def launch0 : Launch :=
  { word := word0, sregs := sregs0, n := 8, caClear := 0, overlap := false, sl := 4096, levelK := false, markCfg := 0,
    serial := 1 }

/-- Sequencer 0 with the chain word at 208H in DMEM (A6) and 8 elements in D6. -/
def sChiss : State := s0.modCore 0 fun c =>
  { (c.modThread 0 fun h => { h with a := h.a.set 6 0x208, d := h.d.set 6 8 }) with
    dmem := writeCells [] 0x208 [0x10, 0, 0, 0, 0x10, 0x90, 0, 0x21], s := sregs0 }

/-- Chain 0 of that state with the changes given. -/
def chained (g : Chain → Chain) : State := s0.modChain 0 g

/-- The launch runs on chain 0 with its reservation. -/
def run0 : Run := { Run.start launch0 (reservation launch0.stations launch0.sregs 4096) with granted := true }

/-- Its one strip in Translate, with its map. -/
def trans0 : Translating := { k := 0, map := [], done := true, waiting := false, replay := false, flushOnce := false, restarted := false, opa := 0, opb := 0, act := 0, dir := [] }

/-- Its one strip, issued, with the changes given. -/
def strip0 (g : Strip → Strip) : Strip := g
  { k := 0, att := 1, size := 8, map := [], lines := [], rle := [], stations := launch0.stations.map fun _ => StationRun.start, shadows := [],
    marks := [], lost := 0, flags := 0, abort := none, replay := false, flushOnce := false, held := [], outA := 0, outB := 0, asked := [] }

/-- Chain 0 runs the launch with those strips issued. -/
def issued (ts : List Strip) : State := chained fun h => { h with
  run := some { run0 with nextK := 1, strips := ts }, resv := [{ serial := 1, total := 32, per := Vector.replicate 6 4 }],
  held := Vector.replicate 6 4, issued := 1 }

/-- A launch with stations INA, GATHER and INSERT of the table of S2, and OUTA of KIND ATOMIC. -/
def launch1 : Launch := { launch0 with
  word := [0x0010, 0x0000, 0x4420, 0x3400, 0x0800, 0x4420, 0x2400, 0x0840, 0x9010, 0x2108]
  sregs := ((sregs0.set 1 0x9e00000fffc0010000).set 2 0x40000000000000000000000000000FFFC003000000000FFFC0020000) }

/-- An element that waits for an access. -/
def flight0 (st : FlightStep) : Flight :=
  { elem := { pos := 0, null := false, lo := 1, hi := 0, bad := false }, h := 1, k0 := 2, k1 := 3, p0 := 4, p1 := 5, st := st }

/-- Chain 0 runs that launch with one flight at a station. -/
def flying (p : Nat) (f : Flight) : State := chained fun h => { h with
  run := some { Run.start launch1 32 with
    granted := true
    nextK := 1
    strips := [strip0 fun t => { t with
      stations := modifyAt (fun x => { x with flight := [f] }) p (List.replicate 4 StationRun.start) }] } }

/-- Every page of a lookup was found, and none needed a translation. -/
def allFound (x : TRes) : Bool :=
  match x with
  | .ok m => m.isEmpty
  | _ => false

/-- The first page of a lookup missed. -/
def firstMissed (x : TRes) : Bool :=
  match x with
  | .miss m _ => m.isEmpty
  | _ => false

/-- DDR is up with 16 GiB on active controllers. -/
def sDdr : State := { s0 with
  mem := { s0.mem with d := 0x400000000, dNext := 0x400000000, init := 3 }
  ddr := Vector.ofFn fun i => { s0.ddr[i] with state := 2 } }

/-- The host reaches DDR over link 0 at host address 0. -/
def sHost : State := { sDdr with
  cxl := { sDdr.cxl with
    links := sDdr.cxl.links.set 0 { sDdr.cxl.links[(0 : LinkId)] with up := true, cxl := true, cacheEn := true, memEn := true, cfg := { LinkCfg.reset with command := 6 } }
    decoder := { base := 0, size := 0x400000000, committed := true, notCommitted := false, locked := false } } }

/-- A line of the snoop filter in a state. -/
def filtered (l : Nat) (x : SfState) (s : State) : State := { s with cxl := { s.cxl with sf := [(l, x)] } }

/-- A 64-byte entry: the opcode, and fields of the bytes given. -/
def entry0 (op : Nat) (fs : List (Nat × List Byte)) : List Byte :=
  fs.foldl (fun e p => spliceAt e p.1 p.2) (BitVec.ofNat 8 op :: List.replicate 63 0)

/-- A running command of pair 0. -/
def cmd0 (op : Nat) (fs : List (Nat × List Byte)) : Cmd := { Cmd.new 0 0x100000 (entry0 op fs) with phase := .running }

/-- The admin pair of generation 1, its rings in host memory. -/
def pair0 : Pair := { gen := 1, sqLog2 := 4, cqLog2 := 4, dev := false, sqBase := 0x10000, cqBase := 0x20000, vector := 0, weight := 1, sqHead := 0, sqTail := 0, cqHead := 0, cqNext := 0, phase := true, tag := 0, halted := false, deleting := false, coalCount := 0, coalTime := 0, counted := 0, entry := none }

/-- Firmware serves the ACI, over cache link 0, with the commands and pairs given. -/
def sAci (cs : List Cmd) (ps : List (Nat × Pair)) : State := { sHost with
  chip := { sHost.chip with phase := .firmware }
  aci := { sHost.aci with enable := true, ready := true, version := some (1, 2), cmds := cs, pairs := ps } }

/-- A transfer of firmware is done. -/
def isDone (x : State × FwAns) : Bool :=
  match x.2 with
  | .done _ => true
  | _ => false

/-- Bytes at the start of scratch. -/
def inScratch0 (bs : List Byte) (s : State) : State := { s with mem := { s.mem with cells := writeCells [] 0xFFFC0000000 bs } }

/-- A settings record of schema 1 without entries. -/
def settings0 : List Byte := settingsRecord 1 0 []

/-- A calibration entry of `n` zeros, and what follows it. -/
def calEntry (k n : Nat) (r : List Byte) : List Byte := bytesOf 2 k ++ (bytesOf 2 0 ++ (bytesOf 4 n ++ (List.replicate n 0 ++ r)))

/-- The head of a calibration set for serial number 1. -/
def calHead : List Byte := [208, 12, 0, 0, 1, 0, 0, 0, 1, 0, 0, 0, 0, 0, 0, 0]
/-- Its entries. -/
def calBody : List Byte := calEntry 1 128 (calEntry 2 256 (calEntry 3 2048 (calEntry 4 768 (calEntry 5 8 []))))
/-- The set, with a CRC-32. -/
def cal0 (crc : Nat) : List Byte := calHead ++ (bytesOf 4 crc ++ (List.replicate 12 (0 : Byte) ++ calBody))

/-- A CRC-32 has 32 bits. -/
theorem test_crc32_lt (bs : List Byte) : crc32 bs < 2 ^ 32 := by
  have step : ∀ c b, c < 2 ^ 32 → crc32Byte c b < 2 ^ 32 := by
    intro c b hc
    have one : ∀ c : Nat, c < 2 ^ 32 → (if c.testBit 0 then (c >>> 1) ^^^ 0xEDB88320 else c >>> 1) < 2 ^ 32 := by
      intro c hc
      have h : c >>> 1 < 2 ^ 32 := by rw [Nat.shiftRight_eq_div_pow]; omega
      split
      · exact Nat.xor_lt_two_pow h (by norm_num)
      · exact h
    have all : ∀ (l : List Nat) c, c < 2 ^ 32 →
        l.foldl (fun c _ => if c.testBit 0 then (c >>> 1) ^^^ 0xEDB88320 else c >>> 1) c < 2 ^ 32 := by
      intro l
      induction l with
      | nil => intro c h; exact h
      | cons a l ih => intro c h; exact ih _ (one c h)
    exact all _ _ (Nat.xor_lt_two_pow hc (by have := b.isLt; omega))
  have all : ∀ (l : List Byte) c, c < 2 ^ 32 → l.foldl crc32Byte c < 2 ^ 32 := by
    intro l
    induction l with
    | nil => intro c h; exact h
    | cons a l ih => intro c h; exact ih _ (step c a h)
  exact Nat.xor_lt_two_pow (all bs _ (by norm_num)) (by norm_num)

/-- Its length. -/
theorem test_cal_length (v : Nat) : (cal0 v).length = 3280 := by
  simp [cal0, calHead, calBody, calEntry, bytesOf, -List.reduceReplicate]

/-- An entry is parsed. -/
theorem test_cal_entry (fuel low k n : Nat) (r : List Byte) (hl : low ≤ k) (hk : k < 65536) (hn : n < 2 ^ 32) (h8 : n % 8 = 0) :
    parseEntries (fuel + 1) low (calEntry k n r) = (parseEntries fuel (k + 1) r).map ((k, List.replicate n 0) :: ·) := by
  have h1 : fieldAt (calEntry k n r) 0 2 = k := by simp [fieldAt, sliceAt, calEntry, bytesOf, natOf]; omega
  have h2 : fieldAt (calEntry k n r) 2 2 = 0 := by simp [fieldAt, sliceAt, calEntry, bytesOf, natOf]
  have h3 : fieldAt (calEntry k n r) 4 4 = n := by simp [fieldAt, sliceAt, calEntry, bytesOf, natOf]; omega
  have h4 : pad8 n = n := by unfold pad8; omega
  have h5 : (calEntry k n r).drop 8 = List.replicate n 0 ++ r := by simp [calEntry, bytesOf]
  have h6 : (calEntry k n r).drop (8 + n) = r := by rw [← List.drop_drop, h5]; simp
  have h7 : (calEntry k n r).length = 8 + (n + r.length) := by simp [calEntry, bytesOf]; omega
  have h8 : (calEntry k n r).isEmpty = false := by simp [calEntry, bytesOf]
  rw [parseEntries]
  simp only [h1, h2, h3, h4, h5, h6, h7, h8]
  rw [if_neg (by simp), if_neg (by simp [zeros]; omega)]
  cases parseEntries fuel (k + 1) r <;> simp

/-- The entries of the set. -/
theorem test_cal_entries (v : Nat) : entriesOf 32 (cal0 v) = some [(1, List.replicate 128 0), (2, List.replicate 256 0),
    (3, List.replicate 2048 0), (4, List.replicate 768 0), (5, List.replicate 8 0)] := by
  have hd : (cal0 v).drop 32 = calBody := by simp [cal0, calHead, bytesOf]
  rw [entriesOf, test_cal_length, hd, calBody]
  rw [test_cal_entry _ _ _ _ _ (by decide) (by decide) (by decide) (by decide), test_cal_entry _ _ _ _ _ (by decide) (by decide) (by decide) (by decide),
    test_cal_entry _ _ _ _ _ (by decide) (by decide) (by decide) (by decide), test_cal_entry _ _ _ _ _ (by decide) (by decide) (by decide) (by decide),
    test_cal_entry _ _ _ _ _ (by decide) (by decide) (by decide) (by decide)]
  simp [parseEntries, -List.reduceReplicate]

/-- The set with its own CRC-32 is good. -/
theorem test_cal_crc (v : Nat) (hv : v < 2 ^ 32) (hx : crc32 (cal0 0) = v) : (calEntries 1 (cal0 v)).isSome = true := by
  have hl := test_cal_length v
  have ht : (cal0 v).take 3280 = cal0 v := List.take_of_length_le (Nat.le_of_eq hl)
  have hs : spliceAt (cal0 v) 16 (bytesOf 4 0) = cal0 0 := by simp [spliceAt, cal0, bytesOf, calHead]
  have hf : fieldAt (cal0 v) 16 4 = v := by simp [fieldAt, sliceAt, cal0, calHead, bytesOf, natOf]; omega
  have hz : zeros (sliceAt (cal0 v) 20 12) = true := by
    simp [sliceAt, cal0, calHead, bytesOf, zeros, List.replicate_succ]
  have h4 : fieldAt (cal0 v) 0 4 = 3280 := by simp [fieldAt, sliceAt, cal0, calHead, bytesOf, natOf]
  have h5 : fieldAt (cal0 v) 4 2 = 1 := by simp [fieldAt, sliceAt, cal0, calHead, bytesOf, natOf]
  have h6 : fieldAt (cal0 v) 6 2 = 0 := by simp [fieldAt, sliceAt, cal0, calHead, bytesOf, natOf]
  have h7 : fieldAt (cal0 v) 8 8 = 1 := by simp [fieldAt, sliceAt, cal0, calHead, bytesOf, natOf]
  unfold calEntries
  simp only [show calLength = 3280 from rfl, ht, hs, hf, hx, hz, hl, h4, h5, h6, h7, test_cal_entries]
  simp [-List.reduceReplicate]

/-- A fold that evaluates its accumulator at every byte. -/
def strictFold (f : Nat → Byte → Nat) : Nat → List Byte → Nat
  | c, [] => c
  | c, b :: bs => match f c b with
    | 0 => strictFold f 0 bs
    | n + 1 => strictFold f (n + 1) bs

theorem test_strictFold (f : Nat → Byte → Nat) (bs : List Byte) : ∀ c, bs.foldl f c = strictFold f c bs := by
  induction bs with
  | nil => intro c; rfl
  | cons b bs ih =>
    intro c
    simp only [List.foldl_cons, strictFold, ih]
    split <;> simp_all

/-- Node 5 with a link at port 1 in NORMAL: node 9 lies behind it, node 10 by its detour. -/
def sTgl : State :=
  { sDdr.modTgl 1 fun t => { t with
      en := true
      up := true
      rel := 2
      major := 1
      minor := 1
      vcs := Vector.replicate 9 { credit := 64, used := 2, owed := 0 } } with
    xl := { sDdr.xl with
      node := 0x105001
      mrt := cellSet (cellSet [] 9 0x80000001) 10 0xC0000012
      atomics := true
      remoteCsr := true } }

/-- A message to an address. -/
def msg (addr : Word) (bs : List Byte) : Msg :=
  { qos := 0, aop := 0, ret := false, mc := false, tid := 7, src := 0x109, hops := 0, len := 8, addr := addr, data := bs, poison := false, reason := 0, control := true, layer := false }

/-- `wayOut` as a test. -/
def outB (s : State) (x : Packet) (p : PortId) : Bool :=
  let e := s.routeEntry (x.2.addr.toNat / 2 ^ 44)
  !s.xl.culdesac && e.getLsbD 31 && decide (p.val = (e.extractLsb' 0 3).toNat) && s.tgl[p].up && decide (s.tgl[p].hold = []) &&
    decide (s.tgl[p].rel = 2) && decide (s.tgl[p].minor ≠ 0) && s.tgl[p].room (vcOf x) (slotsOf x)

theorem test_outB (s : State) (x : Packet) (p : PortId) (h : outB s x p = true) : wayOut s x p := by
  simp only [outB, Bool.and_eq_true, Bool.not_eq_true', decide_eq_true_eq] at h
  obtain ⟨⟨⟨⟨⟨⟨⟨h1, h2⟩, h3⟩, h4⟩, h5⟩, h6⟩, h7⟩, h8⟩ := h
  exact ⟨h1, h2, h3, h4, h5, h6, h7, h8⟩

/-- A routed message as it stands in the receive buffer of its channel. -/
def rx0 (opc : BitVec 8) (m : Msg) : RxMsg := { vc := vcOf (opc, m), need := 0, slots := 1, body := .routed opc m }

/-- Port 1 of that node holds the message first. -/
def got (s : State) (opc : BitVec 8) (m : Msg) : State := s.modTgl 1 fun t => { t with rx := [rx0 opc m] }

/-- A management message as it stands there. -/
def mrx0 (opc : BitVec 8) (h : MgtHdr) (payload : List Byte) : RxMsg :=
  { vc := 8, need := 0, slots := 2, body := .mgt { opc := opc, h := h, payload := payload } }

/-- Port 1 of that node holds the management message first. -/
def mgot (s : State) (opc : BitVec 8) (h : MgtHdr) (payload : List Byte) : State :=
  s.modTgl 1 fun t => { t with rx := [mrx0 opc h payload] }

/-- `standsFirst` as a test. -/
def firstB (s : State) (p : PortId) (opc : BitVec 8) (m : Msg) (r : RxMsg) : Bool :=
  decide (s.tgl[p].firstOf (vcOf (opc, m)) = some r) && decide (r.body = .routed opc m)

theorem test_firstB (s : State) (p : PortId) (opc : BitVec 8) (m : Msg) (r : RxMsg) (h : firstB s p opc m r = true) :
    standsFirst s p opc m r := by
  simp only [firstB, Bool.and_eq_true, decide_eq_true_eq] at h
  exact h

/-- `mgtFirst` as a test. -/
def mfirstB (s : State) (p : PortId) (opc : BitVec 8) (h : MgtHdr) (payload : List Byte) (r : RxMsg) : Bool :=
  decide (s.chip.phase = .firmware) && decide (s.tgl[p].firstOf 8 = some r) &&
    decide (r.body = .mgt { opc := opc, h := h, payload := payload })

theorem test_mfirstB (s : State) (p : PortId) (opc : BitVec 8) (m : MgtHdr) (payload : List Byte) (r : RxMsg)
    (h : mfirstB s p opc m payload r = true) : mgtFirst s p opc m payload r := by
  simp only [mfirstB, Bool.and_eq_true, decide_eq_true_eq] at h
  exact ⟨h.1.1, h.1.2, h.2⟩

/-- A request of this device in the fabric's table. -/
def req0 (who : Wanted) (opc : BitVec 8) (m : Msg) : RemoteReq := { tid := m.tid, who := who, opc := opc, msg := m, sent := true, slot := none }

/-- That node with requests outstanding. -/
def asked (l : List RemoteReq) : State := { sTgl with xl := { sTgl.xl with remote := l } }

/-- That node under firmware, SERIAL 11H, in epoch 4. -/
def sFab : State :=
  { sTgl with
    chip := { sTgl.chip with phase := .firmware, serial := 0x11 }
    xl := { sTgl.xl with epoch := 4, digest := #v[1, 2] } }

/-- A record of two devices and the link between them. -/
def record0 : List Byte := fabricRecord
  [(1, bytesOf 8 0x11 ++ bytesOf 8 0x105001 ++ (bytesOf 8 0x77 ++ bytesOf 8 0x109001)),
   (2, bytesOf 4 0x105001 ++ [1, 2, 0, 0] ++ bytesOf 8 0x109001), (0x101, bytesOf 8 1), (0x102, bytesOf 8 0)]

/-- The commands whose record is as given have finished. -/
def finishes (u : State) (hd : Half) (st milestones : Nat) (r : Word) : Bool :=
  u.aci.cmds.any fun k => decide (k.handle = hd) && decide (k.record = some { status := st, detail := 0, milestones := milestones, result := r })

/-- Core 0 of that node with a load and a store outstanding at node 9 (member 9 of its group). -/
def farLoad (k : LoadKind) : Load :=
  { thread := 0, dest := .d 3, kind := k, loc := .remote 0x10900000001008, va := 0x1008, cached := false, hit := none, seq := 1 }
def farCore (ls : List Load) (ws : List Store) : State := sFab.modCore 0 fun c => { c with loads := ls, stores := ws, seq := 2 }
def farStore : Store := { thread := 0, loc := .remote 0x10900000001008, va := 0x1008, bytes := bytesOf 8 5, seq := 1 }

/-- Firmware serves the ACI and the fabric of that node, with the commands given. -/
def sFabCmd (cs : List Cmd) (g : Xl → Xl) : State :=
  { sAci cs [(0, pair0)] with
    tgl := sFab.tgl
    xl := g sFab.xl
    chip := sFab.chip }

/-- The record of those two devices, parsed. -/
def fabric0 : Fabric := (parseFabric record0).getD { entries := [], roster := [], links := [], floor := (0, 0), hb := none, atomics := false, remote := false }

/-- The record as a staged proposal of epoch 5. -/
def staged0 (x : Xl) : Xl := { x with staged := true, pEpoch := 5, pDigest := #v[6, 7], stagedRec := record0 }

/-- A proposal of command 100000H for epoch 5. -/
def proposal0 : Proposal := { e := 5, handle := some 0x100000, auto := false, fseq := 1, acks := [0x11], passed := false }

/-- `mgtRoom` as a test. -/
def roomB (s : State) (q : PortId) (len : Nat) : Bool := s.tgl[q].up && decide (s.tgl[q].mgt = []) && s.tgl[q].room 8 (1 + (len + 63) / 64)

theorem test_roomB (s : State) (q : PortId) (len : Nat) (h : roomB s q len = true) : mgtRoom s q len := by
  simp only [roomB, Bool.and_eq_true, decide_eq_true_eq] at h
  exact ⟨h.1.1, h.1.2, h.2⟩

/-- Port 1 of the node holds the management message first. -/
def sends (x : MgtMsg) (s : State) : State := mgot s x.opc x.h x.payload

/-- Whether it stands first for running firmware. -/
def stands (x : MgtMsg) (s : State) : Bool := mfirstB (sends x s) 1 x.opc x.h x.payload (mrx0 x.opc x.h x.payload)

/-- Firmware has taken it from the buffer. -/
def takes (x : MgtMsg) (s : State) : State := (sends x s).takeRx 1 (mrx0 x.opc x.h x.payload)

/-- Management messages by their fields. -/
def mHello (h : MgtHdr) (serial lowest : Word) (node : Half) (port : Byte) : MgtMsg :=
  { opc := 0x41, h := h, payload := helloBytes serial lowest node port }
def mNeigh (h : MgtHdr) (r : Neigh) : MgtMsg := { opc := 0x42, h := h, payload := neighPayload r }
def mPropose (h : MgtHdr) (e d0 d1 : Word) (length : Half) : MgtMsg :=
  { opc := 0x43, h := h, payload := bytesOf 8 e.toNat ++ bytesOf 8 d0.toNat ++ bytesOf 8 d1.toNat ++ (bytesOf 4 length.toNat ++ bytesOf 4 0) }
def mVote (h : MgtHdr) (e serial : Word) (result : Byte) : MgtMsg :=
  { opc := 0x44, h := h, payload := bytesOf 8 e.toNat ++ bytesOf 8 serial.toNat ++ bytesOf 1 result.toNat ++ bytesOf 7 0 }
def mCommit (h : MgtHdr) (e d0 d1 : Word) : MgtMsg :=
  { opc := 0x45, h := h, payload := bytesOf 8 e.toNat ++ bytesOf 8 d0.toNat ++ bytesOf 8 d1.toNat }
def mAbort (h : MgtHdr) (e : Word) : MgtMsg := { opc := 0x46, h := h, payload := bytesOf 8 e.toNat }
def mReq (h : MgtHdr) (e : Word) (offset count : Half) (which : Byte) : MgtMsg :=
  { opc := 0x47, h := h, payload := bytesOf 8 e.toNat ++ bytesOf 4 offset.toNat ++ bytesOf 4 count.toNat ++ bytesOf 1 which.toNat ++ bytesOf 7 0 }
def mData (h : MgtHdr) (e : Word) (offset length : Half) (bytes : List Byte) : MgtMsg :=
  { opc := 0x48, h := h, payload := bytesOf 8 e.toNat ++ bytesOf 4 offset.toNat ++ bytesOf 4 length.toNat ++ bytes }
def mSreq (h : MgtHdr) (e : Word) : MgtMsg := { opc := 0x49, h := h, payload := bytesOf 8 e.toNat }
def mSrsp (h : MgtHdr) (r : SurveyRec) : MgtMsg := { opc := 0x4A, h := h, payload := surveyBytes r false true }

/-- A header of the peer's own messages. -/
def peer0 : MgtHdr := { fhops := 0, fseq := 0, origin := 0x77 }

/-- An element of that value, and a null one. -/
def elem0 (lo : Word) : Elem := { pos := 5, null := false, lo := lo, hi := 0, bad := false }
def null0 : Elem := { elem0 0 with null := true }

/-- A strip whose first stations have made one element each, and wires from them. -/
def fed (es : List Elem) : Strip := strip0 fun t => { t with stations := es.map fun e => { StationRun.start with out1 := [e] } }
def wires0 : List Wire := (List.range 4).map fun k => { prod := k, snd := false, wide := false, comp := false }

/-- A station on those four wires. -/
def stn0 (k : Kind) (op : Nat) : Stn :=
  { code := 6, kind := k, exm := 0, len := 1, op := op, sreg := 0, a := 1, b := 2, c := 3, p := 4, m1 := 0, m2 := 0, m3 := 0, v1 := false, group := false, imm := 7, immc := 0, rsvOk := true }

/-- Hypotheses of UnitsWriteTheirResults, the D unit: each D-unit row executes alone, with a register, an immediate or no operand. -/
theorem test_d_unit :
  let forms := [fl 1 0 1 2 3 0, fl 1 0 1 2 0 0, fl 2 0 1 0 0 7]
  (∀ row ∈ dRows, (forms.any fun f => s0.alone 0 0 (slotOf 1 row.2.1 f)) = true) := by decide +kernel

/-- Hypotheses of DivisionIssues, 64 and 32 bits. -/
theorem test_divisions_issue :
  (divRows.all (fun row => s0.alone 0 0 (slotOf 1 row.2.1 (fl 1 0 1 2 3 0))) = true) ∧
    (divRows.all (fun row => s0.alone 0 0 (slotOf 1 row.2.1 (fl 1 1 1 2 3 0))) = true) := by decide +kernel

/-- Divisions at the boundary cases of R217: by zero, and the most negative number by -1. -/
theorem test_divide_results :
  divideD 0 false 7 0 = BitVec.allOnes 64 ∧
    divideD 2 true 0x80000000 0 = 0xFFFFFFFF80000000 ∧
    divideD 0 false (-7) 2 = -3 ∧
    divideD 2 false (-7) 2 = -1 ∧
    divideD 0 false 0x8000000000000000 (BitVec.allOnes 64) = 0x8000000000000000 := by decide +kernel

/-- Hypotheses of DivideCompleteWritesRegister, and the register it writes. -/
theorem test_divide_complete :
  let d : Division := { thread := 0, dest := 31, value := 9 }
  let s := s0.modCore 0 fun c => { c with divider := some d }
  s.cclkStopped = false ∧
    s.cores[(0 : CoreId)].divider = some d ∧
    d.thread = 0 ∧
    (leaves (exec (.divideComplete 0 0) s) (fun u => decide ((u.thread 0 0).d[31] = 9)) = true) := by decide +kernel

/-- Hypotheses of UnitsWriteTheirResults, the A unit. -/
theorem test_a_unit :
  let forms := [fl 1 0 1 2 3 0, fl 1 0 1 2 0 0, fl 2 0 1 0 0 7]
  (∀ row ∈ aRows, (forms.any fun f => s0.alone 0 0 (slotOf 0 row.2.1 f)) = true) := by decide +kernel

/-- Hypotheses of LoadsReadDmemOrIssue, DMEM: ldD of 8 bytes and ldA at 200H, ldX and the sequencer's ldS there. -/
theorem test_loads_dmem :
  let c := s0.cores[(0 : CoreId)]
  let h := s0.thread 0 0
  ([(3 : BitVec 4), 7].all (fun md => s0.alone 0 0 (slotOf 0 0x10 (fl 1 md 1 2 0 0))) = true) ∧
    ([(3 : BitVec 4), 7].all (fun md => lands (s0.dataAccess c h.levelK .read (h.ea (fl 1 md 1 2 0 0)) (2 ^ (md.toNat % 4))) c (inDmem 0x200)) = true) ∧
    ([0x11, 0x12, 0x13].all (fun op => s0.alone 0 0 (slotOf 0 op (fl 1 0 1 2 0 0))) = true) ∧
    ([8, 16, 32].all (fun k => lands (s0.dataAccess c h.levelK .read (h.ea (fl 1 0 1 2 0 0)) k) c (inDmem 0x200)) = true) := by decide +kernel

/-- Hypotheses of LoadsReadDmemOrIssue, elsewhere: scratch through the locked entry of reset. -/
theorem test_loads_scratch :
  let f := fl 1 3 1 4 0 0
  s0.alone 0 0 (slotOf 0 0x10 f) = true ∧
    lands (s0.dataAccess s0.cores[(0 : CoreId)] (s0.thread 0 0).levelK .read ((s0.thread 0 0).ea f) 8) s0.cores[(0 : CoreId)] atA4 = true := by decide +kernel

/-- Hypotheses of StoreRows: DMEM at 200H and scratch. -/
theorem test_stores :
  let c := s0.cores[(0 : CoreId)]
  let h := s0.thread 0 0
  let f := fun (op : Nat) => fl 1 (if op = 0x18 then 3 else 0) 1 2 0 0
  let g := fun (op : Nat) => fl 1 (if op = 0x18 then 3 else 0) 1 4 0 0
  (storeRows.all (fun row => s0.alone 0 0 (slotOf 0 row.2.1 (f row.2.1))) = true) ∧
    (storeRows.all (fun row => lands (s0.dataAccess c h.levelK .write (h.ea (f row.2.1)) (row.2.2.1 (f row.2.1))) c (inDmem 0x200)) = true) ∧
    (storeRows.all (fun row => s0.alone 0 0 (slotOf 0 row.2.1 (g row.2.1))) = true) ∧
    (storeRows.all (fun row => lands (s0.dataAccess c h.levelK .write (h.ea (g row.2.1)) (row.2.2.1 (g row.2.1))) c atA4) = true) := by decide +kernel

/-- Hypothesis of DmemStoreThenRead, at the top of DMEM. -/
theorem test_dmem_canonical :
  let c := s0.cores[(0 : CoreId)]
  cellsWf c.dmem = true := by decide +kernel

/-- Hypotheses of AtomicsIssue. -/
theorem test_atomics :
  let f := fl 1 0 1 4 3 0
  let c := s0.cores[(0 : CoreId)]
  s0.alone 0 0 (slotOf 0 0x28 f) = true ∧
    s0.alone 0 0 (slotOf 0 0x29 f) = true ∧
    lands (s0.dataAccess c (s0.thread 0 0).levelK .atomic ((s0.thread 0 0).ea f) 8) c atA4 = true := by decide +kernel

/-- Hypotheses of CacheInstructionsInvalidate: an address in DMEM and one in scratch. -/
theorem test_cache_instructions :
  let f := fl 1 0 0 4 0 0
  let g := fl 1 0 0 2 0 0
  let h := s0.thread 0 0
  let e := s0.cores[(0 : CoreId)].lookup false (h.ea f)
  (s0.alone 0 0 (slotOf 0 0x22 (fl 0 0 0 0 0 0)) = true ∨ s0.alone 0 0 (slotOf 0 0x22 (fl 1 0 0 0 0 0)) = true) ∧
    (s0.alone 0 0 (slotOf 0 0x23 (fl 0 0 0 0 0 0)) = true ∨ s0.alone 0 0 (slotOf 0 0x23 (fl 1 0 0 0 0 0)) = true) ∧
    dmemSize ≤ (h.ea f).toNat ∧
    e.1 = s0.cores[(0 : CoreId)] ∧
    ((e.2.bind fun e => s0.targetOf e (h.ea f)) = some (.here 0xFFFC0000040)) ∧
    s0.alone 0 0 (slotOf 0 0x20 f) = true ∧
    s0.alone 0 0 (slotOf 0 0x21 f) = true ∧
    (h.ea g).toNat < dmemSize ∧
    s0.alone 0 0 (slotOf 0 0x20 g) = true ∧
    s0.alone 0 0 (slotOf 0 0x21 g) = true := by decide +kernel

/-- Hypotheses of UnitsWriteTheirResults, the X unit. -/
theorem test_x_unit :
  let forms := [fl 1 0 1 2 3 0, fl 1 0 1 2 0 0, fl 1 0 1 0 0 0, fl 0 0 1 0 0 0, fl 0 0 1 2 0 0]
  (∀ row ∈ xRows, (forms.any fun f => s0.alone 0 0 (slotOf 2 row.2.1 f)) = true) := by decide +kernel

/-- Hypotheses of PairedFetchMultiplies: two words of DMEM, one register twice and the last word. -/
theorem test_paired_fetch :
  let s := s0.modThread 0 0 fun h => { h with a := h.a.set 3 (BitVec.ofNat 64 (dmemSize - 8)) }
  let c := s.cores[(0 : CoreId)]
  let h := s.thread 0 0
  ((h.rA 3).toNat % 8 = 0 ∧ (h.rA 3).toNat < dmemSize ∧ c.dmemBad (h.rA 3).toNat 8 = none) ∧
    ((h.rA 2).toNat % 8 = 0 ∧ (h.rA 2).toNat < dmemSize ∧ c.dmemBad (h.rA 2).toNat 8 = none) ∧
    s.alone 0 0 (slotOf 2 0x00 (fl 1 2 1 2 3 0)) = true ∧
    s.alone 0 0 (slotOf 2 0x01 (fl 1 0 1 2 2 0)) = true := by decide +kernel

/-- Hypotheses of BranchesSetPc, with each condition of bcc. -/
theorem test_branches :
  ([(0x00, fl 0 0 0 0 0 0), (0x01, fl 2 0 0 0 0 8), (0x03, fl 2 0 1 0 0 8), (0x04, fl 2 0 1 0 0 8), (0x05, fl 1 0 0 1 0 0), (0x06, fl 1 0 1 2 0 0)].all (fun p => s0.alone 0 0 (slotOf 3 p.1 p.2)) = true) ∧
    ((upto 6).all (fun k => s0.alone 0 0 (slotOf 3 0x02 (fl 2 (BitVec.ofNat 4 k) 0 1 2 8))) = true) := by decide +kernel

/-- Hypotheses of ControlRegistersMove: every control register read and written. -/
theorem test_control_registers :
  ((upto 8).all (fun k => s0.alone 0 0 (slotOf 3 0x0B (fl 1 (BitVec.ofNat 4 k) 1 0 0 0))) = true) ∧
    ((upto 8).all (fun k => s0.alone 0 0 (slotOf 3 0x0C (fl 1 (BitVec.ofNat 4 k) 0 3 0 0))) = true) := by decide +kernel

/-- Hypotheses of TrapInstructionEnters, EretRestoresFrame and EntryFrameReadsBack; the last with SP at the least and the greatest value. -/
theorem test_trap_and_eret :
  let lo := s0.modThread 0 0 fun h => { h with a := h.a.set 15 16 }
  let hi := s0.modThread 0 0 fun h => { h with a := h.a.set 15 (BitVec.ofNat 64 dmemSize) }
  let top := s0.modThread 0 0 fun h => { h with a := h.a.set 15 (BitVec.ofNat 64 (dmemSize - 16)) }
  ([fl 0 0 0 0 0 0, fl 1 5 0 0 0 0].any (fun f => s0.alone 0 0 (slotOf 3 0x08 f)) = true) ∧
    s0.stackReady 0 0 = true ∧
    s0.alone 0 0 (slotOf 3 0x09 (fl 0 0 0 0 0 0)) = true ∧
    top.alone 0 0 (slotOf 3 0x09 (fl 0 0 0 0 0 0)) = true ∧
    (top.thread 0 0).sp.toNat % 8 = 0 ∧
    (top.thread 0 0).sp.toNat + 16 = dmemSize ∧
    (top.cores[(0 : CoreId)].dmemBad (dmemSize - 16) 8 = none ∧ top.cores[(0 : CoreId)].dmemBad (dmemSize - 8) 8 = none) ∧
    (lo.stackReady 0 0 = true ∧ hi.stackReady 0 0 = true ∧ cellsWf lo.cores[(0 : CoreId)].dmem = true) := by decide +kernel

/-- Hypotheses of IllegalInstructionTraps: a reserved UNIT, LEN 3, and an operation that R210 order 3 refuses. -/
theorem test_illegal :
  let r : RawInstr := { p0 := 0xF400, p1 := 0, imm := 0 }
  let q : RawInstr := { p0 := 0x9C00, p1 := 0, imm := 0 }
  let k : RawInstr := { p0 := 0x97F0, p1 := 0, imm := 0 }
  (rawGood r = false ∧ s0.arrives 0 0 (slotOf 0 0 { rawFields r with stop := true }) 1 = true) ∧
    (rawGood q = false ∧ s0.arrives 0 0 (slotOf 0 0 { rawFields q with stop := true }) 1 = true) ∧
    (rawGood k = true ∧ (rawSlot k).wellFormed = false ∧ s0.arrives 0 0 (rawSlot k) (rawSlot k).f.parcels = true) := by decide +kernel

/-- Hypotheses of PrivilegedInstructionsTrapAtK: thread 0 at level K, pc in IMEM. -/
theorem test_privilege :
  let s := s0.modThread 0 0 fun h => { h with status := 2 }
  ((s.thread 0 0).levelK = true ∧ s.stackReady 0 0 = true) ∧
    ([(0x09, fl 0 0 0 0 0 0), (0x0A, fl 0 0 0 0 0 0), (0x0C, fl 1 2 0 3 0 0)].all (fun p => (slotOf 3 p.1 p.2).wellFormed && s.arrives 0 0 (slotOf 3 p.1 p.2) p.2.parcels) = true) := by decide +kernel

/-- Hypotheses of ChainInstructionsNeedSequencer: a management core, and a barrel thread of a sequencer. -/
theorem test_no_sequencer :
  let s := runner 32 fun c => c.modThread 0 fun h => { h with a := h.a.set 15 0x4000 }
  let b := s0.modCore 0 fun c => { c with ctl := 1 }.modThread 1 fun h => { h with live := true, a := h.a.set 15 0x4000, pc := 0x100 }
  (32 ≤ (32 : CoreId).val ∧ s.stackReady 32 0 = true ∧ b.stackReady 0 1 = true) ∧
    (s.arrives 32 0 (slotOf 4 0x00 (fl 1 0 0 2 3 0)) 2 = true ∧ (slotOf 4 0x00 (fl 1 0 0 2 3 0)).wellFormed = true) ∧
    (b.arrives 0 1 (slotOf 4 0x02 (fl 0 0 0 0 0 0)) 1 = true ∧ (slotOf 4 0x02 (fl 0 0 0 0 0 0)).wellFormed = true) := by decide +kernel

/-- Hypotheses of MisalignedAccessTraps: A5 = 0 plus an offset of 1, and of 8 for the wider accesses. -/
theorem test_misaligned :
  let s := s0.modThread 0 0 fun h => { h with a := h.a.set 5 0x201 }
  ([(0x10, fl 1 1 1 5 0 0), (0x18, fl 1 3 1 5 0 0), (0x11, fl 1 0 1 5 0 0), (0x12, fl 1 0 1 5 0 0), (0x13, fl 1 0 1 5 0 0), (0x19, fl 1 0 1 5 0 0), (0x1A, fl 1 0 1 5 0 0), (0x28, fl 1 0 1 5 3 0), (0x29, fl 1 0 1 5 3 0)].all (fun p => s.alone 0 0 (slotOf 0 p.1 p.2)) = true) ∧
    (s.stackReady 0 0 = true ∧ ((s.thread 0 0).ea (fl 1 0 1 5 0 0)).toNat % 2 ≠ 0) := by decide +kernel

/-- Hypotheses of BundleReadsOldValues: adda A1 is in the latch, and movda of A1 follows with STOP. -/
theorem test_bundle_of_two :
  let g := { fl 1 0 1 2 3 0 with stop := false }
  let f := fl 1 0 1 1 0 0
  let s := s0.modThread 0 0 fun h => { h with latch := [slotOf 0 0x01 g] }
  (s.cores[(0 : CoreId)].runs 0 = true ∧ s.cclkStopped = false ∧ (s.thread 0 0).waited = false) ∧
    ((s.thread 0 0).latch = [slotOf 0 0x01 g] ∧ f.stop = true) ∧
    s.fetchParcels 0 s.cores[(0 : CoreId)] (s.thread 0 0).levelK f.parcels ((s.thread 0 0).pc + BitVec.ofNat 64 (2 * g.parcels)) = (s.cores[(0 : CoreId)], none) ∧
    (((s.thread 0 0).pc + BitVec.ofNat 64 (2 * g.parcels)).toNat + 2 * f.parcels ≤ imemSize ∧ s.imemSoft 0 ((s.thread 0 0).pc + BitVec.ofNat 64 (2 * g.parcels)).toNat f.parcels = []) ∧
    (s.decodeFault 0 0 [slotOf 0 0x01 g, slotOf 1 0x3A f] = none ∧ s.bundleWaits 0 0 [slotOf 0 0x01 g, slotOf 1 0x3A f] = false) := by decide +kernel

/-- Hypotheses of BundleGathersInstructions. -/
theorem test_bundle_gathers :
  let f := { fl 1 0 1 2 3 0 with stop := false }
  (s0.arrives 0 0 (slotOf 1 0x00 { f with stop := true }) f.parcels = true ∧ f.stop = false) := by decide +kernel

/-- Hypotheses of InterruptEntry: IE = 0, and the doorbell line with IE = 1. -/
theorem test_interrupts :
  let s := (withLine s0).modThread 0 0 fun h => { h with status := 1 }
  ((s0.thread 0 0).ie = false ∧ s0.cclkStopped = false) ∧
    (s.cores[(0 : CoreId)].runs 0 = true ∧ (s.thread 0 0).latch = [] ∧ s.stackReady 0 0 = true ∧ s.cclkStopped = false) ∧
    s.due 0 0 = some (.interrupt (lowestBit (s.lines 0))) := by decide +kernel

/-- Hypotheses of WfiWaitsAndWakes: wfi executes; in STATE 2 no line, a line with IE = 0, and a line with IE = 1. -/
theorem test_wfi :
  let w := s0.modCore 0 fun c => { c with stat := 2 }
  let i := (withLine w).modThread 0 0 fun h => { h with status := 1 }
  s0.alone 0 0 (slotOf 3 0x0A (fl 0 0 0 0 0 0)) = true ∧
    (w.cores[(0 : CoreId)].stat = 2 ∧ w.cores[(0 : CoreId)].ctl.getLsbD 0 = true ∧ w.cclkStopped = false ∧ w.anyLine 0 = false) ∧
    ((withLine w).anyLine 0 = true ∧ ((withLine w).thread 0 0).ie = false) ∧
    (i.anyLine 0 = true ∧ (i.thread 0 0).live = true ∧ (i.thread 0 0).latch = [] ∧ i.due 0 0 = some (.interrupt (lowestBit (i.lines 0))) ∧ i.stackReady 0 0 = true) := by decide +kernel

/-- Hypotheses of DescriptorRegisterMoves. -/
theorem test_descriptor_moves :
  ([(0x10, fl 1 3 1 2 0 0), (0x11, fl 1 0 1 2 0 0), (0x12, fl 1 2 1 2 0 0), (0x13, fl 1 0 1 2 0 0), (0x14, fl 1 0 1 0 0 0)].all (fun p => s0.alone 0 0 (slotOf 4 p.1 p.2)) = true) := by decide +kernel

/-- Hypotheses of ChainIssueQueuesLaunch and of ChainIssueRefusesBadWord (an output with KIND 7). -/
theorem test_chiss :
  let f := fl 1 0 0 6 6 0
  let c := sChiss.cores[(0 : CoreId)]
  let bad := sChiss.modCore 0 fun c => { c with s := c.s.set 1 0x700000FFFC0010000 }
  let b := bad.cores[(0 : CoreId)]
  (chainOf 0 = some 0 ∧ sChiss.alone 0 0 (slotOf 4 0x00 f) = true ∧ sChiss.chains[(0 : ChainId)].exc = false ∧ sChiss.stackReady 0 0 = true) ∧
    (((sChiss.thread 0 0).rA f.ra).toNat = 0x208 ∧ 0x208 % 8 = 0 ∧ 0x208 < dmemSize) ∧
    c.dmemBad 0x208 (min (8 * chainWordLen (c.chainWord 0x208).1) (dmemSize - 0x208)) = none ∧
    launchCheck (c.chainWord 0x208).1 (c.chainWord 0x208).2 8 c.s sChiss.chains[(0 : ChainId)].stripLen (sChiss.thread 0 0).levelK sChiss.chains[(0 : ChainId)].markCfg = none ∧
    (launchCheck (b.chainWord 0x208).1 (b.chainWord 0x208).2 8 b.s 4096 false 0).isSome = true ∧
    bad.alone 0 0 (slotOf 4 0x00 f) = true := by decide +kernel

/-- Hypotheses of ChainWaitAndStop: an idle chain, a chain with a queued launch, and a stop. -/
theorem test_chwait_chstop :
  let q := chained fun h => { h with queued := some launch0 }
  let f := fl 0 0 0 0 0 0
  (s0.alone 0 0 (slotOf 4 0x01 f) = true ∧ s0.chains[(0 : ChainId)].exc = false ∧ s0.chains[(0 : ChainId)].idle = true) ∧
    (q.arrives 0 0 (slotOf 4 0x01 f) f.parcels = true ∧ q.decodeFault 0 0 [slotOf 4 0x01 f] = none ∧ q.chains[(0 : ChainId)].exc = false ∧ q.chains[(0 : ChainId)].idle = false) ∧
    (q.alone 0 0 (slotOf 4 0x02 f) = true ∧ q.chains[(0 : ChainId)].stopReq = false) := by decide +kernel

/-- Hypotheses of ChainRegisterMoves: CORE_SL read at once, CORE_CST that waits behind a launch, and writes of CORE_SL, CORE_MARK_CFG, CORE_NUMF and a read-only register. -/
theorem test_chain_registers :
  let q := chained fun h => { h with queued := some launch0, issued := 1 }
  (s0.alone 0 0 (slotOf 4 0x04 (fl 1 0 1 0 0 0)) = true ∧ chainReadWaits 0 = false) ∧
    (q.alone 0 0 (slotOf 4 0x04 (fl 1 0 1 0 4 0)) = true ∧ chainReadWaits 0x10 = true) ∧
    q.chains[(0 : ChainId)].hasEnded 1 = false ∧
    ([(0, 0), (0, 22), (4, 6), (0, 1)].all (fun p => s0.alone 0 0 (slotOf 4 0x05 (fl 1 0 3 p.1 p.2 0))) = true) ∧
    chainWritable 4 = false := by decide +kernel

/-- Hypotheses of AccumulatorMovesInLaunchOrder: every launch ended, and one that is queued. -/
theorem test_accumulator_moves :
  let q := chained fun h => { h with queued := some launch0, issued := 1 }
  (s0.chains[(0 : ChainId)].caLoads = [] ∧ s0.chains[(0 : ChainId)].hasEnded s0.chains[(0 : ChainId)].issued = true) ∧
    (q.chains[(0 : ChainId)].caLoads = [] ∧ q.chains[(0 : ChainId)].hasEnded q.chains[(0 : ChainId)].issued = false) ∧
    (s0.alone 0 0 (slotOf 4 0x08 (fl 1 0 7 2 0 0)) = true ∧ q.alone 0 0 (slotOf 4 0x08 (fl 1 0 7 2 0 0)) = true) ∧
    (s0.alone 0 0 (slotOf 4 0x09 (fl 1 0 2 7 0 0)) = true ∧ q.alone 0 0 (slotOf 4 0x09 (fl 1 0 2 7 0 0)) = true) := by decide +kernel

/-- Hypotheses of LoadResponseWritesRegister: a read, both atomics and a poisoned word of scratch. -/
theorem test_responses :
  let l : Load := { thread := 0, dest := .d 1, kind := .read 8 false, loc := .here 0xFFFC0000040, va := 0xFFFC0000040, cached := false, hit := none, seq := 0 }
  let at' := fun (k : LoadKind) => s0.modCore 0 fun c => { c with loads := [{ l with kind := k }], seq := 1 }
  let bad : State := { at' (.read 8 false) with mem := { (at' (.read 8 false)).mem with badScratch := [0xFFFC0000040 / 8] } }
  ((at' (.read 8 false)).cores[(0 : CoreId)].loads[0]? = some l ∧ (at' (.read 8 false)).cclkStopped = false) ∧
    ((at' (.read 8 false)).portTurn 0 0 = true ∧ (at' (.aadd 1)).portTurn 0 0 = true ∧ (at' (.aswp 1)).portTurn 0 0 = true) ∧
    (s0.place 0xFFFC0000040 = .scratch ∧ s0.poisoned 0xFFFC0000040 8 = false) ∧
    (bad.poisoned 0xFFFC0000040 8 = true ∧ bad.portTurn 0 0 = true ∧ bad.place 0xFFFC0000040 = .scratch) := by decide +kernel

/-- Hypotheses of StoreAcceptWritesScratch and FetchResponseFillsOrFaults. -/
theorem test_store_accept :
  let x : Store := { thread := 0, loc := .here 0xFFFC0000040, va := 0xFFFC0000040, bytes := [1, 2], seq := 0 }
  let s := s0.modCore 0 fun c => { c with stores := [x], seq := 1 }
  let fe := s0.modThread 0 0 fun h => { h with pc := 0xFFFC0000040 }
  let fc : State := fe.modCore 0 fun c => { c with cfg := 1, mode := 1, ilock := c.ilock.set 0 (some { TlbEntry.boot with data := 0x00000FF0000002BB }) }
  let bad : State := { fc with mem := { fc.mem with badScratch := [0xFFFC0000040 / 8] } }
  (s.cores[(0 : CoreId)].stores = x :: [] ∧ s.cclkStopped = false ∧ s.loadBefore 0 x.seq = false ∧ s.place 0xFFFC0000040 = .scratch) ∧
    (fc.cores[(0 : CoreId)].runs 0 = true ∧ fc.cclkStopped = false) ∧
    (fc.poisoned 0xFFFC0000040 64 = false ∧ bad.poisoned 0xFFFC0000040 64 = true) ∧
    ((bad.thread 0 0).latch = [] ∧ (bad.thread 0 0).ie = false ∧ bad.stackReady 0 0 = true) := by decide +kernel

/-- Hypotheses of LaunchesBeginAndReserve: a launch whose reservation is free, one behind another, one of no elements, and a grant. -/
theorem test_launch_begin :
  let l := { launch0 with caClear := 0x81 }
  let need := reservation l.stations l.sregs l.sl
  let q := fun (l : Launch) => chained fun h => { h with queued := some l, issued := 1 }
  let p := (q l).modPool 0 fun p => { p with waiting := [3] }
  let r := (chained fun h => { h with run := some { run0 with granted := false, need := need }, lwait := true }).modPool 0 fun p => { p with waiting := [0, 2] }
  ((q l).chains[(0 : ChainId)].excHeld = false ∧ (q l).chains[(0 : ChainId)].cause = none) ∧
    ((q l).chains[(0 : ChainId)].run = none ∧ (q l).chains[(0 : ChainId)].stopReq = false ∧ (q l).chains[(0 : ChainId)].exc = false ∧ (q l).chains[(0 : ChainId)].caLoads = []) ∧
    (l.n ≠ 0 ∧ (q l).pools[(clusterOf 0)].waiting = [] ∧ need ≤ (q l).pools[(clusterOf 0)].free ∧ 0 < need) ∧
    (p.pools[(clusterOf 0)].waiting ≠ [] ∧ p.chains[(0 : ChainId)].queued = some l) ∧
    (r.pools[(0 : ClusterId)].waiting = [0, 2] ∧ clusterOf 0 = 0 ∧ need ≤ r.pools[(0 : ClusterId)].free) := by decide +kernel

/-- Hypotheses of StripTranslations: a strip whose pages are all found, and one whose INA the second-level TLB lacks. -/
theorem test_strip_translate :
  let s := chained fun h => { h with run := some run0, issued := 1 }
  let v := { run0 with launch := { launch0 with sregs := sregs0.set 0 0x180000040000000000 } }
  (s.chains[(0 : ChainId)].advances = true ∧ run0.granted = true ∧ run0.trans = none ∧ run0.nextK < run0.launch.strips) ∧
    (run0.launch.stations.all (fun q => !(q.kind = .inp && dKind (descOf run0.launch.sregs q) = 4)) = true) ∧
    allFound (s.checkFoots s.cores[seqOf 0] launch0 [] (firstFoots s 0 run0 0)).1 = true ∧
    (firstMissed ((chained fun h => { h with run := some v }).checkFoots s.cores[seqOf 0] v.launch [] (firstFoots s 0 v 0)).1 = true) := by decide +kernel

/-- Hypotheses of StripsIssueAndTakeBuffers: the first strip, and the strip that meets the limit of COUNT. -/
theorem test_strip_issue :
  let r := { run0 with trans := some trans0, nextK := 1 }
  let s := chained fun h => { h with run := some r }
  let w := chained fun h => { h with run := some r, msc := 0xFFFFFFFFFE }
  (r.again = none ∧ w.chains[(0 : ChainId)].stopReq = false) ∧
    (s.chains[(0 : ChainId)].advances = true ∧ r.launch.nonRestart = false ∧ r.strips.length < 2 ∧ s.chains[(0 : ChainId)].msc.toNat + 1 < 2 ^ 40 - 1) ∧
    (w.chains[(0 : ChainId)].advances = true ∧ 2 ^ 40 - 1 ≤ w.chains[(0 : ChainId)].msc.toNat + r.strips.length + 1) := by decide +kernel

/-- Hypotheses of the last part of StripsIssueAndTakeBuffers: a strip of chain 0 asks for a buffer of INA. -/
theorem test_buffer_grant :
  let s := (issued [strip0 id]).modChain 0 fun h => { h with held := Vector.replicate 6 0, resv := [] }
  s.pools[(0 : ClusterId)].free ≠ 0 ∧
    ((clusterStreams 0 s.pools[(0 : ClusterId)].turn).find? (fun y => s.chains[y.1].asks y.2.1) = some (0, 0, 0)) := by decide +kernel

/-- Hypotheses of StreamLinesArrive: the line of INA, and the same line poisoned. -/
theorem test_line_fill :
  let t := strip0 id
  let s := issued [t]
  let q := launch0.inputOf 0
  let bad : State := { s with mem := { s.mem with badScratch := [0xFFFC0000000 / 8] } }
  q.isSome = true ∧
    ((s.chains[(0 : ChainId)].run.map fun r => s.chains[(0 : ChainId)].mayFetch r && s.chains[(0 : ChainId)].wantsLine r t 0 0xFFFC0000000) = some true) ∧
    (s.streamPhys t.map 0 (dPhys sregs0[0]) 0xFFFC0000000 = some (.here 0xFFFC0000000) ∧ s.place 0xFFFC0000000 = .scratch) ∧
    (s.poisoned 0xFFFC0000000 64 = false ∧ bad.poisoned 0xFFFC0000000 64 = true) := by decide +kernel

/-- Hypotheses of StationsStep: INA with its line, and OUTA with elements on its wire. -/
theorem test_station_step :
  let e : Elem := { pos := 0, null := false, lo := 5, hi := 0, bad := false }
  let t := strip0 fun t => { t with lines := [{ stream := 0, va := 0xFFFC0000000, bytes := List.replicate 64 7 }] }
  let w := strip0 fun t => { t with stations := [{ StationRun.start with taken := 1, out1 := [e] }, StationRun.start] }
  (launch0.rows.map (fun x => x.1.kind) = [.inp, .out] ∧ t.stations = [StationRun.start, StationRun.start]) ∧
    ({ run0 with nextK := 1, strips := [t] }.mayStep 0 0 = true ∧ { run0 with nextK := 1, strips := [w] }.mayStep 0 1 = true) := by decide +kernel

/-- Hypotheses of StationsStep: ACC in reduction form with two elements, and the probe station with a flight that is done. -/
theorem test_station_step_units :
  let l : Launch := { launch0 with word := [0x0010, 0x0000, 0xC820, 0x0020, 0x0000] }
  let t := strip0 fun t => { t with stations := [{ StationRun.start with taken := 2, out1 := [elem0 5, { null0 with pos := 6 }] }, StationRun.start] }
  let r : Run := { run0 with launch := l, nextK := 1, strips := [t] }
  let f : Flight := { flight0 .gather with st := .done (elem0 9) }
  let u := strip0 fun t => { t with stations := [{ StationRun.start with taken := 3, out1 := [elem0 5, elem0 6, elem0 7] }, { StationRun.start with taken := 1, flight := [f] }, StationRun.start, StationRun.start] }
  let g : Run := { run0 with launch := launch1, nextK := 1, strips := [u] }
  (l.rows.map (fun x => (x.1.kind, x.1.group)) = [(.inp, false), (.acc, false)] ∧ launch1.rows.map (fun x => x.1.kind) = [.inp, .prb, .prb, .out]) ∧
    (r.mayStep 0 1 = true ∧ g.mayStep 0 1 = true) := by decide +kernel

/-- Hypotheses of StripsIssueAndTakeBuffers, the clause on a strip that is not issued: a stop request, a cause, two issued strips, and an unfinished translation. -/
theorem test_strip_kept :
  let r := { run0 with trans := some trans0, nextK := 1 }
  let s := chained fun h => { h with run := some r, stopReq := true }
  let c := chained fun h => { h with run := some r, cause := some { code := 0x0D, info := 0, addr := 0 } }
  let two := chained fun h => { h with run := some { r with strips := [strip0 id, strip0 fun t => { t with k := 1 }] } }
  let w := chained fun h => { h with run := some { r with trans := some { trans0 with done := false } } }
  ((s.chains[(0 : ChainId)].stopReq = true ∧ trans0.restarted = false) ∧ c.chains[(0 : ChainId)].cause ≠ none ∧ (two.chains[(0 : ChainId)].run.map fun r => r.strips.length) = some 2) := by decide +kernel

/-- Hypotheses of StripCommits: a drained strip with one held element, the last of its launch and not the last. -/
theorem test_commit :
  let done : StationRun := { StationRun.start with taken := 8 }
  let t := strip0 fun t => { t with stations := [{ done with out1 := List.replicate 8 { pos := 0, null := false, lo := 0, hi := 0, bad := false } }, done], outA := 8, held := [{ stream := 4, va := 0xFFFC0010000, idx := 0, comp := false, bytes := [1, 2], valid := true, room := 2 }] }
  (t.drained launch0 = true ∧ t.abort = none ∧ launch0.strips ≤ t.k + 1) ∧
    (t.drained { launch0 with n := 5000 } = true ∨ 1 + 1 < ({ launch0 with n := 10000 } : Launch).strips) := by decide +kernel

/-- Hypotheses of DrainsAreAccepted: the first write, and a later write of the stream to the same word. -/
theorem test_drain :
  let w : HeldWrite := { stream := 4, loc := .here 0xFFFC0010000, parts := [(0, [1, 2])], room := 2, qos := 0 }
  let d : Drain := { serial := 1, writes := [w, w] }
  let s := chained fun h => { h with drains := [{ serial := 1, writes := [w, w] }] }
  (s.chains[(0 : ChainId)].drains = { serial := 1, writes := [w, w] } :: [] ∧ s.place 0xFFFC0010000 = .scratch) ∧
    (d.behind 1 w = true ∧ d.behind 0 w = false) := by decide +kernel

/-- Hypotheses of StripsAbortAndChainsStop: an aborted strip with and without a stop request, access failures of either strip, a stopped chain. -/
theorem test_abort_and_stop :
  let a : Abort := { pos := 3, parcel := 1, stn := 4, cond := 2, which := 1, val0 := 8, val1 := 9 }
  let done : StationRun := { StationRun.start with taken := 8 }
  let t := strip0 fun t => { t with stations := [{ done with out1 := List.replicate 8 { pos := 0, null := false, lo := 0, hi := 0, bad := false } }, done], abort := some a }
  let s := issued [t]
  let two := issued [strip0 id, strip0 fun t => { t with k := 1 }]
  let st := chained fun h => { h with stopReq := true }
  (t.drained launch0 = true ∧ t.abort = some a ∧ s.chains[(0 : ChainId)].stopReq = false) ∧
    ((two.chains[(0 : ChainId)].run.map fun r => r.strips.length) = some 2 ∧ two.chains[(0 : ChainId)].stopReq = false) ∧
    (st.chains[(0 : ChainId)].stopReq = true ∧ st.chains[(0 : ChainId)].run = none ∧ st.chains[(0 : ChainId)].drains = []) := by decide +kernel

/-- Hypotheses of StationAccessesAnswer: an atomic of OUTA, a GATHER and an INSERT at its entry. -/
theorem test_station_accesses :
  let fa := flight0 (.atomic 0xFFFC0010008 0 7)
  let fg := flight0 .gather
  let fp := flight0 (.put 2)
  let d := launch1.sregs[2]
  (launch1.rows.map (fun x => (x.1.kind, x.1.code)) = [(.inp, 0), (.prb, 17), (.prb, 17), (.out, 4)]) ∧
    (((flying 3 fa).chains[(0 : ChainId)].run.map fun r => r.strips.map fun t => t.stations.map fun x => x.flight) = some [[[], [], [], [fa]]]) ∧
    (((flying 3 fa).chains[(0 : ChainId)].run.map fun r => (r.strips.zip (r.launch.rows.drop 3)).map fun x => (flying 3 fa).mustWait x.1 x.2.1 (descOf r.launch.sregs x.2.1) [fa] 0 fa) = some [false]) ∧
    (((flying 1 fg).chains[(0 : ChainId)].run.map fun r => (r.strips.zip (r.launch.rows.drop 1)).map fun x => (flying 1 fg).mustWait x.1 x.2.1 (descOf r.launch.sregs x.2.1) [fg] 0 fg) = some [false]) ∧
    (((flying 2 fp).chains[(0 : ChainId)].run.map fun r => (r.strips.zip (r.launch.rows.drop 2)).map fun x => (flying 2 fp).mustWait x.1 x.2.1 (descOf r.launch.sregs x.2.1) [fp] 0 fp) = some [false]) ∧
    (flying 3 fa).streamPhys [] 4 (dPhys launch1.sregs[1]) 0xFFFC0010008 = some (.here 0xFFFC0010008) ∧
    (flying 1 fg).streamPhys [] 7 (d.getLsbD 222) (BitVec.ofNat 64 (dbits d 127 64 + 8 * fg.h.toNat)) = some (.here 0xFFFC0030008) ∧
    (flying 2 fp).streamPhys [] 7 (d.getLsbD 222) (tEntry d 2) = some (.here 0xFFFC0030080) ∧
    (s0.place 0xFFFC0010008 = .scratch ∧ s0.place 0xFFFC0030008 = .scratch ∧ s0.place 0xFFFC0030080 = .scratch ∧ s0.poisoned 0xFFFC0030080 64 = false) := by decide +kernel

/-- Hypotheses of StripTranslations where a page refuses: INA leads to an offset that nothing holds. -/
theorem test_strip_fault :
  let r := { run0 with launch := { launch0 with sregs := sregs0.set 0 0x980000000002000000 } }
  let s := chained fun h => { h with run := some r }
  (s.chains[(0 : ChainId)].advances = true ∧ r.nextK < r.launch.strips) ∧
    ((match s.checkFoots s.cores[seqOf 0] r.launch [] (firstFoots s 0 r 0) with
    | (.fault _ kind _, _, _) => decide (kind ≠ 0)
    | _ => false) = true) := by decide +kernel

/-- Hypotheses of ChainControlActs: a chain that runs, one that stops, one that is halted, an idle one. -/
theorem test_chain_control :
  let run := issued [strip0 id]
  let stop := run.modChain 0 fun h => { h with stopReq := true }
  let halt := run.modChain 0 fun h => { h with exc := true }
  ([run, stop, halt, s0].all (fun s => s.reaches (.core 32) 0x4080014 && s.reaches (.core 32) 0x4080050) = true) ∧
    (run.chains[(0 : ChainId)].caLoads = [] ∧ halt.chains[(0 : ChainId)].exc = true ∧ halt.chains[(0 : ChainId)].run.isSome = true ∧ s0.chains[(0 : ChainId)].idle = true) ∧
    (run.chains[(0 : ChainId)].run.map (fun r => r.strips.length) = some 1 ∧ stop.chains[(0 : ChainId)].stopReq = true) := by decide +kernel

/-- Hypotheses of StreamTranslationAnswers: a waiting translation whose page is there now, one that misses again, and one that does not wait. -/
theorem test_sctl :
  let t := { trans0 with done := false, waiting := true }
  let r := { run0 with trans := some t, nextK := 1 }
  let v := { r with launch := { launch0 with sregs := sregs0.set 0 0x180000040000000000 } }
  let s := chained fun h => { h with run := some r }
  let m := chained fun h => { h with run := some v }
  let d := chained fun h => { h with run := some { r with trans := some trans0 } }
  ([s, m, d].all (fun s => s.reaches (.core 32) 0x4080814) = true) ∧
    allFound (s.checkFoots s.cores[seqOf 0] launch0 t.map (firstFoots s 0 r 0)).1 = true ∧
    firstMissed (m.checkFoots m.cores[seqOf 0] v.launch t.map (firstFoots m 0 v 0)).1 = true ∧
    (s.chains[(0 : ChainId)].exc = false ∧ s.chains[(0 : ChainId)].stopReq = false ∧ t.waiting = true ∧ trans0.waiting = false) := by decide +kernel

/-- Hypotheses of CoreControlAndEventWritesAct, on the core: start of a stopped and a running core, stop, configuration, doorbell. -/
theorem test_core_control :
  let st := State.reset
  ([0x4090004, 0x4090000, 0x4090100].all (fun off => s0.reaches (.core 32) off && st.reaches (.host 1) 0x4090004 == st.portUp 1) = true) ∧
    (st.reaches (.core 32) 0x4090004 = true ∧ st.cores[(0 : CoreId)].ctl.getLsbD 0 = false ∧ s0.cores[(0 : CoreId)].ctl.getLsbD 0 = true) ∧
    (s0.cores[(0 : CoreId)].atBoundary = true ∧ (s0.modThread 0 0 fun h => { h with latch := [slotOf 1 0 (fl 1 0 1 2 3 0)] }).cores[(0 : CoreId)].atBoundary = false) ∧
    (s0.cores[(0 : CoreId)].loads = [] ∧ s0.cores[(0 : CoreId)].stores = [] ∧ s0.cores[(0 : CoreId)].divider = none) := by decide +kernel

/-- Hypotheses of CoreControlAndEventWritesAct: sources 0 and 2047, a software source and one that is not, master 24 of a cluster and 21 of the root, the wake flags, an enabled port. -/
theorem test_events :
  let s := s0.modTgl 7 fun p => { p with en := true }
  ([(0 : Nat), 2047].all (fun e => s.reaches (.core 32) (0x10000 + 4 * e)) = true) ∧
    (s.reaches (.core 32) 0x14200 = true ∧ 0x400 ≤ (0x7FF : Half).toNat % 2048 ∧ (0x3FF : Half).toNat % 2048 < 0x400) ∧
    (s.reaches (.core 32) (0x410000 + 0x10000 * 3 + 0x200 * 24 + 4 * 32) = true ∧ s.reaches (.core 32) (0x460000 + 0x10 * 21 + 4 * 3) = true) ∧
    (s.reaches (.core 32) 0x210020 = true ∧ s.reaches (.core 32) (0x2000004 + 0x100000 * 7) = true ∧ s.tgl[(7 : PortId)].en = true) := by decide +kernel

/-- Hypotheses of TlbCommandWrites and InvalidationTakesEffect: no launch, a held page that an invalidation covers and one that it does not. -/
theorem test_tlb_command :
  let e : TlbEntry := { tag := 0x10000, data := 0x2001B }
  let s := s0.modCore 0 fun c => { c with tlbTag := 0x10000, tlbData := 0x2001B, l2 := [(l2Set 0 0x10000 * 8 + 2, e)], dfill := c.dfill.set 5 (some e) }
  let w := (issued [strip0 fun t => { t with map := [{ stream := 0, tag := 0x10000, data := 0x2001B }] }]).modCore 0 fun c => { c with tlbTag := 0x10000, invals := [.va 0x10000] }
  let z := w.modCore 0 fun c => { c with invals := [] }
  let q := s0.modCore 0 fun c => { c with invals := [.all] }
  (s.reaches (.core 32) 0x4080810 = true ∧ z.reaches (.core 32) 0x4080810 = true ∧ z.chains[(0 : ChainId)].usesPage (.va 0x10000) = true) ∧
    (s.chains[(0 : ChainId)].run = none ∧ tlbEntryOf 0x10000 0x2001B = some e ∧ alookup (l2Set 0 0x10000 * 8 + 2) s.cores[(0 : CoreId)].l2 = some e) ∧
    (w.cores[(0 : CoreId)].invals = [.va 0x10000] ∧ w.chains[(0 : ChainId)].usesPage (.va 0x10000) = true ∧ q.chains[(0 : ChainId)].usesPage .all = false) := by decide +kernel

/-- Hypotheses of StationOperationsCompute for ALU, MAC and DIV: a null operand, values that fit and that overflow, divisors of 0, of −1 and outside the width. -/
theorem test_station_integers :
  let big := elem0 0x7FFFFFFFFFFFFFFF
  let low := elem0 0x8000000000000000
  let t := fed [big, elem0 1, null0, elem0 4]
  let q := stn0 .alu 2
  (t.operand q wires0 q.a 0 = big ∧ t.operand q wires0 q.b 0 = elem0 1 ∧ (t.operand q wires0 q.c 0).null = true ∧ (t.operand q wires0 q.p 0).lo ≠ 0) ∧
    (aluExact 2 big.lo 1 = some (2 ^ 63) ∧ aluExact 2 1 1 = some 2 ∧ aluExact 5 low.lo 0 = some (2 ^ 63) ∧ aluUsesB 2 = true ∧ aluUsesB 5 = false) ∧
    (macUsesC 3 = true ∧ macUsesC 0 = false ∧ big.lo.toInt * big.lo.toInt + 0 ≥ 2 ^ 63 ∧ (1 : Word).toInt * big.lo.toInt < 2 ^ 63) ∧
    (low.lo.toInt = -(2 ^ (64 / 2 ^ 0 - 1) : Int) ∧ (-1 : Word).toInt = -1 ∧ ¬ ((0x80000000 : Word).toInt < 2 ^ (64 / 2 ^ 1 - 1)) ∧ big.lo.toNat < 2 ^ 64) := by decide +kernel

/-- Hypotheses of StationOperationsCompute, DecimalResultsAreSigned and RescaleRounds: decimals, zeros of either sign, a sign of exact replay
alone, a result, and rescalings that divide and that multiply. -/
theorem test_decimals : isDec 15 false 0x12C 12 ∧ isDec 31 false 0x12D (-12) ∧ isDec 15 true 0x12B (-12) ∧ isDec 15 false 0xC 0 ∧
    isDec 15 false 0xD 0 ∧ isDecResult 15 0x12D (-12) := by
  refine ⟨?_, ?_, ?_, ?_, ?_, by decide, ?_, by decide⟩ <;>
    exact ⟨by decide +kernel, by simp only [List.range_succ]; decide⟩

theorem test_rescaled : rescaled (-1) 1 (-15) (-2) ∧ rescaled (-1) 2 25 2 ∧ rescaled 2 0 3 300 ∧ rescaled 31 0 1 (10 ^ 31) := by
  simp [rescaled]

theorem test_no_decimal : (∀ x, ¬ isDec 15 false 0xAC x) ∧ ∀ x, ¬ isDec 15 false 0x12B x := by
  refine ⟨fun x h => absurd (h.1 0 (by decide)) (by decide), fun x h => ?_⟩
  have := h.2
  simp at this

theorem test_alu_result : aluResult 0 1 2 3 := rfl

/-- Hypotheses of FloatMinMaxReturnOperands, and of StationOperationsCompute for SEL, CPT and HSH: zeros of either sign, infinity, a NaN, strings, the three truth values. -/
theorem test_station_floats :
  (0x8000000000000000 % 2 ^ 63 ≤ 0x7FF0000000000000 ∧ 0x7FF0000000000000 % 2 ^ 63 ≤ 0x7FF0000000000000 ∧ ¬ (0x7FF8000000000000 % 2 ^ 63 ≤ 0x7FF0000000000000)) ∧
    (selNumber 2 1 (elem0 0x7FF8000000000000) = none ∧ selNumber 2 1 (elem0 0x8000000000000000) = some 0 ∧ selNumber 0 1 (elem0 (-1)) = some (-1) ∧ selNumber 4 2 (elem0 0x4241) = some 0x4142) ∧
    (truth null0 = 1 ∧ truth (elem0 0) = 0 ∧ truth (elem0 9) = 2) ∧
    (wideAt wires0 1 = false ∧ wideAt (wires0.map fun w => { w with wide := true }) 1 = true) := by decide +kernel

/-- Hypotheses of StationOperationsCompute for the accumulators: strips with an element that is not null, and without. -/
theorem test_station_sums :
  ([null0, elem0 1].filter (fun e => !e.null) = [elem0 1] ∧ [null0].filter (fun e => !e.null) = [] ∧ (0 : BitVec 5).toNat ≠ 2 ∧ [0, 1, 4, 5, 8, 9, 10, 11].contains (8 : BitVec 5).toNat = true) := by decide +kernel

/-- Hypotheses of ClockWritesSwitch: an idle PLL (CORE and a DPLL) and one in a switch. -/
theorem test_clock_writes :
  let s := s0
  let w := s0.modPll 5 fun p => { p with switching := true }
  (s.reaches (.core 32) 0x200000 = true ∧ s.reaches (.core 32) 0x200014 = true ∧ w.reaches (.core 32) 0x200014 = true) ∧
    (s.plls[(5 : PllId)].switching = false ∧ s.plls[(5 : PllId)].coast = false ∧ w.plls[(5 : PllId)].switching = true) := by decide +kernel

/-- Hypotheses of ClockSourcesAndSwitches: a switch that ends, the loss of an internal reference and of CLKIN. -/
theorem test_clock_sources :
  let w := s0.modPll 5 fun p => { p with switching := true, relock := true }
  let r := s0.modPll 5 fun p => { p with ref := true }
  let c := s0.modPll 5 fun p => { p with ref := false }
  let h := sHost.modTgl 7 fun p => { p with up := true }
  let n := { s0 with chip := { s0.chip with clkin := false } }
  (w.plls[(5 : PllId)].switching = true ∧ w.plls[(5 : PllId)].held = [] ∧ w.xl.atHome = [] ∧ w.cxl.held = [] ∧ w.cxl.hostHeld = [] ∧ w.aci.cmds = []) ∧
    (r.plls[(5 : PllId)].switching = false ∧ r.plls[(5 : PllId)].ref = true ∧ c.plls[(5 : PllId)].switching = false ∧ c.plls[(5 : PllId)].ref = false) ∧
    (w.chip.late = [] ∧ s0.clocksOff = false ∧ r.clocksOff = false ∧ c.clocksOff = false) ∧
    (h.plls[(5 : PllId)].switching = false ∧ h.clocksOff = false ∧ (∀ l : LinkId, h.cxl.links[l].d2h = []) ∧ (∀ p : PortId, h.tgl[p].hold = [])) ∧
    (h.cxl.held = [] ∧ h.cxl.hostHeld = [] ∧ h.aci.cmds = [] ∧ h.cxl.links[(0 : LinkId)].up = true ∧ h.tgl[(7 : PortId)].up = true) ∧
    (s0.chip.clkin = true ∧ n.chip.clkin = false) := by decide +kernel

/-- Hypotheses of GatingActs: a running block's clock, a stopped core that is to gate, a running one, and a gated one that is to wake. -/
theorem test_gating :
  let g := { State.reset with pwr := { State.reset.pwr with gate := 1 } }
  let b := { s0 with pwr := { s0.pwr with gate := 1 } }
  let w := { State.reset with pwr := { State.reset.pwr with gated := 1 } }
  let hb := sHost.modTgl 3 fun p => { p with up := true }
  let hp : State := g.setTport (.cluster 0) 3 { TPort.idle with grant := some { master := 0, tag := 1, qos := 7, addr := 0x100, kind := .read 64, control := false } }
  (s0.reaches (.core 32) 0x200100 = true ∧ s0.reaches (.core 32) 0x210010 = true ∧ s0.cxl.held = [] ∧ s0.cxl.hostHeld = [] ∧ s0.aci.cmds = []) ∧
    (hb.reaches (.core 32) 0x200100 = true ∧ hb.cxl.held = [] ∧ hb.cxl.hostHeld = [] ∧ hb.aci.cmds = [] ∧ hb.cxl.links[(0 : LinkId)].up = true) ∧
    ((∀ l : LinkId, hb.cxl.links[l].d2h = []) ∧ (∀ p : PortId, hb.tgl[p].hold = [])) ∧
    (g.portsQuiet 0 = true ∧ hp.portsQuiet 0 = false ∧ hp.pwr.gate.getLsbD 0 = true ∧ hp.pwr.gated.getLsbD 0 = false) ∧
    (g.cores[(0 : CoreId)].stat = 0 ∧ g.chains[(0 : ChainId)].idle = true ∧ g.pwr.gate.getLsbD 0 = true ∧ g.pwr.gated.getLsbD 0 = false) ∧
    (b.cores[(0 : CoreId)].stat ≠ 0 ∧ b.pwr.gate.getLsbD 0 = true) ∧
    (w.pwr.gated.getLsbD 0 = true ∧ w.pwr.gate.getLsbD 0 = false) := by decide +kernel

/-- Hypotheses of GovernorActs, with every limit reached and none. -/
theorem test_governor :
  let s := { s0 with pwr := { s0.pwr with on := true } }
  let g := s.pwr
  (g.on = true ∧ g.avsErr = false ∧ g.vmin < g.vcoreMv ∧ g.vcoreMv ≤ g.vmax) ∧
    (g.ppt < 1000 ∧ 920 < 1000 ∧ 100 * 10 < 98 * g.ppt ∧ 98 * g.ppt ≤ 100 * g.ppt) := by decide +kernel

/-- Hypotheses of SensorsAndWearCount: 64 readings that cross ALERT, a second above 125 °C and one below, a wear store. -/
theorem test_sensors :
  let t := List.replicate 64 (0x480 : BitVec 16)
  let hot : State := { s0 with thm := { s0.thm with max := 0x700 } }
  let f : State := { hot with chip := { hot.chip with phase := .firmware } }
  (t.length = 64 ∧ tempOf s0.thm.max < s0.thm.alert ∧ s0.thm.alert ≤ tempOf 0x480 ∧ tempOf 0x480 < 1240 ∧ 1240 ≤ tempOf 0x4D8 ∧ s0.chip.calStat = true ∧ s0.clocksOff = false ∧ tempOf 0x480 < 1176 ∧ 1176 ≤ tempOf 0x498) ∧
    (1000 < tempOf hot.thm.max ∧ tempOf s0.thm.max ≤ 1000 ∧ f.chip.phase = .firmware ∧ f.chip.clkGate.getLsbD 26 = true) := by decide +kernel

/-- Hypotheses of ResetSourcesReset and StandbyDomain: off, running, tripped, and a firmware reset that is due. -/
theorem test_reset_sources :
  let off : State := { State.reset with chip := { State.reset.chip with phase := .off } }
  let on : State := { s0 with chip := { s0.chip with phase := .firmware } }
  let tr : State := { s0 with chip := { s0.chip with phase := .tripped, thermtripN := false } }
  let due : State := { on with chip := { on.chip with resetDue := true } }
  (tempOf 0x498 = 1176 ∧ on.chip.calStat = true) ∧
    ((∀ k ∈ on.aci.cmds, k.phase = .running → k.op ≠ 0x20 ∧ k.op ≠ 0x24 ∧ k.op ≠ 0x26)) ∧
    (off.chip.phase = .off ∧ on.chip.phase ≠ .off ∧ on.chip.phase ≠ .tripped ∧ tr.chip.phase = .tripped ∧ due.chip.resetDue = true ∧ on.chip.resetDue = false) := by decide +kernel

/-- Hypotheses of ResetEndStartsTheRom: reset is in progress, and no slot of the erased flash is good. -/
theorem test_reset_end :
  let s : State := { State.reset with chip := { State.reset.chip with phase := .reset } }
  s.cores[(32 : CoreId)].barrel = false ∧
    (s.chip.phase = .reset ∧ imageValid s.chip.keyHash (s.flash.slotOf false) = false ∧ imageValid s.chip.keyHash (s.flash.slotOf true) = false) := by decide +kernel

/-- Hypotheses of BootHandover: ROM and MC0, another source, a go of recovery with an image too short, the fuse. -/
theorem test_handover :
  let rom : State := { s0 with chip := { s0.chip with phase := .rom } }
  let rcv : State := { s0 with chip := { s0.chip with phase := .recovery }, mem := { s0.mem with cells := [(mailbox, 1)] } }
  (rom.reaches (.core 32) 0x310000 = true ∧ rom.reaches (.core 33) 0x310000 = true ∧ (∀ p : PortId, rom.tgl[p].hold = [])) ∧
    (rcv.mem.badScratch = [] ∧ rcv.flashOn = true ∧ rcv.chip.phase = .recovery ∧ rcv.chip.resetDue = false ∧ natOf (rcv.memRead mailbox 8) = 1 ∧ natOf (rcv.memRead (mailbox + 8) 8) < 4096) ∧
    rom.reaches (.core 32) 0x310008 = true := by decide +kernel

/-- Hypotheses of SmbusAnswers and JtagInstructions. -/
theorem test_sidebands :
  let fw : State := { s0 with chip := { s0.chip with phase := .firmware } }
  let rom : State := { s0 with chip := { s0.chip with phase := .rom, dbgLock := true } }
  let off : State := { fw with chip := { fw.chip with clkGate := 0 } }
  let goodW : SmbWrite := { addr := BitVec.ofNat 7 fw.chip.smbAddr, code := 0x10, data := 0xA5, pec := none }
  (fw.smbOn = true ∧ fw.chip.phase = .firmware ∧ rom.smbOn = true ∧ rom.chip.phase ≠ .firmware ∧ off.chip.clkGate.getLsbD 28 = false) ∧
    (goodW.addr.toNat = fw.chip.smbAddr ∧ goodW.pec = none ∧ (some 0 : Option Byte) ≠ some (pecOf goodW) ∧ fw.flashOn = true ∧ { fw with chip := { fw.chip with clkGate := 0x1BFFFFFF } }.smbOn = true ∧ { fw with chip := { fw.chip with clkGate := 0x1BFFFFFF } }.flashOn = false) ∧
    (fw.chip.phase ≠ .off ∧ rom.chip.dbgLock = true ∧ fw.chip.dbgLock = false ∧ (fw.thm.alert ≤ tempOf fw.thm.max ∨ fw.pwr.avsErr = true ∨ tempOf fw.thm.max < fw.thm.alert)) := by decide +kernel

/-- Hypotheses of DdrBringUp: no modules, an unreadable one, one beside an empty slot, training and zeroing. -/
theorem test_ddr_bringup :
  let fw : State := { s0 with chip := { s0.chip with phase := .firmware } }
  let good : Dimm := { kind := .rdimm, gib := 64, width := 4, density := 16, ranks := 2, stack := 1, speed := 5600, ecc := true }
  let one : List (Slot × Slot) := List.replicate 16 (.dimm good, .empty)
  let bad : List (Slot × Slot) := List.replicate 16 (.unreadable, .empty)
  let some' : List (Slot × Slot) := (.dimm good, .empty) :: List.replicate 15 (.empty, .empty)
  let uns : List (Slot × Slot) := List.replicate 16 (.dimm { good with ecc := false }, .empty)
  let both : List (Slot × Slot) := (.dimm { good with ecc := false }, .empty) :: List.replicate 15 (.empty, .empty)
  let tr : State := { fw with mem := { fw.mem with init := 2 }, ddr := Vector.ofFn fun i => { fw.ddr[i] with state := 1 } }
  let ze : State := { fw with mem := { fw.mem with init := 2, dNext := 0x1000 }, ddr := Vector.ofFn fun i => { fw.ddr[i] with state := 2 } }
  (fw.chip.phase = .firmware ∧ fw.ddrInit = 0 ∧ tr.ddrInit = 2 ∧ (∀ n : CtrlId, tr.ddr[n].state = 1) ∧ ze.ddrInit = 2 ∧ (∀ n : CtrlId, ze.ddr[n].state = 2)) ∧
    ((allSlots bad).any (fun p => p.1 == .unreadable || p.2 == .unreadable) = true) ∧
    (populationBroken some' = true ∧ unsupportedModule some' = false) ∧
    (populationBroken uns = false ∧ unsupportedModule uns = true) ∧
    (∀ k : PllId, 2 ≤ k.val → fw.plls[k].switching = false) ∧
    (∀ n : CtrlId, tr.ctrlStopped n = false) ∧
    unsupportedModule (List.replicate 16 (.dimm { good with speed := 1 }, .empty)) = true ∧
    (populationBroken both = true ∧ unsupportedModule both = true) ∧
    (populationBroken one = false ∧ unsupportedModule one = false ∧ pairedMrdimm one = false) := by decide +kernel

/-- Hypotheses of DdrSelfRefresh: an idle controller with a time, one without, one in self-refresh. -/
theorem test_ddr_self_refresh :
  let i := sDdr.modDdr 3 fun d => { d with srCfg := 5 }
  let r := sDdr.modDdr 3 fun d => { d with state := 3, refx2 := true }
  (i.ddrInit = 3 ∧ i.ddr[(3 : CtrlId)].state = 2 ∧ i.ddr[(3 : CtrlId)].srCfg.extractLsb' 0 16 ≠ 0 ∧ sDdr.ddr[(3 : CtrlId)].srCfg.extractLsb' 0 16 = 0 ∧ r.ddr[(3 : CtrlId)].state = 3 ∧ i.ctrlStopped 3 = false ∧ r.ctrlStopped 3 = false ∧ sDdr.ctrlStopped 3 = false) ∧
    ({ r with chip := { r.chip with clkGate := 0 } } : State).ctrlStopped 3 = true := by decide +kernel

/-- Hypotheses of DdrPatrolScrub: the first and the last line, and the offset D. -/
theorem test_ddr_scrub :
  let s := sDdr
  let so : State := { s with mem := { s.mem with softDdr := [0] } }
  ((ddrSplit 0).1 = 0 ∧ s.ddr[(0 : CtrlId)].state = 2 ∧ s.ctrlStopped 0 = false ∧ s.ddr[(0 : CtrlId)].scrub.getLsbD 0 = true ∧ s.poisoned 0 64 = false) ∧
    (s.mem.d ≤ 0x400000000 ∧ 0x3FFFFFFFF < s.mem.d ∧ 0x3FFFFFFFF < scratchBase) ∧
    (s.ctrlStopped (ddrSplit 0x3FFFFFFFF).1 = false ∧ 0 / 64 ∉ s.mem.softDdr ∧ 0 / 64 ∈ so.mem.softDdr ∧ so.poisoned 0 64 = false) := by decide +kernel

/-- Hypotheses of ScratchBanksAnswer: the first and last word of scratch, one beyond it, a poisoned word, the scrub and a write-back. -/
theorem test_scratch_banks :
  let last := scratchBase + scratchSize - 8
  let bad : State := { s0 with mem := { s0.mem with badScratch := [scratchBase / 8] } }
  let soft : State := { s0 with scr := { s0.scr with soft := [scratchBase / 8] } }
  (inScratch scratchBase (bankSpan (.addI64 5)) = true ∧ inScratch last (bankSpan (.read 8)) = true ∧ inScratch (last + 8) (bankSpan (.read 8)) = false) ∧
    ((bankReads scratchBase (.addI64 5)).any (· ∈ s0.mem.badScratch) = false ∧ (bankReads scratchBase (.addI64 5)).any (· ∈ bad.mem.badScratch) = true) ∧
    (s0.clocksOff = false ∧ s0.scr.soft = [] ∧ bad.clocksOff = false ∧ scratchBase / 8 ∈ soft.scr.soft ∧ (bankReads scratchBase (.addI64 5)).any (· ∈ soft.mem.badScratch) = false) ∧
    (inScratch (last / 8 * 8) 8 = true ∧ s0.scr.scrub.getLsbD 0 = true ∧ s0.poisoned (last / 8 * 8) 8 = false) := by decide +kernel

/-- Hypotheses of HomeAgentServesOrSnoops: a line without an entry, in S, in A, in PI, and the offset D. -/
theorem test_home_agent :
  let s := sHost
  (s.mem.d ≤ 0x400000000 ∧ 0x41 < s.mem.d ∧ s.mem.d ≤ scratchBase ∧ s.ctrlStopped (ddrSplit 0x41).1 = false) ∧
    (s.plls[dpllOf (ddrSplit 0x40).1].coast = false ∧ s.ddr[(ddrSplit 0x40).1].state = 2 ∧ s.poisoned 0x40 64 = false ∧ 1 ∉ s.mem.softDdr ∧ s.heldOn 1 = false ∧ (s.hold { line := 1, who := .tag 8, op := .read, snooped := true }).heldOn 1 = true) ∧
    (s.sfOf 1 = none ∧ (filtered 1 .s s).sfOf 1 = some .s ∧ (filtered 1 .a s).sfOf 1 = some .a ∧ (filtered 1 .pi s).sfOf 1 = some .pi ∧ s.snoops < 1024) ∧
    (s.plls[dpllOf (ddrSplit (0x40 + 63)).1].coast = false ∧ s.ddr[(ddrSplit (0x40 + 63)).1].state = 2) := by decide +kernel

/-- Hypotheses of HostRequestsServed: lines 0 and the last of the range, without an entry and in S. -/
theorem test_host_served :
  let s := sHost
  (s.hdm = some 0 ∧ s.cxl.links[(0 : LinkId)].cfg.d3hot = false ∧ s.lineOf 0 = some 0 ∧ s.lineOf 0x3FFFFFFFF = some 0xFFFFFFF ∧ (s.cxl.hostHeld.any (·.line = 0)) = false) ∧
    (s.sfOf 0 = none ∧ (filtered 0 .s s).sfOf 0 = some .s ∧ (s.sfWays 0).length < 16 ∧ 0xFFFFFFF * 64 + 64 ≤ scratchBase) ∧
    (s.plls[dpllOf (ddrSplit 0).1].coast = false ∧ s.ddr[(ddrSplit 0).1].state = 2 ∧ 0 ∉ s.mem.badDdr ∧ (List.replicate 64 (3 : Byte)).length = 64) ∧
    (s.heldOn 0 = false ∧ s.heldOn 0xFFFFFFF = false ∧ s.sfOf 0xFFFFFFF = none ∧ s.ctrlStopped (ddrSplit 0).1 = false ∧ s.ctrlStopped (ddrSplit (0xFFFFFFF * 64)).1 = false ∧ 0 ∉ s.mem.softDdr ∧ 0xFFFFFFF ∉ s.mem.softDdr) := by decide +kernel

/-- Hypotheses of HostRequestsWaitOrCross: an address outside the range, a line whose snoop is out, and (below) a full set. -/
theorem test_host_waits :
  let p := filtered 1 .pi sHost
  let d3 := sHost.modLink 0 fun x => { x with cfg := { x.cfg with d3hot := true } }
  (d3.hdm = some 0 ∧ d3.cxl.links[(0 : LinkId)].cfg.d3hot = true ∧ sHost.cxl.links[(0 : LinkId)].cfg.d3hot = false ∧ sHost.hdm = some 0 ∧ sHost.lineOf 0x400000000 = none ∧ p.hdm.isSome = true ∧ p.lineOf 0x40 = some 1 ∧ p.sfOf 1 = some .pi) ∧
    (p.plls[dpllOf (ddrSplit 0x40).1].coast = false ∧ p.ddr[(ddrSplit 0x40).1].state = 2 ∧ p.ctrlStopped (ddrSplit 64).1 = false) := by decide +kernel

/-- Hypotheses of SnoopResponses and SnoopReleasesHeldAccess. -/
theorem test_snoop_responses :
  let p := filtered 1 .pi sHost
  let h := { p with cxl := { p.cxl with held := [{ line := 1, who := .tag 9, op := .read, snooped := true }] } }
  (p.lineOf 0x40 = some 1 ∧ p.sfOf 1 = some .pi ∧ p.cxl.held = [] ∧ p.cxl.hostHeld = [] ∧ p.xl.atHome = [] ∧ p.aci.cmds = []) ∧
    (sHost.sfOf 1 ≠ some .pi ∧ sHost.sfOf 1 ≠ some .pr ∧ sHost.hdm.isSome = true ∧ sHost.cxl.links[(0 : LinkId)].up = true ∧ sHost.cxl.links[(0 : LinkId)].cxl = true) ∧
    (h.cxl.held = [{ line := 1, who := .tag 9, op := .read, snooped := true }] ∧ h.plls[dpllOf (ddrSplit 64).1].coast = false ∧ h.ddr[(ddrSplit 64).1].state = 2 ∧ 1 ∉ h.mem.badDdr ∧ 1 ∉ h.mem.softDdr ∧ h.lineOf 0x40 = some 1 ∧ h.sfOf 1 = some .pi ∧ h.cxl.hostHeld = [] ∧ h.aci.cmds = [] ∧ h.ctrlStopped (ddrSplit 64).1 = false) := by decide +kernel

/-- Hypotheses of DecoderCommits: an unlocked and a locked decoder. -/
theorem test_decoder :
  let stop : State := { sHost with plls := sHost.plls.set 1 { sHost.plls[(1 : PllId)] with switching := true } }
  let s := { sHost with cxl := { sHost.cxl with decoder := { base := 0, size := 0, committed := false, notCommitted := false, locked := false } } }
  let k := { sHost with cxl := { sHost.cxl with decoder := { sHost.cxl.decoder with locked := true } } }
  (stop.bclkStopped = true ∧ sHost.bclkStopped = false ∧ s.cxl.decoder.locked = false ∧ s.cxl.decoder.committed = false ∧ k.cxl.decoder.locked = true ∧ sHost.cxl.decoder.committed = true ∧ sHost.cxl.decoder.locked = false ∧ sHost.xl.atHome = [] ∧ sHost.cxl.held = [] ∧ sHost.cxl.hostHeld = [] ∧ sHost.aci.cmds = []) := by decide +kernel

/-- Hypotheses of CxlLinksTrainAndFail: a link that can train, links that fall, a pending message, a retry. -/
theorem test_cxl_links :
  let fw : State := { s0 with chip := { s0.chip with phase := .firmware } }
  let up : State := { fw with cxl := { fw.cxl with links := fw.cxl.links.set 0 { fw.cxl.links[(0 : LinkId)] with up := true, msixEn := true, cfg := { fw.cxl.links[(0 : LinkId)].cfg with command := 6 } }, pba := [7] } }
  let mem := sHost.modLink 0 fun x => { x with memCap := true }
  let told := up.modLink 0 fun x => { x with cfg := { x.cfg with aer := { x.cfg.aer with corMask := 0 }, devCtl := 1 } }
  (fw.cxl.links[(0 : LinkId)].up = false ∧ fw.linkCanTrain 0 = true ∧ fw.hdm = none ∧ fw.cxl.pba = [] ∧ 3 ≤ (if (0 : LinkId).val < 2 then 3 else 2)) ∧
    (up.cxl.links[(0 : LinkId)].up = true ∧ up.cxl.links[(0 : LinkId)].memEn = false ∧ up.cxl.links[(0 : LinkId)].d2h = [] ∧ up.aci.cmds = []) ∧
    ((∀ k : LinkId, up.cxl.links[k].memEn = false ∧ up.cxl.links[k].d2h = [])) ∧
    (up.bclkStopped = false ∧ up.cxl.links[(0 : LinkId)].memCap = false ∧ mem.cxl.links[(0 : LinkId)].memCap = true ∧ mem.cxl.links[(0 : LinkId)].d2h = [] ∧ mem.cxl.held = [] ∧ mem.cxl.hostHeld = [] ∧ mem.aci.cmds = [] ∧ told.cxl.links[(0 : LinkId)].up = true ∧ told.cxl.links[(0 : LinkId)].cfg.aer.corMask.getLsbD 0 = false ∧ told.cxl.links[(0 : LinkId)].cfg.devCtl.getLsbD 0 = true) ∧
    (up.cxl.pba = [7] ∧ up.messageLink = some up.cxl.links[(0 : LinkId)] ∧ up.cxl.links[(0 : LinkId)].fnMask = false) := by decide +kernel

/-- Hypotheses of D2hRequestsAreAnswered: the write of a record, and a core's posted store. -/
theorem test_record_answers :
  let p : Pair := { gen := 1, sqLog2 := 4, cqLog2 := 4, dev := false, sqBase := 0, cqBase := 0, vector := 0, weight := 1, sqHead := 0, sqTail := 0, cqHead := 0, cqNext := 0, phase := true, tag := 0, entry := none, halted := false, deleting := false, coalCount := 0, coalTime := 0, counted := 0 }
  let r : RecordRef := { qid := 5, gen := 1, irq := false }
  let d : D2h := { tag := 3, hpa := 0x1000, write := true, who := .record r }
  let e : D2h := { tag := 4, hpa := 0x2000, write := true, who := .want (.store 2) }
  let x : Store := { thread := 1, loc := .host 0x2000, va := 0x9000, bytes := [1], seq := 1 }
  let s := { sHost with aci := { sHost.aci with pairs := [(5, p)] }, cxl := { sHost.cxl with links := sHost.cxl.links.set 0 { sHost.cxl.links[(0 : LinkId)] with d2h := [d] } } }
  let c := (sHost.modCore 2 fun c => { c with stores := [x] }).modLink 0 fun k => { k with d2h := [e] }
  let w : State := { c with plls := c.plls.set 0 { c.plls[(0 : PllId)] with switching := true } }
  (w.cclkStopped = true ∧ w.cxl.links[(0 : LinkId)].d2h = [e] ∧ w.cores[(2 : CoreId)].stores = [x] ∧ c.cclkStopped = false) ∧
    (c.cxl.links[(0 : LinkId)].d2h = [e] ∧ e.who = .want (.store 2) ∧ c.cores[(2 : CoreId)].stores = [x]) ∧
    (s.cxl.links[(0 : LinkId)].d2h = [d] ∧ d.who = .record r ∧ s.aci.pairs = [(r.qid, p)] ∧ p.gen = r.gen ∧ s.aci.cmds = [] ∧ p.halted = false) := by decide +kernel

/-- Hypotheses of AciEnableAndReset: ENABLE and a reset, a sound and an unsound configuration, the end of a reset with and without a core that runs. -/
theorem test_aci_enable :
  let fw : State := { sHost with chip := { s0.chip with phase := .firmware }, aci := { s0.aci with enable := true, aqCfg := 0x404, sqBase := 0x10000, cqBase := 0x20000 } }
  let bad : State := { fw with aci := { fw.aci with aqCfg := 0x00000405 } }
  let k := cmd0 0x10 [(32, [1])]
  let rs : State := { s0 with aci := { s0.aci with resetting := true, cmds := [k] } }
  let ri : State := { State.reset with aci := { State.reset.aci with resetting := true, cmds := [k] } }
  (s0.reaches (.host 0) 0x100000 = s0.portUp 0 ∧ s0.reaches (.core 32) 0x100000 = true ∧ s0.aci.enable = false) ∧
    (fw.aci.enable = true ∧ fw.aci.resetting = false ∧ (∀ c ∈ fw.aci.cmds, ¬ (c.phase = .running ∧ c.op = 0x10)) ∧ fw.aci.ready = false ∧ fw.aci.failed = false ∧ fw.cclkStopped = false) ∧
    (fw.ringOk false fw.aci.sqBase.toNat 4 64 = true ∧ fw.ringOk false fw.aci.cqBase.toNat 4 32 = true) ∧
    ¬ ((bad.aci.aqCfg.extractLsb' 0 5).toNat ≤ (bad.aci.aqCfg.extractLsb' 8 5).toNat) ∧
    (rs.aci.resetting = true ∧ (∀ c ∈ rs.aci.cmds, (c.at 32 4).testBit 0 = true) ∧ rs.cores[(0 : CoreId)].stat ≠ 0) ∧
    (ri.aci.resetting = true ∧ (∀ n : CoreId, ri.cores[n].stat = 0 ∨ (k.at 32 4).testBit n.val = false) ∧ (∀ c : ChainId, ri.chains[c].idle = true ∧ ri.chains[c].stopReq = false)) := by decide +kernel

/-- Hypotheses of DoorbellsAndCancels: values 15 and 16 of a pair of depth 16, a pair that does not exist, cancels. -/
theorem test_doorbells :
  let s := sAci [] [(5, { pair0 with cqNext := 3 })]
  let full : State := { s with aci := { s.aci with cancels := List.replicate 256 1 } }
  let p : Pair := { pair0 with cqNext := 3 }
  let d : State := sAci [] [(5, { p with deleting := true })]
  (d.bclkStopped = false ∧ d.pair 5 = some { p with deleting := true } ∧ p.deleting = false ∧ p.halted = false) ∧
    (s.bclkStopped = false ∧ s.pair 5 = some p ∧ s.pair 6 = none ∧ s.aci.resetting = false ∧ s.aci.cancels.length < 256 ∧ 256 ≤ full.aci.cancels.length) ∧
    (15 < 2 ^ p.sqLog2 ∧ 2 ^ p.sqLog2 ≤ 16 ∧ (3 + 2 ^ p.cqLog2 - p.cqHead) % 2 ^ p.cqLog2 ≤ p.unread ∧ p.unread < (4 + 2 ^ p.cqLog2 - p.cqHead) % 2 ^ p.cqLog2) := by decide +kernel

/-- Hypotheses of CommandsAreFetchedAndDispatched: an entry to fetch, a command to commit, one that breaks a rule. -/
theorem test_fetch_dispatch :
  let s := sAci [] [(0, { pair0 with sqTail := 1 })]
  let e := entry0 0x41 [(4, bytesOf 4 0x100000)]
  let c := { cmd0 0x02 [(16, bytesOf 8 0xFFFC0000000)] with phase := .ready }
  let b := { cmd0 0xEE [] with phase := .ready }
  let q := { sAci [c] [(0, pair0)] with aci := { (sAci [c] [(0, pair0)]).aci with readyQ := [0x100000] } }
  let r := { sAci [b] [(0, pair0)] with aci := { (sAci [b] [(0, pair0)]).aci with readyQ := [0x100000] } }
  (s.chip.phase = .firmware ∧ s.cclkStopped = false ∧ s.aci.ready = true ∧ s.aci.resetting = false ∧ s.aci.fatal = false ∧ s.chip.preparing = false ∧ s.aci.cancels = []) ∧
    (s.aciSettle = s ∧ s.cxl.links[(0 : LinkId)].d2h.length < 512 ∧ 0x10000 % 64 = 0) ∧
    (s.endVisit.nextFetch = some (0, true) ∧ s.pair 0 = some { pair0 with sqTail := 1 } ∧ s.cacheLink (BitVec.ofNat 64 0x10000) = some 0 ∧ e.length = 64) ∧
    (s.aci.marked.contains 0x100000 = false ∧ fieldAt e 4 4 = 0x100000) ∧
    (q.aciSettle = q ∧ r.aciSettle = r ∧ c.phase = .ready ∧ b.phase = .ready ∧ r.aci.readyQ = [b.handle] ∧ r.aci.cancels = [] ∧ r.cmd b.handle = some b) ∧
    (q.aci.readyQ = [c.handle] ∧ q.aci.cancels = [] ∧ q.cmd c.handle = some c ∧ q.checkCmd c = none ∧ (r.checkCmd b).isSome = true ∧ opInfo b.op = none) ∧
    ((opInfo c.op).isSome = true ∧ (opInfo 0x10).isSome = true ∧ opInfo 0xEE = none ∧ [2, 0x10, 0x11, 0x12].contains 3 = false) := by decide +kernel

/-- Hypotheses of RecordsAndExpiries: a finished command, a pair with a coalesced record and one without, a grant with and without a limit. -/
theorem test_records :
  let c := { cmd0 0x02 [] with phase := .finished, record := some { status := 3, detail := 4, milestones := 5, result := 6 } }
  let s := sAci [c] [(0, { pair0 with cqNext := 15, cqHead := 1 })]
  let v := sAci [] [(0, { pair0 with cqNext := 15, cqHead := 1 })]
  let w := sAci [] [(0, { pair0 with counted := 1, coalTime := 9 })]
  (s.aci.cmds = [c] ∧ c.phase = .finished ∧ c.record.isSome = true ∧ s.pair c.qid = some { pair0 with cqNext := 15, cqHead := 1 } ∧ pair0.gen = c.handle.extractLsb' 20 4) ∧
    (({ pair0 with cqNext := 15, cqHead := 1 } : Pair).unread + 1 < 2 ^ pair0.cqLog2 ∧ (s.cacheLink (BitVec.ofNat 64 (0x20000 + 32 * 15))) = some 0 ∧ (∀ k : LinkId, s.cxl.links[k].d2h = [])) ∧
    (w.pair 0 = some { pair0 with counted := 1, coalTime := 9 } ∧ v.pair 0 = some { pair0 with cqNext := 15, cqHead := 1 }) := by decide +kernel

/-- Hypotheses of AdminCommands, one running command of each opcode. -/
theorem test_admin :
  let fs : List (Nat × List Byte) := [(16, [2, 0, 4, 5]), (19, [2])]
  let at' := fun (op : Nat) (fs : List (Nat × List Byte)) => sAci [cmd0 op fs] [(0, pair0), (7, { pair0 with gen := 3, counted := 2 })]
  ([0x01, 0x03, 0x40, 0x41].all (fun op => (at' op fs).cmd 0x100000 == some (cmd0 op fs) && (cmd0 op fs).op == op && (cmd0 op fs).phase == .running && (at' op fs).aci.ready && (at' op fs).chip.phase == .firmware && !(at' op fs).plls[(0 : PllId)].switching) = true) ∧
    (((cmd0 0x01 fs).at 16 2).testBit 1 = true ∧ ((cmd0 0x01 [(16, [5])]).at 16 2).testBit 1 = false) ∧
    ((cmd0 0x02 [(16, bytesOf 8 0xFFFC0000000)]).hostptr.testBit 0 = false ∧ s0.route (BitVec.ofNat 64 ((cmd0 0x02 [(16, bytesOf 8 0xFFFC0000000)]).at 16 8)) = .here 0xFFFC0000000) ∧
    ((at' 0x05 [(16, [7]), (18, [3])]).pair 7 = some { pair0 with gen := 3, counted := 2 } ∧ 2 < max ((cmd0 0x05 [(16, [7]), (18, [3])]).at 18 1) 1 ∧ max ((cmd0 0x05 [(16, [7])]).at 18 1) 1 ≤ 2) ∧
    ((cmd0 0x04 [(16, [7])]).samePair (({ pair0 with gen := 3, counted := 2 } : Pair).handle 7 0) = false ∧ ({ pair0 with gen := 3, counted := 2 } : Pair).waiting = 0 ∧ (at' 0x04 [(16, [7])]).recordsInFlight 7 = 0) ∧
    ((at' 0x40 fs).aci.grant = none ∧ (at' 0x03 fs).pair 2 = none ∧ (cmd0 0x03 fs).at 16 2 = 2 ∧ ((at' 0x03 [(16, [7])]).pair 7).isSome = true) ∧
    ((at' 0x05 [(16, [8])]).pair 8 = none ∧ (at' 0x04 [(16, [7])]).aci.cmds = [cmd0 0x04 [(16, [7])]] ∧ (cmd0 0x04 [(16, [7])]).qid ≠ 7) := by decide +kernel

/-- Hypothesis of IdentityFields. -/
theorem test_identity :
  s0.mem.d < 2 ^ 64 := by decide +kernel

/-- Hypotheses of KernelsRunAndComplete: an image and arguments in scratch for cores 1 and 31, a core that has not stopped; two sequencers that have ended. -/
theorem test_kernel :
  let c := cmd0 0x10 [(16, bytesOf 8 0xFFFC0000000), (24, [8]), (28, [2]), (32, bytesOf 4 0x80000002), (36, [8]), (40, bytesOf 8 0xFFFC0000008), (48, bytesOf 8 0x1234)]
  let s := inScratch0 [1, 2, 3, 4, 5, 6, 7, 8, 9, 10] (sAci [c] [(0, pair0)])
  let e := { c with started := true, ends := [(1, .normal), (31, .normal)] }
  let t := sAci [e] [(0, pair0)]
  let w := s.modCore 1 fun c => { c with stat := 1, ctl := 1 }
  let y := t.modCore 31 fun c => { c with stores := [{ thread := 0, loc := .host 0, va := 0, bytes := [1], seq := 1 }] }
  (s.cmd 0x100000 = some c ∧ c.phase = .running ∧ c.op = 0x10 ∧ c.started = false ∧ c.cancelled = false ∧ c.cores = [1, 31] ∧ (∀ n ∈ c.cores, s.pwr.gated.getLsbD n.val = false ∧ s.cores[n].stat = 0 ∧ s.cores[n].ctl.getLsbD 0 = false)) ∧
    ((∀ n ∈ c.cores, w.pwr.gated.getLsbD n.val = false) ∧ w.cores[(1 : CoreId)].stat ≠ 0) ∧
    ((e.cores.foldl (fun s n => s.clearRun n) t).coresAtRest e.cores = true ∧ (e.cores.foldl (fun s n => s.clearRun n) y).coresAtRest e.cores = false) ∧
    (isDone (s.fwRead c 0 (c.at 16 8) (c.at 24 4) .refused) = true ∧ isDone (s.fwRead c 1 (c.at 40 8) (c.at 36 4) .refused) = true) ∧
    (t.cmd 0x100000 = some e ∧ e.started = true ∧ e.failure = none ∧ (∀ n ∈ e.cores, e.endOf n = some .normal ∧ t.seqFailure e n = none ∧ t.chainAtRest n = true)) := by decide +kernel

/-- Hypotheses of CopiesAndFillsComplete: one byte and a whole piece, a poisoned source, and both ends of a fill. -/
theorem test_copy_fill :
  let c := cmd0 0x11 [(16, bytesOf 8 0xFFFC0000000), (24, bytesOf 8 0xFFFC0001000), (32, bytesOf 8 8)]
  let m := cmd0 0x11 [(16, bytesOf 8 0xFFFC0000000), (24, bytesOf 8 0xFFFC0200000), (32, bytesOf 8 0x100000)]
  let f := cmd0 0x12 [(16, bytesOf 8 0xFFFC0000000), (24, bytesOf 8 16), (32, bytesOf 8 0x1122334455667788)]
  let s := sAci [c] [(0, pair0)]
  let bad := { s with mem := { s.mem with badScratch := [0xFFFC0000000 / 8] } }
  (s.cmd 0x100000 = some c ∧ c.op = 0x11 ∧ c.hostptr = 0 ∧ 0 < c.at 32 8 ∧ c.at 32 8 ≤ 0x100000 ∧ m.at 32 8 = 0x100000 ∧ c.cancelled = false ∧ c.milestones = 0 ∧ c.io = [] ∧ f.milestones = 0 ∧ f.io = [] ∧ s.mem.wf = true) ∧
    (s.route (BitVec.ofNat 64 (c.at 16 8)) = .here 0xFFFC0000000 ∧ s.route (BitVec.ofNat 64 (c.at 24 8)) = .here 0xFFFC0001000 ∧ s.place 0xFFFC0000000 = .scratch ∧ s.place 0xFFFC0001000 = .scratch) ∧
    (isDone ((s.copyMaster c).1.readBy (s.copyMaster c).2 c 0 (c.at 16 8) 8 .refused) = true ∧ ((bad.copyMaster c).1.readBy (bad.copyMaster c).2 c 0 (c.at 16 8) 8 .refused).2 = .fail) ∧
    (s.poisoned 0xFFFC0000000 8 = false ∧ bad.poisoned 0xFFFC0000000 8 = true) ∧
    (f.op = 0x12 ∧ f.hostptr = 0 ∧ 0 < f.at 24 8 ∧ f.at 24 8 ≤ 0x100000 ∧ f.at 24 8 % 8 = 0) := by decide +kernel

/-- Hypotheses of FlashCommandsComplete, one running command of each opcode. -/
theorem test_flash_commands :
  let sc := bytesOf 8 0xFFFC0000000
  let at' := fun (op : Nat) (fs : List (Nat × List Byte)) => inScratch0 (settings0) (sAci [cmd0 op fs] [(0, pair0)])
  let g := cmd0 0x20 [(16, sc), (24, bytesOf 4 8)]
  let st := sAci [{ g with started := true }] [(0, pair0)]
  let w := cmd0 0x23 [(16, sc), (24, bytesOf 4 32)]
  ((at' 0x20 []).chip.clkGate.getLsbD 26 = true ∧ g.at 24 4 ≠ 0 ∧ (cmd0 0x20 []).at 24 4 = 0 ∧ g.started = false ∧ g.op = 0x20) ∧
    (st.cmd 0x100000 = some { g with started := true } ∧ isDone (st.fwRead g 0 (g.at 16 8 + 0) 8 .refused) = true ∧ g.at 24 4 ≤ 0 + 8) ∧
    ((∀ k ∈ (at' 0x21 []).aci.cmds, ¬ (k.phase = .running ∧ k.op = 0x20)) ∧ imageValid (at' 0x21 []).chip.keyHash ((at' 0x21 []).flash.slotOf false) = false) ∧
    ((at' 0x22 []).flash.newest = none ∧ (at' 0x22 []).flash.older = none) ∧
    (isDone ((at' 0x23 [(16, sc), (24, bytesOf 4 32)]).fwRead w 0 (w.at 16 8) 32 .refused) = true ∧ (parseSettings 1 settings0).isSome = true ∧ fieldAt settings0 8 8 = 0 ∧ settings0.length = 32) ∧
    ((∃ k ∈ (sAci [cmd0 0x21 [(16, [1])], { g with handle := 0x100001, started := true }] [(0, pair0)]).aci.cmds, k.phase = .running ∧ k.op = 0x20) ∧ (at' 0x21 []).chip.slot = false ∧ fieldAt (spliceAt settings0 8 (bytesOf 8 1)) 8 8 = 1) ∧
    (calEntries 0 (at' 0x25 []).flash.cal).isNone = true := by decide +kernel

/-- Hypotheses of FlashCommandsComplete, the clauses on records that are there: a generation to read. -/
theorem test_flash_records :
  let sc := bytesOf 8 0xFFFC0000000
  let r := cmd0 0x22 [(16, sc), (24, bytesOf 4 32)]
  let s := sAci [r] [(0, pair0)]
  let r7 := spliceAt settings0 8 (bytesOf 8 7)
  ((s.cmd 0x100000).map (fun c => c.op) = some 0x22 ∧ isDone (s.fwWrite r 0 (r.at 16 8) (settings0.take (r.at 24 4)) .refused) = true) ∧
    ((s.program fun f => f.commitSettings 7 r7).flash.newest = some { number := 7, record := r7 } ∧ (parseSettings (imageSchema s.image) r7).isSome = true) := by decide +kernel

/-- A command that holds the answers of 52 lines from address 0 on for its pointer 0. -/
def answered (c : Cmd) (wr : Bool) (g : Nat → List Byte) : Cmd := { c with
  io := (List.range 52).map fun l => { m := 64, wr := wr, ptr := 0, line := l, loc := .here 0, n := 64, data := [], ans := .ok (g l) } }

theorem test_answered (c : Cmd) (wr : Bool) (g : Nat → List Byte) (l : Nat) (hl : l < 52) :
    (answered c wr g).ioAt wr 0 l =
      some { m := 64, wr := wr, ptr := 0, line := l, loc := .here 0, n := 64, data := [], ans := .ok (g l) } := by
  have : (List.range 52).find? (fun x => decide (x = l)) = some l := by
    rw [List.find?_range_eq_some]
    exact ⟨by simp, by simpa using hl, fun j hj => by simp; omega⟩
  simp [Cmd.ioAt, answered, List.find?_map, this]

theorem test_io_steps (s : State) (c : Cmd) (wr : Bool) (g : Nat → List Byte) (L : List (FwIo × Reply))
    (h : ∀ x ∈ L, x.1.wr = wr ∧ x.1.ptr = 0 ∧ x.1.line < 52) :
    s.ioSteps (answered c wr g) L = (s, L.map fun x => { m := 64, wr := wr, ptr := 0, line := x.1.line, loc := .here 0, n := 64, data := [], ans := .ok (g x.1.line) }) := by
  induction L with
  | nil => rfl
  | cons x t ih =>
    obtain ⟨e, r⟩ := x
    obtain ⟨h1, h2, h3⟩ := h _ (List.mem_cons_self ..)
    have ih := ih fun x hx => h x (List.mem_cons_of_mem _ hx)
    simp only at h1 h2 h3
    have : s.ioStep (answered c wr g) e r = (s, { m := 64, wr := wr, ptr := 0, line := e.line, loc := .here 0, n := 64, data := [], ans := .ok (g e.line) }) := by
      simp [State.ioStep, h1, h2, test_answered c wr g e.line h3]
    simp [State.ioSteps, this, ih]

theorem test_chunks (bs : List Byte) : ∀ k : Nat, (List.range k).flatMap (fun l => (bs.drop (64 * l)).take 64) = bs.take (64 * k) := by
  intro k
  induction k with
  | zero => simp
  | succ k ih => rw [List.range_succ, List.flatMap_append, ih, Nat.mul_succ, List.take_add]; simp

theorem test_lines : (lineRuns 0 3280).map (fun x => x.1 / 64) = List.range 52 := by decide +kernel

/-- Such a command reads what it holds. -/
theorem test_held_read (s : State) (c : Cmd) (bs : List Byte) (r : Reply) (hl : bs.length = 3280) :
    (s.fwRead (answered c false fun l => (bs.drop (64 * l)).take 64) 0 0 3280 r).2 = .done bs ∧
      (s.fwRead (answered c false fun l => (bs.drop (64 * l)).take 64) 0 0 3280 r).1.chip = s.chip := by
  have hm : ∀ x ∈ lineRuns 0 3280, x.1 / 64 < 52 := by decide +kernel
  have hb : (lineRuns 0 3280).flatMap (fun x => (bs.drop (64 * (x.1 / 64))).take 64) = bs := by
    have := test_chunks bs 52
    rw [← test_lines, List.flatMap_map, List.take_of_length_le (by omega)] at this
    exact this
  unfold State.fwRead State.readBy
  rw [test_io_steps]
  · simp [State.endIo, ioAns, replyGood, replyBytes, State.ioLine, Function.comp_def, List.flatMap_map, hb, State.keepIo]
    split <;> simp [State.modCmd]
  · intro x hx; obtain ⟨y, hy, rfl⟩ := List.mem_map.1 hx; exact ⟨rfl, rfl, hm y hy⟩

/-- Such a command has written. -/
theorem test_held_write (s : State) (c : Cmd) (bs : List Byte) (r : Reply) (hl : bs.length = 3280) :
    (s.fwWrite (answered c true fun _ => []) 0 0 bs r).2 = .done [] := by
  have hm : ∀ x ∈ lineRuns 0 3280, x.1 / 64 < 52 := by decide +kernel
  unfold State.fwWrite State.writeBy
  rw [hl, test_io_steps]
  · simp [State.endIo, ioAns, replyGood, replyBytes, State.ioLine, Function.comp_def, List.flatMap_map]
  · intro x hx; obtain ⟨y, hy, rfl⟩ := List.mem_map.1 hx; exact ⟨rfl, rfl, hm y hy⟩

/-- Hypotheses of FlashCommandsComplete, the clauses on a calibration set that is there: one to read and one to write, by
commands that hold the answers of their lines. -/
theorem test_calibration : ∃ bs : List Byte,
    let c := answered (cmd0 0x26 [(24, bytesOf 4 3280)]) false fun l => (bs.drop (64 * l)).take 64
    let q := answered (cmd0 0x25 [(24, bytesOf 4 3280)]) true fun _ => []
    let s := sAci [q] [(0, pair0)]
    let s1 := (sAci [c] [(0, pair0)]).fwRead c 0 (c.at 16 8) (c.at 24 4) .refused
    (c.phase = .running ∧ c.op = 0x26 ∧ q.op = 0x25 ∧ c.at 24 4 = 3280) ∧ (calEntries s.chip.serial bs).isSome = true ∧
      (calEntries s1.1.chip.serial bs).isSome = true ∧ s1.2 = .done bs ∧
      (({ s with flash := { s.flash with cal := bs } } : State).fwWrite q 0 (q.at 16 8) ((bs.take 3280).take (q.at 24 4))
        .refused).2 = .done [] := by
  have hg := test_cal_crc _ (test_crc32_lt (cal0 0)) rfl
  have hl := test_cal_length (crc32 (cal0 0))
  generalize cal0 (crc32 (cal0 0)) = bs at hg hl
  have h2 : (cmd0 0x26 [(24, bytesOf 4 3280)]).at 24 4 = 3280 ∧ (cmd0 0x26 [(24, bytesOf 4 3280)]).at 16 8 = 0 := by decide +kernel
  have h3 : (cmd0 0x25 [(24, bytesOf 4 3280)]).at 24 4 = 3280 ∧ (cmd0 0x25 [(24, bytesOf 4 3280)]).at 16 8 = 0 := by decide +kernel
  have h6 : (cmd0 0x26 [(24, bytesOf 4 3280)]).phase = .running ∧ (cmd0 0x26 [(24, bytesOf 4 3280)]).op = 0x26 ∧
    (cmd0 0x25 [(24, bytesOf 4 3280)]).op = 0x25 := by decide +kernel
  have h4 : ∀ c : Cmd, (sAci [c] [(0, pair0)]).chip.serial = 1 := fun _ => rfl
  have h5 : (bs.take 3280).take 3280 = bs := by rw [List.take_of_length_le (by simp), List.take_of_length_le (by omega)]
  have ha : ∀ c wr g k n, (answered c wr g).at k n = c.at k n := fun _ _ _ _ _ => rfl
  refine ⟨bs, ⟨h6.1, h6.2.1, h6.2.2, h2.1⟩, by rw [h4]; exact hg, ?_, ?_, ?_⟩
  all_goals simp only [ha, h2, h3, h5]
  · rw [(test_held_read _ _ bs _ hl).2, h4]; exact hg
  · exact (test_held_read _ _ bs _ hl).1
  · exact test_held_write _ _ bs _ hl

/-- Hypotheses of RegisterWrites: every plain register, the sequencer QOS pairs, a narrow write of each width and a write without a grant. -/
theorem test_register_writes :
  let s : State := { sHost with evt := { sHost.evt with accErr := 0 } }
  let po : State := s0.modCore 3 fun c => { c with stores := [{ thread := 0, loc := .host 0, va := 0, bytes := [1], seq := 1 }] }
  let d3 : State := { sHost with cxl := { sHost.cxl with links := sHost.cxl.links.map fun k => { k with up := true, cfg := { k.cfg with d3hot := true } } } }
  (plainRegs.all (fun row => decide (s0.reaches (.core 32) row.1 = true)) = true) ∧
    (s0.reaches (.core 32) 0x400488 = true ∧ blockOf 0x400500 = some (.jnc, 0x500) ∧ regWidth .jnc 0x500 = some 4 ∧ (0x03 : BitVec 8).extractLsb' 4 4 = (0 : BitVec 4)) ∧
    (blockOf 0x1000008 = some (.ddr 0, 8) ∧ regWidth (.ddr 0) 8 = some 8 ∧ s0.reaches (.core 32) 0x1000008 = true) ∧
    (s.bclkStopped = false ∧ s.busWaits 0x400500 = false ∧ s.portUp 0 = true ∧ s.noGrant .jnc true = true ∧ s0.cores[(32 : CoreId)].stores = []) ∧
    (po.busWaits 0x400500 = false ∧ po.cores[(3 : CoreId)].stores ≠ [] ∧ po.cores[(3 : CoreId)].stores.length < 8 ∧ (∀ l : LinkId, portOf l = 1 → d3.cxl.links[l].up = false ∨ d3.cxl.links[l].cfg.d3hot = true) ∧ (∀ l : LinkId, portOf l = 1 → s0.cxl.links[l].up = false ∨ s0.cxl.links[l].cfg.d3hot = true)) := by decide +kernel

/-- Hypotheses of RegisterReads: the read-to-clear counters, and a host read without a grant. -/
theorem test_register_reads :
  let s : State := { (s0.modTgl 3 fun t => { t with err := 77, refused := 5 }).modDdr 2 (fun d => { d with ecc := 0xABCD000100020003 }) with jnc := { s0.jnc with dlag := s0.jnc.dlag.set 5 0x123456789, plag := s0.jnc.plag.set 2 9 } }
  (s.reaches (.core 32) 0x400128 = true ∧ s.reaches (.core 32) 0x400190 = true ∧ s.reaches (.core 32) 0x2300018 = true ∧ s.reaches (.core 32) 0x1200008 = true) ∧
    (sHost.busWaits 0x400500 = false ∧ sHost.portUp 0 = true ∧ blockOf 0x400500 = some (.jnc, 0x500) ∧ sHost.noGrant .jnc false = true ∧ sHost.clocksOff = false ∧ sHost.cxl.links[(0 : LinkId)].up = true) := by decide +kernel

/-- Hypotheses of UnmappedAccessesAreReported, at the edges of each reserved range. -/
theorem test_unmapped :
  let gaps : List Nat := [0x2000, 0xFFF8, 0x28100, 0xFFFF8]
  (blockOf 0xA000000 = none ∧ s0.busWaits 0xA000000 = false ∧ s0.bclkStopped = false ∧ sHost.portUp 0 = true ∧ sHost.bclkStopped = false ∧ s0.cores[(32 : CoreId)].stores = []) ∧
    (gaps.all (fun off => decide (off % 8 = 0 ∧ (0x2000 ≤ off ∧ off < 0x10000 ∨ 0x28100 ≤ off ∧ off < 0x100000))) = true) ∧
    (0x18000000 ≤ 0x1FFFFFF8 ∧ 0x1FFFFFF8 < 0x20000000) := by decide +kernel

/-- CSR offsets beyond the last block, and between blocks, are unmapped. -/
theorem test_unmapped_edges :
  ([0x80000, 0x2A00000, 0x6400000, 0x1FFFFFF8].all (fun o => decide (blockOf o = none)) = true) := by decide +kernel

/-- Hypotheses of GrantsDecided and AgedRequestsOutrank: an idle port, a lay-by, a grant, one aged request behind a greater key. -/
theorem test_junction :
  let r : JReq := { master := 14, tag := 1, qos := 7, addr := 0x100, kind := .read 64, control := false }
  let w := fun (m : Nat) (l : Nat) => ({ req := { r with master := m, qos := BitVec.ofNat 4 m }, lost := l } : Waiting)
  let lay : State := { s0 with jnc := { s0.jnc with cfg := 0x403 } }
  let e := s0.atEntry .root 3 r
  let s1 : State := lay.setTport .root 3 { TPort.idle with layby := some 14 }
  let s2 : State := lay.setTport .root 3 { TPort.idle with grant := some r }
  let s3 : State := lay.setTport .root 3 { TPort.idle with waiting := [w 9 3, w 2 4, w 9 1, w 1 5] }
  let s4 : State := lay.setTport .root 3 { TPort.idle with waiting := [w 2 3, w 9 2, w 9 1] }
  let c : State := s0.modCore 11 fun c => { c with sqos := 9 }
  let rc : JReq := { r with master := 11 }
  let cj : Junction := .cluster 1
  let ec : JReq := { rc with qos := 9, control := true }
  let s5 : State := s0.setTport (.cluster 1) 256 { TPort.idle with grant := some ec }
  let s6 : State := c.setTport (.cluster 1) 5 { TPort.idle with waiting := [{ req := { ec with tag := 0 }, lost := 0 }] }
  let s7 : State := { c with pwr := { c.pwr with gated := 1 <<< 11 } }
  let s8 : State := (s2.setTport .root 26 { TPort.idle with grant := some { ec with master := 3 } }).setTport .root 9 { TPort.idle with grant := some r }
  let s9 : State := { s8 with jnc := { s8.jnc with turn := 20 } }
  (targetExists .root 3 = true ∧ masterExists .root 14 = true ∧ s1.controlElsewhere .root 3 (s1.atEntry .root 3 r) = false ∧ s1.mayIssue .root (s1.atEntry .root 3 r) = true ∧ s0.mayIssue .root e = true ∧ s1.laybyOn .root = true ∧ (s1.tport .root 3).layby = some 14 ∧ (s1.tport .root 3).grant = none ∧ (s1.tport .root 3).waiting = []) ∧
    ((s0.tport .root 3).layby = none ∧ s0.controlElsewhere .root 3 e = false ∧ (s2.tport .root 3).grant = some r) ∧
    ((s3.tport .root 3).grant = none ∧ (s3.tport .root 3).waiting ≠ [] ∧ (lay.jnc.cfg.extractLsb' 8 8).toNat = 4 ∧ (∃ x ∈ (s3.tport .root 3).waiting, 4 ≤ x.lost)) ∧
    (targetExists cj 3 = true ∧ masterExists cj 11 = true ∧ c.atEntry cj 3 rc = ec ∧ c.mayIssue cj ec = true ∧ c.controlElsewhere cj 3 ec = false ∧ s6.controlElsewhere cj 3 ec = true) ∧
    (portCore cj rc.master = some 11 ∧ s7.pwr.gated.getLsbD 11 = true ∧ targetExists cj 256 = true ∧ (s5.tport cj 256).grant = some ec) ∧
    ((s9.tport .root 26).grant = some { ec with master := 3 } ∧ s9.jnc.turn < 31 ∧ (∀ t' : Fin 31, t'.val ≠ 26 → (s9.tport .root t'.val).grant ≠ none → (26 + 31 - s9.jnc.turn) % 31 < (t'.val + 31 - s9.jnc.turn) % 31) ∧ (s8.tport .root 3).grant = some r ∧ (∀ t' : Fin 31, t'.val ≠ 3 → (s8.tport .root t'.val).grant ≠ none → (3 + 31 - s8.jnc.turn) % 31 < (t'.val + 31 - s8.jnc.turn) % 31)) ∧
    ((s0.tport .root 3).roomFor e.control = true ∧ (s1.tport .root 3).roomFor e.control = true ∧ (c.tport cj 3).roomFor ec.control = true ∧ s0.clocksOff = false ∧ s7.mayIssue cj ec = false ∧ s7.clocksOff = false) ∧
    ((s4.tport .root 3).grant = none ∧ (∀ x ∈ (s4.tport .root 3).waiting, x.lost < 4)) := by decide +kernel

/-- Hypotheses of GrantsDecided, the clauses on entries and on what keeps a request: a chain's read, a hop, four reads and eight writes of a core, a TGL port without credit. -/
theorem test_junction_entry :
  let q : JReq := { master := 0, tag := 1, qos := 3, addr := 0x100, kind := .read 64, control := true, unit := 0 }
  let s : State := sTgl.modChain 0 fun h => { h with run := some run0 }
  let up : JReq := { q with master := 24, qos := 9, control := false, trail := [(4, 3, 26)] }
  let h : State := { s with jnc := { s.jnc with hops := [up] } }
  let rd : JReq := { q with master := 9 }
  let wr : JReq := { rd with kind := .write [] }
  let f : State := s0.setTport (.cluster 0) 5 { TPort.idle with waiting := (List.replicate 3 { req := rd, lost := 0 }), grant := some rd }
  let g : State := s0.setTport (.cluster 0) 5 { TPort.idle with waiting := (List.replicate 7 { req := wr, lost := 0 }), grant := some wr }
  let n : State := s0.modTgl 1 fun t => { t with vcs := Vector.replicate 9 { credit := 0, used := 0, owed := 0 } }
  (s.chains[(0 : ChainId)].run = some run0 ∧ (run0.launch.rows.find? (fun p => p.1.code = q.unit)).map (fun p => decide (p.1.kind ≠ .dec)) = some true) ∧
    ((h.jnc.hops.find? fun x => x.master = up.master && x.tag = q.tag) = some up) ∧
    (4 ≤ (((f.unaccepted (.cluster 0) 9).map (·.2)).filter hasData).length ∧ 8 ≤ (((g.unaccepted (.cluster 0) 9).map (·.2)).filter fun q => !hasData q).length) ∧
    (hasData rd = true ∧ hasData wr = false ∧ (n.tgl[(1 : PortId)].vcs[vcFin 3].credit : Nat) < jreqSlots { q with master := 5 }) := by decide +kernel

/-- Hypotheses of LagCountersCount: a counter whose watched bit rises, one at its greatest value, and each condition that counts. -/
theorem test_lags :
  let q : RemoteReq := { req0 (.line 0 1 0 0x40) 0x02 { msg 0x10900000001000 (List.replicate 8 0) with control := false, src := 0x105 } with sent := false }
  let x : Packet := (2, msg 0x10900000001000 (List.replicate 8 0))
  let d : HeldWrite := { stream := 0x12, loc := .here 0xFFFC0000000, parts := [(0, [1])], room := 1, qos := 0 }
  let b : State := (sTgl.setTport .root 1 { TPort.idle with grant := some { master := 14, tag := 1, qos := 7, addr := 0x100, kind := .read 64, control := true } }).modChain 0 fun h => { h with run := some run0, drains := [{ serial := 0, writes := [d] }] }
  let s : State := { b with
    xl := { b.xl with remote := [q] }
    jnc := { b.jnc with lagCfg := 0x104, rBudget := 1, dlag := b.jnc.dlag.set 1 15, plag := b.jnc.plag.set 1 0xFFFFFFFFFFFFFFFF, slots := b.jnc.slots.set 3 { b.jnc.slots[3] with node := 0x109, valid := true, out := 1024 } } }
  let p : State := s.modTgl 1 fun t => { t with hold := [x], vcs := Vector.replicate 9 { credit := 0, used := 0, owed := 0 } }
  (s.bclkStopped = false ∧ p.bclkStopped = false ∧ (∀ n : Fin 16, s.ctrlStopped n = false) ∧ s.jnc.lagCfg.getLsbD 8 = true ∧ s.jnc.dlag[1].getLsbD 4 = false ∧ (16 : Word).getLsbD 4 = true) ∧
    ({ s with chip := { s.chip with phase := .tripped } } : State).bclkStopped = true ∧
    ((s.tport .root 1).grant ≠ none ∧ (s.cxl.held = [])) ∧
    (s.jnc.slotFor (q.msg.addr.toNat / 2 ^ 44) = some 3 ∧ 1024 ≤ s.jnc.slots[3].out ∧ max 1 (s.jnc.rBudget.toNat % 4096) * 1024 = 1024) ∧
    (p.tgl[(1 : PortId)].up = true ∧ p.verdict 1 x = .pass ∧ p.tgl[(1 : PortId)].room (vcOf x) (slotsOf x) = false) ∧
    (((run0.launch.rows.map (·.1.code)).Nodup) ∧ (run0.launch.rows.map fun r => (decide (r.1.kind = .out), r.1.code)) = [(false, 0), (true, 4)] ∧ s.chains[(1 : ChainId)].run = none) := by decide +kernel

/-- Hypotheses of DestinationsAdmit: a request below the budget and one at it. -/
theorem test_destinations :
  let q : RemoteReq := { req0 (.line 0 1 0 0x40) 0x02 { msg 0x10900000001000 (List.replicate 8 0) with control := false, src := 0x105 } with sent := false }
  let s : State := { asked [q] with jnc := { sTgl.jnc with rBudget := 1, slots := sTgl.jnc.slots.set 3 { sTgl.jnc.slots[3] with node := 0x109, valid := true, out := 1016 } } }
  let f : State := { s with jnc := { s.jnc with slots := s.jnc.slots.set 3 { s.jnc.slots[3] with node := 0x109, valid := true, out := 1024 } } }
  (s.xl.remote.find? (·.tid = 7) = some q ∧ q.msg.control = false ∧ q.slot = none ∧ earlierWaits q s.xl.remote = false ∧ s.jnc.slotFor (q.msg.addr.toNat / 2 ^ 44) = some 3) ∧
    (s.jnc.slots[3].out < 1024 ∧ max 1 (s.jnc.rBudget.toNat % 4096) * 1024 = 1024 ∧ outB s (q.opc, q.msg) 1 = true) ∧
    (f.jnc.slotFor 0x109 = some 3 ∧ 1024 ≤ f.jnc.slots[3].out) := by decide +kernel

/-- Hypotheses of LinksTrain: a frame that is not the eighth, the eighth in a row, one of another major version. -/
theorem test_link_training :
  let tf : TrainFrame := { serial := 0x77, node := 0x109001, port := 2, lanes := 3, major := 1, minor := 1, epoch := 0, digest0 := 0, digest1 := 0, credits := List.replicate 9 32 }
  let low : TrainFrame := { tf with lanes := 1, minor := 0 }
  let at' := fun (f : TrainFrame) (n : Nat) => sFab.modTgl 2 fun t => { t with en := true, train := some f, same := n, locked := 3 }
  let s : State := sFab.modTgl 2 fun t => { t with en := true }
  (s.canTrain 2 = true ∧ s.tgl[(2 : PortId)].up = false ∧ tf.lanes ≠ 0) ∧
    ((at' tf 7).canTrain 2 = true ∧ (at' tf 7).tgl[(2 : PortId)].train = some tf ∧ (at' tf 7).tgl[(2 : PortId)].up = false ∧ (at' tf 7).tgl[(2 : PortId)].same = 7) ∧
    ((at' { tf with major := 2 } 7).canTrain 2 = true ∧ (at' low 7).canTrain 2 = true ∧ low.lanes ≠ 3) := by decide +kernel

/-- Hypotheses of LinksFall: an up port with nothing held, its fifteenth and sixteenth replay, an enabled port that is down. -/
theorem test_link_falls :
  let s := sFab
  let fs : List TxFrame := (List.range 3).map fun i => { slots := [], seq := BitVec.ofNat 12 i, cvc := 15, ccnt := 0 }
  let r15 : State := s.modTgl 1 fun t => { t with sent := fs, replays := 15 }
  let r16 : State := s.modTgl 1 fun t => { t with sent := fs, replays := 16 }
  let d : State := s.modTgl 2 fun t => { t with en := true }
  let off : State := s.modTgl 2 fun t => { t with en := false }
  (s.tgl[(1 : PortId)].up = true ∧ s.tgl[(1 : PortId)].hold = [] ∧ s.tgl[(1 : PortId)].sent = [] ∧ r15.tgl[(1 : PortId)].sent ≠ [] ∧ s.tgl[(1 : PortId)].en = true ∧ s.reaches (.core 32) 0x2100004 = true) ∧
    (off.tgl[(2 : PortId)].en = false ∧ off.tgl[(2 : PortId)].up = false ∧ off.reaches (.core 32) 0x2200004 = true ∧ (off.modTgl 2 fun t => { t with en := true }).canTrain 2 = true) ∧
    (d.tgl[(2 : PortId)].en = true ∧ d.tgl[(2 : PortId)].up = false ∧ d.tgl[(2 : PortId)].hold = [] ∧ d.reaches (.core 32) 0x2200004 = true) ∧
    (r15.tgl[(1 : PortId)].replays < 16 ∧ 16 ≤ r16.tgl[(1 : PortId)].replays) := by decide +kernel

/-- Hypotheses of FramesReceived: the next frame in order, a repeated one, one after a gap, an idle one, and one in error. -/
theorem test_frames :
  let fs : List TxFrame := (List.range 3).map fun i => { slots := [], seq := BitVec.ofNat 12 (i + 2), cvc := 15, ccnt := 0 }
  let s : State := sTgl.modTgl 1 fun t => { t with rxSeq := 0xFFF, txSeq := 5, sent := fs }
  let body := fun (seq kind ack ret : Nat) => List.replicate 256 (0 : Byte) ++ List.replicate 24 0 ++ bytesOf 2 (kind * 4096 + seq) ++ bytesOf 2 ack ++ bytesOf 1 ret
  let frame := fun (seq kind ack ret : Nat) => body seq kind ack ret ++ bytesOf 3 (crc24 (body seq kind ack ret))
  (s.tgl[(1 : PortId)].up = true ∧ s.tgl[(1 : PortId)].hold = [] ∧ s.tgl[(1 : PortId)].mgt = [] ∧ (∀ v : Fin 9, s.tgl[(1 : PortId)].vcs[v].owed = 0) ∧ s.tgl[(1 : PortId)].nakSent = false) ∧
    ((frame 0 0 3 0x52).length = 288 ∧ fieldAt ((frame 0 0 3 0x52).drop 256) 24 2 = 0 ∧ fieldAt ((frame 0 0 3 0x52).drop 256) 26 2 = 3 ∧ fieldAt ((frame 0 0 3 0x52).drop 256) 28 1 = 0x52) ∧
    crc24 ((frame 0 0 3 0x52).take 285) = fieldAt ((frame 0 0 3 0x52).drop 256) 29 3 ∧
    (crc24 ((frame 9 1 2 0).take 285) = fieldAt ((frame 9 1 2 0).drop 256) 29 3 ∧ fieldAt ((frame 9 1 2 0).drop 256) 24 2 / 4096 = 1) ∧
    (crc24 ((frame 1 0 2 0).take 285) = fieldAt ((frame 1 0 2 0).drop 256) 29 3 ∧ 1 ≠ (0xFFF + 1) % 4096) := by simp only [crc24, test_strictFold]; decide +kernel

/-- Hypotheses of FramesSent: three slots. -/
theorem test_frames_sent :
  let xs : List FlitSlot := [{ desc := 0x41, bytes := List.replicate 64 1 }, { desc := 3, bytes := List.replicate 64 2 }, { desc := 3, bytes := List.replicate 64 3 }]
  (xs ≠ [] ∧ xs.length ≤ 4 ∧ (∀ x ∈ xs, x.bytes.length = 64)) := by decide +kernel

/-- Hypotheses of HeartbeatsSent. -/
theorem test_heartbeats_sent :
  let s : State := { sTgl with xl := { sTgl.xl with staged := true, epoch := 4, pEpoch := 5 } }
  (s.tgl[(1 : PortId)].up = true ∧ s.tgl[(1 : PortId)].mgt = [] ∧ s.tgl[(1 : PortId)].room 8 2 = true ∧ s.tgl[(2 : PortId)].up = false) := by decide +kernel

/-- Hypotheses of HeartbeatsJudged: an equal waymark, a higher epoch, a waymark staged at the peer, one staged here and reached by the peer. -/
theorem test_heartbeats_judged :
  let hb : HeartbeatMsg := { serial := 0x77, node := 0x109001, port := 2, culdesac := false, staged := false, major := 1, minor := 1, epoch := 4, digest0 := 1, digest1 := 2, pepoch := 0, pdigest0 := 0, pdigest1 := 0 }
  let s : State := { sTgl with xl := { sTgl.xl with epoch := 4, digest := #v[1, 2] } }
  let rec1 := record0
  let t : State := { s with xl := { s.xl with staged := true, stagedRec := rec1, pEpoch := 5, pDigest := #v[6, 7] } }
  let hs := fun (h : HeartbeatMsg) (s : State) => mgot s 0x40 { fhops := 0, fseq := 0, origin := h.serial } (heartbeatBytes h)
  let big := { hb with epoch := 5 }
  let stg := { hb with staged := true, pepoch := 4, pdigest0 := 1, pdigest1 := 2 }
  let com := { hb with epoch := 5, digest0 := 6, digest1 := 7 }
  (s.tgl[(1 : PortId)].up = true ∧ s.tgl[(1 : PortId)].hold = [] ∧ s.tgl[(1 : PortId)].mgt = [] ∧ s.xl.culdesac = false ∧ s.xl.node.getLsbD 0 = true ∧ s.xl.staged = false ∧ s.tgl[(1 : PortId)].ranOut = false) ∧
    (t.xl.staged = true ∧ (parseFabric t.xl.stagedRec).isSome = true ∧ t.tgl[(1 : PortId)].hold = []) ∧
    (hb.culdesac = false ∧ hb.staged = false ∧ hb.epoch = s.xl.epoch ∧ s.xl.epoch.toNat < 5) ∧
    ([hb, { hb with digest1 := 9 }, { hb with digest0 := 9 }, big, stg].all (fun h => decide ((hs h s).tgl[(1 : PortId)].firstOf 8 = some (mrx0 0x40 { fhops := 0, fseq := 0, origin := h.serial } (heartbeatBytes h)))) = true) ∧
    ((hs com t).tgl[(1 : PortId)].firstOf 8 = some (mrx0 0x40 { fhops := 0, fseq := 0, origin := com.serial } (heartbeatBytes com)) ∧ t.xl.pEpoch = com.epoch ∧ t.tgl[(1 : PortId)].ranOut = false ∧ t.xl.culdesac = false) := by decide +kernel

/-- Hypotheses of CoreRequests and OwnRequests: a load, two atomics and a store of core 0 at another node; a TID in use; a management core's CSR access. -/
theorem test_core_requests :
  let rl := farCore [farLoad (.read 8 false)] []
  let al := farCore [farLoad (.aadd 5)] []
  let sl := farCore [farLoad (.aswp 6)] []
  let st := farCore [] [farStore]
  let busy : State := { rl with xl := { rl.xl with remote := [req0 (.store 0) 2 { msg 0 [] with tid := 8 }] } }
  let used : State := { rl with xl := { rl.xl with remote := [req0 (.store 3) 2 (msg 0 [])] } }
  (rl.cores[(0 : CoreId)].loadOf 1 = some (farLoad (.read 8 false)) ∧ rl.portTurn 0 1 = true ∧ (farLoad (.read 8 false)).kind = .read 8 false) ∧
    (al.portTurn 0 1 = true ∧ sl.portTurn 0 1 = true ∧ st.loadBefore 0 1 = false ∧ (rl.requestOf (.load 0 1)).isSome = true ∧ rl.asked (.load 0 1) = false) ∧
    (used.xl.remote.all (fun x => decide (x.tid ≠ 9 ∧ x.who.source ≠ 0)) = true ∧ rl.xl.remote = [] ∧ busy.xl.remote.any (fun x => decide (x.msg.control = true ∧ x.who.source = (Wanted.load 0 1).source)) = true ∧ busy.xl.remote.all (fun x => decide (x.tid ≠ 7)) = true ∧ (busy.requestOf (.load 0 1)).isSome = true ∧ busy.asked (.load 0 1) = false) ∧
    (((rl.requestOf (.load 0 1)).map fun q => outB rl (1, rl.requestMsg q (msg 0 [])) 1) = some true) ∧
    (((st.requestOf (.store 0)).map fun q => outB st (2, st.requestMsg q (msg 0 [])) 1) = some true) ∧
    (used.xl.remote.any (fun x => x.tid = 7) = true ∧ (used.requestOf (.load 0 1)).isSome = true ∧ used.asked (.load 0 1) = false) := by decide +kernel

/-- Hypotheses of OwnRequests for a stream's request, which waits for its destination slot: a station access of chain 0 at another node. -/
theorem test_stream_requests :
  let w : HeldWrite := { stream := 5, loc := .remote 0x10900000001000, parts := [(0, bytesOf 8 4)], room := 8, qos := 6 }
  let s : State := { sFab with chains := (chained fun h => { h with drains := [{ serial := 1, writes := [w] }] }).chains }
  let m : Msg := { msg 0 [] with control := false }
  ((s.requestOf (.drain 0 0)).isSome = true ∧ s.xl.remote.any (fun x => x.tid = 7) = false ∧ s.asked (.drain 0 w) = false) := by decide +kernel

/-- Hypotheses of OwnRequests for a stream's line at another node. -/
theorem test_line_requests :
  let b : State := issued [strip0 id]
  let s : State := { sFab with chains := (b.modChain 0 fun h => { h with run := h.run.map fun r => { r with launch := { r.launch with sregs := sregs0.set 0 0x980010900000001000 } } }).chains }
  (((s.requestOf (.line 0 0 0 0x10900000001000)).map fun q => (decide (q.opc = 1), q.core, decide (q.who = .line 0 1 0 0x10900000001000), s.asked q.who)) = some (true, none, true, false)) := by decide +kernel

/-- Hypotheses of RequestsServed: reads, writes and atomics of scratch, a register access of a management core and others' refused one, an address without anything, a misaligned atomic. -/
theorem test_requests_served :
  let s : State := { (inScratch0 (bytesOf 8 0x1122334455667788) sFab) with cores := sFab.cores }
  let m : Msg := msg 0x105FFFC0000000 (bytesOf 8 3)
  let a : Msg := msg (0x10500000000000 + 0xFFFC0000000) (bytesOf 8 3)
  let c : Msg := { msg (0x10500000000000 + 0xFFFF0000000 + 0x400500) (bytesOf 4 5) with mc := true, len := 4 }
  let n : Msg := { c with mc := false }
  let z : Msg := msg (0x10500000000000 + 0xFF000000000) (bytesOf 8 3)
  let b : Msg := { a with addr := a.addr + 4 }
  let tk := fun (o : BitVec 8) (m : Msg) => (got s o m).takeRx 1 (rx0 o m)
  let fb := fun (o : BitVec 8) (m : Msg) => firstB (got s o m) 1 o m (rx0 o m) && (got s o m).responseRoom 1 (o, m)
  let dry := (got s 1 a).modTgl 1 fun t => { t with vcs := Vector.replicate 9 { credit := 1, used := 2, owed := 0 } }
  (fb 1 a = true ∧ fb 2 a = true ∧ fb 3 a = true ∧ fb 1 { a with control := false } = true ∧ fb 3 { a with ret := true } = true ∧ fb 1 c = true ∧ fb 2 c = true ∧ fb 1 n = true ∧ fb 2 n = true ∧ fb 1 z = true ∧ fb 2 z = true ∧ fb 3 z = true ∧ fb 3 b = true) ∧
    (firstB dry 1 1 a (rx0 1 a) = true ∧ dry.responseRoom 1 (1, a) = false ∧ outB (tk 2 n) (0x22, respMsg n [] false 2) 1 = true ∧ outB (tk 2 z) (0x22, respMsg z [] false 1) 1 = true ∧ outB (tk 3 z) (0x22, respMsg z [] false 1) 1 = true ∧ outB (tk 3 { a with ret := true }) (0x20, respMsg { a with ret := true } (s.memRead 0xFFFC0000000 8) false 0) 1 = true) ∧
    (s.tgl[(1 : PortId)].up = true ∧ s.xl.culdesac = false ∧ a.addr.toNat / 2 ^ 44 = s.nodeId ∧ s.place (a.addr.toNat % 2 ^ 44) = .scratch ∧ s.populated (a.addr.toNat % 2 ^ 44) 8 = true ∧ s.poisoned (a.addr.toNat % 2 ^ 44) 8 = false ∧ s.xl.atomics = true) ∧
    (outB (tk 1 a) (0x20, respMsg a (s.memRead 0xFFFC0000000 8) false 0) 1 = true ∧ outB (tk 1 a) (0x23, respMsg { a with control := false } (s.memRead 0xFFFC0000000 8) false 0) 1 = true ∧ outB (tk 2 a) (0x21, respMsg a [] false 0) 1 = true) ∧
    (outB (tk 3 a) (0x21, respMsg a [] false 0) 1 = true ∧ s.place 0xFFFF0400500 = .csr ∧ s.populated 0xFFFF0400500 4 = true ∧ s.csrWaits 0x400500 4 = false ∧ s.xl.remoteCsr = true ∧ c.addr.toNat / 2 ^ 44 = s.nodeId) ∧
    (outB ((tk 1 c).csrBytes .fabric 0x400500 4).1 (0x20, respMsg c ((tk 1 c).csrBytes .fabric 0x400500 4).2 false 0) 1 = true ∧ outB ((tk 2 c).csrPut .fabric 0x400500 (bytesOf 4 5)) (0x21, respMsg c [] false 0) 1 = true) ∧
    (outB (tk 1 n) (0x22, respMsg n [] false 2) 1 = true ∧ n.src.toNat ≠ s.nodeId ∧ s.place 0xFF000000000 = .nothing ∧ outB (tk 1 z) (0x22, respMsg z [] false 1) 1 = true ∧ z.addr.toNat / 2 ^ 44 = s.nodeId) ∧
    (outB (tk 3 b) (0x22, respMsg b [] false 3) 1 = true ∧ s.populated 0xFFFC0000004 8 = true ∧ b.addr.toNat % 2 ^ 44 % 8 ≠ 0) := by decide +kernel

/-- Hypotheses of MessagesPass: a route, a detour, no route, a route that is down, the sixteenth hop, a port that is down. -/
theorem test_messages_pass :
  let s : State := { sFab with tgl := (sFab.tgl.set 3 { sFab.tgl[(1 : PortId)] with peer := 1 }), xl := { sFab.xl with mrt := cellSet sFab.xl.mrt 11 0x80000002 } }
  let m := msg 0x10900000000040 (bytesOf 8 1)
  let d := { m with addr := 0x10A00000000040 }
  let w := { m with addr := 0x10B00000000040 }
  let o' := { m with addr := 0x10C00000000040 }
  let g := fun (o : BitVec 8) (m : Msg) => s.modTgl 3 fun t => { t with rx := [rx0 o m] }
  let tk := fun (o : BitVec 8) (m : Msg) => (g o m).takeRx 3 (rx0 o m)
  let fb := fun (o : BitVec 8) (m : Msg) => firstB (g o m) 3 o m (rx0 o m) && (g o m).responseRoom 3 (o, m)
  let t := tk 2 m
  let cu := fun (o : BitVec 8) => (g o m).modTgl 3 fun t => { t with refused := 5 }
  let cul := fun (o : BitVec 8) => ({ cu o with xl := { s.xl with culdesac := true } } : State)
  ([(1 : BitVec 8), 2, 3, 0x20, 0x21, 0x22, 0x23].all (fun o => fb o m && fb o d && fb o w && fb o { m with hops := 15 } && fb o { d with layer := true } && firstB (cul o) 3 o m (rx0 o m)) = true) ∧
    ([(1 : BitVec 8), 2, 3, 0x20, 0x21, 0x23].all (fun o => outB (tk o o') (0x22, respMsg o' [] false 4) 1 && outB (tk o w) (0x22, respMsg w [] false 5) 1 && outB (tk o { m with hops := 15 }) (0x22, respMsg m [] false 8) 1 && outB (tk o m) (o, { m with hops := 1 }) 1) = true ∧ outB (tk 0x22 m) (0x22, { m with hops := 1 }) 1 = true) ∧
    (s.tgl[(2 : PortId)].firstOf (vcOf (2, m)) = none ∧ s.tgl[(3 : PortId)].up = true ∧ s.tgl[(2 : PortId)].up = false ∧ m.addr.toNat / 2 ^ 44 ≠ s.nodeId ∧ s.xl.culdesac = false ∧ outB t (2, { m with hops := 1 }) 1 = true) ∧
    ((s.routeEntry 0x10A).getLsbD 31 = true ∧ s.tgl[portField (s.routeEntry 0x10A) 0].up = false ∧ (s.routeEntry 0x10A).getLsbD 30 = true ∧ ((s.routeEntry 0x10A).extractLsb' 4 3).toNat = 1) ∧
    (t.tgl[(1 : PortId)].hold = [] ∧ t.tgl[(1 : PortId)].rel = 2 ∧ t.tgl[(1 : PortId)].minor ≠ 0 ∧ t.tgl[(1 : PortId)].room (vcOf (2, { d with hops := 1, layer := true })) 2 = true) ∧
    ((s.routeEntry 0x10C).getLsbD 31 = false ∧ outB t (0x22, respMsg o' [] false 4) 1 = true ∧ (s.routeEntry 0x10B).getLsbD 30 = false ∧ s.tgl[portField (s.routeEntry 0x10B) 0].up = false ∧ outB t (0x22, respMsg w [] false 5) 1 = true) ∧
    (outB t (0x22, respMsg { m with hops := 15 } [] false 8) 1 = true ∧ m.src.toNat ≠ s.nodeId) := by decide +kernel

/-- Hypotheses of ResponsesEnd: nothing outstanding, a load and a store of core 0, a request that has and one that has not been sent. -/
theorem test_fabric_responses :
  let l := farLoad (.read 8 false)
  let ga : Word := 0x10900000001008
  let r : RemoteReq := { req0 (.load 0 1) 1 (msg ga []) with slot := none }
  let wr : RemoteReq := { req0 (.store 0) 2 (msg ga (bytesOf 8 5)) with slot := some 3 }
  let s : State := { (farCore [l] []) with xl := { sFab.xl with remote := [r] } }
  let t : State := { (farCore [] [farStore]) with xl := { sFab.xl with remote := [wr] }, jnc := { sFab.jnc with slots := sFab.jnc.slots.set 3 { sFab.jnc.slots[3] with out := 20 } } }
  let m : Msg := { msg 0x10500000001008 (bytesOf 8 0x99) with src := 0x109 }
  let at8 := { m with tid := 8 }
  let tm : State := { t with xl := { t.xl with remote := [{ wr with opc := 3, who := .load 5 9 }] } }
  let un : State := { s with xl := { s.xl with remote := [{ r with sent := false }] } }
  (s.tgl[(1 : PortId)].up = true ∧ s.xl.culdesac = false ∧ m.addr.toNat / 2 ^ 44 = s.nodeId ∧ s.xl.remote.find? (·.tid = 7) = some r ∧ s.xl.remote.find? (·.tid = 8) = none) ∧
    (s.cclkStopped = false ∧ t.cclkStopped = false ∧ s.cores[(0 : CoreId)].loadOf 1 = some l ∧ l.kind = .read 8 false ∧ m.data.length = 8 ∧ m.poison = false ∧ r.sent = true ∧ un.xl.remote.find? (·.tid = 7) = some { r with sent := false }) ∧
    ([(0x20 : BitVec 8), 0x21, 0x22, 0x23].all (fun o => firstB (got s o m) 1 o m (rx0 o m) && firstB (got s o at8) 1 o at8 (rx0 o at8)) = true ∧ firstB (got t 0x21 m) 1 0x21 m (rx0 0x21 m) = true ∧ firstB (got tm 0x21 m) 1 0x21 m (rx0 0x21 m) = true ∧ tm.xl.remote.find? (·.tid = 7) = some { wr with opc := 3, who := .load 5 9 }) ∧
    (t.xl.remote.find? (·.tid = 7) = some wr ∧ wr.opc = 2 ∧ t.cores[(0 : CoreId)].stores = [farStore] ∧ farStore.loc = .remote ga) := by decide +kernel

/-- Hypotheses of Discovery: a fresh device with a fresh neighbour, one that knows a SERIAL, the root with a report. -/
theorem test_discovery :
  let s : State := { sFab with xl := { sFab.xl with node := 0, epoch := 0, digest := #v[0, 0] }, tgl := sFab.tgl.set 2 sFab.tgl[(1 : PortId)] }
  let k : State := { s with xl := { s.xl with discovering := true, lowest := some 0x11 } }
  let r : Neigh := { serial := 0x77, major := 1, minor := 1, ports := List.replicate 8 { peer := 0, peerPort := 0, up := false, four := false } }
  let w : State := { k with xl := { k.xl with neighs := [r, k.ownNeigh] } }
  let b : State := { k with xl := { k.xl with parent := some 2 } }
  (s.mayDiscover = true ∧ sFab.mayDiscover = false ∧ roomB s 1 24 = true ∧ roomB s 2 24 = true ∧ stands (mHello peer0 0x77 5 0 3) k = true ∧ stands (mHello peer0 0x77 0x11 0 3) k = true ∧ stands (mNeigh peer0 r) k = true ∧ k.xl.discovering = true ∧ k.xl.lowest = some 0x11) ∧
    (b.xl.parent = some 2 ∧ stands (mNeigh peer0 r) b = true ∧ roomB b 2 (neighPayload r).length = true ∧ k.xl.parent = none) ∧
    (w.chip.phase = .firmware ∧ w.xl.lowest = some w.chip.serial ∧ w.xl.proposals = [] ∧ w.xl.staged = false ∧ w.divergent = false ∧ s.xl.discovering = false) ∧
    (((parseFabric (rootRecord (((w.xl.neighs.filter fun x => x.serial ≠ w.chip.serial) ++ [w.ownNeigh]).foldl (fun l r => insNeigh r l) []))).map fun f => f.floorMet && f.roster.any fun m => m.serial ≠ w.chip.serial) = some true) := by decide +kernel

/-- Hypotheses of ProposalFloods: first and second arrivals of ABORT, COMMIT and PROPOSE at a device with a staged proposal, and without. -/
theorem test_floods :
  let h : MgtHdr := { fhops := 1, fseq := 3, origin := 0x77 }
  let key : FloodKey := { origin := 0x77, fseq := 3, port := some 1, live := true }
  let s : State := { sFab with xl := staged0 sFab.xl, tgl := sFab.tgl.set 2 sFab.tgl[(1 : PortId)] }
  let t : State := { s with xl := { s.xl with keys := [key] } }
  ([s, t].all (fun s => stands (mAbort h 5) s && stands (mAbort h 6) s && stands (mCommit h 5 6 7) s && stands (mCommit h 6 6 7) s && stands (mPropose h 9 6 7 99) s) = true) ∧
    (t.keyHeld h = true ∧ s.keyHeld h = false ∧ h.fhops < 255 ∧ s.xl.pulls = [] ∧ s.xl.staged = true ∧ s.xl.pEpoch = 5 ∧ s.xl.pDigest[0] = 6 ∧ s.xl.pDigest[1] = 7 ∧ sFab.xl.staged = false) ∧
    ((parseFabric s.xl.stagedRec).isSome = true ∧ ((parseFabric s.xl.stagedRec).bind fun f => f.member 0x11).isSome = true ∧ roomB (takes (mPropose h 9 6 7 99) s) 1 24 = true ∧ roomB s 2 24 = true) ∧
    ((t.xl.keys.find? fun k => decide (k.origin = h.origin) && decide (k.fseq = h.fseq)) = some key) := by decide +kernel

/-- Hypotheses of Votes: a vote for another proposer, a NACK, the timeout, an ACK that leaves the roster incomplete and the last one. -/
theorem test_votes :
  let h : MgtHdr := { fhops := 0, fseq := 3, origin := 0x77 }
  let mine : MgtHdr := { fhops := 0, fseq := 1, origin := 0x11 }
  let c := { cmd0 0x31 [] with started := true }
  let s := sFabCmd [c] fun x => { staged0 x with proposals := [{ proposal0 with acks := [] }] }
  let n := sFabCmd [c] fun x => { staged0 x with proposals := [proposal0] }
  let o : State := { sFab with tgl := sFab.tgl.set 2 sFab.tgl[(1 : PortId)], xl := { sFab.xl with keys := [{ origin := 0x77, fseq := 3, port := some 2, live := false }] } }
  (stands (mVote h 5 0x33 1) o = true ∧ h.origin ≠ o.chip.serial ∧ roomB (takes (mVote h 5 0x33 1) o) 2 24 = true ∧ (o.xl.keys.find? fun k => decide (k.origin = h.origin) && decide (k.fseq = h.fseq)).bind (·.port) = some 2) ∧
    (stands (mVote mine 5 0x77 0) s = true ∧ stands (mVote mine 5 0x77 0) n = true ∧ stands (mVote mine 5 0x77 1) n = true ∧ n.xl.staged = true ∧ n.xl.pEpoch = proposal0.e ∧ proposal0.passed = false ∧ proposal0.handle = some 0x100000) ∧
    (mine.origin = s.chip.serial ∧ s.xl.staged = true ∧ s.xl.pEpoch = 5 ∧ s.cmd 0x100000 = some c ∧ c.cancelled = false ∧ n.cmd 0x100000 = some c ∧ proposal0.fseq = mine.fseq ∧ proposal0.auto = false) ∧
    (fabric0.roster.any (fun m => m.serial ≠ 0x77) = true ∧ fabric0.roster.all (fun m => [0x11, 0x77].contains m.serial) = true ∧ parseFabric s.xl.stagedRec = some fabric0) := by decide +kernel

/-- Hypotheses of Pulls: requests for the record in force and the staged one, data that leaves a record incomplete, a record completed in the cul-de-sac, each check of a completed proposal, the last retry. -/
theorem test_pulls :
  let s : State := { sFab with xl := { staged0 sFab.xl with record := List.replicate 256 7 } }
  let x : Pull := { port := 1, epoch := 9, staged := false, length := 0, got := [], asked := 65536, tries := 15, header := none, announced := 0, d0 := 0, d1 := 0 }
  let hb : HeartbeatMsg := { serial := 0x77, node := 0x109001, port := 2, culdesac := false, staged := false, major := 1, minor := 1, epoch := 9, digest0 := fabric0.digest[0], digest1 := fabric0.digest[1], pepoch := 0, pdigest0 := 0, pdigest1 := 0 }
  let c : State := ({ sFab with xl := { sFab.xl with culdesac := true, pulls := [x] } }).modTgl 1 fun t => { t with hb := some hb }
  let h : MgtHdr := { fhops := 1, fseq := 3, origin := 0x77 }
  let y : Pull := { x with epoch := 5, staged := true, header := some h, announced := BitVec.ofNat 32 record0.length, d0 := fabric0.digest[0], d1 := fabric0.digest[1], tries := 1 }
  let p := fun (y : Pull) (g : Xl → Xl) => ({ sFab with xl := g { sFab.xl with pulls := [y], keys := [{ origin := 0x77, fseq := 3, port := some 1, live := true }] } } : State)
  let q := p y id
  (stands (mReq peer0 8 0 16 0) s = true ∧ stands (mReq peer0 4 16 240 0) s = true ∧ stands (mReq peer0 5 0 16 1) s = true ∧ s.xl.epoch = 4 ∧ s.xl.record ≠ [] ∧ s.xl.stagedRec ≠ [] ∧ roomB (takes (mReq peer0 8 0 16 0) s) 1 16 = true ∧ roomB (takes (mReq peer0 4 16 240 0) s) 1 256 = true) ∧
    (c.pullOf 1 9 = some x ∧ c.xl.culdesac = true ∧ stands (mData peer0 9 0 (BitVec.ofNat 32 record0.length) record0) c = true ∧ stands (mData peer0 9 0 1000 (List.replicate 240 7)) c = true ∧ (c.tgl[(1 : PortId)].hb = some hb ∧ hb.epoch = 9) ∧ fabric0.floorMet = true ∧ (fabric0.member 0x11).isSome = true ∧ x.tries < 16 ∧ roomB c 1 24 = true) ∧
    (q.pullOf 1 5 = some y ∧ q.xl.epoch = 5 - 1 ∧ q.xl.staged = false ∧ q.divergent = false ∧ stands (mData peer0 5 0 (BitVec.ofNat 32 record0.length) record0) q = true ∧ roomB (takes (mData peer0 5 0 (BitVec.ofNat 32 record0.length) record0) q) 1 24 = true ∧ record0.length ≤ 240) ∧
    ((q.xl.keys.find? fun k => decide (k.origin = h.origin) && decide (k.fseq = h.fseq)).bind (·.port) = some 1) := by decide +kernel

/-- Hypotheses of Surveys: the command's start, a request's first and second arrival, an answer here and for another surveyor, the end. -/
theorem test_surveys :
  let c := { cmd0 0x30 [(16, bytesOf 8 0x105FFFC0000000), (24, bytesOf 4 160), (28, bytesOf 4 4)] with started := false }
  let s := sFabCmd [c] id
  let h : MgtHdr := { fhops := 1, fseq := 3, origin := 0x77 }
  let r := { s.surveyRec with serial := 0x77, digest1 := 9 }
  let t : State := { sFab with tgl := sFab.tgl.set 2 sFab.tgl[(1 : PortId)], xl := { sFab.xl with keys := [{ origin := 0x77, fseq := 3, port := some 2, live := true }] } }
  let v : Survey := { handle := 0x100000, fseq := 1, recs := [s.surveyRec] }
  let w := sFabCmd [{ c with started := true }] fun x => { x with survey := some v, record := record0 }
  let e := sFabCmd [{ c with started := true }] fun x => { x with survey := some { v with recs := [s.surveyRec, r] }, record := record0 }
  (s.cmd 0x100000 = some c ∧ c.phase = .running ∧ c.op = 0x30 ∧ c.started = false ∧ c.cancelled = false ∧ s.xl.survey = none ∧ s.aci.ready = true ∧ s.aci.resetting = false ∧ s.aci.fatal = false ∧ s.cclkStopped = false) ∧
    (stands (mSreq h 4) t = true ∧ t.keyHeld h = true ∧ sFab.keyHeld h = false ∧ stands (mSreq h 4) sFab = true ∧ stands (mSrsp h r) t = true ∧ roomB (takes (mSreq h 4) sFab) 1 64 = true ∧ roomB (takes (mSrsp h r) t) 2 64 = true ∧ h.origin ≠ t.chip.serial) ∧
    (stands (mSrsp { h with origin := 0x11, fseq := 1 } r) w = true ∧ v.fseq = 1 ∧ w.chip.serial = 0x11 ∧ w.xl.survey = some v ∧ w.allAnswered v = false ∧ 32 ≤ c.at 24 4 ∧ e.allAnswered { v with recs := [s.surveyRec, r] } = true) ∧
    isDone (e.fwWrite { c with started := true } 0 (c.at 16 8) (e.surveyBuffer { v with recs := [s.surveyRec, r] } (c.at 24 4) (c.at 28 4)) .refused) = true := by decide +kernel

/-- Hypotheses of Waymarks: a divergent device, a record that is staged, one refused, a commit of the proposal that has passed and of another. -/
theorem test_waymarks :
  let c := cmd0 0x31 [(16, bytesOf 8 0x105FFFC0000000), (24, bytesOf 4 record0.length)]
  let s := inScratch0 record0 (sFabCmd [c] id)
  let d : State := s.modTgl 1 fun t => { t with rel := 5 }
  let k := cmd0 0x32 [(16, bytesOf 8 5)]
  let w := sFabCmd [k] fun x => { staged0 x with proposals := [{ proposal0 with passed := true }] }
  let n := sFabCmd [k] fun x => { staged0 x with proposals := [proposal0] }
  (s.cmd 0x100000 = some c ∧ c.phase = .running ∧ c.op = 0x31 ∧ c.started = false ∧ c.cancelled = false ∧ s.divergent = false ∧ d.divergent = true ∧ d.cmd 0x100000 = some c ∧ s.aci.ready = true ∧ s.aci.resetting = false ∧ s.aci.fatal = false) ∧
    (isDone (s.fwRead c 0 (c.at 16 8) (c.at 24 4) .refused) = true ∧ (s.fwRead c 0 (c.at 16 8) (c.at 24 4) .refused).1.xl = s.xl ∧ (s.fwRead c 0 (c.at 16 8) (c.at 24 4) .refused).1.tgl = s.tgl ∧ (s.fwRead c 0 (c.at 16 8) (c.at 24 4) .refused).1.aci = s.aci ∧ (s.fwRead c 0 (c.at 16 8) (c.at 24 4) .refused).1.chip = s.chip) ∧
    (fabric0.floorMet = true ∧ fabric0.roster.any (fun m => m.serial ≠ 0x11) = true ∧ roomB s 1 32 = true) ∧
    (w.cmd 0x100000 = some k ∧ k.op = 0x32 ∧ BitVec.ofNat 64 (k.at 16 8) = (5 : Word) ∧ w.xl.staged = true ∧ w.xl.pEpoch = 5 ∧ n.cmd 0x100000 = some k) := by decide +kernel

/-- The snoop filter holds one line 16 times. -/
def fullSet (a : Nat) : State := { sHost with cxl := { sHost.cxl with sf := List.replicate 16 (a, .s) } }

/-- Hypotheses of HostRequestsWaitOrCross, a full set: of 131,073 lines two share a set, whatever the hash is. -/
theorem test_full_set : ∃ a b : Nat, let s := fullSet a
    s.hdm.isSome = true ∧ s.lineOf (BitVec.ofNat 64 (64 * b)) = some b ∧ s.sfOf b = none ∧ s.cxl.hostHeld.any (·.line = b) = false ∧ s.heldOn b = false ∧
      s.ctrlStopped (ddrSplit (b * 64)).1 = false ∧
      16 ≤ (s.sfWays b).length ∧ victimOf (s.sfWays b) = some a ∧ s.snoops < 1024 := by
  obtain ⟨x, y, hne, he⟩ := Fintype.exists_ne_map_eq_of_card_lt (fun i : Fin 131073 => Config.sfSet i.val) (by simp)
  have hx := x.isLt
  have hy := y.isLt
  have hxy : x.val ≠ y.val := fun h => hne (Fin.ext h)
  have hw : (fullSet x.val).sfWays y.val = List.replicate 16 (x.val, .s) := by
    simp only [State.sfWays, fullSet]
    exact List.filter_eq_self.mpr fun p hp => by
      rw [List.eq_of_mem_replicate hp]; simpa using he
  refine ⟨x.val, y.val, ?_, ?_, ?_, ?_, ?_, ?_, ?_, ?_, ?_⟩
  · change sHost.hdm.isSome = true; decide +kernel
  · have hn : (BitVec.ofNat 64 (64 * y.val)).toNat = 64 * y.val := by
      rw [BitVec.toNat_ofNat]; exact Nat.mod_eq_of_lt (by omega)
    have hd : (fullSet x.val).cxl.decoder.committed = true ∧ (fullSet x.val).cxl.decoder.base = 0 ∧ (fullSet x.val).cxl.decoder.size = 0x400000000 := ⟨rfl, rfl, rfl⟩
    simp only [State.lineOf, hd, hn]
    have h1 : (0 : Word).toNat = 0 := rfl
    have h2 : (0x400000000 : Word).toNat = 0x400000000 := rfl
    rw [h1, h2, if_pos (by simp; omega)]
    congr 1; omega
  · simp [State.sfOf, fullSet, alookup, List.replicate_succ, hxy]
  · have h : sHost.cxl.hostHeld = [] := by decide +kernel
    change sHost.cxl.hostHeld.any _ = false
    rw [h]; rfl
  · have h : sHost.cxl.held = [] := by decide +kernel
    change sHost.cxl.held.any _ = false
    rw [h]; rfl
  · have h : ∀ n : CtrlId, sHost.ctrlStopped n = false := by decide +kernel
    exact h _
  · rw [hw]; simp
  · rw [hw]; rfl
  · simp [State.snoops, fullSet]

/-- Hypothesis of StepKeepsMemoryCanonical, with memory that holds a byte, and a step that writes; an empty queue for StepRunsFrontCommand. -/
theorem test_invariant :
  let s : State := { (inScratch0 [1, 0, 2] s0) with pending := [Instr.scratchRequest 0 0 0xFFFC0000008 (.write [0, 7]) .clean] }
  (s.mem.wf = true ∧ s.mem.cells = [(0xFFFC0000000, 1), (0xFFFC0000002, 2)] ∧ s0.pending = []) ∧
    (leaves (step s) (fun u => u.mem.wf && decide (u.mem.cells = [(0xFFFC0000000, 1), (0xFFFC0000002, 2), (0xFFFC0000009, 7)]) && decide (u.pending = [])) = true) := by decide +kernel

/-- Terms that the checks of accesses and requests refuse: an unaligned offset, a bank or line access across its line, requests of 0 and 257 bytes, across a granule and after 16 hops, data of another length. -/
theorem test_ill_formed_accesses :
  let m : Msg := msg 0x40 (bytesOf 8 1)
  ((Instr.registerWrite { path := .core 0, offset := 4, be := 1, data := 0 }).wf = false ∧ (Instr.readToClear { path := .core 0, offset := 1, be := 1, data := 0 }).wf = false) ∧
    ((Instr.scratchRequest 0 0 0xFFFC0000004 (.addI64 1) .clean).wf = false ∧ (Instr.scratchRequest 0 0 0xFFFC000003F (.read 2) .clean).wf = false ∧ (Instr.scratchRequest 0 0 0xFFFC0000000 (.write []) .clean).wf = false) ∧
    ((Instr.homeAgentAccess 0 0 (.write 60 [1, 2, 3, 4, 5]) .clean 0).wf = false ∧ (Instr.memWr 0 .i [1] false).wf = false ∧ (Instr.memWrPtl 0 .i 1 [1]).wf = false) ∧
    ((Instr.rd (.port 0) { m with len := 0 }).wf = false ∧ (Instr.rd (.port 0) { m with len := 257 }).wf = false ∧ (Instr.rd (.port 0) { m with addr := 0xFF }).wf = false ∧ (Instr.rd (.port 0) { m with hops := 16 }).wf = false) ∧
    ((Instr.wr (.port 0) { m with len := 7 }).wf = false ∧ (Instr.atom (.port 0) { m with data := [] }).wf = false ∧ (Instr.rspData 0 { m with data := List.replicate 257 0 }).wf = false ∧ (Instr.rspAcc 0 { m with hops := 16 }).wf = false ∧ (Instr.rspRefuse 0 { m with reason := 256 }).wf = false) := by decide +kernel

/-- Terms that the checks of frames, lists and instruction fields refuse. -/
theorem test_ill_formed_frames :
  ((Instr.sensorUpdate []).wf = false ∧ (Instr.ddrBringup []).wf = false ∧ (Instr.frameReceive 0 [] true).wf = false ∧ (Instr.requestArrival .root 0 [{ master := 0, tag := 0, qos := 0, addr := 0xC0, kind := .write (List.replicate 65 0), control := false }]).wf = false) ∧
    ((Instr.trainingFrame 0 ⟨0, { serial := 0, node := 0, port := 0, lanes := 0, major := 0, minor := 0, epoch := 0, digest0 := 0, digest1 := 0, credits := [] }⟩).wf = false ∧ (Instr.fsrData 0 0 0 0 (List.replicate 241 0)).wf = false) ∧
    (Instr.neigh 0 { serial := 0, major := 0, minor := 0, ports := List.replicate 9 { peer := 0, peerPort := 0, up := false, four := false } }).wf = false ∧
    ((Instr.surveyRsp 0 { fhops := 0, fseq := 0, origin := 0 } { s0.surveyRec with ports := [] }).wf = false ∧ (Instr.add 0 0 (fl 3 0 0 0 0 0)).wf = false ∧ (Instr.add 0 0 (fl 0 0 0 0 0 0)).wf = true) := by decide +kernel

/-- The worked addresses of 02: the amount value and the granule after it, and the scratch word. -/
theorem test_worked_addresses :
  (ddrSplit 0x8091A2B3C0 = (0, 0x8091A2BC0) ∧ (ddrSplit 0x8091A2B4C0).1 = 7) ∧
    bankSplit 0x6C51A48 = (381, 0xC508 / 8) := by decide +kernel

/-- The decimal addition of 06: 1,234.56 less 999.99, an invalid digit; REVB8 of five bytes; the product that MULLO wraps, MADDV refuses and MULWS keeps. -/
theorem test_worked_decimal :
  dcmStation 0x00 0 0 0 false (.nar 0x123456C) (.nar 0x99999D) = .ok (.nar 0x23457C) ∧
    ((dcmStation 0x00 0 0 0 false (.nar 0x123A4C) (.nar 0x99999D)).raised.isSome = true ∧ (dcmStation 0x00 0 0 0 true (.nar 0x123A4C) (.nar 0x99999D)).raised.isSome = true) ∧
    dcmStation 0x18 0 0 5 false (.nar 0x8C67452301) (.nar 0) = .ok (.nar 0x12345678C) ∧
    (macStation 0x00 false 0 (.nar 0x7FFFFFFFFFFFFFFF) (.nar 4) (.nar 0) false = .ok (.nar 0xFFFFFFFFFFFFFFFC) ∧ macStation 0x06 false 0 (.nar 0x7FFFFFFFFFFFFFFF) (.nar 4) (.nar 0) false = .ok (.wid 0x1FFFFFFFFFFFFFFFC)) ∧
    (macStation 0x04 false 0 (.nar 0x7FFFFFFFFFFFFFFF) (.nar 4) (.nar 0) true).raised.isSome = true := by decide +kernel

/-- The three codings of the eight three-bit values of 05. -/
theorem test_worked_decode :
  let e := fun (v : Nat) => ({ pos := 0, null := false, lo := BitVec.ofNat 64 v, hi := 0, bad := false } : Elem)
  let raw := [5, 2, 7, 0, 6, 1, 3, 4]
  let byte := natOf [0xD5, 0xE1, 0x8C]
  ((List.range 8).map (fun i => byte / 8 ^ i % 8) = raw) ∧
    (raw.map (fun v => (decStation (BitVec.ofNat 256 (0x5000 * 2 ^ 128 + 1000)) 3 [] (e v)).v) = [997, 1002, 999, 1000, 998, 1001, 1003, 996].map Val.nar) ∧
    (raw.map (fun v => (decStation (BitVec.ofNat 256 ((2 * 2 ^ 14 + 5) * 2 ^ 128)) 3 [10, 20, 30, 40, 50, 60] (e v)).raised.isSome) = [false, false, true, false, true, false, false, false]) ∧
    (decStation (BitVec.ofNat 256 ((2 * 2 ^ 14 + 5) * 2 ^ 128)) 3 [10, 20, 30, 40, 50, 60] (e 5)).v = .nar 60 := by decide +kernel

/-- The hash of the keys 1 and 2, the runs of the run-length column, and the prefix test on a code, of 05 and 07. -/
theorem test_worked_relational :
  (hash1 1 0 = 0x8C3A61D1933A45B8 ∧ hash1 2 0 = 0x1874C3AB26748B71) ∧
    (runSum [0x33E7, 0x1C17] = 1024 ∧ runAt [0x33E7, 0x1C17] 999 = some 12 ∧ runAt [0x33E7, 0x1C17] 1000 = some 7) ∧
    selStation 0 8 3 0 (.nar (wordOf [0x41, 0x42, 0x43, 0x44, 0x58, 0x59, 0x30, 0x30])) (.nar 0x434241) (.nar 0) (.nar 0) = .nar 1 ∧
    selStation 0 8 3 0 (.nar (wordOf [0x41, 0x42, 0x58, 0x43, 0x30, 0x30, 0x30, 0x30])) (.nar 0x434241) (.nar 0) (.nar 0) = .nar 0 := by decide +kernel

/-- The chain word of the tour (08): its stations and wires stand, and the word with p at wire 6 is refused at CPT with BAD_WIRE. -/
theorem test_worked_chain_word :
  let ws := fun (p : Nat) => [0x0010, 0x0000, 0x1810, 0x4100, 0x1C70, 0x0174, 0x0000, 0x0000, 0x0003, 0x0000, 0x0000, 0x0000, 0x0410, 0x2000, 0x2010, p, 0xC820, 0x00A0, 0x0000].map (BitVec.ofNat 16)
  let regs : Vector Desc 8 := (((Vector.replicate 8 0).set 0 (0x0000030000000003 * 2 ^ 64 + 0xfffc0000000)).set 1 (0x9800000fffc0010000)).set 2 0
  ((splitStations 16 (ws 0x1900)).2 = true ∧ (stationsOf (splitStations 16 (ws 0x1900)).1).map (·.code) = [0, 6, 7, 1, 8, 18]) ∧
    launchCheck (splitStations 16 (ws 0x1900)).1 true 8 regs 4096 false 0 = none ∧
    (launchCheck (splitStations 16 (ws 0x3100)).1 true 8 regs 4096 false 0).map (·.lchk) = some 0x84005 := by decide +kernel

/-- The handle of 03: pair 3 of generation 1, TAG 7. -/
theorem test_worked_handle :
  pair0.handle 3 7 = 0x03100007 := by decide +kernel

/-- A public key and a signature, highest byte first. -/
def beBytes (n v : Nat) : List Byte := (bytesOf n v).reverse
def imageKey : List Byte := 4#8 :: beBytes 96
  0x8f8aa5c13a414b284847b3a545b1fd3c38bf566c20858df1eaf830f0e22a3b53e617f80cdc4d9b3aa2d02d68ceaa82dc60f2816c6ddc0591b901eb9350eeaf2a6cee40ddd3133895606c737861fbb121493b47a5bb48fd8e7d306d76f79c0abc
def imageSig : List Byte := beBytes 96
  0x3368156eae744a5ed6c9e38e803a52e69b52d1dc16ace92e1e7ebfdb6dbf0b4e476be9a71b025be8cd84493cf954af747de0d86ac41d9b1c9b6e7a7cba2e174034ee3602cb3dc23ffc97e1b04479f706436a52a8c23801b7eaf0dcce8f8e49b0

/-- An image of one IMEM word, whose hashes and signature hold (18 R379). -/
def image0 : List Byte :=
  let body := bytesOf 8 0xB000
  bytesOf 4 1 ++ bytesOf 4 8 ++ List.replicate 32 0#8 ++ bytesOf 2 1 ++ bytesOf 2 0 ++ bytesOf 4 0 ++ bytesOf 4 8 ++
    List.replicate 28 0#8 ++ sha384 body ++ imageKey ++ List.replicate 7 0#8 ++ imageSig ++ List.replicate 3768 0#8 ++ body

/-- A valid image, for the clauses of FlashCommandsComplete and BootRunsAndHandsOver that ask for one. -/
theorem test_valid_image : imageValid (sha384 imageKey) image0 = true := by decide +kernel

/-- The state in which the ROM finds that image in slot A. -/
theorem test_valid_slot :
    let s : State := { State.reset with
      chip := { State.reset.chip with phase := .reset, keyHash := sha384 imageKey }
      flash := State.reset.flash.setSlot false image0 }
    s.chip.phase = .reset ∧ s.flash.bootChoice.2 &&& slotBit false ≠ 0 ∧
      imageValid s.chip.keyHash (s.flash.slotOf false) = true := by
  refine ⟨by decide +kernel, by decide +kernel, ?_⟩
  have hl : image0.take (FlashArea.slot false).size = image0 := List.take_of_length_le (by decide +kernel)
  have hs : ∀ f : Flash, (f.setSlot false image0).slotOf false = image0 := fun f => by
    simp [Flash.setSlot, hl, Flash.slotOf, Flash.get]
  simp only [hs]
  exact test_valid_image

end Sys2Proof.Tests
end

section
/-! The proof of O20 (03 R52, R415, R416): what firmware's reads, starts and stops of a KERNEL_RUN change, and what they leave. -/

namespace Sys2Proof.Machine

/-! ## What a read leaves of the cores and of the ACI -/

/-- The cores and the ACI are those of `s`. -/
def State.SameCoresAci (u s : State) : Prop := u.cores = s.cores ∧ u.aci = s.aci

theorem State.SameCoresAci.refl (s : State) : s.SameCoresAci s := ⟨rfl, rfl⟩

theorem State.SameCoresAci.trans {u v s : State} (h : u.SameCoresAci v) (k : v.SameCoresAci s) : u.SameCoresAci s :=
  ⟨h.1.trans k.1, h.2.trans k.2⟩

/-- What each step of a fold keeps, the fold keeps. -/
theorem State.foldl_keeps {α β : Type} (p : State → β) {f : State → α → State} (hf : ∀ s a, p (f s a) = p s) (l : List α) :
    ∀ s : State, p (l.foldl f s) = p s := by
  induction l with
  | nil => exact fun _ => rfl
  | cons a l ih => exact fun s => (ih (f s a)).trans (hf s a)

theorem State.sameCoresAci_foldl {α : Type} (f : State → α → State) (hf : ∀ s a, (f s a).SameCoresAci s) (l : List α)
    (s : State) : (l.foldl f s).SameCoresAci s :=
  ⟨State.foldl_keeps State.cores (fun s a => (hf s a).1) l s, State.foldl_keeps State.aci (fun s a => (hf s a).2) l s⟩

theorem State.raise_sameCoresAci (s : State) (k : Nat) : (s.raise k).SameCoresAci s := ⟨by simp, by simp⟩

theorem State.bankCountFree_sameCoresAci (m n : Nat) : ∀ s : State, (s.bankCountFree m n).SameCoresAci s := by
  induction n with
  | zero => exact State.SameCoresAci.refl
  | succ n ih => exact fun s => (ih _).trans ⟨rfl, rfl⟩

theorem State.scrCorrected_sameCoresAci (s : State) : s.scrCorrected.SameCoresAci s := by
  unfold State.scrCorrected; dsimp only; split
  · exact (State.raise_sameCoresAci _ _).trans ⟨rfl, rfl⟩
  · exact ⟨rfl, rfl⟩

theorem State.checkScratch_sameCoresAci (s : State) (ws : List Nat) : (s.checkScratch ws).SameCoresAci s := by
  refine State.sameCoresAci_foldl _ (fun s w => ?_) _ s
  split
  · exact (State.raise_sameCoresAci _ _).trans ⟨rfl, rfl⟩
  · exact State.scrCorrected_sameCoresAci s

theorem State.scratchRead_sameCoresAci (s : State) (m off n : Nat) : (s.scratchRead m off n).1.SameCoresAci s :=
  (State.checkScratch_sameCoresAci _ _).trans (State.bankCountFree_sameCoresAci m _ s)

theorem State.ddrCorrected_sameCoresAci (s : State) (a : Nat) : (s.ddrCorrected a).SameCoresAci s := by
  unfold State.ddrCorrected; dsimp only; split
  · exact (State.raise_sameCoresAci _ _).trans ⟨rfl, rfl⟩
  · exact ⟨rfl, rfl⟩

theorem State.checkDdr_sameCoresAci (s : State) (ls : List Nat) : (s.checkDdr ls).SameCoresAci s := by
  refine State.sameCoresAci_foldl _ (fun s l => ?_) _ s
  dsimp only; split
  · exact (State.raise_sameCoresAci _ _).trans ⟨rfl, rfl⟩
  · exact State.ddrCorrected_sameCoresAci s _

theorem State.srExit_sameCoresAci (s : State) (n : CtrlId) (x2 : Bool) : (s.srExit n x2).SameCoresAci s := by
  unfold State.srExit State.refreshRate
  split
  · dsimp only; split
    · exact ⟨rfl, rfl⟩
    · exact (State.raise_sameCoresAci _ _).trans ⟨rfl, rfl⟩
  · exact State.SameCoresAci.refl s

theorem State.ddrWake_sameCoresAci (s : State) (off n : Nat) : (s.ddrWake off n).SameCoresAci s := by
  refine State.sameCoresAci_foldl _ (fun s k => ?_) _ s
  exact State.srExit_sameCoresAci s k _

theorem State.ddrBytes_sameCoresAci (s : State) (off : Nat) (bs : List Byte) : (s.ddrBytes off bs).1.SameCoresAci s := by
  unfold State.ddrBytes; dsimp only; split <;> exact ⟨rfl, rfl⟩

theorem State.ddrServe_sameCoresAci (s : State) (off n : Nat) : (s.ddrServe off n).1.SameCoresAci s :=
  (State.ddrBytes_sameCoresAci _ _ _).trans ((State.checkDdr_sameCoresAci _ _).trans (State.ddrWake_sameCoresAci s _ _))

theorem State.snoopFirst_sameCoresAci (s : State) (h : Held) : (s.snoopFirst h).1.SameCoresAci s := by
  unfold State.snoopFirst; split
  · exact State.SameCoresAci.refl s
  · exact ⟨rfl, rfl⟩

/-- A read of a DDR line, served or held. -/
theorem State.homeRead_sameCoresAci (s : State) (off : Nat) (w : Who) : (s.homeAccess off .read w).1.SameCoresAci s := by
  unfold State.homeAccess; dsimp only
  split
  · exact ⟨rfl, rfl⟩
  · split
    · exact State.ddrServe_sameCoresAci s _ _
    · exact State.snoopFirst_sameCoresAci s _

theorem State.popRemote_sameCoresAci (s : State) (w : Wanted) : (s.popRemote w).1.SameCoresAci s := by
  unfold State.popRemote State.leaveSlot; split
  · exact State.SameCoresAci.refl s
  · dsimp only; split <;> exact ⟨rfl, rfl⟩

theorem State.poisonReport_sameCoresAci (s : State) (l : LinkId) : (s.poisonReport l).SameCoresAci s := by
  unfold State.poisonReport; rw [State.aerUnc_frame]; exact ⟨rfl, rfl⟩

theorem State.d2hEnd_sameCoresAci (s : State) (l : LinkId) (r : Reply) : (s.d2hEnd l r).1.SameCoresAci s := by
  unfold State.d2hEnd; split
  · exact State.SameCoresAci.refl s
  · exact (State.poisonReport_sameCoresAci _ l).trans (State.raise_sameCoresAci s _)
  · exact State.raise_sameCoresAci s _

theorem State.hostAsk_sameCoresAci (s : State) (w : Wanted) (hpa : Word) (n : Nat) (ps : Option (List (Nat × List Byte)))
    (r : Reply) : (s.hostAsk w hpa n ps r).1.SameCoresAci s := by
  unfold State.hostAsk; dsimp only
  generalize (if ps.isSome then r else _) = r
  split
  · split
    · exact State.SameCoresAci.refl s
    · exact (State.d2hEnd_sameCoresAci _ _ _).trans ⟨rfl, rfl⟩
  · split
    · exact State.SameCoresAci.refl s
    · split
      · exact State.SameCoresAci.refl s
      · split
        · exact ⟨rfl, rfl⟩
        · exact (State.d2hEnd_sameCoresAci _ _ _).trans ⟨rfl, rfl⟩

/-- A read of any place. -/
theorem State.reachRead_sameCoresAci (s : State) (m : Nat) (got : Bool) (w : Wanted) (loc : Phys) (n : Nat) (r : Reply) :
    (s.reach m got w loc n none r).1.SameCoresAci s := by
  unfold State.reach; dsimp only
  generalize (if (none : Option (List (Nat × List Byte))).isSome then r else _) = r
  split
  · exact State.SameCoresAci.refl s
  · cases loc with
    | here off =>
      dsimp only
      cases s.place off with
      | scratch => exact State.scratchRead_sameCoresAci s m off n
      | ddr =>
        dsimp only; split
        · exact State.SameCoresAci.refl s
        · have h := State.homeRead_sameCoresAci s off (.want w)
          rw [lineOp]
          split <;> simp_all
      | _ => exact State.SameCoresAci.refl s
    | remote ga =>
      dsimp only; split
      · exact State.SameCoresAci.refl s
      · have h := State.popRemote_sameCoresAci s w
        split <;> simp_all
    | host hpa => exact State.hostAsk_sameCoresAci s w hpa n none r

/-! ## What firmware's read for a command leaves -/

/-- The cores are those of `s`, and the fetched commands have the same handles. -/
def State.SameCoresHandles (u s : State) : Prop :=
  u.cores = s.cores ∧ u.aci.cmds.map (·.handle) = s.aci.cmds.map (·.handle)

theorem State.SameCoresHandles.trans {u v s : State} (h : u.SameCoresHandles v) (k : v.SameCoresHandles s) :
    u.SameCoresHandles s :=
  ⟨h.1.trans k.1, h.2.trans k.2⟩

theorem State.SameCoresAci.sameCoresHandles {u s : State} (h : u.SameCoresAci s) : u.SameCoresHandles s :=
  ⟨h.1, by rw [h.2]⟩

theorem State.modCmd_handles (s : State) (h : Half) (g : Cmd → Cmd) (hg : ∀ c, (g c).handle = c.handle) :
    (s.modCmd h g).aci.cmds.map (·.handle) = s.aci.cmds.map (·.handle) := by
  simp only [State.modCmd, List.map_map]
  refine List.map_congr_left fun c _ => ?_
  simp only [Function.comp_apply]; split
  · exact hg c
  · rfl

theorem State.keepIo_sameCoresHandles (s : State) (c : Cmd) (wr : Bool) (ptr : Nat) (es : List FwIo) :
    (s.keepIo c wr ptr es).SameCoresHandles s := by
  unfold State.keepIo; split
  · exact ⟨rfl, rfl⟩
  · exact ⟨rfl, State.modCmd_handles s _ _ fun _ => rfl⟩

theorem State.endIo_sameCoresHandles (s : State) (c : Cmd) (wr : Bool) (ptr : Nat) (es : List FwIo) :
    (s.endIo c wr ptr es).1.SameCoresHandles s := by
  unfold State.endIo; split <;> exact State.keepIo_sameCoresHandles s c wr ptr _

/-- The line that a command keeps for an access goes the way of that access. -/
theorem Cmd.ioAt_wr (c : Cmd) (e : FwIo) : ((c.ioAt e.wr e.ptr e.line).getD e).wr = e.wr := by
  cases h : c.ioAt e.wr e.ptr e.line with
  | none => rfl
  | some x =>
    have hx := List.find?_some h
    simp only [Bool.and_eq_true, beq_iff_eq] at hx
    obtain ⟨⟨hwr, -⟩, -⟩ := hx
    exact hwr

/-- One line of a read. -/
theorem State.ioStep_sameCoresAci (s : State) (c : Cmd) (e : FwIo) (r : Reply) (he : e.wr = false) :
    (s.ioStep c e r).1.SameCoresAci s := by
  have hw := (c.ioAt_wr e).trans he
  unfold State.ioStep; dsimp only
  generalize (c.ioAt e.wr e.ptr e.line).getD e = e at hw
  split
  · exact State.SameCoresAci.refl s
  · simp only [hw]
    exact State.reachRead_sameCoresAci s _ _ _ _ _ r

theorem State.ioSteps_sameCoresAci (c : Cmd) (es : List (FwIo × Reply)) (he : ∀ x ∈ es, x.1.wr = false) :
    ∀ s : State, (s.ioSteps c es).1.SameCoresAci s := by
  induction es with
  | nil => exact State.SameCoresAci.refl
  | cons x es ih =>
    obtain ⟨hx, hes⟩ := List.forall_mem_cons.mp he
    exact fun s => (ih hes _).trans (State.ioStep_sameCoresAci s c x.1 x.2 hx)

theorem State.fwRead_sameCoresHandles (s : State) (c : Cmd) (k a n : Nat) (r : Reply) :
    (s.fwRead c k a n r).1.SameCoresHandles s := by
  have hread : ∀ es : List (FwIo × Reply), (∀ x ∈ es, x.1.wr = false) →
      ((s.ioSteps c es).1.endIo c false k (s.ioSteps c es).2).1.SameCoresHandles s := fun es hes =>
    (State.endIo_sameCoresHandles _ c false k _).trans (State.ioSteps_sameCoresAci c es hes s).sameCoresHandles
  exact hread _ (by simp only [List.forall_mem_map]; exact fun _ _ => rfl)

/-! ## The command of a handle -/

theorem State.cmd_handle {s : State} {h : Half} {c : Cmd} (hc : s.cmd h = some c) : c.handle = h := by
  simpa using List.find?_some hc

theorem State.cmd_isSome_iff (s : State) (h : Half) : (s.cmd h).isSome ↔ h ∈ s.aci.cmds.map (·.handle) := by
  simp [State.cmd]

theorem State.SameCoresHandles.cmd_isSome {u s : State} (hu : u.SameCoresHandles s) (h : Half) :
    (u.cmd h).isSome = (s.cmd h).isSome := by
  rw [Bool.eq_iff_iff, State.cmd_isSome_iff, State.cmd_isSome_iff, hu.2]

/-- Changing the command of a handle changes what is found under it. -/
theorem State.modCmd_cmd (s : State) (h : Half) (g : Cmd → Cmd) (hg : ∀ c, (g c).handle = c.handle) :
    (s.modCmd h g).cmd h = (s.cmd h).map g := by
  have key : (fun x : Cmd => decide (x.handle = h)) ∘ (fun c => if c.handle = h then g c else c) =
      fun x => decide (x.handle = h) := by
    funext c; simp only [Function.comp_apply]; split <;> simp_all
  simp only [State.cmd, State.modCmd, List.find?_map, key]
  cases hf : s.aci.cmds.find? (fun x => decide (x.handle = h)) with
  | none => rfl
  | some c => simp [State.cmd_handle (s := s) hf]

/-- A command that the statements call running is the one that firmware works on. -/
theorem State.running_of_runs {s : State} {h : Half} {op : Nat} {c : Cmd} (hr : Claims.runs s h op c) :
    s.running h op = some c := by
  obtain ⟨⟨hfw, hclk, hready, hreset, hfatal⟩, hc, hphase, hop⟩ := hr
  simp [State.running, State.serving, State.firmware, hfw, hclk, hready, hreset, hfatal, hc, hphase, hop]

theorem State.cmd_of_running {s : State} {h : Half} {op : Nat} {c : Cmd} (hr : s.running h op = some c) :
    s.cmd h = some c := by
  unfold State.running at hr
  cases hc : s.cmd h with
  | none => simp [hc] at hr
  | some x =>
    simp only [hc, Option.ite_none_right_eq_some, Option.some.injEq] at hr
    obtain ⟨-, -, rfl⟩ := hr
    rfl

/-! ## One sequencer and the chain beside it -/

/-- Core `n` and the chain beside it. -/
def State.seqUnit (s : State) (n : CoreId) : Core × Option Chain := (s.cores[n], (chainOf n).map fun k => s.chains[k])

theorem State.seqUnit_core {u s : State} {n : CoreId} (h : u.seqUnit n = s.seqUnit n) : u.cores[n] = s.cores[n] :=
  congrArg Prod.fst h

theorem State.seqUnit_chain {u s : State} {n : CoreId} (h : u.seqUnit n = s.seqUnit n) {k : ChainId}
    (hk : chainOf n = some k) : u.chains[k] = s.chains[k] := by
  simpa [State.seqUnit, hk] using congrArg Prod.snd h

theorem chainOf_inj {m n : CoreId} {k : ChainId} (hm : chainOf m = some k) (hn : chainOf n = some k) : m = n := by
  simp only [chainOf, fin?, Option.dite_none_right_eq_some, Option.some.injEq] at hm hn
  obtain ⟨_, rfl⟩ := hm
  obtain ⟨_, h⟩ := hn
  exact Fin.ext (Fin.mk.inj h).symm

theorem State.modCore_seqUnit_other (s : State) {n m : CoreId} (g : Core → Core) (h : m ≠ n) :
    (s.modCore n g).seqUnit m = s.seqUnit m := by
  simp only [State.seqUnit, State.modCore_other s n m g h, State.modCore_chains]

theorem State.modChain_seqUnit_other (s : State) {n m : CoreId} {k : ChainId} (hk : chainOf n = some k) (g : Chain → Chain)
    (h : m ≠ n) : (s.modChain k g).seqUnit m = s.seqUnit m := by
  simp only [State.seqUnit, State.modChain_cores]
  cases hm : chainOf m with
  | none => rfl
  | some x =>
    have : x ≠ k := fun e => h (chainOf_inj hm (e ▸ hk))
    simp only [Option.map_some, State.modChain_other s k x g this]

/-- A fold of steps, each of which leaves every other sequencer alone, leaves alone those that it does not name. -/
theorem State.seqUnit_foldl_other (f : State → CoreId → State) (hf : ∀ s n m, m ≠ n → (f s n).seqUnit m = s.seqUnit m)
    {m : CoreId} (l : List CoreId) : ∀ s : State, m ∉ l → (l.foldl f s).seqUnit m = s.seqUnit m := by
  induction l with
  | nil => exact fun _ _ => rfl
  | cons n l ih =>
    intro s hm
    obtain ⟨hn, hl⟩ := not_or.mp (List.mem_cons.not.mp hm)
    exact (ih (f s n) hl).trans (hf s n m hn)

/-- A sequencer that such a fold names once is as its own step leaves it, from the unit it had before the fold. -/
theorem State.seqUnit_foldl_mem (f : State → CoreId → State) (hf : ∀ s n m, m ≠ n → (f s n).seqUnit m = s.seqUnit m)
    {n : CoreId} {l : List CoreId} (hl : l.Nodup) (hn : n ∈ l) (s : State) :
    ∃ v, v.seqUnit n = s.seqUnit n ∧ (l.foldl f s).seqUnit n = (f v n).seqUnit n := by
  obtain ⟨before, after, rfl⟩ := List.append_of_mem hn
  obtain ⟨-, hafter, hdisj⟩ := List.nodup_append.mp hl
  refine ⟨before.foldl f s, State.seqUnit_foldl_other f hf before s fun h => hdisj n h n (by simp) rfl, ?_⟩
  rw [List.foldl_append, List.foldl_cons]
  exact State.seqUnit_foldl_other f hf after _ (List.nodup_cons.mp hafter).1

theorem Cmd.mem_cores {c : Cmd} {n : CoreId} : n ∈ c.cores ↔ (c.at 32 4).testBit n.val = true := by
  simp [Cmd.cores]

theorem Cmd.cores_nodup (c : Cmd) : c.cores.Nodup := (List.nodup_finRange 36).filter _

/-! ## Firmware stops a sequencer -/

/-- At a boundary at most CORE_CFG comes into force. -/
theorem Core.boundary_frame (c : Core) : c.boundary = { c with
    mode := c.boundary.mode, cfgDue := c.boundary.cfgDue, icache := c.boundary.icache, dcache := c.boundary.dcache } := by
  unfold Core.boundary; split
  · split <;> rfl
  · rfl

theorem Core.settle_ctl (c : Core) : c.settle.ctl = c.ctl := by
  unfold Core.settle; split <;> rfl

/-- Clearing RUN changes the core alone, and RUN is 0 then. -/
theorem State.clearRun_eq_modCore (s : State) (n : CoreId) :
    ∃ g : Core → Core, (∀ c, (g c).ctl.getLsbD 0 = false) ∧ s.clearRun n = s.modCore n g := by
  have hv : (s.cores[n].ctl &&& ~~~(1 : Half)).getLsbD 0 = false := by simp
  have h3 : (s.cores[n].ctl &&& ~~~(1 : Half) &&& 3).getLsbD 0 = false := by simp
  simp only [State.clearRun, State.coreCtl, hv, Bool.and_false, Bool.false_eq_true, if_false]
  split
  · refine ⟨_, fun c => ?_, State.modCore_modCore s n _ _⟩
    rw [Core.settle_ctl, Core.giveUpBundles, Core.boundary_frame]
    exact h3
  · exact ⟨_, fun c => h3, rfl⟩

/-- One sequencer is to be free. -/
def State.freeOne (s : State) (n : CoreId) : State := if s.cores[n].stat = 0 then s else s.clearRun n

theorem State.freeCores_eq_foldl (s : State) (ns : List CoreId) : s.freeCores ns = ns.foldl State.freeOne s := rfl

theorem State.freeOne_eq_modCore (s : State) (n : CoreId) : ∃ g, s.freeOne n = s.modCore n g := by
  unfold State.freeOne; split
  · exact ⟨_, (s.modCore_id n).symm⟩
  · obtain ⟨g, -, hg⟩ := s.clearRun_eq_modCore n
    exact ⟨g, hg⟩

/-- Freeing sequencers leaves the ACI and memory alone. -/
theorem State.freeCores_keeps (s : State) (ns : List CoreId) :
    (s.freeCores ns).aci = s.aci ∧ (s.freeCores ns).mem = s.mem := by
  have h := State.foldl_keeps (fun u => (u.aci, u.mem)) (f := State.freeOne)
    (fun s n => by obtain ⟨g, hg⟩ := s.freeOne_eq_modCore n; rw [hg]; rfl) ns s
  simpa only [Prod.mk.injEq, State.freeCores_eq_foldl] using h

theorem State.freeOne_seqUnit_other (s : State) (n m : CoreId) (h : m ≠ n) : (s.freeOne n).seqUnit m = s.seqUnit m := by
  obtain ⟨g, hg⟩ := s.freeOne_eq_modCore n
  rw [hg, State.modCore_seqUnit_other s g h]

/-- A sequencer that firmware frees and that has not stopped has RUN cleared. -/
theorem State.freeCores_clears {s : State} {ns : List CoreId} {n : CoreId} (hns : ns.Nodup) (hn : n ∈ ns)
    (hstat : s.cores[n].stat ≠ 0) : (s.freeCores ns).cores[n].ctl.getLsbD 0 = false := by
  obtain ⟨v, hv, hu⟩ := State.seqUnit_foldl_mem _ State.freeOne_seqUnit_other hns hn s
  have hvn : v.cores[n] = s.cores[n] := State.seqUnit_core hv
  obtain ⟨g, hctl, hg⟩ := v.clearRun_eq_modCore n
  have hone : v.freeOne n = v.modCore n g := by rw [State.freeOne, if_neg (hvn ▸ hstat), hg]
  rw [State.freeCores_eq_foldl, State.seqUnit_core hu, hone, State.modCore_same]
  exact hctl _

theorem State.freeCores_other (s : State) {ns : List CoreId} {m : CoreId} (hm : m ∉ ns) :
    (s.freeCores ns).cores[m] = s.cores[m] :=
  State.seqUnit_core (State.seqUnit_foldl_other _ State.freeOne_seqUnit_other ns s hm)

/-! ## Firmware starts a sequencer -/

/-- A core whose RUN goes from 0 to 1, once its cycle count has gone on (`State.coreStart`). -/
def Core.started (c : Core) : Core :=
  { c.boundary.giveUpBundle 0 with stat := 1 }.modThread 0 fun h => { h with
    pc := c.entry
    status := (h.status &&& ~~~(2 : Word)) ||| (if c.ctl.getLsbD 1 then 2 else 0)
    buf := none
    live := true }

theorem State.coreStart_cores (s : State) (n : CoreId) :
    (s.coreStart n).cores = (s.modCore n fun c => (c.cycles (Config.freeNat s.free)).started).cores := by
  rw [← State.modCore_modCore]
  rfl

/-- What a start gives a core and its thread 0, and what of them it leaves alone. -/
theorem Core.started_spec (c : Core) :
    c.started.ctl = c.ctl ∧ c.started.stat = 1 ∧ c.started.x = c.x ∧ c.started.s = c.s ∧ c.started.dmem = c.dmem ∧
      c.started.imem = c.imem ∧ c.started.threads[(0 : ThreadId)].pc = c.entry ∧
      c.started.threads[(0 : ThreadId)].a = c.threads[(0 : ThreadId)].a ∧
      c.started.threads[(0 : ThreadId)].d = c.threads[(0 : ThreadId)].d ∧
      c.started.threads[(0 : ThreadId)].levelK = c.ctl.getLsbD 1 ∧ c.started.threads[(0 : ThreadId)].live = true := by
  unfold Core.started Core.giveUpBundle
  rw [Core.boundary_frame, Core.modThread_same]
  refine ⟨rfl, rfl, rfl, rfl, rfl, rfl, rfl, ?_, ?_, ?_, rfl⟩
  · rw [Core.modThread_same]; rfl
  · rw [Core.modThread_same]; rfl
  · rw [Thread.levelK]
    cases c.ctl.getLsbD 1 <;> simp

/-- A write of CORE_CTL that sets RUN and LEVEL of a stopped core starts it. -/
theorem State.coreCtl_start {s : State} {n : CoreId} (h : s.cores[n].ctl.getLsbD 0 = false) :
    s.coreCtl n 3 = (s.modCore n fun c => { c with ctl := 3 }).coreStart n := by
  simp only [State.coreCtl, h]
  rfl

theorem State.tlbInval_frame (s : State) (n : CoreId) (i : Inval) :
    s.tlbInval n i = { s with cores := (s.tlbInval n i).cores, chains := (s.tlbInval n i).chains } := by
  unfold State.tlbInval
  cases chainOf n with
  | none => rfl
  | some k => dsimp only; split <;> rfl

theorem State.tlbInval_core (s : State) (n : CoreId) (i : Inval) :
    ∃ q, (s.tlbInval n i).cores[n] = { s.cores[n].invalidate i with invals := q } := by
  unfold State.tlbInval
  cases chainOf n with
  | none => exact ⟨_, State.modCore_same s n _⟩
  | some k =>
    dsimp only; split
    · exact ⟨_, by simp only [State.modCore_same, State.modChain_cores]; rfl⟩
    · exact ⟨_, by simp only [State.modCore_same, State.modChain_cores]; rfl⟩

theorem State.tlbInval_chain (s : State) {n : CoreId} {k : ChainId} (hk : chainOf n = some k) (i : Inval) :
    (s.tlbInval n i).chains[k] = s.chains[k].dropMaps := by
  simp only [State.tlbInval, hk]
  split <;> simp only [State.modCore_chains, State.modChain_same]

theorem State.tlbInval_seqUnit_other (s : State) {n m : CoreId} (i : Inval) (h : m ≠ n) :
    (s.tlbInval n i).seqUnit m = s.seqUnit m := by
  unfold State.tlbInval
  cases hk : chainOf n with
  | none => exact State.modCore_seqUnit_other s _ h
  | some k =>
    dsimp only; split
    · rw [State.modCore_seqUnit_other _ _ h, State.modChain_seqUnit_other _ hk _ h, State.modCore_seqUnit_other _ _ h]
    · rw [State.modChain_seqUnit_other _ hk _ h, State.modCore_seqUnit_other _ _ h]

/-- A core with a kernel in its memories, and only thread 0 live. -/
def Core.loaded (k : Core) (entry : Nat) (image args : List Byte) : Core :=
  { k.forKernel entry image args with threads := (k.forKernel entry image args).threads.mapIdx fun i h =>
      if i = 0 then h else { h with live := false } }

/-- The chain beside core `n`, if there is one, as a kernel finds it. -/
def State.freshChain (s : State) (n : CoreId) : State :=
  match chainOf n with
  | some k => s.modChain k Chain.forKernel
  | none => s

theorem State.startKernel_eq (s : State) (c : Cmd) (im ar : List Byte) (n : CoreId) :
    s.startKernel c im ar n =
      (((s.modCore n fun k => k.loaded (c.at 28 4) im ar).freshChain n).tlbInval n .user).coreCtl n 3 := rfl

theorem State.freshChain_frame (s : State) (n : CoreId) :
    s.freshChain n = { s with chains := (s.freshChain n).chains } := by
  unfold State.freshChain; split <;> rfl

theorem State.freshChain_seqUnit_other (s : State) {n m : CoreId} (h : m ≠ n) :
    (s.freshChain n).seqUnit m = s.seqUnit m := by
  unfold State.freshChain; split
  · exact State.modChain_seqUnit_other s ‹_› _ h
  · rfl

theorem State.coreStart_seqUnit_other (s : State) {n m : CoreId} (h : m ≠ n) :
    (s.coreStart n).seqUnit m = s.seqUnit m := by
  have hc : (s.coreStart n).seqUnit m = (s.modCore n fun c => (c.cycles (Config.freeNat s.free)).started).seqUnit m := by
    simp only [State.seqUnit, State.coreStart_cores]; rfl
  rw [hc, State.modCore_seqUnit_other _ _ h]

theorem State.coreStop_seqUnit_other (s : State) {n m : CoreId} (h : m ≠ n) :
    (s.coreStop n).seqUnit m = s.seqUnit m := State.modCore_seqUnit_other s _ h

theorem State.coreCtl_seqUnit_other (s : State) {n m : CoreId} (v : Half) (h : m ≠ n) :
    (s.coreCtl n v).seqUnit m = s.seqUnit m := by
  unfold State.coreCtl; dsimp only; split
  · rw [State.coreStart_seqUnit_other _ h, State.modCore_seqUnit_other _ _ h]
  · split
    · rw [State.coreStop_seqUnit_other _ h, State.modCore_seqUnit_other _ _ h]
    · exact State.modCore_seqUnit_other s _ h

/-- The start of a sequencer leaves every other one, and its chain, alone. -/
theorem State.startKernel_seqUnit_other (s : State) (c : Cmd) (im ar : List Byte) {n m : CoreId} (h : m ≠ n) :
    (s.startKernel c im ar n).seqUnit m = s.seqUnit m := by
  rw [State.startKernel_eq, State.coreCtl_seqUnit_other _ _ h, State.tlbInval_seqUnit_other _ _ h,
    State.freshChain_seqUnit_other _ h, State.modCore_seqUnit_other _ _ h]

theorem State.coreCtl_frame (s : State) (n : CoreId) (v : Half) : s.coreCtl n v = { s with
    cores := (s.coreCtl n v).cores, evt := (s.coreCtl n v).evt, free := (s.coreCtl n v).free } := by
  unfold State.coreCtl; dsimp only; split
  · rfl
  · split <;> rfl

/-- What the start of a sequencer can change of the device. -/
theorem State.startKernel_frame (s : State) (c : Cmd) (im ar : List Byte) (n : CoreId) : s.startKernel c im ar n = { s with
    cores := (s.startKernel c im ar n).cores, chains := (s.startKernel c im ar n).chains
    evt := (s.startKernel c im ar n).evt, free := (s.startKernel c im ar n).free } := by
  rw [State.startKernel_eq, State.coreCtl_frame, State.tlbInval_frame, State.freshChain_frame]
  rfl

/-- The core of a sequencer that a KERNEL_RUN starts: what was loaded, with RUN and LEVEL set, started. -/
theorem State.startKernel_core {s : State} {n : CoreId} (hrun : s.cores[n].ctl.getLsbD 0 = false) (c : Cmd)
    (im ar : List Byte) : ∃ q f, (s.startKernel c im ar n).cores[n] =
      (Core.cycles { (s.cores[n].loaded (c.at 28 4) im ar).invalidate .user with invals := q, ctl := 3 } f).started := by
  rw [State.startKernel_eq]
  generalize hv : (s.modCore n fun k => k.loaded (c.at 28 4) im ar).freshChain n = v
  have hcore : v.cores[n] = s.cores[n].loaded (c.at 28 4) im ar := by
    rw [← hv, State.freshChain_frame]
    exact State.modCore_same s n fun k => k.loaded (c.at 28 4) im ar
  obtain ⟨q, hq⟩ := v.tlbInval_core n .user
  rw [State.coreCtl_start (by rw [hq, hcore]; exact hrun)]
  refine ⟨q, Config.freeNat (v.tlbInval n .user).free, ?_⟩
  rw [State.coreStart_cores, State.modCore_same, State.modCore_same, hq, hcore]
  rfl

/-- The chain of a sequencer that a KERNEL_RUN starts. -/
theorem State.startKernel_chain {s : State} {n : CoreId} {k : ChainId} (hk : chainOf n = some k) (c : Cmd)
    (im ar : List Byte) : (s.startKernel c im ar n).chains[k] = s.chains[k].forKernel.dropMaps := by
  have hctl : ∀ v : State, (v.coreCtl n 3).chains = v.chains := fun v => by rw [State.coreCtl_frame]
  simp only [State.startKernel_eq, hctl, State.tlbInval_chain _ hk, State.freshChain, hk, State.modChain_same,
    State.modCore_chains]

/-- Thread 0 of a core that is loaded. -/
theorem Core.loaded_thread (k : Core) (entry : Nat) (im ar : List Byte) :
    (k.loaded entry im ar).threads[(0 : ThreadId)].a = (Vector.replicate 16 (0 : Word)).set 15 0x40000 ∧
      (k.loaded entry im ar).threads[(0 : ThreadId)].d = Vector.replicate 32 0 := by
  constructor <;> simp [Core.loaded, Core.forKernel, Core.modThread]

/-- A core as KERNEL_RUN starts it (03 R415): at the entry at level K, with its memories and registers as a kernel finds them. -/
structure Core.KernelStart (k : Core) (entry : Nat) (imem dmem : Mem) : Prop where
  pc : k.threads[(0 : ThreadId)].pc = BitVec.ofNat 64 (2 * entry)
  a : k.threads[(0 : ThreadId)].a = (Vector.replicate 16 (0 : Word)).set 15 0x40000
  d : k.threads[(0 : ThreadId)].d = Vector.replicate 32 0
  levelK : k.threads[(0 : ThreadId)].levelK = true
  live : k.threads[(0 : ThreadId)].live = true
  run : k.ctl.getLsbD 0 = true
  stat : k.stat = 1
  x : k.x = Vector.replicate 8 0
  s : k.s = Vector.replicate 8 0
  dmem : k.dmem = dmem
  imem : k.imem = imem

/-- A loaded core whose RUN and LEVEL are set is started as KERNEL_RUN starts it, whatever its TLBs and its cycle count. -/
theorem Core.loaded_kernelStart (k : Core) (entry f : Nat) (im ar : List Byte) (q : List Inval) :
    (Core.cycles { (k.loaded entry im ar).invalidate .user with invals := q, ctl := 3 } f).started.KernelStart entry
      (writeCells k.imem 0 im) (writeCells [] 0 ar) := by
  obtain ⟨hla, hld⟩ := k.loaded_thread entry im ar
  obtain ⟨hctl, hstat, hx, hs, hdmem, himem, hpc, ha, hd, hlevel, hlive⟩ := Core.started_spec
    (Core.cycles { (k.loaded entry im ar).invalidate .user with invals := q, ctl := 3 } f)
  exact {
    pc := hpc, a := ha.trans hla, d := hd.trans hld, levelK := hlevel.trans (by simp [Core.cycles]), live := hlive
    run := (congrArg (·.getLsbD 0) hctl).trans (by simp [Core.cycles])
    stat := hstat, x := hx, s := hs, dmem := hdmem, imem := himem }

/-! ## Firmware starts the sequencers of a KERNEL_RUN -/

/-- The sequencers of a KERNEL_RUN are started one after another. -/
def State.startKernels (s : State) (c : Cmd) (im ar : List Byte) : State :=
  c.cores.foldl (fun s n => s.startKernel c im ar n) s

theorem State.startKernels_keeps (s : State) (c : Cmd) (im ar : List Byte) :
    (s.startKernels c im ar).mem = s.mem ∧ (s.startKernels c im ar).out = s.out ∧
      (s.startKernels c im ar).aci = s.aci ∧ (s.startKernels c im ar).xl = s.xl := by
  have h := State.foldl_keeps (fun u => (u.mem, u.out, u.aci, u.xl)) (f := fun s n => s.startKernel c im ar n)
    (fun s n => by rw [State.startKernel_frame]) c.cores s
  simpa only [Prod.mk.injEq, State.startKernels] using h

theorem State.startKernels_other (s : State) {c : Cmd} {n : CoreId} (hn : n ∉ c.cores) (im ar : List Byte) :
    (s.startKernels c im ar).seqUnit n = s.seqUnit n :=
  State.seqUnit_foldl_other _ (fun s _ _ => State.startKernel_seqUnit_other s c im ar) c.cores s hn

/-- Each sequencer that the command names is started, and its chain is as a kernel finds it. -/
theorem State.startKernels_mem {s : State} {c : Cmd} {n : CoreId} (hn : n ∈ c.cores)
    (hrun : s.cores[n].ctl.getLsbD 0 = false) (im ar : List Byte) :
    (s.startKernels c im ar).cores[n].KernelStart (c.at 28 4) (writeCells s.cores[n].imem 0 im) (writeCells [] 0 ar) ∧
      ∀ k, chainOf n = some k → (s.startKernels c im ar).chains[k] = s.chains[k].forKernel.dropMaps := by
  obtain ⟨v, hv, hu⟩ := State.seqUnit_foldl_mem _ (fun s _ _ => State.startKernel_seqUnit_other s c im ar) c.cores_nodup hn s
  have hvn : v.cores[n] = s.cores[n] := State.seqUnit_core hv
  obtain ⟨q, f, hcore⟩ := State.startKernel_core (s := v) (hvn ▸ hrun) c im ar
  constructor
  · rw [State.startKernels, State.seqUnit_core hu, hcore, hvn]
    exact Core.loaded_kernelStart _ _ _ _ _ _
  · intro k hk
    rw [State.startKernels, State.seqUnit_chain hu hk, State.startKernel_chain hk, State.seqUnit_chain hv hk]

theorem State.defaultMap_congr {u s : State} (hxl : u.xl = s.xl) (hmem : u.mem = s.mem) : u.defaultMap = s.defaultMap := by
  have hid : u.nodeId = s.nodeId := by rw [State.nodeId, hxl, State.nodeId]
  have hother : u.otherNodes = s.otherNodes := by unfold State.otherNodes; rw [hxl, hid]
  simp only [State.defaultMap, hid, hother, hmem]

/-- KERNEL_RUN, once its sequencers are free and its image and its arguments have been read. -/
theorem execKernelRun_starts {h : Half} {c : Cmd} {image args : Reply} {im ar : List Byte} {s s1 s2 : State}
    (hrun : s.running h 0x10 = some c) (hstarted : c.started = false) (hcancel : c.cancelled = false)
    (hgate : s.anyGated c.cores = false) (hfree : ∀ n ∈ c.cores, s.cores[n].stat = 0)
    (him : s.fwRead c 0 (c.at 16 8) (c.at 24 4) image = (s1, .done im))
    (har : s1.fwRead c 1 (c.at 40 8) (c.at 36 4) args = (s2, .done ar)) :
    exec (.kernelRun h image args) s = .next ((s2.startKernels c im ar).modCmd h fun k =>
      { k with started := true, table := (s2.startKernels c im ar).defaultMap }) := by
  have hstat : (c.cores.any fun n => decide (s.cores[n].stat ≠ 0)) = false := by simpa using hfree
  change execKernelRun h image args s = _
  simp only [execKernelRun, hrun, hstarted, hgate, hcancel, hstat, him, har]
  rfl

/-- KERNEL_RUN, while one of its sequencers is not in STATE 0. -/
theorem execKernelRun_frees {h : Half} {c : Cmd} {image args : Reply} {s : State} {n : CoreId}
    (hrun : s.running h 0x10 = some c) (hstarted : c.started = false) (hcancel : c.cancelled = false)
    (hgate : s.anyGated c.cores = false) (hn : n ∈ c.cores) (hbusy : s.cores[n].stat ≠ 0) :
    exec (.kernelRun h image args) s = .next (s.freeCores c.cores) := by
  have hstat : (c.cores.any fun n => decide (s.cores[n].stat ≠ 0)) = true :=
    List.any_eq_true.mpr ⟨n, hn, decide_eq_true hbusy⟩
  change execKernelRun h image args s = _
  simp only [execKernelRun, hrun, hstarted, hgate, hcancel, hstat]
  rfl

/-! ## Firmware finds a kernel ended -/

theorem firstM_eq_none {α : Type} {l : List (Option α)} (h : l.firstM id = none) : ∀ x ∈ l, x = none := by
  induction l with
  | nil => simp
  | cons x l ih =>
    cases x with
    | none => exact List.forall_mem_cons.mpr ⟨rfl, ih h⟩
    | some a => cases h

theorem foldl_eq_self {α β : Type} {f : β → α → β} {b : β} {l : List α} (h : ∀ a ∈ l, f b a = b) : l.foldl f b = b := by
  induction l with
  | nil => rfl
  | cons a l ih =>
    obtain ⟨ha, hl⟩ := List.forall_mem_cons.mp h
    rw [List.foldl_cons, ha, ih hl]

/-- A chain that nobody answers reports KERNEL_FAULT or ACCESS_FAULT. -/
theorem Chain.unanswered_status {h : Chain} {x : BitVec 16 × Half} (hx : h.unanswered = some x) :
    x.1 = stKernel ∨ x.1 = stAccess := by
  unfold Chain.unanswered at hx
  dsimp only at hx
  cases hexc : h.exc with
  | true =>
    rw [hexc, if_pos rfl, Option.some.injEq] at hx
    exact .inl (hx ▸ rfl)
  | false =>
    rw [hexc, if_neg Bool.false_ne_true, Option.ite_none_right_eq_some, Option.some.injEq] at hx
    obtain ⟨-, rfl⟩ := hx
    exact .inr rfl

theorem State.ofChain_unanswered_status {s : State} {n : CoreId} {x : BitVec 16 × Half}
    (hx : s.ofChain n none (fun h => h.unanswered) = some x) : x.1 = stKernel ∨ x.1 = stAccess := by
  unfold State.ofChain at hx; split at hx
  · exact Chain.unanswered_status hx
  · cases hx

/-- A sequencer that has ended and reports nothing has no chain that waits for an answer. -/
theorem State.answered_of_seqFailure {s : State} {c : Cmd} {n : CoreId} (hend : (c.endOf n).isSome)
    (hf : s.seqFailure c n = none) : s.ofChain n none (fun h => h.unanswered) = none := by
  have hrows := firstM_eq_none hf
  simp only [hend, if_true, List.forall_mem_cons] at hrows
  obtain ⟨-, -, -, -, haccess, -, -, hkernel, -⟩ := hrows
  cases hx : s.ofChain n none (fun h => h.unanswered) with
  | none => rfl
  | some x =>
    rw [hx] at haccess hkernel
    rcases State.ofChain_unanswered_status hx with h | h
    · simp [h] at hkernel
    · simp [h] at haccess

/-- A sequencer that firmware knows to have ended is not looked at again. -/
theorem State.noteEnd_ended {s : State} {h : Half} {c : Cmd} (hc : s.cmd h = some c) {n : CoreId}
    (hend : (c.endOf n).isSome) : s.noteEnd h n = s := by
  simp only [State.noteEnd, hc, hend, if_true]

/-- The chain of a sequencer that has ended by trap 0 and reports nothing is left to itself. -/
theorem State.restOne_normal {s : State} {c : Cmd} {n : CoreId} (hend : c.endOf n = some .normal)
    (hf : s.seqFailure c n = none) : s.restOne c n = s := by
  have hanswered := State.answered_of_seqFailure (by rw [hend]; rfl) hf
  rw [State.ofChain] at hanswered
  simp only [State.restOne, hend, decide_true, Bool.true_or, if_true]
  cases hk : chainOf n with
  | none => rfl
  | some k =>
    simp only [hk] at hanswered
    simp only [hanswered, Option.isNone_none, if_true]

section
variable {s : State} {h : Half} {c : Cmd}

/-- Firmware finds nothing to do in a kernel whose sequencers have all ended by trap 0 with nothing failed. -/
theorem State.watchKernel_normal (hc : s.cmd h = some c) (hfail : c.failure = none)
    (hall : ∀ n ∈ c.cores, c.endOf n = some .normal ∧ s.seqFailure c n = none) : s.watchKernel h = s := by
  have hends : s.noteEnds c = s := foldl_eq_self fun n hn => by
    rw [State.cmd_handle hc]
    exact State.noteEnd_ended hc (by rw [(hall n hn).1]; rfl)
  have hfails : s.noteFailure c = s := by
    have : c.cores.filterMap (s.seqFailure c) = [] := List.filterMap_eq_nil_iff.mpr fun n hn => (hall n hn).2
    simp only [State.noteFailure, hfail, this]
  have hrest : s.restChains c = s := foldl_eq_self fun n hn => State.restOne_normal (hall n hn).1 (hall n hn).2
  simp [State.watchKernel, hc, hends, hfails, hfail, hrest]

/-- KERNEL_RUN_COMPLETE of such a kernel, once its chains are at rest. -/
theorem execKernelRunComplete_normal (hrun : s.running h 0x10 = some c) (hstarted : c.started = true)
    (hcancel : c.cancelled = false) (hfail : c.failure = none)
    (hall : ∀ n ∈ c.cores, c.endOf n = some .normal ∧ s.seqFailure c n = none ∧ s.chainAtRest n = true) :
    exec (.kernelRunComplete h) s =
      (let v := c.cores.foldl (fun s n => s.clearRun n) s
      if v.coresAtRest c.cores then .next (Claims.ended v h 0 0 (s.mscSum c.cores) c.kernelResult) else .next v) := by
  have hc := State.cmd_of_running hrun
  have hwatch := State.watchKernel_normal hc hfail fun n hn => ⟨(hall n hn).1, (hall n hn).2.1⟩
  have hrest : (c.cores.all fun n => (c.endOf n).isSome && s.chainAtRest n) = true :=
    List.all_eq_true.mpr fun n hn => by rw [(hall n hn).1, (hall n hn).2.2]; rfl
  change execKernelRunComplete h s = _
  simp only [execKernelRunComplete, hrun, hstarted, hwatch, hc, hrest, hcancel, hfail]
  cases State.coresAtRest _ c.cores <;> rfl

end

/-! ## The statement -/

theorem State.anyGated_eq_false {s : State} {ns : List CoreId} (h : ∀ n ∈ ns, s.pwr.gated.getLsbD n.val = false) :
    s.anyGated ns = false := by
  simpa [State.anyGated] using h

theorem Cmd.not_mem_cores {c : Cmd} {n : CoreId} (h : (c.at 32 4).testBit n.val = false) : n ∉ c.cores := by
  simp [Cmd.mem_cores, h]

end Sys2Proof.Machine

namespace Sys2Proof.Proofs

open Sys2Proof.Machine

/-- Settles O20: a read for a command leaves the cores as they are, firmware's starts and stops act on each named sequencer and
its chain alone, and a kernel that has ended by trap 0 leaves firmware nothing to note. -/
theorem kernelsRunAndComplete : Obligations.KernelsRunAndComplete := by
  unfold Obligations.KernelsRunAndComplete
  refine ⟨?_, ?_, ?_⟩
  case refine_1 =>
    intro h c image args im ar s1 s2 s hruns hstarted hcancel hfree him har
    have hrun := State.running_of_runs hruns
    have hexec := execKernelRun_starts hrun hstarted hcancel (State.anyGated_eq_false fun n hn => (hfree n hn).1)
      (fun n hn => (hfree n hn).2.1) him har
    have hread : s2.SameCoresHandles s := State.SameCoresHandles.trans
      (by simpa only [har] using s1.fwRead_sameCoresHandles c 1 (c.at 40 8) (c.at 36 4) args)
      (by simpa only [him] using s.fwRead_sameCoresHandles c 0 (c.at 16 8) (c.at 24 4) image)
    obtain ⟨hmem, hout, haci, hxl⟩ := s2.startKernels_keeps c im ar
    refine ⟨_, hexec, hmem, hout, ?_, fun n hn => ?_, fun n hn => ?_⟩
    · obtain ⟨c', hc'⟩ := Option.isSome_iff_exists.mp
        ((hread.cmd_isSome h).trans (by rw [State.cmd_of_running hrun]; rfl))
      have hsame : (s2.startKernels c im ar).cmd h = some c' := by rw [State.cmd, haci]; exact hc'
      exact ⟨_, (State.modCmd_cmd _ h _ (by exact fun _ => rfl)).trans (congrArg _ hsame), rfl,
        State.defaultMap_congr hxl hmem⟩
    · have hunit := s2.startKernels_other (Cmd.not_mem_cores hn) im ar
      exact ⟨State.seqUnit_core hunit, fun k hk => State.seqUnit_chain hunit hk⟩
    · have hcores : n ∈ c.cores := Cmd.mem_cores.mpr hn
      obtain ⟨hcore, hchain⟩ := State.startKernels_mem hcores (by rw [hread.1]; exact (hfree n hcores).2.2) im ar
      refine ⟨hcore.pc, hcore.a, hcore.d, hcore.levelK, hcore.live, hcore.run, hcore.stat, hcore.x, hcore.s, hcore.dmem,
        hcore.imem, fun k hk => ?_⟩
      rw [State.modCmd_chains, hchain k hk]
      exact ⟨rfl, rfl, rfl, rfl, rfl⟩
  case refine_2 =>
    intro h c image args n s hruns hstarted hcancel hgate hn hbusy
    obtain ⟨haci, hmem⟩ := s.freeCores_keeps c.cores
    exact ⟨_, execKernelRun_frees (State.running_of_runs hruns) hstarted hcancel (State.anyGated_eq_false hgate) hn hbusy,
      haci, hmem, State.freeCores_clears c.cores_nodup hn hbusy, fun m hm => s.freeCores_other (Cmd.not_mem_cores hm)⟩
  case refine_3 =>
    intro h c s hruns hstarted hcancel hfail hall
    have hexec := execKernelRunComplete_normal (State.running_of_runs hruns) hstarted hcancel hfail hall
    exact ⟨fun hrest => by rw [hexec, if_pos hrest]; rfl, fun hbusy => by simp only [hexec, hbusy]; rfl⟩

end Sys2Proof.Proofs
end

section
/-! The proofs of O33 and O34 (02 R18, R21; 13 R263, R273): DDR and scratch contents keep their canonical form. Of an operation
that stores nothing the lemma `…_mem` says that memory stays; of one that may store, `…_wf` says that it keeps the canonical
form, and of the meaning of a command `…_canonical` says so of its outcome. -/

namespace Sys2Proof.Machine

/-! ## Keeping the canonical form -/

/-- Every state that the outcome goes on with has memory in canonical form. -/
def Outcome.Canonical : Outcome → Prop
  | .next u => u.mem.wf = true
  | _ => True

@[simp] theorem Outcome.canonical_next (u : State) : Outcome.Canonical (.next u) ↔ u.mem.wf = true := Iff.rfl

@[simp] theorem Outcome.canonical_fault (r : Fault) : Outcome.Canonical (.fault r) := trivial

@[simp] theorem Outcome.canonical_refused (r : Refusal) : Outcome.Canonical (.refused r) := trivial

theorem State.wf_of_mem {u s : State} (hu : u.mem = s.mem) (h : s.mem.wf = true) : u.mem.wf = true := hu ▸ h

/-- The state beside an answer, for a meaning whose result has been taken apart. -/
theorem State.mem_of_eq {α : Type} {p : State × α} {u : State} {x : α} (hp : p = (u, x)) : u.mem = p.1.mem := by rw [hp]

/-- The marks, the capacity and DDR_INIT have no part in the canonical form. -/
@[simp] theorem Memory.wf_mk (m : Memory) (soft back : List Nat) (d dNext : Nat) (dimm : Option (Dimm × Bool)) (init : Half) :
    (Memory.mk m.cells m.badScratch m.badDdr soft back d dNext dimm init).wf = m.wf := by
  simp only [Memory.wf]

theorem State.foldl_mem {α : Type} (f : State → α → State) (hf : ∀ s a, (f s a).mem = s.mem) (l : List α) (s : State) :
    (l.foldl f s).mem = s.mem := State.foldl_keeps State.mem hf l s

theorem State.foldl_wf {α : Type} {s : State} (h : s.mem.wf = true) {f : State → α → State}
    (hf : ∀ s a, s.mem.wf = true → (f s a).mem.wf = true) (l : List α) : (l.foldl f s).mem.wf = true := by
  induction l generalizing s with
  | nil => exact h
  | cons a l ih => exact ih (hf s a h)

/-- A fold that carries an answer beside the state. -/
theorem State.foldl_fst_mem {α β : Type} (f : State × β → α → State × β) (hf : ∀ p a, (f p a).1.mem = p.1.mem)
    (l : List α) (p : State × β) : (l.foldl f p).1.mem = p.1.mem := by
  induction l generalizing p with
  | nil => rfl
  | cons a l ih => exact (ih _).trans (hf p a)

theorem State.foldl_fst_wf {α β : Type} {p : State × β} (h : p.1.mem.wf = true) {f : State × β → α → State × β}
    (hf : ∀ p a, p.1.mem.wf = true → (f p a).1.mem.wf = true) (l : List α) : (l.foldl f p).1.mem.wf = true := by
  induction l generalizing p with
  | nil => exact h
  | cons a l ih => exact ih (hf p a h)

/-- Changes of several controllers leave memory as it is. -/
@[simp] theorem State.foldl_modDdr_mem (g : State → CtrlId → Ddr → Ddr) (l : List CtrlId) (s : State) :
    (l.foldl (fun s n => s.modDdr n (g s n)) s).mem = s.mem :=
  State.foldl_mem (fun s n => s.modDdr n (g s n)) (fun _ _ => rfl) l s

/-! ## The shared operations (02, 11, 13) -/

@[simp] theorem State.modThread_mem (s : State) (n : CoreId) (t : ThreadId) (g : Thread → Thread) :
    (s.modThread n t g).mem = s.mem := rfl

@[simp] theorem State.msix_mem (s : State) (v : Nat) : (s.msix v).mem = s.mem := by
  unfold State.msix
  split <;> simp

@[simp] theorem State.msixFlush_mem (s : State) : s.msixFlush.mem = s.mem :=
  State.foldl_mem _ (fun s v => by split <;> rfl) _ s

@[simp] theorem State.accError_mem (s : State) (bit : Fin 3) (src : Src) (space : Nat) (off be : Nat) :
    (s.accError bit src space off be).mem = s.mem := by
  simp [State.accError, apply_ite State.mem]

@[simp] theorem State.scrCorrected_mem (s : State) : s.scrCorrected.mem = s.mem := by
  simp [State.scrCorrected, apply_ite State.mem]

@[simp] theorem State.scrUncorrectable_mem (s : State) (o : Nat) (scrub : Bool) :
    (s.scrUncorrectable o scrub).mem = s.mem := by
  simp [State.scrUncorrectable]

@[simp] theorem State.ddrCorrected_mem (s : State) (a : Nat) : (s.ddrCorrected a).mem = s.mem := by
  simp [State.ddrCorrected, apply_ite State.mem]

@[simp] theorem State.ddrUncorrectable_mem (s : State) (a : Nat) (scrub : Bool) (device : BitVec 4) :
    (s.ddrUncorrectable a scrub device).mem = s.mem := by
  simp [State.ddrUncorrectable]

@[simp] theorem State.owe_mem (s : State) (w : Nat) : (s.owe w).mem = s.mem := rfl

@[simp] theorem State.checkScratch_mem (s : State) (ws : List Nat) : (s.checkScratch ws).mem = s.mem :=
  State.foldl_mem _ (fun s w => by split <;> simp) _ s

@[simp] theorem State.checkDdr_wf {s : State} (h : s.mem.wf = true) (ls : List Nat) : (s.checkDdr ls).mem.wf = true :=
  State.foldl_wf h (fun s l h => by dsimp only; split <;> simp [h]) _

@[simp] theorem State.ddrWriteBack_wf {s : State} (h : s.mem.wf = true) : s.ddrWriteBack.mem.wf = true := by
  simp [State.ddrWriteBack, h, apply_ite State.mem]

@[simp] theorem State.upset_wf {s : State} (h : s.mem.wf = true) (x : Upset) : (s.upset x).mem.wf = true := by
  obtain ⟨hcells, hscr, hddr⟩ := (Memory.wf_iff _).mp h
  fun_cases State.upset
  case case5 => exact (Memory.wf_iff _).mpr ⟨hcells, natIns_rising hscr (Nat.zero_le _), hddr⟩
  case case8 => exact (Memory.wf_iff _).mpr ⟨hcells, hscr, natIns_rising hddr (Nat.zero_le _)⟩
  all_goals simp [h]

@[simp] theorem State.memIdle_wf {s : State} (h : s.mem.wf = true) : s.memIdle.mem.wf = true := by
  simp [State.memIdle, h]

@[simp] theorem State.bankCount_mem (s : State) (m wait : Nat) : (s.bankCount m wait).mem = s.mem := rfl

@[simp] theorem State.bankCountFree_mem (s : State) (m : Nat) (x : Nat) : (s.bankCountFree m x).mem = s.mem := by
  induction x generalizing s with
  | zero => rfl
  | succ n ih => exact ih _

@[simp] theorem State.scratchRead_mem (s : State) (m off n : Nat) : (s.scratchRead m off n).1.mem = s.mem := by
  simp [State.scratchRead]

@[simp] theorem State.scratchWrite_wf {s : State} (h : s.mem.wf = true) (m off : Nat) (bs : List Byte) :
    (s.scratchWrite m off bs).mem.wf = true :=
  State.memWrite_wf (by simp [h]) off bs

@[simp] theorem State.scratchParts_wf {s : State} (h : s.mem.wf = true) (m off : Nat) (ps : List (Nat × List Byte)) :
    (s.scratchParts m off ps).mem.wf = true := by
  unfold State.scratchParts
  split
  · exact State.scratchWrite_wf h ..
  · exact State.foldl_wf (by simp [h]) (fun s p h => State.memWrite_wf h ..) ps

@[simp] theorem State.scratchAtomic_wf {s : State} (h : s.mem.wf = true) (m off : Nat) (f : Word → Word) :
    (s.scratchAtomic m off f).1.mem.wf = true := by
  fun_cases State.scratchAtomic <;> grind [State.scratchRead_mem, State.memWrite_wf]

@[simp] theorem State.aerUnc_mem (s : State) (l : LinkId) (b : Nat) : (s.aerUnc l b).mem = s.mem := by
  simp [State.aerUnc, apply_ite State.mem]

@[simp] theorem State.aerCor_mem (s : State) (l : LinkId) (b : Nat) : (s.aerCor l b).mem = s.mem := by
  simp [State.aerCor, apply_ite State.mem]

@[simp] theorem State.poisonReport_mem (s : State) (l : LinkId) : (s.poisonReport l).mem = s.mem := by
  simp [State.poisonReport]

@[simp] theorem State.d2hEnd_mem (s : State) (l : LinkId) (r : Reply) : (s.d2hEnd l r).1.mem = s.mem := by
  unfold State.d2hEnd
  split <;> simp

@[simp] theorem State.dropD2h_mem (s : State) (l : LinkId) (tag : Nat) : (s.dropD2h l tag).mem = s.mem := rfl

@[simp] theorem State.hostAsk_mem (s : State) (w : Wanted) (hpa : Word) (n : Nat) (ps : Option (List
    (Nat × List Byte))) (r : Reply) : (s.hostAsk w hpa n ps r).1.mem = s.mem := by
  unfold State.hostAsk
  dsimp only
  (repeat' split) <;> simp [*]

@[simp] theorem State.landed_mem (s : State) (loc : Phys) (ps : List (Nat × List Byte)) :
    (s.landed loc ps).mem = s.mem := by
  unfold State.landed
  split
  · exact State.foldl_mem _ (fun s p => s.emit_mem _) ps s
  · exact State.foldl_mem _ (fun s p => s.emit_mem _) ps s
  · rfl

/-! ## The home agent's device side (15 R306 to R310) -/

@[simp] theorem State.sfPut_mem (s : State) (line : Nat) (st : Option SfState) : (s.sfPut line st).mem = s.mem := rfl

@[simp] theorem State.snoop_mem (s : State) (line : Nat) (data : Bool) : (s.snoop line data).mem = s.mem := rfl

@[simp] theorem State.hold_mem (s : State) (h : Held) : (s.hold h).mem = s.mem := rfl

@[simp] theorem State.refreshRate_mem (s : State) (n : CtrlId) (x2 : Bool) : (s.refreshRate n x2).mem = s.mem := by
  simp [State.refreshRate, apply_ite State.mem]

@[simp] theorem State.srExit_mem (s : State) (n : CtrlId) (x2 : Bool) : (s.srExit n x2).mem = s.mem := by
  unfold State.srExit
  split <;> simp

@[simp] theorem State.ddrWake_mem (s : State) (off n : Nat) : (s.ddrWake off n).mem = s.mem :=
  State.foldl_mem _ (fun s n => by simp) _ s

@[simp] theorem State.ddrBytes_mem (s : State) (off : Nat) (bs : List Byte) : (s.ddrBytes off bs).1.mem = s.mem := by
  fun_cases State.ddrBytes <;> simp

@[simp] theorem State.ddrApply_wf {s : State} (h : s.mem.wf = true) (off : Nat) (bs : List Byte) :
    (s.ddrApply off bs).mem.wf = true := by
  simp [State.ddrApply, h, State.memWrite_wf]

@[simp] theorem State.ddrParts_wf {s : State} (h : s.mem.wf = true) (line : Nat) (ps : List (Nat × List Byte)) :
    (s.ddrParts line ps).mem.wf = true :=
  State.foldl_wf (by simp [h]) (fun s p h => State.memWrite_wf (State.wf_of_mem (s.ddrBytes_mem ..) h) ..) ps

@[simp] theorem State.ddrServe_wf {s : State} (h : s.mem.wf = true) (off n : Nat) : (s.ddrServe off n).1.mem.wf = true := by
  simp [State.ddrServe, h]

@[simp] theorem State.serveOp_wf {s : State} (h : s.mem.wf = true) (off : Nat) (x : LineOp) :
    (s.serveOp off x).1.mem.wf = true := by
  unfold State.serveOp
  split <;> simp [h]

@[simp] theorem State.snoopFirst_mem (s : State) (h : Held) : (s.snoopFirst h).1.mem = s.mem := by
  unfold State.snoopFirst
  split <;> simp

@[simp] theorem State.homeAccess_wf {s : State} (h : s.mem.wf = true) (off : Nat) (op : LineOp) (who : Who) :
    (s.homeAccess off op who).1.mem.wf = true := by
  unfold State.homeAccess
  dsimp only
  (repeat' split) <;> simp [*]

@[simp] theorem State.leaveSlot_mem (s : State) (q : RemoteReq) : (s.leaveSlot q).mem = s.mem := by
  unfold State.leaveSlot
  split <;> simp

@[simp] theorem State.popRemote_mem (s : State) (w : Wanted) : (s.popRemote w).1.mem = s.mem := by
  unfold State.popRemote
  split <;> simp

@[simp] theorem State.reach_wf {s : State} (h : s.mem.wf = true) (m : Nat) (got : Bool) (w : Wanted) (loc : Phys)
    (n : Nat) (ps : Option (List (Nat × List Byte))) (r : Reply) : (s.reach m got w loc n ps r).1.mem.wf = true := by
  fun_cases State.reach <;> grind [State.scratchRead_mem, State.scratchParts_wf, State.homeAccess_wf, State.popRemote_mem,
    State.hostAsk_mem]

@[simp] theorem State.serveHeld_wf {s : State} (h : s.mem.wf = true) (released : Bool) (x : List Held) :
    (s.serveHeld released x).1.mem.wf = true := by
  induction x generalizing s released with
  | nil => exact h
  | cons d t ih =>
    simp only [State.serveHeld]
    split
    · exact ih (State.serveOp_wf h ..) ..
    · simp [h]

@[simp] theorem State.releaseLine_wf {s : State} (h : s.mem.wf = true) (line : Nat) (released : Bool) :
    (s.releaseLine line released).1.mem.wf = true := by
  simp [State.releaseLine, h]

@[simp] theorem State.releaseAll_wf {s : State} (h : s.mem.wf = true) : s.releaseAll.1.mem.wf = true := by
  refine State.foldl_fst_wf (p := (s, [])) h (fun p l h => ?_) _
  exact State.releaseLine_wf h ..

/-! ## Queue pairs and records (03 R38 to R59) -/

@[simp] theorem State.modPair_mem (s : State) (q : Nat) (g : Pair → Pair) : (s.modPair q g).mem = s.mem := by
  unfold State.modPair
  split <;> simp

@[simp] theorem State.fwAnswer_mem (s : State) (m : Nat) (handle : Half) (wr : Bool) (ptr line : Nat) (r : Reply) :
    (s.fwAnswer m handle wr ptr line r).mem = s.mem := by
  unfold State.fwAnswer
  dsimp only
  (repeat' split) <;> simp [*]

@[simp] theorem State.entryAnswer_mem (s : State) (h : Half) (r : Reply) : (s.entryAnswer h r).mem = s.mem := by
  fun_cases State.entryAnswer <;> simp

@[simp] theorem State.aciError_mem (s : State) (bit q : Nat) : (s.aciError bit q).mem = s.mem := by
  simp [State.aciError, apply_ite State.mem]

@[simp] theorem State.haltPair_mem (s : State) (q : Nat) : (s.haltPair q).mem = s.mem := by
  simp [State.haltPair]

@[simp] theorem State.cqInterrupt_mem (s : State) (q : Nat) : (s.cqInterrupt q).mem = s.mem := by
  unfold State.cqInterrupt
  split <;> simp

@[simp] theorem State.recordDone_mem (s : State) (r : RecordRef) : (s.recordDone r).mem = s.mem := by
  unfold State.recordDone
  dsimp only
  (repeat' split) <;> simp [*]

@[simp] theorem State.writeRecord_wf {s : State} (h : s.mem.wf = true) (p : Pair) (bs : List Byte) (ref : RecordRef) :
    (s.writeRecord p bs ref).1.mem.wf = true := by
  fun_cases State.writeRecord <;> grind [State.checkDdr_wf, State.homeAccess_wf, State.recordDone_mem, State.modLink_mem,
    State.emit_mem]

@[simp] theorem State.flushOne_wf {s : State} (h : s.mem.wf = true) (c : Cmd) : (s.flushOne c).mem.wf = true := by
  fun_cases State.flushOne <;> grind [State.writeRecord_wf, State.haltPair_mem, State.modPair_mem]

@[simp] theorem State.flushRecords_wf {s : State} (h : s.mem.wf = true) : s.flushRecords.mem.wf = true :=
  State.foldl_wf h (fun s c h => State.flushOne_wf h c) _

@[simp] theorem State.promote_mem (s : State) : s.promote.mem = s.mem := rfl

@[simp] theorem State.finish_mem (s : State) (handle : Half) (r : CmdRecord) : (s.finish handle r).mem = s.mem := rfl

@[simp] theorem State.finishDelete_mem (s : State) (c : Cmd) : (s.finishDelete c).mem = s.mem := by
  simp [State.finishDelete, apply_ite State.mem]

@[simp] theorem State.aciSettle_wf {s : State} (h : s.mem.wf = true) : s.aciSettle.mem.wf = true :=
  State.wf_of_mem (State.promote_mem _) (State.flushRecords_wf
    (State.foldl_wf (State.flushRecords_wf h) (fun s c h => State.wf_of_mem (s.finishDelete_mem c) h) _))

/-! ## Address translation in one core (12) -/

@[simp] theorem State.tlbInval_mem (s : State) (n : CoreId) (i : Inval) : (s.tlbInval n i).mem = s.mem := by
  unfold State.tlbInval
  dsimp only
  (repeat' split) <;> simp [*]

/-! ## Chains and launches (04, 05, 06, 08) -/

@[simp] theorem State.poolReturn_mem (s : State) (k : ClusterId) (n : Nat) : (s.poolReturn k n).mem = s.mem := rfl

@[simp] theorem State.grant_mem (s : State) (c : ChainId) (l : Launch) (need : Nat) : (s.grant c l need).mem = s.mem := rfl

@[simp] theorem State.dropResv_mem (s : State) (c : ChainId) : (s.dropResv c).mem = s.mem :=
  State.foldl_mem _ (fun s r => by simp) _ s

@[simp] theorem State.trimStream_mem (s : State) (c : ChainId) (i : Fin 6) : (s.trimStream c i).mem = s.mem := by
  fun_cases State.trimStream <;> simp

@[simp] theorem State.trimFreed_mem (s0 s : State) (c : ChainId) (i : Fin 6) : (s0.trimFreed s c i).mem = s.mem := by
  fun_cases State.trimFreed <;> simp

@[simp] theorem State.freedSince_mem (s0 s : State) (c : ChainId) : (s0.freedSince s c).mem = s.mem :=
  State.foldl_mem _ (fun s i => s0.trimFreed_mem s c i) _ s

@[simp] theorem State.trim_mem (s : State) (c : ChainId) : (s.trim c).mem = s.mem :=
  State.foldl_mem _ (fun s i => s.trimStream_mem c i) _ s

@[simp] theorem State.endLaunch_mem (s : State) (c : ChainId) : (s.endLaunch c).mem = s.mem := by
  simp [State.endLaunch, apply_ite State.mem]

@[simp] theorem State.dropQueued_mem (s : State) (c : ChainId) : (s.dropQueued c).mem = s.mem := rfl

@[simp] theorem State.launchBegin_mem (s : State) (c : ChainId) : (s.launchBegin c).mem = s.mem := by
  unfold State.launchBegin
  dsimp only
  (repeat' split) <;> simp [*]

@[simp] theorem State.reservationGrant_mem (s : State) (k : ClusterId) : (s.reservationGrant k).mem = s.mem := by
  fun_cases State.reservationGrant <;> simp

@[simp] theorem State.beginStop_mem (s : State) (c : ChainId) (keep : Nat) : (s.beginStop c keep).mem = s.mem := by
  unfold State.beginStop
  dsimp only
  (repeat' split) <;> simp [*]

@[simp] theorem State.abandon_mem (s : State) (c : ChainId) : (s.abandon c).mem = s.mem := by
  simp [State.abandon, apply_ite State.mem]

@[simp] theorem State.requestStop_mem (s : State) (c : ChainId) : (s.requestStop c).mem = s.mem := by
  fun_cases State.requestStop <;> simp

@[simp] theorem State.abandonTranslate_mem (s : State) (c : ChainId) : (s.abandonTranslate c).mem = s.mem := by
  unfold State.abandonTranslate
  dsimp only
  (repeat' split) <;> simp [*]

@[simp] theorem State.chainStopped_mem (s : State) (c : ChainId) : (s.chainStopped c).mem = s.mem := by
  fun_cases State.chainStopped <;> simp

@[simp] theorem State.accessFailure_mem (s : State) (c : ChainId) (i : Nat) : (s.accessFailure c i).mem = s.mem := by
  unfold State.accessFailure
  dsimp only
  (repeat' split) <;> simp [*]

@[simp] theorem State.restart_mem (s : State) (c : ChainId) (replay flushOnce : Bool) :
    (s.restart c replay flushOnce).mem = s.mem := by
  fun_cases State.restart <;> simp

@[simp] theorem State.exctl_mem (s : State) (c : ChainId) (v : Half) : (s.exctl c v).mem = s.mem := by
  fun_cases State.exctl <;> simp

@[simp] theorem State.clrMsc_mem (s : State) (c : ChainId) : (s.clrMsc c).mem = s.mem := by
  unfold State.clrMsc
  split <;> simp

@[simp] theorem State.chainCtl_mem (s : State) (c : ChainId) (v : Half) : (s.chainCtl c v).mem = s.mem := by
  simp [State.chainCtl, apply_ite State.mem]

@[simp] theorem State.chainWrite_mem (s : State) (c : ChainId) (off : Nat) (v : Word) :
    (s.chainWrite c off v).mem = s.mem := by
  unfold State.chainWrite
  split <;> simp

/-! ## The Translate stage (05, 12) -/

@[simp] theorem State.readDir_wf {s : State} (h : s.mem.wf = true) (c : ChainId) (serial : Nat) (t : Translating)
    (map : List PageMap) (q : Stn) (phys : Bool) (x : List (Nat × Nat)) (x1 : List Byte) :
    (s.readDir c serial t map q phys x x1).1.mem.wf = true := by
  fun_induction State.readDir <;> grind [State.reach_wf]

@[simp] theorem State.readDirs_wf {s : State} (h : s.mem.wf = true) (c : ChainId) (l : Launch) (t : Translating)
    (map : List PageMap) (x : List Stn) (x1 : List Byte) : (s.readDirs c l t map x x1).1.mem.wf = true := by
  fun_induction State.readDirs <;> grind [State.readDir_wf]

@[simp] theorem State.dirAnswer_mem (s : State) (c : ChainId) (serial att k stream va : Nat) (r : Reply) :
    (s.dirAnswer c serial att k stream va r).mem = s.mem := by
  unfold State.dirAnswer
  split <;> simp

@[simp] theorem State.streamCause_mem (s : State) (c : ChainId) (map : List PageMap) (kind stream access : Nat)
    (addr : Word) : (s.streamCause c map kind stream access addr).mem = s.mem := rfl

@[simp] theorem State.translateFails_mem (s : State) (c : ChainId) : (s.translateFails c).mem = s.mem := by
  simp [State.translateFails]

@[simp] theorem State.translate_wf {s : State} (h : s.mem.wf = true) (c : ChainId) (dir : List Word) :
    (s.translate c dir).mem.wf = true := by
  unfold State.translate
  dsimp only
  (repeat' split) <;> simp [*]

@[simp] theorem State.retryTranslate_wf {s : State} (h : s.mem.wf = true) (c : ChainId) (dir : List Word) :
    (s.retryTranslate c dir).mem.wf = true := by
  fun_cases State.retryTranslate <;> simp [h]

@[simp] theorem State.stripTranslate_wf {s : State} (h : s.mem.wf = true) (c : ChainId) (dir : List Word) :
    (s.stripTranslate c dir).mem.wf = true := by
  fun_cases State.stripTranslate <;> simp [h]

@[simp] theorem State.wrapStop_mem (s : State) (c : ChainId) : (s.wrapStop c).mem = s.mem := by
  fun_cases State.wrapStop <;> simp

@[simp] theorem State.stripIssue_mem (s : State) (c : ChainId) : (s.stripIssue c).mem = s.mem := by
  fun_cases State.stripIssue <;> simp

/-! ## An issued strip's life (04, 08) -/

@[simp] theorem State.modStrip_mem (s : State) (c : ChainId) (i : Nat) (g : Strip → Strip) :
    (s.modStrip c i g).mem = s.mem := rfl

@[simp] theorem State.condition_mem (s : State) (c : ChainId) (i p : Nat) (stn mode pos : Nat) (r : Raised) :
    (s.condition c i p stn mode pos r).mem = s.mem := by
  unfold State.condition
  dsimp only
  (repeat' split) <;> simp [*]

@[simp] theorem State.conditions_mem (s : State) (c : ChainId) (i p stn mode : Nat) (rs : List (Nat × Raised)) :
    (s.conditions c i p stn mode rs).mem = s.mem :=
  State.foldl_mem _ (fun s r => s.condition_mem ..) rs s

@[simp] theorem State.stepStation_mem (s : State) (c : ChainId) (i p : Nat) (r : Run) (t : Strip) (q : Stn)
    (ws : List Wire) (sr : StationRun) : (s.stepStation c i p r t q ws sr).mem = s.mem := by
  simp [State.stepStation]

@[simp] theorem State.stationStep_mem (s : State) (c : ChainId) (i p : Nat) : (s.stationStep c i p).mem = s.mem := by
  fun_cases State.stationStep <;> simp

@[simp] theorem State.lineAsked_mem (s : State) (c : ChainId) (att stream : Nat) (va : Word) :
    (s.lineAsked c att stream va).mem = s.mem := rfl

@[simp] theorem State.lineArrive_mem (s : State) (c : ChainId) (att stream : Nat) (va : Word) (a : ReadAns) :
    (s.lineArrive c att stream va a).mem = s.mem := by
  fun_cases State.lineArrive <;> simp

@[simp] theorem State.lineReply_mem (s : State) (c : ChainId) (i att stream : Nat) (va : Word) (x : Reply) :
    (s.lineReply c i att stream va x).mem = s.mem := by
  fun_cases State.lineReply <;> simp

@[simp] theorem State.lineFill_wf {s : State} (h : s.mem.wf = true) (c : ChainId) (i stream : Nat) (va : Word)
    (rep : Reply) : (s.lineFill c i stream va rep).mem.wf = true := by
  fun_cases State.lineFill <;> grind [State.reach_wf, State.lineReply_mem, State.lineAsked_mem]

@[simp] theorem State.bufferGrant_mem (s : State) (k : ClusterId) : (s.bufferGrant k).mem = s.mem := by
  fun_cases State.bufferGrant <;> simp

@[simp] theorem State.stnRead_wf {s : State} (h : s.mem.wf = true) (c : ChainId) (got : Bool) (who : Wanted)
    (map : List PageMap) (stream : Nat) (phys : Bool) (va : Word) (n : Nat) (r : Reply) :
    (s.stnRead c got who map stream phys va n r).1.mem.wf = true := by
  unfold State.stnRead
  split <;> simp [h]

@[simp] theorem State.stnWrite_wf {s : State} (h : s.mem.wf = true) (c : ChainId) (got : Bool) (who : Wanted)
    (map : List PageMap) (stream : Nat) (phys : Bool) (va : Word) (bs : List Byte) (r : Reply) :
    (s.stnWrite c got who map stream phys va bs r).1.mem.wf = true := by
  fun_cases State.stnWrite <;> grind [State.reach_wf, State.landed_mem]

@[simp] theorem State.stnAtomic_wf {s : State} (h : s.mem.wf = true) (c : ChainId) (got : Bool) (who : Wanted)
    (map : List PageMap) (stream : Nat) (phys : Bool) (va : Word) (aop : BitVec 4) (v : Word) (r : Reply) :
    (s.stnAtomic c got who map stream phys va aop v r).1.mem.wf = true := by
  fun_cases State.stnAtomic <;> grind [State.scratchAtomic_wf, State.reach_wf, State.emit_mem]

@[simp] theorem State.setFlight_mem (s : State) (c : ChainId) (i p j : Nat) (f : Option Flight) :
    (s.setFlight c i p j f).mem = s.mem := rfl

@[simp] theorem State.flightStep_mem (s : State) (c : ChainId) (i p j : Nat) (q : Stn) (t : Strip)
    (x : Flight × Option Raised) : (s.flightStep c i p j q t x).mem = s.mem := by
  unfold State.flightStep
  split <;> simp

@[simp] theorem State.flightAnswer_wf {s : State} (h : s.mem.wf = true) (c : ChainId) (i p j : Nat) (r : Run)
    (t : Strip) (q : Stn) (f : Flight) (rep : Reply) (got : Bool) :
    (s.flightAnswer c i p j r t q f rep got).mem.wf = true := by
  fun_cases State.flightAnswer <;> grind [State.stnRead_wf, State.accessFailure_mem, State.stnWrite_wf,
    State.stnAtomic_wf, State.flightStep_mem, State.setFlight_mem, State.modStrip_mem]

@[simp] theorem State.dictRead_wf {s : State} (h : s.mem.wf = true) (c : ChainId) (i p : Nat) (r : Run) (t : Strip)
    (q : Stn) (ws : List Wire) (rep : Reply) (got : Bool) : (s.dictRead c i p r t q ws rep got).mem.wf = true := by
  fun_cases State.dictRead <;> grind [State.stnRead_wf, State.modChain_mem, State.accessFailure_mem]

@[simp] theorem State.stationAnswer_wf {s : State} (h : s.mem.wf = true) (c : ChainId) (i p j : Nat) (rep : Reply)
    (got : Bool) : (s.stationAnswer c i p j rep got).mem.wf = true := by
  fun_cases State.stationAnswer <;> simp [h]

@[simp] theorem State.stripAbort_mem (s : State) (c : ChainId) : (s.stripAbort c).mem = s.mem := by
  unfold State.stripAbort
  dsimp only
  (repeat' split) <;> simp [*]

@[simp] theorem State.writeMarks_mem (s : State) (c : ChainId) (cfg : Half) (t : Strip) :
    (s.writeMarks c cfg t).mem = s.mem :=
  State.foldl_mem _ (fun s p => by simp) _ s

@[simp] theorem State.foldSlot_mem (s : State) (c : ChainId) (h : Shadow) : (s.foldSlot c h).mem = s.mem := by
  simp [State.foldSlot, apply_ite State.mem]

@[simp] theorem State.stripCommit_mem (s : State) (c : ChainId) : (s.stripCommit c).mem = s.mem := by
  have hfold : ∀ (l : List Shadow), (l.foldl (fun s x => s.foldSlot c x) s).mem = s.mem := fun l =>
    State.foldl_mem _ (fun s x => s.foldSlot_mem c x) l s
  fun_cases State.stripCommit <;> simp +zetaDelta [hfold]

@[simp] theorem State.drainDone_mem (s : State) (c : ChainId) (i : Nat) : (s.drainDone c i).mem = s.mem := by
  simp [State.drainDone, apply_ite State.mem]

@[simp] theorem State.drainFailed_mem (s : State) (c : ChainId) (i : Nat) : (s.drainFailed c i).mem = s.mem := by
  simp [State.drainFailed, apply_ite State.mem]

@[simp] theorem State.drainReply_mem (s : State) (c : ChainId) (i : Nat) (w : HeldWrite) (x : Reply) :
    (s.drainReply c i w x).mem = s.mem := by
  unfold State.drainReply
  split <;> simp

@[simp] theorem State.drainAccept_wf {s : State} (h : s.mem.wf = true) (c : ChainId) (i : Nat) (rep : Reply) :
    (s.drainAccept c i rep).mem.wf = true := by
  fun_cases State.drainAccept <;> grind [State.reach_wf, State.drainReply_mem]

/-! ## Data accesses, traps and halts of a core (09, 11) -/

@[simp] theorem State.fixWords_mem (s : State) (n : CoreId) (ws : List Nat) : (s.fixWords n ws).mem = s.mem := by
  unfold State.fixWords
  split <;> simp

@[simp] theorem State.cyclesFree_mem (s : State) (n : CoreId) : (s.cyclesFree n).mem = s.mem := rfl

@[simp] theorem State.haltCore_mem (s : State) (n : CoreId) (t : ThreadId) (reason : Nat) :
    (s.haltCore n t reason).mem = s.mem := by
  simp [State.haltCore]

@[simp] theorem State.kernelEnd_mem (s : State) (n : CoreId) (t : ThreadId) : (s.kernelEnd n t).mem = s.mem := rfl

@[simp] theorem State.trapEntry_mem (s : State) (n : CoreId) (t : ThreadId) (x : Cause) (era : Word) :
    (s.trapEntry n t x era).mem = s.mem := by
  fun_cases State.trapEntry <;> grind [State.modThread_mem, State.modCore_mem, State.haltCore_mem, State.kernelEnd_mem,
    State.tick_mem]

@[simp] theorem State.faultEntry_mem (s : State) (n : CoreId) (t : ThreadId) (x : Cause) :
    (s.faultEntry n t x).mem = s.mem := by
  simp [State.faultEntry]

@[simp] theorem State.takeDue_mem (s : State) (n : CoreId) (t : ThreadId) (x : Due) : (s.takeDue n t x).mem = s.mem := by
  unfold State.takeDue
  (repeat' split) <;> simp [*]

@[simp] theorem State.asyncEntry_mem (s : State) (n : CoreId) (t : ThreadId) : (s.asyncEntry n t).mem = s.mem := by
  fun_cases State.asyncEntry <;> simp

@[simp] theorem State.wfiWake_mem (s : State) (n : CoreId) : (s.wfiWake n).mem = s.mem := by
  simp [State.wfiWake, apply_ite State.mem]

/-! ## The ends of a core's operations (09 R191) -/

@[simp] theorem State.loadBytes_mem (s : State) (n : CoreId) (l : Load) (bs : List Byte) :
    (s.loadBytes n l bs).mem = s.mem := rfl

@[simp] theorem State.loadReply_mem (s : State) (n : CoreId) (l : Load) (r : Reply) : (s.loadReply n l r).mem = s.mem := by
  unfold State.loadReply
  (repeat' split) <;> simp [*]

@[simp] theorem State.loadLine_mem (s : State) (n : CoreId) (l : Load) (off : Nat) (a : ReadAns) :
    (s.loadLine n l off a).mem = s.mem := by
  simp [State.loadLine, apply_ite State.mem]

@[simp] theorem State.loadServed_mem (s : State) (n : CoreId) (seq : Nat) (a : ReadAns) :
    (s.loadServed n seq a).mem = s.mem := by
  fun_cases State.loadServed <;> simp

@[simp] theorem State.storeDone_mem (s : State) (n : CoreId) : (s.storeDone n).mem = s.mem := rfl

@[simp] theorem State.storeFail_mem (s : State) (n : CoreId) (info : BitVec 8) : (s.storeFail n info).mem = s.mem := rfl

@[simp] theorem State.storeReply_mem (s : State) (n : CoreId) (r : Reply) : (s.storeReply n r).mem = s.mem := by
  unfold State.storeReply
  split <;> simp

@[simp] theorem State.fetchFault_mem (s : State) (n : CoreId) (t : ThreadId) (va : Word) (x : Cause) :
    (s.fetchFault n t va x).mem = s.mem := by
  fun_cases State.fetchFault <;> simp

@[simp] theorem State.fetchReply_mem (s : State) (n : CoreId) (t : ThreadId) (va : Word) (r : Reply) :
    (s.fetchReply n t va r).mem = s.mem := by
  unfold State.fetchReply
  split <;> simp

@[simp] theorem State.fetchLine_mem (s : State) (n : CoreId) (t : ThreadId) (va : Word) (off : Nat) (cb : Bool)
    (a : ReadAns) : (s.fetchLine n t va off cb a).mem = s.mem := by
  unfold State.fetchLine
  split <;> simp

@[simp] theorem State.fetchServed_mem (s : State) (n : CoreId) (t : ThreadId) (va : Word) (line : Nat) (a : ReadAns) :
    (s.fetchServed n t va line a).mem = s.mem := by
  fun_cases State.fetchServed <;> simp

@[simp] theorem State.answerNow_wf {s : State} (h : s.mem.wf = true) (w : Wanted) (r : Reply) :
    (s.answerNow w r).mem.wf = true := by
  unfold State.answerNow
  dsimp only
  (repeat' split) <;> simp [*]

@[simp] theorem State.answer_wf {s : State} (h : s.mem.wf = true) (w : Wanted) (r : Reply) :
    (s.answer w r).mem.wf = true := by
  unfold State.answer
  split <;> simp [h]

@[simp] theorem State.lineNow_mem (s : State) (w : Wanted) (line : Nat) (a : ReadAns) :
    (s.lineNow w line a).mem = s.mem := by
  unfold State.lineNow
  split <;> simp

@[simp] theorem State.lateNow_wf {s : State} (h : s.mem.wf = true) (x : Late) : (s.lateNow x).mem.wf = true := by
  unfold State.lateNow
  split <;> simp [h]

@[simp] theorem State.flushLate_wf {s : State} (h : s.mem.wf = true) : s.flushLate.mem.wf = true := by
  unfold State.flushLate
  split
  · exact h
  · exact State.foldl_wf (by exact h) (fun s x h => State.lateNow_wf h x) _

/-! ## A core's registers (09, 12) -/

@[simp] theorem State.coreStart_mem (s : State) (n : CoreId) : (s.coreStart n).mem = s.mem := rfl

@[simp] theorem State.coreStop_mem (s : State) (n : CoreId) : (s.coreStop n).mem = s.mem := rfl

@[simp] theorem State.coreCtl_mem (s : State) (n : CoreId) (v : Half) : (s.coreCtl n v).mem = s.mem := by
  simp [State.coreCtl, apply_ite State.mem]

@[simp] theorem State.tlbCmd_wf {s : State} (h : s.mem.wf = true) (n : CoreId) (v : Half) (dir : List Word) :
    (s.tlbCmd n v dir).mem.wf = true := by
  fun_cases State.tlbCmd <;> grind [State.modCore_mem, State.retryTranslate_wf, State.tlbInval_mem]

@[simp] theorem State.sctl_wf {s : State} (h : s.mem.wf = true) (c : ChainId) (v : Half) (dir : List Word) :
    (s.sctl c v dir).mem.wf = true := by
  fun_cases State.sctl <;> simp [h]

@[simp] theorem State.coreRegRead_mem (s : State) (n : CoreId) (off : Nat) : (s.coreRegRead n off).1.mem = s.mem := by
  unfold State.coreRegRead
  dsimp only
  (repeat' split) <;> simp [*]

@[simp] theorem State.coreRegWrite_wf {s : State} (h : s.mem.wf = true) (n : CoreId) (off : Nat) (v : Word)
    (src : Src) (dir : List Word) : (s.coreRegWrite n off v src dir).mem.wf = true := by
  fun_cases State.coreRegWrite <;> simp [h]

@[simp] theorem execTlbInvalEffect_canonical {s : State} (h : s.mem.wf = true) (n : CoreId) :
    Outcome.Canonical (execTlbInvalEffect n s) := by
  simp [execTlbInvalEffect, h]

/-! ## The loops (17 R353 to R356) -/

@[simp] theorem State.pllCoast_mem (s : State) (k : PllId) : (s.pllCoast k).mem = s.mem := by
  simp [State.pllCoast, apply_ite State.mem]

@[simp] theorem State.pllAct_mem (s : State) (k : PllId) (v : Half) : (s.pllAct k v).mem = s.mem := by
  unfold State.pllAct
  dsimp only
  split
  · exact State.foldl_mem _ (fun s n => s.modDdr_mem ..) _ _
  · rfl

@[simp] theorem State.pllWrite_mem (s : State) (k : PllId) (v : Half) : (s.pllWrite k v).mem = s.mem := by
  unfold State.pllWrite
  split <;> simp

@[simp] theorem State.pllHeld_mem (s : State) (k : PllId) (x : List Half) : (s.pllHeld k x).mem = s.mem := by
  fun_induction State.pllHeld <;> simp [*]

/-! ## DDR and scratch (13) -/

@[simp] theorem State.setDplls_mem (s : State) (speed : Nat) : (s.setDplls speed).mem = s.mem := by
  simp [State.setDplls]

@[simp] theorem execDdrBringup_canonical {s : State} (h : s.mem.wf = true) (slots : List (Slot × Slot)) :
    Outcome.Canonical (execDdrBringup slots s) := by
  fun_cases execDdrBringup <;> simp +zetaDelta [h]

@[simp] theorem execDdrTrainingDone_canonical {s : State} (h : s.mem.wf = true) (failed : BitVec 16) :
    Outcome.Canonical (execDdrTrainingDone failed s) := by
  fun_cases execDdrTrainingDone
  case case1 => exact h
  case case2 => simp [h]
  case case3 s' =>
    have : s'.mem = s.mem := State.foldl_mem _ (fun s n => by dsimp only; split <;> simp) _ s
    simp [this, h]

@[simp] theorem execDdrZeroingDone_canonical {s : State} (h : s.mem.wf = true) :
    Outcome.Canonical (execDdrZeroingDone s) := by
  obtain ⟨hcells, hscr, -⟩ := (Memory.wf_iff _).mp h
  unfold execDdrZeroingDone
  split
  · exact (Memory.wf_iff _).mpr ⟨clearCells_wf hcells 0 _, hscr, rfl⟩
  · exact h

@[simp] theorem execDdrSrEntry_canonical {s : State} (h : s.mem.wf = true) (n : CtrlId) :
    Outcome.Canonical (execDdrSrEntry n s) := by
  fun_cases execDdrSrEntry <;> simp [h]

@[simp] theorem execDdrSrExit_canonical {s : State} (h : s.mem.wf = true) (n : CtrlId) (sub0 sub1 : Bool) :
    Outcome.Canonical (execDdrSrExit n sub0 sub1 s) := by
  unfold execDdrSrExit
  split <;> simp [h]

@[simp] theorem execRefreshRatePoll_canonical {s : State} (h : s.mem.wf = true) (n : CtrlId) (sub0 sub1 : Bool) :
    Outcome.Canonical (execRefreshRatePoll n sub0 sub1 s) := by
  unfold execRefreshRatePoll
  split <;> simp [h]

@[simp] theorem execDdrScrub_canonical {s : State} (h : s.mem.wf = true) (n : CtrlId) (offset : Nat) (found : EccFind)
    (device : BitVec 4) : Outcome.Canonical (execDdrScrub n offset found device s) := by
  fun_cases execDdrScrub <;> simp [h, State.poisonAt_wf]

@[simp] theorem execScratchScrub_canonical {s : State} (h : s.mem.wf = true) (offset : Nat) (found : EccFind) :
    Outcome.Canonical (execScratchScrub offset found s) := by
  fun_cases execScratchScrub <;> grind [Outcome.Canonical, State.scrUncorrectable_mem, State.poisonAt_wf, State.owe_mem,
    State.scrCorrected_mem]

@[simp] theorem execScratchWriteBack_canonical {s : State} (h : s.mem.wf = true) (offset : Nat) :
    Outcome.Canonical (execScratchWriteBack offset s) := by
  fun_cases execScratchWriteBack <;> simp [h]

@[simp] theorem State.bankFound_wf {s : State} (h : s.mem.wf = true) (off : Nat) (op : BankOp) (found : EccFind) :
    (s.bankFound off op found).mem.wf = true := by
  fun_cases State.bankFound <;> grind [State.poisonAt_wf]

@[simp] theorem execScratchRequest_canonical {s : State} (h : s.mem.wf = true) (m : Fin 71) (wait offset : Nat)
    (op : BankOp) (found : EccFind) : Outcome.Canonical (execScratchRequest m wait offset op found s) := by
  fun_cases execScratchRequest <;> grind [Outcome.Canonical, State.checkScratch_mem, State.bankFound_wf,
    State.bankCount_mem, State.memWrite_wf, State.emit_mem]

/-! ## The Amtik Command Interface (03) -/

@[simp] theorem State.setRoute_mem (s : State) (src : Nat) (v : Half) : (s.setRoute src v).mem = s.mem := by
  simp [State.setRoute, apply_ite State.mem]

/-- Changes of several routes leave memory as it is. -/
@[simp] theorem State.foldl_setRoute_mem (g : State → Nat → Half) (l : List Nat) (s : State) :
    (l.foldl (fun s i => s.setRoute i (g s i)) s).mem = s.mem :=
  State.foldl_mem (fun s i => s.setRoute i (g s i)) (fun s i => s.setRoute_mem ..) l s

@[simp] theorem execAciReady_canonical {s : State} (h : s.mem.wf = true) : Outcome.Canonical (execAciReady s) := by
  fun_cases execAciReady <;> simp +zetaDelta [h]

@[simp] theorem State.finishWith_mem (s : State) (h : Half) (st : BitVec 16) : (s.finishWith h st).mem = s.mem := rfl

@[simp] theorem State.finishOk_mem (s : State) (h : Half) (result : Word) : (s.finishOk h result).mem = s.mem := rfl

@[simp] theorem State.restChain_mem (s : State) (n : CoreId) : (s.restChain n).mem = s.mem := by
  fun_cases State.restChain <;> simp

@[simp] theorem State.clearRun_mem (s : State) (n : CoreId) : (s.clearRun n).mem = s.mem := by
  simp [State.clearRun]

@[simp] theorem State.stopKernel_mem (s : State) (c : Cmd) (all : Bool) : (s.stopKernel c all).mem = s.mem := by
  have hstop : ∀ leave : CoreId → Bool, (c.cores.foldl (fun s n =>
      if leave n then s.clearRun n else (s.clearRun n).restChain n) s).mem = s.mem := fun leave =>
    State.foldl_mem _ (fun s n => by split <;> simp) _ s
  simp only [State.stopKernel, State.modCmd_mem]
  split
  · exact hstop _
  · rfl

@[simp] theorem State.noteEnd_mem (s : State) (h : Half) (n : CoreId) : (s.noteEnd h n).mem = s.mem := by
  unfold State.noteEnd
  (repeat' split) <;> simp [*]

@[simp] theorem State.noteEnds_mem (s : State) (c : Cmd) : (s.noteEnds c).mem = s.mem :=
  State.foldl_mem _ (fun s n => s.noteEnd_mem ..) _ s

@[simp] theorem State.aciDisable_mem (s : State) : s.aciDisable.mem = s.mem :=
  (State.foldl_mem _ (fun s c => s.stopKernel_mem c true) _ _).trans (State.foldl_mem _ (fun s i => s.setRoute_mem ..) _ s)

@[simp] theorem State.aciCtrl_mem (s : State) (v : Half) : (s.aciCtrl v).mem = s.mem := by
  fun_cases State.aciCtrl <;> simp

@[simp] theorem execAciResetComplete_canonical {s : State} (h : s.mem.wf = true) :
    Outcome.Canonical (execAciResetComplete s) := by
  fun_cases execAciResetComplete <;> simp [h]

@[simp] theorem State.flushWritten_mem (s : State) (q : Nat) (x : Nat) : (s.flushWritten q x).mem = s.mem := by
  induction x generalizing s with
  | zero => rfl
  | succ n ih =>
    simp only [State.flushWritten]
    split
    · rfl
    · exact (ih _).trans ((State.finishWith_mem ..).trans (s.modPair_mem ..))

@[simp] theorem State.sqTail_wf {s : State} (h : s.mem.wf = true) (q : Nat) (v : Half) : (s.sqTail q v).mem.wf = true := by
  unfold State.sqTail
  dsimp only
  (repeat' split) <;> simp [*]

@[simp] theorem State.cqHead_wf {s : State} (h : s.mem.wf = true) (q : Nat) (v : Half) : (s.cqHead q v).mem.wf = true := by
  fun_cases State.cqHead <;> simp [h]

@[simp] theorem State.cancelWrite_mem (s : State) (h : Half) : (s.cancelWrite h).mem = s.mem := by
  simp [State.cancelWrite, apply_ite State.mem]

@[simp] theorem State.cancelRunning_mem (s : State) (c : Cmd) : (s.cancelRunning c).mem = s.mem := by
  unfold State.cancelRunning
  dsimp only
  (repeat' split) <;> simp [*]

@[simp] theorem State.cancelOne_mem (s : State) (h : Half) : (s.cancelOne h).mem = s.mem := by
  fun_cases State.cancelOne <;> simp

@[simp] theorem State.takeCancels_mem (s : State) : s.takeCancels.mem = s.mem :=
  State.foldl_mem _ (fun s h => s.cancelOne_mem h) _ _

@[simp] theorem State.endVisit_mem (s : State) : s.endVisit.mem = s.mem := by
  fun_cases State.endVisit <;> simp

@[simp] theorem State.takeEntry_mem (s : State) (q : Nat) (p : Pair) (e : List Byte) : (s.takeEntry q p e).mem = s.mem := by
  simp [State.takeEntry, apply_ite State.mem]

@[simp] theorem execSqFetch_canonical {s : State} (h : s.mem.wf = true) (q : Byte) (r : Reply) :
    Outcome.Canonical (execSqFetch q r s) := by
  fun_cases execSqFetch <;> grind [Outcome.Canonical, State.endVisit_mem, State.takeCancels_mem, State.aciSettle_wf,
    State.reach_wf, State.takeEntry_mem, State.haltPair_mem]

@[simp] theorem State.assignChains_mem (s : State) (c : Cmd) : (s.assignChains c).mem = s.mem := by
  unfold State.assignChains
  split
  · rfl
  · exact State.foldl_mem _ (fun s x => s.clrMsc_mem x) _ _

@[simp] theorem execCommandDispatch_canonical {s : State} (h : s.mem.wf = true) :
    Outcome.Canonical (execCommandDispatch s) := by
  unfold execCommandDispatch
  dsimp only
  (repeat' split) <;> simp [*]

@[simp] theorem execCoalTimeExpiry_canonical {s : State} (h : s.mem.wf = true) (q : Byte) :
    Outcome.Canonical (execCoalTimeExpiry q s) := by
  fun_cases execCoalTimeExpiry <;> simp [h]

@[simp] theorem execDiagGrantExpiry_canonical {s : State} (h : s.mem.wf = true) :
    Outcome.Canonical (execDiagGrantExpiry s) := by
  fun_cases execDiagGrantExpiry <;> simp [h]

/-! ## The commands of the ACI (03) -/

@[simp] theorem State.ioStep_wf {s : State} (h : s.mem.wf = true) (c : Cmd) (e : FwIo) (r : Reply) :
    (s.ioStep c e r).1.mem.wf = true := by
  unfold State.ioStep
  dsimp only
  (repeat' split) <;> simp [*]

@[simp] theorem State.ioSteps_wf {s : State} (h : s.mem.wf = true) (c : Cmd) (x : List (FwIo × Reply)) :
    (s.ioSteps c x).1.mem.wf = true := by
  fun_induction State.ioSteps <;> grind [State.ioStep_wf]

@[simp] theorem State.keepIo_mem (s : State) (c : Cmd) (wr : Bool) (ptr : Nat) (es : List FwIo) :
    (s.keepIo c wr ptr es).mem = s.mem := by
  unfold State.keepIo
  split <;> simp

@[simp] theorem State.endIo_mem (s : State) (c : Cmd) (wr : Bool) (ptr : Nat) (es : List FwIo) :
    (s.endIo c wr ptr es).1.mem = s.mem := by
  unfold State.endIo
  split <;> simp

@[simp] theorem State.readBy_wf {s : State} (h : s.mem.wf = true) (m : Nat) (c : Cmd) (k a n : Nat) (r : Reply) :
    (s.readBy m c k a n r).1.mem.wf = true := by
  simp [State.readBy, h]

@[simp] theorem State.writeBy_wf {s : State} (h : s.mem.wf = true) (m : Nat) (c : Cmd) (k a : Nat) (bs : List Byte)
    (r : Reply) : (s.writeBy m c k a bs r).1.mem.wf = true := by
  fun_cases State.writeBy <;> grind [State.ioSteps_wf, State.endIo_mem]

@[simp] theorem State.keepRead_mem (s : State) (m : Nat) (c : Cmd) (k a : Nat) (bs : List Byte) :
    (s.keepRead m c k a bs).mem = s.mem := by
  simp [State.keepRead]

@[simp] theorem State.fwRead_wf {s : State} (h : s.mem.wf = true) (c : Cmd) (k a n : Nat) (r : Reply) :
    (s.fwRead c k a n r).1.mem.wf = true := by
  simp [State.fwRead, h]

@[simp] theorem State.fwWrite_wf {s : State} (h : s.mem.wf = true) (c : Cmd) (k a : Nat) (bs : List Byte) (r : Reply) :
    (s.fwWrite c k a bs r).1.mem.wf = true := by
  simp [State.fwWrite, h]

@[simp] theorem done_canonical {s : State} (h : s.mem.wf = true) : Outcome.Canonical (done s) := State.aciSettle_wf h

@[simp] theorem execNegotiate_canonical {s : State} (h : s.mem.wf = true) (handle : Half) :
    Outcome.Canonical (execNegotiate handle s) := by
  fun_cases execNegotiate <;> grind [Outcome.Canonical, done_canonical, State.finishWith_mem, State.finishOk_mem]

@[simp] theorem execIdentify_canonical {s : State} (h : s.mem.wf = true) (handle : Half) (w : Reply) :
    Outcome.Canonical (execIdentify handle w s) := by
  fun_cases execIdentify <;> grind [Outcome.Canonical, State.fwWrite_wf, done_canonical, State.finishWith_mem,
    State.finishOk_mem]

@[simp] theorem execCreateQp_canonical {s : State} (h : s.mem.wf = true) (handle : Half) :
    Outcome.Canonical (execCreateQp handle s) := by
  fun_cases execCreateQp <;> grind [Outcome.Canonical, done_canonical, State.finishWith_mem, State.finishOk_mem]

@[simp] theorem State.noPair_mem (s : State) (handle : Half) : (s.noPair handle).mem = s.mem := rfl

@[simp] theorem execDeleteQp_canonical {s : State} (h : s.mem.wf = true) (handle : Half) :
    Outcome.Canonical (execDeleteQp handle s) := by
  unfold execDeleteQp
  split
  · exact h
  · dsimp only
    split
    · simp [h]
    · split
      · simp [h]
      · refine done_canonical (State.wf_of_mem ?_ h)
        rw [State.flushWritten_mem]
        refine (State.foldl_mem _ (fun s k => ?_) _ _).trans (s.modPair_mem ..)
        split <;> simp

@[simp] theorem execSetCoalesce_canonical {s : State} (h : s.mem.wf = true) (handle : Half) :
    Outcome.Canonical (execSetCoalesce handle s) := by
  fun_cases execSetCoalesce <;> grind [Outcome.Canonical, done_canonical, State.noPair_mem, State.modPair_mem,
    State.cqInterrupt_mem, State.finishOk_mem]

@[simp] theorem execDiagOpen_canonical {s : State} (h : s.mem.wf = true) (handle : Half) :
    Outcome.Canonical (execDiagOpen handle s) := by
  fun_cases execDiagOpen <;> simp [h]

@[simp] theorem execDiagClose_canonical {s : State} (h : s.mem.wf = true) (handle : Half) :
    Outcome.Canonical (execDiagClose handle s) := by
  fun_cases execDiagClose <;> simp [h]

@[simp] theorem State.wholeMilestones_mem (s : State) (n : Nat) : (s.wholeMilestones n).1.mem = s.mem := by
  unfold State.wholeMilestones
  split <;> simp

@[simp] theorem State.copyMaster_mem (s : State) (c : Cmd) : (s.copyMaster c).1.mem = s.mem := by
  unfold State.copyMaster
  split <;> simp

@[simp] theorem State.endCopy_mem (s : State) (c : Cmd) (n did : Nat) (failed : Bool) :
    (s.endCopy c n did failed).mem = s.mem := by
  simp [State.endCopy, apply_ite State.mem]

@[simp] theorem State.copyEnds_canonical {x : CopyRun} (h : x.s.mem.wf = true) (c : Cmd) (n : Nat) :
    Outcome.Canonical (State.copyEnds c n x) := by
  unfold State.copyEnds
  split <;> simp [h]

theorem copyPieces_wf {keep : State → Nat → Nat → List Byte → State} {src : State → Cmd → Nat → Nat → Nat → State × FwAns}
    (hkeep : ∀ s m o bs, s.mem.wf = true → (keep s m o bs).mem.wf = true)
    (hsrc : ∀ s c m o n, s.mem.wf = true → (src s c m o n).1.mem.wf = true) (c : Cmd) (dstPtr dst : Nat) (accepted : Reply)
    {x : CopyRun} (h : x.s.mem.wf = true) (ps : List (Nat × Nat)) :
    (copyPieces keep c dstPtr dst accepted src x ps).s.mem.wf = true := by
  fun_induction copyPieces <;> grind [State.copyMaster_mem, State.writeBy_wf]

@[simp] theorem execCopy_canonical {s : State} (h : s.mem.wf = true) (handle : Half) (stopAt : Nat) (r accepted : Reply) :
    Outcome.Canonical (execCopy handle stopAt r accepted s) := by
  unfold execCopy
  split
  · exact h
  · exact State.copyEnds_canonical (copyPieces_wf (fun s m o bs h => by simp [h]) (fun s c m o n h => by simp [h]) _ _ _ _
    h _) ..

@[simp] theorem execFill_canonical {s : State} (h : s.mem.wf = true) (handle : Half) (stopAt : Nat) (accepted : Reply) :
    Outcome.Canonical (execFill handle stopAt accepted s) := by
  unfold execFill
  split
  · exact h
  · exact State.copyEnds_canonical (copyPieces_wf (fun s m o bs h => h) (fun s c m o n h => h) _ _ _ _ h _) ..

@[simp] theorem State.computeTables_mem (s : State) (f : Fabric) (bank : Nat) : (s.computeTables f bank).mem = s.mem := rfl

/-! ## The commands on the flash (18) -/

@[simp] theorem State.endStore_mem (s : State) : s.endStore.mem = s.mem := by
  fun_cases State.endStore <;> simp

@[simp] theorem State.program_mem (s : State) (f : Flash → Flash) : (s.program f).mem = s.mem := by
  simp [State.program]

@[simp] theorem State.storeWear_mem (s : State) : s.storeWear.mem = s.mem := by
  simp [State.storeWear]

@[simp] theorem State.storeOff_mem (s : State) : s.storeOff.mem = s.mem := by
  simp [State.storeOff, apply_ite State.mem]

@[simp] theorem execFwStage_canonical {s : State} (h : s.mem.wf = true) (handle : Half) :
    Outcome.Canonical (execFwStage handle s) := by
  fun_cases execFwStage <;> grind [Outcome.Canonical, State.program_mem, done_canonical, State.finishOk_mem,
    State.modCmd_mem]

@[simp] theorem execFwStagePiece_canonical {s : State} (h : s.mem.wf = true) (handle : Half) (r : Reply)
    (readBackOk : Bool) : Outcome.Canonical (execFwStagePiece handle r readBackOk s) := by
  fun_cases execFwStagePiece <;> grind [Outcome.Canonical, State.fwRead_wf, done_canonical, State.finish_mem,
    State.program_mem, State.tick_mem, State.modCmd_mem]

@[simp] theorem execFwActivate_canonical {s : State} (h : s.mem.wf = true) (handle : Half) :
    Outcome.Canonical (execFwActivate handle s) := by
  fun_cases execFwActivate <;> grind [Outcome.Canonical, done_canonical, State.finishWith_mem, State.program_mem,
    State.finishOk_mem, State.storeWear_mem, State.aciSettle_wf]

@[simp] theorem execSettingsRead_canonical {s : State} (h : s.mem.wf = true) (handle : Half) (w : Reply) :
    Outcome.Canonical (execSettingsRead handle w s) := by
  fun_cases execSettingsRead <;> grind [Outcome.Canonical, done_canonical, State.finishOk_mem, State.fwWrite_wf,
    State.finishWith_mem, State.finish_mem]

@[simp] theorem State.finishBad_mem (s : State) (h : Half) (i : Nat) : (s.finishBad h i).mem = s.mem := rfl

@[simp] theorem execSettingsWrite_canonical {s : State} (h : s.mem.wf = true) (handle : Half) (r : Reply) :
    Outcome.Canonical (execSettingsWrite handle r s) := by
  fun_cases execSettingsWrite <;> grind [Outcome.Canonical, State.fwRead_wf, done_canonical, State.finishWith_mem,
    State.finishBad_mem, State.finishOk_mem]

@[simp] theorem execSettingsCommit_canonical {s : State} (h : s.mem.wf = true) (handle : Half) :
    Outcome.Canonical (execSettingsCommit handle s) := by
  unfold execSettingsCommit
  split <;> simp [h]

@[simp] theorem execCalRead_canonical {s : State} (h : s.mem.wf = true) (handle : Half) (w : Reply) :
    Outcome.Canonical (execCalRead handle w s) := by
  fun_cases execCalRead <;> grind [Outcome.Canonical, done_canonical, State.finishWith_mem, State.fwWrite_wf,
    State.finishOk_mem]

@[simp] theorem execCalWrite_canonical {s : State} (h : s.mem.wf = true) (handle : Half) (r : Reply) (readBackOk : Bool) :
    Outcome.Canonical (execCalWrite handle r readBackOk s) := by
  fun_cases execCalWrite <;> grind [Outcome.Canonical, State.fwRead_wf, done_canonical, State.finishWith_mem,
    State.finishBad_mem, State.finishOk_mem, State.program_mem]

@[simp] theorem State.cutWrites_mem (s : State) : s.cutWrites.mem = s.mem := by
  fun_cases State.cutWrites <;> simp

/-! ## The Tchigor link (16 R320 to R331) -/

theorem State.PortsOnly.mem {u s : State} (h : u.PortsOnly s) : u.mem = s.mem := by rw [h]

@[simp] theorem State.sendFrame_mem (s : State) (p : PortId) (slots : List FlitSlot) (cvc ccnt : Nat) :
    (s.sendFrame p slots cvc ccnt).mem = s.mem :=
  (s.sendFrame_portsOnly ..).mem

@[simp] theorem State.sendSlots_mem (s : State) (p : PortId) (v : Nat) (slots : List FlitSlot) :
    (s.sendSlots p v slots).mem = s.mem :=
  (s.sendSlots_portsOnly ..).mem

@[simp] theorem State.sendIdle_mem (s : State) (p : PortId) (nak : Bool) : (s.sendIdle p nak).mem = s.mem := rfl

@[simp] theorem State.markSent_mem (s : State) (x : Packet) : (s.markSent x).mem = s.mem := by
  unfold State.markSent
  split <;> simp

@[simp] theorem State.sendPacket_mem (s : State) (p : PortId) (x : Packet) : (s.sendPacket p x).mem = s.mem := by
  simp [State.sendPacket]

@[simp] theorem State.pumpOne_mem (s : State) (p : PortId) (blocked : List Nat) (x : Packet) :
    (s.pumpOne p blocked x).1.mem = s.mem := by
  unfold State.pumpOne
  dsimp only
  (repeat' split) <;> simp [*]

@[simp] theorem State.pump_mem (s : State) (p : PortId) : (s.pump p).1.mem = s.mem := by
  unfold State.pump
  split
  · rfl
  · refine (State.foldl_fst_mem _ (fun a x => ?_) _ _).trans (s.modTgl_mem ..)
    exact a.1.pumpOne_mem p a.2.1 x

@[simp] theorem State.pumpMgt_mem (s : State) (p : PortId) : (s.pumpMgt p).mem = s.mem := by
  unfold State.pumpMgt
  split
  · rfl
  · refine State.foldl_fst_mem _ (fun a x => ?_) _ _
    dsimp only
    split <;> simp

@[simp] theorem State.mgtSend_mem (s : State) (p : PortId) (opc : BitVec 8) (h : MgtHdr) (payload : List Byte) :
    (s.mgtSend p opc h payload).mem = s.mem := by
  unfold State.mgtSend
  split <;> simp

@[simp] theorem State.returnCredits_mem (s : State) (p : PortId) : (s.returnCredits p).mem = s.mem :=
  (s.returnCredits_portsOnly p).mem

@[simp] theorem State.freeSlots_mem (s : State) (p : PortId) (v slots : Nat) : (s.freeSlots p v slots).mem = s.mem := by
  simp [State.freeSlots]

@[simp] theorem State.takeRx_mem (s : State) (p : PortId) (r : RxMsg) : (s.takeRx p r).mem = s.mem :=
  (s.takeRx_portsOnly p r).mem

@[simp] theorem State.forward_mem (s : State) (x : Packet) : (s.forward x).1.mem = s.mem := by
  unfold State.forward
  split <;> simp

@[simp] theorem State.countRefuse_mem (s : State) (p : Option PortId) : (s.countRefuse p).mem = s.mem := by
  unfold State.countRefuse
  dsimp only
  (repeat' split) <;> simp [*]

@[simp] theorem State.answerTid_wf {s : State} (h : s.mem.wf = true) (tid : BitVec 16) (r : Reply) :
    (s.answerTid tid r).mem.wf = true := by
  unfold State.answerTid
  split <;> simp [h]

@[simp] theorem State.refuseOne_wf {s : State} (h : s.mem.wf = true) (x : Refused) : (s.refuseOne x).mem.wf = true := by
  have hcount : ∀ (rs : List Refused) (u : State), (rs.foldl (fun s r => s.countRefuse r.port) u).mem = u.mem := fun rs u =>
    State.foldl_mem _ (fun s r => s.countRefuse_mem r.port) rs u
  fun_cases State.refuseOne <;> grind [State.countRefuse_mem, State.answerTid_wf, State.forward_mem]

@[simp] theorem State.refuseAll_wf {s : State} (h : s.mem.wf = true) (rs : List Refused) :
    (s.refuseAll rs).mem.wf = true :=
  State.foldl_wf h (fun s r h => State.refuseOne_wf h r) rs

@[simp] theorem State.routeOn_wf {s : State} (h : s.mem.wf = true) (x : Packet) : (s.routeOn x).mem.wf = true := by
  simp [State.routeOn, h]

@[simp] theorem State.flushPort_wf {s : State} (h : s.mem.wf = true) (p : PortId) : (s.flushPort p).mem.wf = true := by
  simp [State.flushPort, h]

@[simp] theorem State.setRel_mem (s : State) (p : PortId) (r : BitVec 4) : (s.setRel p r).mem = s.mem := by
  unfold State.setRel
  split <;> simp

@[simp] theorem State.startTraining_mem (s : State) (p : PortId) : (s.startTraining p).mem = s.mem := by
  simp [State.startTraining, apply_ite State.mem]

@[simp] theorem State.tglDown_wf {s : State} (h : s.mem.wf = true) (p : PortId) (reason : BitVec 4) :
    (s.tglDown p reason).mem.wf = true := by
  have hroute : ∀ (xs : List Packet) {u : State}, u.mem.wf = true → (xs.foldl (fun s x => s.routeOn x) u).mem.wf = true :=
    fun xs u hu => State.foldl_wf hu (fun s x h => State.routeOn_wf h x) xs
  unfold State.tglDown
  dsimp only
  split <;> simp [h, hroute]

@[simp] theorem State.tglUp_mem (s : State) (p : PortId) (f : TrainFrame) : (s.tglUp p f).mem = s.mem := by
  simp [State.tglUp, apply_ite State.mem]

@[simp] theorem execTrainingFrame_canonical {s : State} (h : s.mem.wf = true) (p : PortId) (seen : TrainSeen) :
    Outcome.Canonical (execTrainingFrame p seen s) := by
  unfold execTrainingFrame
  dsimp only
  (repeat' split) <;> simp [*]

@[simp] theorem execTrainingTimeout_canonical {s : State} (h : s.mem.wf = true) (p : PortId) :
    Outcome.Canonical (execTrainingTimeout p s) := by
  unfold execTrainingTimeout
  split <;> simp [h]

@[simp] theorem execFecLockLoss_canonical {s : State} (h : s.mem.wf = true) (p : PortId) :
    Outcome.Canonical (execFecLockLoss p s) := by
  unfold execFecLockLoss
  split <;> simp [h]

@[simp] theorem execHeartbeatMiss_canonical {s : State} (h : s.mem.wf = true) (p : PortId) :
    Outcome.Canonical (execHeartbeatMiss p s) := by
  unfold execHeartbeatMiss
  split <;> simp [h]

@[simp] theorem State.tglCtl_wf {s : State} (h : s.mem.wf = true) (p : PortId) (en : Bool) :
    (s.tglCtl p en).mem.wf = true := by
  unfold State.tglCtl
  dsimp only
  (repeat' split) <;> simp [*]

@[simp] theorem State.replay_wf {s : State} (h : s.mem.wf = true) (p : PortId) : (s.replay p).mem.wf = true := by
  fun_cases State.replay
  case case3 => exact State.wf_of_mem ((State.foldl_mem _ (fun s f => s.emit_mem _) _ _).trans (s.modTgl_mem ..)) h
  all_goals simp [h]

@[simp] theorem State.takeAck_wf {s : State} (h : s.mem.wf = true) (p : PortId) (v : Nat) :
    (s.takeAck p v).mem.wf = true := by
  unfold State.takeAck
  dsimp only
  (repeat' split) <;> simp [*]

@[simp] theorem State.discardFrame_mem (s : State) (p : PortId) (nak : Bool) : (s.discardFrame p nak).mem = s.mem := rfl

@[simp] theorem State.acceptFrame_wf {s : State} (h : s.mem.wf = true) (p : PortId) (frame : List Byte) (seq : Nat) :
    (s.acceptFrame p frame seq).mem.wf = true := by
  simp [State.acceptFrame, h]

@[simp] theorem execFrameReceive_canonical {s : State} (h : s.mem.wf = true) (p : PortId) (frame : List Byte)
    (fecOk : Bool) : Outcome.Canonical (execFrameReceive p frame fecOk s) := by
  fun_cases execFrameReceive <;> simp [h]

@[simp] theorem State.refuseAt_wf {s : State} (h : s.mem.wf = true) (x : Packet) (reason : Nat) :
    (s.refuseAt x reason).mem.wf = true := by
  simp [State.refuseAt, h]

@[simp] theorem State.fabricAtomic_wf {s : State} (h : s.mem.wf = true) (off : Nat) (m : Msg) :
    (s.fabricAtomic off m).1.mem.wf = true := by
  unfold State.fabricAtomic
  split <;> simp [h]

@[simp] theorem State.remoteDone_wf {s : State} (h : s.mem.wf = true) (opc : BitVec 8) (m : Msg) (bs : List Byte)
    (bad : Bool) : (s.remoteDone opc m bs bad).mem.wf = true := by
  simp [State.remoteDone, h]

@[simp] theorem State.remoteAtomic_wf {s : State} (h : s.mem.wf = true) (x : Packet) (off : Nat) :
    (s.remoteAtomic x off).mem.wf = true := by
  unfold State.remoteAtomic
  split <;> simp [h]

@[simp] theorem State.remoteServed_wf {s : State} (h : s.mem.wf = true) (src : BitVec 20) (tid : BitVec 16)
    (line : Nat) (a : ReadAns) : (s.remoteServed src tid line a).mem.wf = true := by
  fun_cases State.remoteServed <;> simp [h]

@[simp] theorem State.remoteDdr_wf {s : State} (h : s.mem.wf = true) (p : PortId) (x : Packet) (off : Nat) :
    (s.remoteDdr p x off).mem.wf = true := by
  refine State.foldl_wf (by exact h) (fun s r h => ?_) _
  dsimp only
  split <;> grind [State.homeAccess_wf, State.remoteServed_wf]

@[simp] theorem State.remoteMem_wf {s : State} (h : s.mem.wf = true) (p : PortId) (x : Packet) :
    (s.remoteMem p x).mem.wf = true := by
  unfold State.remoteMem
  dsimp only
  (repeat' split) <;> simp [*]

/-! ## Management of the fabric (16 R338 to R349) -/

@[simp] theorem State.sendLink_mem (s : State) (p : PortId) (opc : BitVec 8) (payload : List Byte) :
    (s.sendLink p opc payload).mem = s.mem := by
  simp [State.sendLink]

@[simp] theorem State.relUpdate_wf {s : State} (h : s.mem.wf = true) (p : PortId) : (s.relUpdate p).mem.wf = true := by
  fun_cases State.relUpdate <;> grind [State.modTgl_mem, State.flushPort_wf, State.setRel_mem]

@[simp] theorem State.commitWaymark_mem (s : State) (epoch : Word) (digest : Vector Word 2) (f : Fabric)
    (bytes : List Byte) : (s.commitWaymark epoch digest f bytes).mem = s.mem := rfl

@[simp] theorem State.commitStaged_mem (s : State) : s.commitStaged.mem = s.mem := by
  unfold State.commitStaged
  split <;> simp

@[simp] theorem State.stage_mem (s : State) (e : Word) (f : Fabric) (bytes : List Byte) :
    (s.stage e f bytes).mem = s.mem := rfl

@[simp] theorem State.forgetPassed_mem (s : State) (e : Word) : (s.forgetPassed e).mem = s.mem := rfl

@[simp] theorem State.dropStaged_mem (s : State) : s.dropStaged.mem = s.mem := rfl

@[simp] theorem State.askPull_mem (s : State) (x : Pull) : (s.askPull x).mem = s.mem := by
  simp [State.askPull]

@[simp] theorem State.setPull_mem (s : State) (old new : Pull) : (s.setPull old new).mem = s.mem := rfl

@[simp] theorem State.askNext_mem (s : State) (x : Pull) : (s.askNext x).mem = s.mem := by
  simp [State.askNext]

@[simp] theorem State.startPull_mem (s : State) (p : PortId) (e : Word) : (s.startPull p e).mem = s.mem := by
  fun_cases State.startPull <;> simp

@[simp] theorem State.addPull_mem (s : State) (x : Pull) : (s.addPull x).mem = s.mem := by
  simp [State.addPull]

@[simp] theorem State.endPull_mem (s : State) (x : Pull) : (s.endPull x).mem = s.mem := by
  simp [State.endPull]

@[simp] theorem State.culPull_mem (s : State) : s.culPull.mem = s.mem := by
  unfold State.culPull
  dsimp only
  (repeat' split) <;> simp [*]

@[simp] theorem State.culRecord_mem (s : State) (x : Pull) : (s.culRecord x).mem = s.mem := by
  fun_cases State.culRecord <;> simp

@[simp] theorem State.addKey_mem (s : State) (h : MgtHdr) (p : Option PortId) : (s.addKey h p).mem = s.mem := rfl

/-- Management messages sent at several ports leave memory as it is. -/
theorem State.foldl_mgtSend_mem (opc : BitVec 8) (h : MgtHdr) (payload : List Byte) (ps : List PortId) (s : State) :
    (ps.foldl (fun s q => s.mgtSend q opc h payload) s).mem = s.mem :=
  State.foldl_mem _ (fun s q => s.mgtSend_mem q opc h payload) ps s

@[simp] theorem State.floodOn_mem (s : State) (p : PortId) (opc : BitVec 8) (h : MgtHdr) (payload : List Byte) :
    (s.floodOn p opc h payload).mem = s.mem := by
  unfold State.floodOn
  split
  · rfl
  · exact State.foldl_mgtSend_mem ..

@[simp] theorem State.flood_mem (s : State) (opc : BitVec 8) (payload : List Byte) :
    (s.flood opc payload).1.mem = s.mem :=
  State.foldl_mgtSend_mem ..

@[simp] theorem State.reverse_mem (s : State) (opc : BitVec 8) (h : MgtHdr) (payload : List Byte) :
    (s.reverse opc h payload).mem = s.mem := by
  fun_cases State.reverse <;> simp

@[simp] theorem State.floodIn_mem (s : State) (p : PortId) (h : MgtHdr) (r : RxMsg) : (s.floodIn p h r).1.mem = s.mem := by
  unfold State.floodIn
  dsimp only
  split <;> simp

@[simp] theorem execFloodKeyExpiry_canonical {s : State} (h : s.mem.wf = true) (origin : Word) (fseq : BitVec 32) :
    Outcome.Canonical (execFloodKeyExpiry origin fseq s) := by
  unfold execFloodKeyExpiry
  split <;> simp [h]

@[simp] theorem State.floodAbort_mem (s : State) (e : Word) : (s.floodAbort e).mem = s.mem := by
  simp [State.floodAbort]

@[simp] theorem State.endProposal_mem (s : State) (x : Proposal) (st : BitVec 16) : (s.endProposal x st).mem = s.mem := by
  unfold State.endProposal
  split <;> simp

@[simp] theorem State.setProposal_mem (s : State) (old new : Proposal) : (s.setProposal old new).mem = s.mem := rfl

@[simp] theorem State.giveUp_mem (s : State) (x : Proposal) (st : BitVec 16) : (s.giveUp x st).mem = s.mem := by
  simp [State.giveUp, apply_ite State.mem]

@[simp] theorem State.commitOwn_mem (s : State) (e : Word) : (s.commitOwn e).mem = s.mem := by
  simp [State.commitOwn]

@[simp] theorem State.judgeVotes_mem (s : State) (x : Proposal) : (s.judgeVotes x).mem = s.mem := by
  unfold State.judgeVotes
  (repeat' split) <;> simp [*]

@[simp] theorem State.countVote_mem (s : State) (fseq : BitVec 32) (e serial : Word) (result : Nat) :
    (s.countVote fseq e serial result).mem = s.mem := by
  unfold State.countVote
  dsimp only
  (repeat' split) <;> simp [*]

@[simp] theorem State.recordDigest_mem (s : State) (bytes : List Byte) : (s.recordDigest bytes).1.mem = s.mem := by
  unfold State.recordDigest
  split <;> simp

@[simp] theorem State.stageOwn_mem (s : State) (e : Word) (d : Vector Word 2) (bytes : List Byte) :
    (s.stageOwn e d bytes).mem = s.mem := by
  fun_cases State.stageOwn <;> simp

@[simp] theorem State.proposeRecord_mem (s : State) (handle : Option Half) (bytes : List Byte) :
    (s.proposeRecord handle bytes).mem = s.mem := by
  simp [State.proposeRecord]

@[simp] theorem State.voteOn_mem (s : State) (x : Pull) (bytes : Option (List Byte)) : (s.voteOn x bytes).mem = s.mem := by
  unfold State.voteOn
  (repeat' split) <;> simp [*]

@[simp] theorem execWaymarkPropose_canonical {s : State} (h : s.mem.wf = true) (handle : Half) (r : Reply) :
    Outcome.Canonical (execWaymarkPropose handle r s) := by
  fun_cases execWaymarkPropose <;> grind [Outcome.Canonical, done_canonical, State.finishWith_mem, State.fwRead_wf,
    State.proposeRecord_mem, State.modCmd_mem]

@[simp] theorem execWaymarkCommit_canonical {s : State} (h : s.mem.wf = true) (handle : Half) :
    Outcome.Canonical (execWaymarkCommit handle s) := by
  fun_cases execWaymarkCommit <;> simp [h]

@[simp] theorem execPropose_canonical {s : State} (hmem : s.mem.wf = true) (p : PortId) (h : MgtHdr) (e d0 d1 : Word)
    (length : Half) : Outcome.Canonical (execPropose p h e d0 d1 length s) := by
  fun_cases execPropose <;> grind [Outcome.Canonical, State.floodIn_mem, State.addPull_mem]

@[simp] theorem execVote_canonical {s : State} (hmem : s.mem.wf = true) (p : PortId) (h : MgtHdr) (e serial : Word)
    (result : Byte) : Outcome.Canonical (execVote p h e serial result s) := by
  fun_cases execVote <;> grind [Outcome.Canonical, State.takeRx_mem, done_canonical, State.countVote_mem, State.reverse_mem]

@[simp] theorem execVoteTimeout_canonical {s : State} (h : s.mem.wf = true) : Outcome.Canonical (execVoteTimeout s) := by
  unfold execVoteTimeout
  split <;> simp [h]

@[simp] theorem execCommit_canonical {s : State} (hmem : s.mem.wf = true) (p : PortId) (h : MgtHdr) (e d0 d1 : Word) :
    Outcome.Canonical (execCommit p h e d0 d1 s) := by
  fun_cases execCommit <;> grind [Outcome.Canonical, State.floodIn_mem, State.floodOn_mem, State.commitStaged_mem]

@[simp] theorem execAbort_canonical {s : State} (hmem : s.mem.wf = true) (p : PortId) (h : MgtHdr) (e : Word) :
    Outcome.Canonical (execAbort p h e s) := by
  fun_cases execAbort <;> grind [Outcome.Canonical, State.floodIn_mem, State.forgetPassed_mem, State.floodOn_mem,
    State.dropStaged_mem]

@[simp] theorem execStageExpiry_canonical {s : State} (h : s.mem.wf = true) : Outcome.Canonical (execStageExpiry s) := by
  unfold execStageExpiry
  split <;> simp [h]

@[simp] theorem execFsrReq_canonical {s : State} (h : s.mem.wf = true) (p : PortId) (epoch : Word)
    (offset count : Half) (which : Byte) : Outcome.Canonical (execFsrReq p epoch offset count which s) := by
  unfold execFsrReq
  split
  · exact h
  · dsimp only
    split
    · simp [h]
    · exact State.wf_of_mem ((State.foldl_mem _ (fun s i => s.sendLink_mem ..) _ _).trans (s.takeRx_mem ..)) h

@[simp] theorem State.finishPull_mem (s : State) (x : Pull) (ok : Bool) : (s.finishPull x ok).mem = s.mem := by
  simp [State.finishPull, apply_ite State.mem]

@[simp] theorem execFsrData_canonical {s : State} (h : s.mem.wf = true) (p : PortId) (epoch : Word)
    (offset length : Half) (bytes : List Byte) : Outcome.Canonical (execFsrData p epoch offset length bytes s) := by
  unfold execFsrData
  dsimp only
  (repeat' split) <;> simp [*]

@[simp] theorem execFsrRetry_canonical {s : State} (h : s.mem.wf = true) (p : PortId) (epoch : Word) :
    Outcome.Canonical (execFsrRetry p epoch s) := by
  fun_cases execFsrRetry <;> simp [h]

@[simp] theorem execHeartbeat_canonical {s : State} (h : s.mem.wf = true) (p : PortId) (hb : HeartbeatMsg) :
    Outcome.Canonical (execHeartbeat p hb s) := by
  unfold execHeartbeat
  dsimp only
  (repeat' split) <;> simp [*]

@[simp] theorem execCatchingUpExpiry_canonical {s : State} (h : s.mem.wf = true) (p : PortId) :
    Outcome.Canonical (execCatchingUpExpiry p s) := by
  unfold execCatchingUpExpiry
  split <;> simp [h]

@[simp] theorem State.sendNeigh_mem (s : State) (r : Neigh) : (s.sendNeigh r).mem = s.mem := by
  unfold State.sendNeigh
  split <;> simp

@[simp] theorem State.sendHello_mem (s : State) (but : Option PortId) : (s.sendHello but).mem = s.mem :=
  State.foldl_mem _ (fun s q => s.sendLink_mem ..) _ s

@[simp] theorem State.startDiscovery_mem (s : State) : s.startDiscovery.mem = s.mem := by
  simp [State.startDiscovery]

@[simp] theorem execDiscoveryStart_canonical {s : State} (h : s.mem.wf = true) :
    Outcome.Canonical (execDiscoveryStart s) := by
  unfold execDiscoveryStart
  split <;> simp [h]

@[simp] theorem State.takeLower_mem (s : State) (p : PortId) (lowest : Word) : (s.takeLower p lowest).mem = s.mem := by
  unfold State.takeLower
  dsimp only
  split
  · exact (State.foldl_mem _ (fun s r => s.sendNeigh_mem r) _ _).trans (State.sendHello_mem _ _)
  · exact State.sendHello_mem _ _

@[simp] theorem execHello_canonical {s : State} (h : s.mem.wf = true) (p : PortId) (serial lowest : Word)
    (node : Half) (port : Byte) : Outcome.Canonical (execHello p serial lowest node port s) := by
  unfold execHello
  dsimp only
  (repeat' split) <;> simp [*]

@[simp] theorem execNeigh_canonical {s : State} (h : s.mem.wf = true) (p : PortId) (r : Neigh) :
    Outcome.Canonical (execNeigh p r s) := by
  unfold execNeigh
  split <;> simp [h]

@[simp] theorem execDiscoveryRoot_canonical {s : State} (h : s.mem.wf = true) :
    Outcome.Canonical (execDiscoveryRoot s) := by
  unfold execDiscoveryRoot
  split <;> simp [h]

@[simp] theorem execFabricSurvey_canonical {s : State} (h : s.mem.wf = true) (handle : Half) :
    Outcome.Canonical (execFabricSurvey handle s) := by
  fun_cases execFabricSurvey <;> grind [Outcome.Canonical, done_canonical, State.finishWith_mem, State.flood_mem,
    State.modCmd_mem]

@[simp] theorem execSurveyReq_canonical {s : State} (hmem : s.mem.wf = true) (p : PortId) (h : MgtHdr) (epoch : Word) :
    Outcome.Canonical (execSurveyReq p h epoch s) := by
  fun_cases execSurveyReq <;> grind [Outcome.Canonical, State.floodIn_mem, State.reverse_mem, State.floodOn_mem]

@[simp] theorem execSurveyRsp_canonical {s : State} (hmem : s.mem.wf = true) (p : PortId) (h : MgtHdr) (r : SurveyRec) :
    Outcome.Canonical (execSurveyRsp p h r s) := by
  unfold execSurveyRsp
  dsimp only
  (repeat' split) <;> simp [*]

@[simp] theorem execSurveyComplete_canonical {s : State} (h : s.mem.wf = true) (handle : Half) (timedOut : Bool)
    (w : Reply) : Outcome.Canonical (execSurveyComplete handle timedOut w s) := by
  fun_cases execSurveyComplete <;> grind [Outcome.Canonical, done_canonical, State.finish_mem, State.fwWrite_wf]

/-! ## The host link (15) -/

@[simp] theorem State.deliver_wf {s : State} (h : s.mem.wf = true) (d : Delivery) : (s.deliver d).mem.wf = true := by
  fun_cases State.deliver <;> simp [h]

/-- The answers of a home agent that are delivered one after another keep the canonical form. -/
theorem State.deliverAll_wf {s : State} (h : s.mem.wf = true) (ds : List Delivery) :
    (ds.foldl (fun s d => s.deliver d) s).mem.wf = true := State.foldl_wf h (fun s d h => State.deliver_wf h d) ds

@[simp] theorem State.release_wf {s : State} (h : s.mem.wf = true) (line : Nat) (released : Bool) :
    (s.release line released).mem.wf = true :=
  State.deliverAll_wf (State.releaseLine_wf h ..) _

@[simp] theorem State.releaseHeld_wf {s : State} (h : s.mem.wf = true) : s.releaseHeld.mem.wf = true :=
  State.deliverAll_wf (State.releaseAll_wf h) _

@[simp] theorem State.raiseHdm_mem (s : State) (k : Nat) : (s.raiseHdm k).mem = s.mem := by
  unfold State.raiseHdm
  split <;> simp

@[simp] theorem State.s2m_mem (s : State) (o : BitVec 2 → Out) : (s.s2m o).mem = s.mem := rfl

@[simp] theorem State.hdmPoison_mem (s : State) : s.hdmPoison.mem = s.mem := by
  unfold State.hdmPoison
  split <;> simp

@[simp] theorem State.hostMerge_wf {s : State} (h : s.mem.wf = true) (line : Nat) (be : BitVec 64) (bs : List Byte) :
    (s.hostMerge line be bs).mem.wf = true := by
  obtain ⟨u, bs', hu⟩ :
      ∃ u bs', ((s.ddrWake (line * 64) 64).checkDdr [line]).ddrBytes (line * 64) bs = (u, bs') := ⟨_, _, rfl⟩
  have huwf : u.mem.wf = true := by rw [State.mem_of_eq hu]; simp [h]
  obtain ⟨-, -, hddr⟩ := (Memory.wf_iff _).mp huwf
  simp only [State.hostMerge, hu]
  obtain ⟨hcells, hscr, -⟩ := (Memory.wf_iff _).mp
    (State.memWrite_wf huwf (line * 64) (mergeBytes be.toNat 0 (u.memRead (line * 64) 64) bs'))
  exact (Memory.wf_iff _).mpr ⟨hcells, hscr, hddr⟩

@[simp] theorem State.hostWrite_wf {s : State} (h : s.mem.wf = true) (q : HostReq) : (s.hostWrite q).mem.wf = true := by
  fun_cases State.hostWrite <;> grind [State.ddrApply_wf, State.hdmPoison_mem, State.raiseHdm_mem, State.poisonAt_wf,
    State.hostMerge_wf]

@[simp] theorem State.serveHost_wf {s : State} (h : s.mem.wf = true) (q : HostReq) : (s.serveHost q).mem.wf = true := by
  fun_cases State.serveHost <;> grind [State.hostWrite_wf, State.sfPut_mem, State.ddrServe_wf, State.raiseHdm_mem,
    State.s2m_mem, State.release_wf]

@[simp] theorem State.crossing_wf {s : State} (h : s.mem.wf = true) (q : HostReq) : (s.crossing q).mem.wf = true := by
  fun_cases State.crossing <;> grind [State.s2m_mem, State.hostWrite_wf, State.aciSettle_wf, State.release_wf,
    State.sfPut_mem]

@[simp] theorem State.evictFor_mem (s : State) (q : HostReq) : (s.evictFor q).1.mem = s.mem := by
  unfold State.evictFor
  (repeat' split) <;> simp [*]

@[simp] theorem State.tryHost_wf {s : State} (h : s.mem.wf = true) (q : HostReq) : (s.tryHost q).1.mem.wf = true := by
  fun_cases State.tryHost <;> simp [h]

@[simp] theorem State.takeHost_wf {s : State} (h : s.mem.wf = true) (q : HostReq) : (s.takeHost q).mem.wf = true := by
  fun_cases State.takeHost <;> grind [State.tryHost_wf]

@[simp] theorem State.retake_wf {s : State} (h : s.mem.wf = true) : s.retake.mem.wf = true :=
  State.foldl_wf (by exact h) (fun s q h => State.takeHost_wf h q) _

@[simp] theorem State.retakeAll_wf {s : State} (h : s.mem.wf = true) (x : Nat) : (s.retakeAll x).mem.wf = true := by
  fun_induction State.retakeAll <;> grind [State.retake_wf]

@[simp] theorem State.homeSettle_wf {s : State} (h : s.mem.wf = true) : s.homeSettle.mem.wf = true := by
  fun_cases State.homeSettle <;> grind [State.releaseHeld_wf, State.aciSettle_wf, State.retakeAll_wf]

@[simp] theorem State.outOfRange_mem (s : State) (q : HostReq) : (s.outOfRange q).mem = s.mem := by
  simp [State.outOfRange]

@[simp] theorem State.m2s_wf {s : State} (h : s.mem.wf = true) (hpa : Word) (mk : Nat → HostReq) :
    (s.m2s hpa mk).mem.wf = true := by
  fun_cases State.m2s <;> simp [h]

@[simp] theorem execMemRd_canonical {s : State} (h : s.mem.wf = true) (hpa : Word) (mv : Meta) :
    Outcome.Canonical (execMemRd hpa mv s) := by
  simp [execMemRd, h]

@[simp] theorem execMemRdData_canonical {s : State} (h : s.mem.wf = true) (hpa : Word) (mv : Meta) :
    Outcome.Canonical (execMemRdData hpa mv s) := by
  simp [execMemRdData, h]

@[simp] theorem execMemInv_canonical {s : State} (h : s.mem.wf = true) (hpa : Word) (mv : Meta) :
    Outcome.Canonical (execMemInv hpa mv s) := by
  simp [execMemInv, h]

@[simp] theorem execMemInvNt_canonical {s : State} (h : s.mem.wf = true) (hpa : Word) (mv : Meta) :
    Outcome.Canonical (execMemInvNt hpa mv s) := by
  simp [execMemInvNt, h]

@[simp] theorem execMemSpecRd_canonical {s : State} (h : s.mem.wf = true) (hpa : Word) :
    Outcome.Canonical (execMemSpecRd hpa s) := by
  simp [execMemSpecRd, h, apply_ite State.mem]

@[simp] theorem execMemClnEvct_canonical {s : State} (h : s.mem.wf = true) (hpa : Word) :
    Outcome.Canonical (execMemClnEvct hpa s) := by
  simp [execMemClnEvct, h]

@[simp] theorem execMemWr_canonical {s : State} (h : s.mem.wf = true) (hpa : Word) (mv : Meta) (data : List Byte)
    (poison : Bool) : Outcome.Canonical (execMemWr hpa mv data poison s) := by
  simp [execMemWr, h]

@[simp] theorem execMemWrPtl_canonical {s : State} (h : s.mem.wf = true) (hpa : Word) (mv : Meta) (be : BitVec 64)
    (data : List Byte) : Outcome.Canonical (execMemWrPtl hpa mv be data s) := by
  simp [execMemWrPtl, h]

@[simp] theorem execBiConflict_canonical {s : State} (h : s.mem.wf = true) (hpa : Word) :
    Outcome.Canonical (execBiConflict hpa s) := by
  simp [execBiConflict, h, apply_ite State.mem]

@[simp] theorem State.biRsp_wf {s : State} (h : s.mem.wf = true) (hpa : Word) (st : Option SfState) :
    (s.biRsp hpa st).mem.wf = true := by
  fun_cases State.biRsp <;> simp [h]

@[simp] theorem execHomeAgentAccess_canonical {s : State} (h : s.mem.wf = true) (tag offset : Nat) (op : LineOp)
    (found : EccFind) (device : BitVec 4) : Outcome.Canonical (execHomeAgentAccess tag offset op found device s) := by
  fun_cases execHomeAgentAccess <;> grind [State.ddrWake_mem, State.ddrUncorrectable_mem, State.serveOp_wf,
    State.poisonAt_wf, State.homeAccess_wf, State.emit_mem, Memory.wf_mk, Outcome.Canonical]

@[simp] theorem execH2dSnoop_canonical {s : State} (h : s.mem.wf = true) (link : LinkId) (hpa : Word) :
    Outcome.Canonical (execH2dSnoop link hpa s) := by
  simp [execH2dSnoop, h, apply_ite State.mem]

@[simp] theorem State.forgetHost_wf {s : State} (h : s.mem.wf = true) : s.forgetHost.mem.wf = true := by
  simp [State.forgetHost, h]

@[simp] theorem State.hdmDrop_wf {s : State} (h : s.mem.wf = true) : s.hdmDrop.mem.wf = true := by
  simp [State.hdmDrop, h]

@[simp] theorem execCxlLinkUp_canonical {s : State} (h : s.mem.wf = true) (link : LinkId) (width : BitVec 4)
    (speed : BitVec 4) (cxl : Bool) (cacheEn memEn msixEn fnMask : Bool) :
    Outcome.Canonical (execCxlLinkUp link width speed cxl cacheEn memEn msixEn fnMask s) := by
  unfold execCxlLinkUp
  dsimp only
  (repeat' split) <;> simp [*]

@[simp] theorem State.failD2h_wf {s : State} (h : s.mem.wf = true) (l : LinkId) (ds : List D2h) :
    (s.failD2h l ds).mem.wf = true := by
  refine State.foldl_wf (by split <;> simp [h]) (fun s d h => ?_) ds
  (repeat' split) <;> simp [h]

@[simp] theorem State.linkError_mem (s : State) (l : LinkId) : (s.linkError l).mem = s.mem := by
  simp [State.linkError]

@[simp] theorem State.linkDown_wf {s : State} (h : s.mem.wf = true) (l : LinkId) (uncorrectable : Bool) :
    (s.linkDown l uncorrectable).mem.wf = true := by
  fun_cases State.linkDown <;> grind [State.modLink_mem, State.raise_mem, State.linkError_mem, State.failD2h_wf,
    State.msixFlush_mem, State.aciSettle_wf, State.hdmDrop_wf]

@[simp] theorem execPerstN_canonical {s : State} (h : s.mem.wf = true) (port : Fin 2) :
    Outcome.Canonical (execPerstN port s) :=
  State.foldl_wf h (fun s l h => State.linkDown_wf h l false) _

@[simp] theorem execD2hResponse_canonical {s : State} (h : s.mem.wf = true) (link : LinkId) (tag : Nat) (r : Reply) :
    Outcome.Canonical (execD2hResponse link tag r s) := by
  unfold execD2hResponse
  (repeat' split) <;> simp [*]

@[simp] theorem State.decoderWrite_wf {s : State} (h : s.mem.wf = true) (r : HdmRegs) :
    (s.decoderWrite r).mem.wf = true := by
  have hrange : ∀ (qs : List HostReq) (u : State), (qs.foldl (fun s q => s.outOfRange q) u).mem = u.mem := fun qs u =>
    State.foldl_mem _ (fun s q => s.outOfRange_mem q) qs u
  fun_cases State.decoderWrite <;> simp +zetaDelta [h]
  split <;> simp [h, hrange]

@[simp] theorem execDecoderCommit_canonical {s : State} (h : s.mem.wf = true) (base size : Word) (ways1 : Bool)
    (dpaSkip : Word) (lockOnCommit commit : Bool) :
    Outcome.Canonical (execDecoderCommit base size ways1 dpaSkip lockOnCommit commit s) := by
  unfold execDecoderCommit
  split <;> simp [h]

@[simp] theorem execMsixUnmask_canonical {s : State} (h : s.mem.wf = true) (vec : Fin 2048) :
    Outcome.Canonical (execMsixUnmask vec s) := by
  unfold execMsixUnmask
  split <;> simp [h]

@[simp] theorem execLinkLevelRetry_canonical {s : State} (h : s.mem.wf = true) (link : LinkId) (fecCorrected : Bool) :
    Outcome.Canonical (execLinkLevelRetry link fecCorrected s) := by
  unfold execLinkLevelRetry
  (repeat' split) <;> simp [*]

/-! ## The junction (14) -/

@[simp] theorem State.arrive_mem (s : State) (j : Junction) (t : Nat) (rs : List JReq) : (s.arrive j t rs).mem = s.mem := by
  unfold State.arrive
  dsimp only
  (repeat' split) <;> simp [*]

@[simp] theorem execJunctionDecision_canonical {s : State} (h : s.mem.wf = true) (j : Junction) (t : Nat) :
    Outcome.Canonical (execJunctionDecision j t s) := by
  fun_cases execJunctionDecision <;> simp [h]

@[simp] theorem State.passGrant_mem (s : State) (j : Junction) (t : Nat) (r : JReq) : (s.passGrant j t r).mem = s.mem := rfl

@[simp] theorem execGrantEnd_canonical {s : State} (h : s.mem.wf = true) (j : Junction) (t : Nat) :
    Outcome.Canonical (execGrantEnd j t s) := by
  fun_cases execGrantEnd <;> simp [h]

@[simp] theorem execRequestArrival_canonical {s : State} (h : s.mem.wf = true) (j : Junction) (t : Nat) (rs : List JReq) :
    Outcome.Canonical (execRequestArrival j t rs s) := by
  unfold execRequestArrival
  (repeat' split) <;> simp [*]

@[simp] theorem State.releaseLaybys_mem (s : State) (j : Junction) (w : Nat) : (s.releaseLaybys j w).mem = s.mem :=
  State.foldl_mem _ (fun s i => by dsimp only; split <;> simp) _ s

@[simp] theorem State.setPri_mem (s : State) (j : Junction) (m w : Nat) (v : Half) : (s.setPri j m w v).mem = s.mem := by
  unfold State.setPri
  split <;> simp

/-! ## Clocks, power and heat (17) -/

@[simp] theorem State.switchExit_mem (s : State) (n : CtrlId) : (s.switchExit n).mem = s.mem := by
  unfold State.switchExit
  split <;> simp

@[simp] theorem State.trainAll_mem (s : State) : s.trainAll.mem = s.mem :=
  State.foldl_mem _ (fun s p => s.startTraining_mem p) _ s

@[simp] theorem State.warm_mem (s : State) : s.warm.mem = s.mem := by
  unfold State.warm
  split <;> simp

@[simp] theorem execClockSwitchEnd_canonical {s : State} (h : s.mem.wf = true) (k : PllId) (present : Bool) :
    Outcome.Canonical (execClockSwitchEnd k present s) := by
  have hexit : ∀ (ns : List CtrlId) (u : State), (ns.foldl (fun s n => s.switchExit n) u).mem = u.mem := fun ns u =>
    State.foldl_mem _ (fun s n => s.switchExit_mem n) ns u
  unfold execClockSwitchEnd
  split
  · exact h
  · dsimp only
    split <;> simp [h, hexit]

@[simp] theorem State.tglDropped_wf {s : State} (h : s.mem.wf = true) (p : PortId) : (s.tglDropped p).mem.wf = true := by
  unfold State.tglDropped
  split <;> simp [h]

/-- Links that fall one after another keep the canonical form. -/
theorem State.linksDown_wf {s : State} (h : s.mem.wf = true) (ls : List LinkId) :
    (ls.foldl (fun s l => s.linkDown l false) s).mem.wf = true := State.foldl_wf h (fun s l h => State.linkDown_wf h l false) ls

/-- Ports that drop one after another keep the canonical form. -/
theorem State.tglsDropped_wf {s : State} (h : s.mem.wf = true) (ps : List PortId) :
    (ps.foldl (fun s p => s.tglDropped p) s).mem.wf = true := State.foldl_wf h (fun s p h => State.tglDropped_wf h p) ps

@[simp] theorem State.clkinLost_wf {s : State} (h : s.mem.wf = true) : s.clkinLost.mem.wf = true :=
  State.tglsDropped_wf (State.linksDown_wf (by exact h) _) _

@[simp] theorem execPllLoss_canonical {s : State} (h : s.mem.wf = true) (source : SourceLoss) :
    Outcome.Canonical (execPllLoss source s) := by
  unfold execPllLoss
  dsimp only
  (repeat' split) <;> simp [*]

@[simp] theorem execClkinReturn_canonical {s : State} (h : s.mem.wf = true) : Outcome.Canonical (execClkinReturn s) := by
  unfold execClkinReturn
  split <;> simp [h]

@[simp] theorem State.clkGateWrite_wf {s : State} (h : s.mem.wf = true) (v : Half) : (s.clkGateWrite v).mem.wf = true := by
  have htrain : ∀ (ps : List PortId) (u : State), (ps.foldl (fun s p => s.startTraining p) u).mem = u.mem := fun ps u =>
    State.foldl_mem _ (fun s p => s.startTraining_mem p) ps u
  simp only [State.clkGateWrite, State.storeOff_mem]
  exact State.homeSettle_wf (State.linksDown_wf (State.wf_of_mem (htrain _ _) (State.tglsDropped_wf (by exact h) _)) _)

@[simp] theorem State.raiseRise_mem (s : State) (was now : Bool) (src : Nat) : (s.raiseRise was now src).mem = s.mem := by
  unfold State.raiseRise
  split <;> simp

@[simp] theorem State.avsWrite_mem (s : State) : s.avsWrite.mem = s.mem := by
  unfold State.avsWrite
  split <;> simp

@[simp] theorem execGovernorPeriod_canonical {s : State} (h : s.mem.wf = true) (p i : Nat) (avsOk : Bool) :
    Outcome.Canonical (execGovernorPeriod p i avsOk s) := by
  unfold execGovernorPeriod
  dsimp only
  (repeat' split) <;> simp [*]

@[simp] theorem State.governorStart_mem (s : State) : s.governorStart.mem = s.mem := rfl

@[simp] theorem execThmWearTick_canonical {s : State} (h : s.mem.wf = true) : Outcome.Canonical (execThmWearTick s) := by
  unfold execThmWearTick
  dsimp only
  (repeat' split) <;> simp [*]

@[simp] theorem execWearStore_canonical {s : State} (h : s.mem.wf = true) : Outcome.Canonical (execWearStore s) := by
  unfold execWearStore
  split <;> simp [h]

@[simp] theorem State.pwrGateWrite_mem (s : State) (v : Word) : (s.pwrGateWrite v).mem = s.mem := rfl

@[simp] theorem execCoreGateDone_canonical {s : State} (h : s.mem.wf = true) (n : CoreId) :
    Outcome.Canonical (execCoreGateDone n s) := by
  unfold execCoreGateDone
  split <;> simp [h]

@[simp] theorem execCoreWakeDone_canonical {s : State} (h : s.mem.wf = true) (n : CoreId) :
    Outcome.Canonical (execCoreWakeDone n s) := by
  unfold execCoreWakeDone
  (repeat' split) <;> simp [*]

/-! ## Resets and boot (17, 18) -/

@[simp] theorem Memory.reset_wf : Memory.reset.wf = true := rfl

@[simp] theorem State.resetTo_mem (s : State) (phase : Phase) (cause : BitVec 4) :
    (s.resetTo phase cause).mem = Memory.reset := rfl

@[simp] theorem State.setWake_mem (s : State) (v : BitVec 3) : (s.setWake v).mem = s.mem := rfl

@[simp] theorem execPowerOnReset_canonical {s : State} (h : s.mem.wf = true) : Outcome.Canonical (execPowerOnReset s) := by
  unfold execPowerOnReset
  split <;> simp [h]

@[simp] theorem execRailsRestored_canonical {s : State} (h : s.mem.wf = true) :
    Outcome.Canonical (execRailsRestored s) := by
  unfold execRailsRestored
  split <;> simp [h]

@[simp] theorem execResetN_canonical {s : State} (h : s.mem.wf = true) : Outcome.Canonical (execResetN s) := by
  unfold execResetN
  split <;> simp [h]

@[simp] theorem execUndervoltage_canonical {s : State} (h : s.mem.wf = true) (_rail : Fin 6) :
    Outcome.Canonical (execUndervoltage _rail s) := by
  unfold execUndervoltage
  split <;> simp [h]

@[simp] theorem execFirmwareReset_canonical {s : State} (h : s.mem.wf = true) :
    Outcome.Canonical (execFirmwareReset s) := by
  unfold execFirmwareReset
  split <;> simp [h]

@[simp] theorem State.trip_wf {s : State} (h : s.mem.wf = true) : s.trip.mem.wf = true := by
  unfold State.trip
  split <;> simp [h]

@[simp] theorem execThermalTrip_canonical {s : State} (h : s.mem.wf = true) (seen : TripSeen) :
    Outcome.Canonical (execThermalTrip seen s) := by
  unfold execThermalTrip
  split <;> simp [h]

@[simp] theorem execSensorUpdate_canonical {s : State} (h : s.mem.wf = true) (temps : List (BitVec 16)) :
    Outcome.Canonical (execSensorUpdate temps s) := by
  fun_cases execSensorUpdate <;> simp [h]

@[simp] theorem execWakeN_canonical {s : State} (h : s.mem.wf = true) : Outcome.Canonical (execWakeN s) := by
  unfold execWakeN
  split <;> simp [h]

@[simp] theorem State.pwrWakeWrite_mem (s : State) (v : Half) : (s.pwrWakeWrite v).mem = s.mem := rfl

@[simp] theorem execVstbyLost_canonical {s : State} (h : s.mem.wf = true) : Outcome.Canonical (execVstbyLost s) := by
  simp [execVstbyLost, h]

@[simp] theorem State.loadImage_mem (s : State) (slot : Bool) : (s.loadImage slot).mem = s.mem := rfl

@[simp] theorem State.console_mem (s : State) (v : Nat) : (s.console v).mem = s.mem := by
  unfold State.console
  split <;> simp

@[simp] theorem State.mailState_wf {s : State} (h : s.mem.wf = true) (v : Nat) : (s.mailState v).mem.wf = true := by
  simp [State.mailState, h]

@[simp] theorem State.runRom_wf {s : State} (h : s.mem.wf = true) : s.runRom.mem.wf = true := by
  unfold State.runRom
  dsimp only
  split <;> simp [h]

@[simp] theorem execResetEnd_canonical {s : State} (h : s.mem.wf = true) (bif0 bif1 a0 a1 clkin : Bool) :
    Outcome.Canonical (execResetEnd bif0 bif1 a0 a1 clkin s) := by
  have hcoast : ∀ (ks : List PllId) (u : State), (ks.foldl (fun s k => s.pllCoast k) u).mem = u.mem := fun ks u =>
    State.foldl_mem _ (fun s k => s.pllCoast_mem k) ks u
  unfold execResetEnd
  split
  · dsimp only
    split <;> simp [h, hcoast]
  · exact h

@[simp] theorem State.bootCal_mem (s : State) : s.bootCal.mem = s.mem := by
  unfold State.bootCal
  split <;> simp

@[simp] theorem State.applySetting_wf {s : State} (h : s.mem.wf = true) (e : Nat × List Byte) :
    (s.applySetting e).mem.wf = true := by
  unfold State.applySetting
  split
  case h_6 => exact State.wf_of_mem (State.foldl_modDdr_mem ..) h
  case h_7 => exact State.wf_of_mem (State.foldl_modDdr_mem ..) h
  case h_10 => exact State.foldl_wf h (fun s p h => State.tglCtl_wf h ..) _
  all_goals simp [h]

@[simp] theorem State.bootSettings_wf {s : State} (h : s.mem.wf = true) : s.bootSettings.mem.wf = true :=
  State.foldl_wf (by exact h) (fun s e h => State.applySetting_wf h e) _

@[simp] theorem State.startOthers_mem (s : State) : s.startOthers.mem = s.mem := by
  simp [State.startOthers]

@[simp] theorem State.bootRoutes_mem (s : State) : s.bootRoutes.mem = s.mem := by
  simp [State.bootRoutes]

@[simp] theorem State.bootFabric_mem (s : State) : s.bootFabric.mem = s.mem := by
  unfold State.bootFabric
  (repeat' split) <;> simp [*]

@[simp] theorem State.bootWear_mem (s : State) : s.bootWear.mem = s.mem := by
  unfold State.bootWear
  split <;> simp

@[simp] theorem State.firmwareBoot_wf {s : State} (h : s.mem.wf = true) : s.firmwareBoot.mem.wf = true := by
  simp [State.firmwareBoot, h]

@[simp] theorem State.setBootWrite_wf {s : State} (h : s.mem.wf = true) (src : Src) (v : Half) :
    (s.setBootWrite src v).mem.wf = true := by
  unfold State.setBootWrite
  split <;> simp [h]

@[simp] theorem State.mailWord_mem (s : State) (o : Nat) : (s.mailWord o).1.mem = s.mem := by
  simp [State.mailWord]

@[simp] theorem State.mailImage_mem (s : State) (n : Nat) : (s.mailImage n).1.mem = s.mem := by
  unfold State.mailImage
  split <;> simp

@[simp] theorem execRecoveryGo_canonical {s : State} (h : s.mem.wf = true) (flashOk : Bool) :
    Outcome.Canonical (execRecoveryGo flashOk s) := by
  unfold execRecoveryGo
  dsimp only
  (repeat' split) <;> simp [*]

@[simp] theorem State.setFuse_mem (s : State) (key : Half) : (s.setFuse key).mem = s.mem := by
  unfold State.setFuse
  split <;> simp

@[simp] theorem State.idle_wf {s : State} (h : s.mem.wf = true) : s.idle.mem.wf = true := by
  simp [State.idle, h]

@[simp] theorem State.blockRead_mem (s : State) (code : Nat) (data : List Byte) : (s.blockRead code data).mem = s.mem := rfl

@[simp] theorem State.smbAlways_mem (s : State) (code : Nat) (data : List Byte) : (s.smbAlways code data).mem = s.mem := by
  unfold State.smbAlways
  split <;> simp

@[simp] theorem State.smbServed_mem (s : State) (code : Nat) (data : List Byte) : (s.smbServed code data).mem = s.mem := by
  unfold State.smbServed
  split <;> simp

@[simp] theorem execPrepareOff_canonical {s : State} (h : s.mem.wf = true) (w : SmbWrite) :
    Outcome.Canonical (execPrepareOff w s) := by
  fun_cases execPrepareOff <;> simp [h]

@[simp] theorem State.scan_mem (s : State) (pins load : BitVec 26) : (s.scan pins load).mem = s.mem := rfl

@[simp] theorem execJtagInstruction_canonical {s : State} (h : s.mem.wf = true) (j : JtagInstr) :
    Outcome.Canonical (execJtagInstruction j s) := by
  unfold execJtagInstruction
  (repeat' split) <;> simp [*]

/-! ## Launches and strips (04, 05, 08) -/

@[simp] theorem execLaunchBegin_canonical {s : State} (h : s.mem.wf = true) (c : ChainId) :
    Outcome.Canonical (execLaunchBegin c s) := by
  simp [execLaunchBegin, h]

/-! ## Configuration spaces and decoders (15) -/

@[simp] theorem State.doeGo_mem (s : State) (l : LinkId) : (s.doeGo l).mem = s.mem := rfl

@[simp] theorem State.cfgPut_mem (s : State) (l : LinkId) (o : Nat) (v : Half) : (s.cfgPut l o v).mem = s.mem := by
  unfold State.cfgPut
  (repeat' split) <;> simp [*]

@[simp] theorem State.cfgWrite_mem (s : State) (l : LinkId) (o be : Nat) (v : Half) :
    (s.cfgWrite l o be v).mem = s.mem := by
  unfold State.cfgWrite
  split <;> simp

@[simp] theorem State.cfgWrite64_mem (s : State) (l : LinkId) (off : Nat) (be : BitVec 8) (v : Word) :
    (s.cfgWrite64 l off be v).mem = s.mem := by
  simp [State.cfgWrite64]

@[simp] theorem State.compWrite_wf {s : State} (h : s.mem.wf = true) (o : Nat) (v : Half) :
    (s.compWrite o v).mem.wf = true := by
  fun_cases State.compWrite <;> simp [h]

@[simp] theorem State.compWrite64_wf {s : State} (h : s.mem.wf = true) (p : Fin 2) (off : Nat) (be : BitVec 8)
    (v : Word) : (s.compWrite64 p off be v).mem.wf = true := by
  unfold State.compWrite64
  dsimp only
  (repeat' split) <;> simp [*]

/-! ## Register accesses (02 R26 to R37) -/

@[simp] theorem State.regRead_mem (s : State) (b : Block) (off : Nat) : (s.regRead b off).1.mem = s.mem := by
  unfold State.regRead
  split <;> simp

@[simp] theorem State.regClear_mem (s : State) (b : Block) (off : Nat) : (s.regClear b off).mem = s.mem := by
  unfold State.regClear
  dsimp only
  (repeat' split) <;> simp [*]

@[simp] theorem State.aciWrite_wf {s : State} (h : s.mem.wf = true) (off : Nat) (v : Word) :
    (s.aciWrite off v).mem.wf = true := by
  unfold State.aciWrite
  dsimp only
  (repeat' split) <;> simp [*]

@[simp] theorem State.jncWrite_mem (s : State) (off : Nat) (v : Word) : (s.jncWrite off v).mem = s.mem := by
  fun_cases State.jncWrite <;> simp [*]

@[simp] theorem State.swset_mem (s : State) (v : Half) : (s.swset v).mem = s.mem := by
  fun_cases State.swset <;> simp

@[simp] theorem State.regWrite_wf {s : State} (h : s.mem.wf = true) (b : Block) (off : Nat) (v : Word) (src : Src)
    (dir : List Word) : (s.regWrite b off v src dir).mem.wf = true := by
  fun_cases State.regWrite <;> simp [h]

@[simp] theorem State.csrWrite_wf {s : State} (h : s.mem.wf = true) (src : Src) (off : Nat) (be : BitVec 8)
    (data : Word) (dir : List Word) : (s.csrWrite src off be data dir).mem.wf = true := by
  unfold State.csrWrite
  split
  · simp [h]
  · split
    · exact h
    · refine State.foldl_wf h (fun s r h => ?_) _
      dsimp only
      (repeat' split) <;> simp [h]

@[simp] theorem State.csrRead_mem (s : State) (src : Src) (off : Nat) (be : BitVec 8) :
    (s.csrRead src off be).1.mem = s.mem := by
  unfold State.csrRead
  split
  · simp
  · split
    · rfl
    · dsimp only
      refine State.foldl_fst_mem _ (fun a r => ?_) _ _
      split
      · rfl
      · split <;> simp

@[simp] theorem State.diagWrite_wf {s : State} (h : s.mem.wf = true) (p : Fin 2) (off : Nat) (be : BitVec 8)
    (data : Word) (dir : List Word) : (s.diagWrite p off be data dir).mem.wf = true := by
  fun_cases State.diagWrite <;> simp [h]

@[simp] theorem State.diagRead_mem (s : State) (p : Fin 2) (off : Nat) (be : BitVec 8) :
    (s.diagRead p off be).1.mem = s.mem := by
  fun_cases State.diagRead <;> simp

@[simp] theorem State.msixWrite_mem (s : State) (p : Fin 2) (off : Nat) (be : BitVec 8) (data : Word) :
    (s.msixWrite p off be data).mem = s.mem := by
  simp [State.msixWrite, apply_ite State.mem]

@[simp] theorem State.pbaWrite_mem (s : State) (p : Fin 2) (off : Nat) (be : BitVec 8) :
    (s.pbaWrite p off be).mem = s.mem := by
  simp [State.pbaWrite, apply_ite State.mem]

@[simp] theorem State.bar2Write_wf {s : State} (h : s.mem.wf = true) (p : Fin 2) (off : Nat) (be : BitVec 8)
    (data : Word) : (s.bar2Write p off be data).mem.wf = true := by
  unfold State.bar2Write
  dsimp only
  split
  · exact State.memWrite_wf (by simp [h]) ..
  · refine State.foldl_wf (by simp [h]) (fun s i h => ?_) _
    split
    · exact State.memWrite_wf h ..
    · exact h

@[simp] theorem State.accessWrite_wf {s : State} (h : s.mem.wf = true) (a : Access) (dir : List Word) :
    (s.accessWrite a dir).mem.wf = true := by
  fun_cases State.accessWrite <;> simp [h]

@[simp] theorem State.bar2Read_mem (s : State) (p : Fin 2) (off : Nat) : (s.bar2Read p off).1.mem = s.mem := by
  simp [State.bar2Read, apply_ite State.mem]

@[simp] theorem State.accessRead_mem (s : State) (a : Access) : (s.accessRead a).1.mem = s.mem := by
  unfold State.accessRead
  dsimp only
  (repeat' split) <;> simp [*]

@[simp] theorem State.postWrite_mem (s : State) (n : CoreId) (a : Access) (dir : List Word) :
    (s.postWrite n a dir).mem = s.mem := by
  fun_cases State.postWrite <;> simp

@[simp] theorem State.putAccess_canonical {s : State} (h : s.mem.wf = true) (a : Access) (dir : List Word) :
    Outcome.Canonical (s.putAccess a dir) := by
  unfold State.putAccess
  (repeat' split) <;> simp [*]

@[simp] theorem execReadToClear_canonical {s : State} (h : s.mem.wf = true) (a : Access) :
    Outcome.Canonical (execReadToClear a s) := by
  unfold execReadToClear
  split <;> simp [h]

@[simp] theorem State.put4_canonical {s : State} (h : s.mem.wf = true) (src : Src) (off : Nat) (v : Half)
    (dir : List Word) : Outcome.Canonical (s.put4 src off v dir) := by
  simp [State.put4, h, apply_ite State.mem]

@[simp] theorem State.hostAci_canonical {s : State} (h : s.mem.wf = true) (off : Nat) (v : Half) :
    Outcome.Canonical (s.hostAci off v) := by
  unfold State.hostAci
  split <;> simp [h]

@[simp] theorem execPriorityWrite_canonical {s : State} (h : s.mem.wf = true) (src : Src) (j : Junction) (m : Fin 25)
    (w : Fin 33) (v : Half) : Outcome.Canonical (execPriorityWrite src j m w v s) := by
  unfold execPriorityWrite
  split <;> simp [h]

/-! ## A core's own events (09 to 11) -/

@[simp] theorem State.csrBytes_mem (s : State) (src : Src) (off n : Nat) : (s.csrBytes src off n).1.mem = s.mem := by
  refine State.foldl_fst_mem _ (fun a w => ?_) _ (s, [])
  exact a.1.csrRead_mem ..

@[simp] theorem State.csrPut_wf {s : State} (h : s.mem.wf = true) (src : Src) (off : Nat) (bs : List Byte) :
    (s.csrPut src off bs).mem.wf = true :=
  State.foldl_wf h (fun s w h => State.csrWrite_wf h ..) _

@[simp] theorem State.farReply_mem (s : State) (w : Wanted) (r : Reply) : (s.farReply w r).1.mem = s.mem := by
  fun_cases State.farReply <;> grind [State.popRemote_mem]

@[simp] theorem State.loadScratch_wf {s : State} (h : s.mem.wf = true) (n : CoreId) (l : Load) (off : Nat) :
    (s.loadScratch n l off).mem.wf = true := by
  unfold State.loadScratch
  dsimp only
  (repeat' split) <;> simp [*]

@[simp] theorem State.loadHere_wf {s : State} (h : s.mem.wf = true) (n : CoreId) (l : Load) (off : Nat) :
    (s.loadHere n l off).mem.wf = true := by
  fun_cases State.loadHere <;> grind [State.loadScratch_wf, State.homeAccess_wf, State.loadLine_mem, State.csrBytes_mem,
    State.loadBytes_mem, State.modCore_mem]

@[simp] theorem State.loadMem_wf {s : State} (h : s.mem.wf = true) (n : CoreId) (l : Load) (r : Reply) :
    (s.loadMem n l r).mem.wf = true := by
  fun_cases State.loadMem <;> grind [State.loadHere_wf, State.farReply_mem, State.loadReply_mem, State.hostAsk_mem]

@[simp] theorem State.loadAnswer_wf {s : State} (h : s.mem.wf = true) (n : CoreId) (l : Load) (r : Reply) :
    (s.loadAnswer n l r).mem.wf = true := by
  unfold State.loadAnswer
  dsimp only
  (repeat' split) <;> simp [*]

@[simp] theorem execLoadResponse_canonical {s : State} (h : s.mem.wf = true) (n : CoreId) (i : Nat) (r : Reply) :
    Outcome.Canonical (execLoadResponse n i r s) := by
  fun_cases execLoadResponse <;> simp [h]

@[simp] theorem State.storeStep_wf {s : State} (h : s.mem.wf = true) (n : CoreId) (x : Store) (r : Reply) :
    (s.storeStep n x r).mem.wf = true := by
  fun_cases State.storeStep <;> grind [State.storeDone_mem, State.scratchWrite_wf, State.homeAccess_wf, State.csrPut_wf,
    State.modCore_mem, State.storeFail_mem, State.farReply_mem, State.storeReply_mem, State.hostAsk_mem]

@[simp] theorem execStoreAccept_canonical {s : State} (h : s.mem.wf = true) (n : CoreId) (r : Reply) :
    Outcome.Canonical (execStoreAccept n r s) := by
  fun_cases execStoreAccept <;> simp [h]

@[simp] theorem State.fetchAnswer_wf {s : State} (h : s.mem.wf = true) (n : CoreId) (t : ThreadId) (va : Word)
    (r : Reply) : (s.fetchAnswer n t va r).mem.wf = true := by
  fun_cases State.fetchAnswer <;> grind [State.modCore_mem, State.scratchRead_mem, State.fetchLine_mem,
    State.homeAccess_wf, State.farReply_mem, State.fetchReply_mem, State.hostAsk_mem]

@[simp] theorem execFetchResponse_canonical {s : State} (h : s.mem.wf = true) (n : CoreId) (t : ThreadId) (va : Word)
    (r : Reply) : Outcome.Canonical (execFetchResponse n t va r s) := by
  unfold execFetchResponse
  split <;> simp [h]

@[simp] theorem execDivideComplete_canonical {s : State} (h : s.mem.wf = true) (n : CoreId) (t : ThreadId) :
    Outcome.Canonical (execDivideComplete n t s) := by
  unfold execDivideComplete
  split <;> simp [h]

@[simp] theorem execTrapEntry_canonical {s : State} (h : s.mem.wf = true) (n : CoreId) (t : ThreadId) :
    Outcome.Canonical (execTrapEntry n t s) := by
  unfold execTrapEntry
  split <;> simp [h]

@[simp] theorem execWfiWake_canonical {s : State} (h : s.mem.wf = true) (n : CoreId) :
    Outcome.Canonical (execWfiWake n s) := by
  unfold execWfiWake
  split <;> simp [h]

/-! ## Instructions and bundles (10) -/

@[simp] theorem State.applyEff_mem (s : State) (n : CoreId) (t : ThreadId) (e : Eff) : (s.applyEff n t e).mem = s.mem := by
  unfold State.applyEff
  (repeat' split) <;> simp [*]

@[simp] theorem State.applyEffs_mem (s : State) (n : CoreId) (t : ThreadId) (es : List Eff) :
    (s.applyEffs n t es).mem = s.mem :=
  State.foldl_mem _ (fun s e => s.applyEff_mem n t e) es s

@[simp] theorem State.frameAt_mem (s : State) (n : CoreId) (t : ThreadId) (a : Word) (i : Fin 2) :
    (s.frameAt n t a i).1.mem = s.mem := by
  fun_cases State.frameAt <;> simp

@[simp] theorem State.askFrame_mem (s : State) (n : CoreId) (t : ThreadId) (a : Word) (i : Fin 2) (x : FrameAt) :
    (s.askFrame n t a i x).mem = s.mem := by
  fun_cases State.askFrame <;> simp

@[simp] theorem State.takeFrame_mem (s : State) (x : FrameAt) : (s.takeFrame x).1.mem = s.mem := by
  unfold State.takeFrame
  split <;> simp

/-! ## The meanings of a bundle's instructions -/

/-- The meaning of an instruction leaves memory to the effects of the bundle. -/
def Sem.KeepsMem (g : Sem) : Prop := ∀ s n t na f, (g s n t na f).1.mem = s.mem

theorem semLoad_keepsMem (size : Nat) (sext : Bool) (dest : RegRef) : Sem.KeepsMem (semLoad size sext dest) := by
  intro s n t na f
  fun_cases semLoad <;> rfl

theorem semStore_keepsMem (size v : Nat) : Sem.KeepsMem (semStore size v) := by
  intro s n t na f
  fun_cases semStore <;> rfl

theorem semInv_keepsMem (mk : Nat → List Eff) (always : List Eff) : Sem.KeepsMem (semInv mk always) := by
  intro s n t na f
  fun_cases semInv <;> rfl

theorem semAtomic_keepsMem (mk : Word → LoadKind) : Sem.KeepsMem (semAtomic mk) := by
  intro s n t na f
  fun_cases semAtomic <;> rfl

theorem semEret_keepsMem : Sem.KeepsMem semEret := by
  intro s n t na f
  fun_cases semEret <;> grind [State.frameAt_mem, State.takeFrame_mem, State.askFrame_mem]

theorem withChain_mem {n : CoreId} {s : State} {g : ChainId → State × SlotRes} (hg : ∀ c, (g c).1.mem = s.mem) :
    (withChain n s g).1.mem = s.mem := by
  unfold withChain
  split
  · exact hg _
  · rfl

theorem semChiss_keepsMem : Sem.KeepsMem semChiss := fun s n t na f => withChain_mem fun c => by
  dsimp only
  (repeat' split) <;> rfl

theorem semRdch_keepsMem : Sem.KeepsMem semRdch := fun s n t na f => withChain_mem fun c => by
  dsimp only
  split <;> rfl

theorem semRdca_keepsMem : Sem.KeepsMem semRdca := fun s n t na f => withChain_mem fun c => by
  dsimp only
  split <;> rfl

theorem semPaired_keepsMem (g : Fields → Wide → Word → Word → Wide) : Sem.KeepsMem (semPaired g) := by
  intro s n t na f
  fun_cases semPaired <;> rfl

theorem semUnitA_keepsMem {op : Nat} {g : Sem} (hg : semUnitA op = some g) : g.KeepsMem := by
  unfold semUnitA at hg
  split at hg <;> cases hg
  case h_6 | h_7 | h_8 | h_9 => exact fun s n t na f => semLoad_keepsMem _ _ _ s n t na f
  case h_10 | h_11 | h_12 => exact fun s n t na f => semStore_keepsMem _ _ s n t na f
  case h_13 | h_14 => exact semInv_keepsMem _ _
  case h_17 | h_18 => exact semAtomic_keepsMem _
  all_goals exact fun s n t na f => rfl

theorem semUnitD_keepsMem {op : Nat} {g : Sem} (hg : semUnitD op = some g) : g.KeepsMem := by
  unfold semUnitD at hg
  split at hg <;> cases hg <;> exact fun s n t na f => rfl

theorem semUnitX_keepsMem {op : Nat} {g : Sem} (hg : semUnitX op = some g) : g.KeepsMem := by
  unfold semUnitX at hg
  split at hg <;> cases hg
  case h_1 | h_2 => exact semPaired_keepsMem _
  all_goals exact fun s n t na f => rfl

theorem semUnitB_keepsMem {op : Nat} {g : Sem} (hg : semUnitB op = some g) : g.KeepsMem := by
  unfold semUnitB at hg
  split at hg <;> cases hg
  case h_9 => exact semEret_keepsMem
  all_goals exact fun s n t na f => rfl

theorem semUnitV_keepsMem {op : Nat} {g : Sem} (hg : semUnitV op = some g) : g.KeepsMem := by
  unfold semUnitV at hg
  split at hg <;> cases hg
  case h_1 => exact semChiss_keepsMem
  case h_4 => exact semRdch_keepsMem
  case h_7 => exact semRdca_keepsMem
  all_goals exact fun s n t na f => rfl

/-- No instruction writes memory when it executes: a store is posted, and an atomic waits at the core's port. -/
theorem SlotI.sem_keepsMem {i : SlotI} {g : Sem} (hg : i.sem = some g) : g.KeepsMem := by
  unfold SlotI.sem at hg
  split at hg
  · exact semUnitA_keepsMem hg
  · exact semUnitD_keepsMem hg
  · exact semUnitX_keepsMem hg
  · exact semUnitB_keepsMem hg
  · exact semUnitV_keepsMem hg
  · cases hg

@[simp] theorem State.runSlots_mem (s : State) (n : CoreId) (t : ThreadId) (na : Word) (x : List SlotI) :
    (s.runSlots n t na x).1.mem = s.mem := by
  induction x generalizing s with
  | nil => rfl
  | cons i rest ih =>
    simp only [State.runSlots]
    split
    · exact ih _
    · next g hg =>
      have hmem := SlotI.sem_keepsMem hg s n t na i.f
      have hrest := ih (g s n t na i.f).1
      grind

@[simp] theorem State.abandonOnExc_mem (s : State) (n : CoreId) (t : ThreadId) (na : Word) (is : List SlotI) :
    (s.abandonOnExc n t na is).mem = s.mem := by
  fun_cases State.abandonOnExc <;> simp

@[simp] theorem State.chargeBundle_mem (s : State) (n : CoreId) (t : ThreadId) (na : Word) (is : List SlotI)
    (extra : Nat) : (s.chargeBundle n t na is extra).mem = s.mem := by
  fun_cases State.chargeBundle <;> simp

@[simp] theorem State.setWait_mem (s : State) (n : CoreId) (t : ThreadId) (is : List SlotI) :
    (s.setWait n t is).mem = s.mem := rfl

@[simp] theorem State.bundleFault_mem (s : State) (n : CoreId) (t : ThreadId) (is : List SlotI) (x : Cause) :
    (s.bundleFault n t is x).mem = s.mem := by
  unfold State.bundleFault
  split <;> simp

@[simp] theorem State.retire_mem (s : State) (n : CoreId) (t : ThreadId) (na : Word) (is : List SlotI) (extra : Nat)
    (es : List Eff) : (s.retire n t na is extra es).mem = s.mem := by
  simp [State.retire]

@[simp] theorem State.finishBundle_mem (s : State) (n : CoreId) (t : ThreadId) (is : List SlotI) :
    (s.finishBundle n t is).mem = s.mem := by
  fun_cases State.finishBundle <;> grind [State.bundleFault_mem, State.abandonOnExc_mem, State.setWait_mem,
    State.runSlots_mem, State.retire_mem, State.trapEntry_mem]

@[simp] theorem State.readSlot_mem (s : State) (n : CoreId) (t : ThreadId) (i : SlotI) (good : Bool) :
    (s.readSlot n t i good).mem = s.mem := by
  unfold State.readSlot
  dsimp only
  (repeat' split) <;> simp [*]

theorem State.finishPair_mem {s u : State} {n : CoreId} {t : ThreadId} {i : SlotI} {good : Bool} {x : Due}
    (hu : s.finishPair n t i good x = some u) : u.mem = s.mem := by
  unfold State.finishPair at hu
  grind [State.readSlot_mem, State.modThread_mem]

@[simp] theorem State.coreInstr_mem (s : State) (n : CoreId) (t : ThreadId) (i : SlotI) (good : Bool) :
    (s.coreInstr n t i good).mem = s.mem := by
  fun_cases State.coreInstr <;> grind [State.readSlot_mem, State.takeDue_mem, State.finishPair_mem]

/-! ## Routed messages of the fabric (16 R325 to R337) -/

@[simp] theorem State.ownRequest_wf {s : State} (h : s.mem.wf = true) (opc : BitVec 8) (a : Asker) (m : Msg) :
    (s.ownRequest opc a m).mem.wf = true := by
  unfold State.ownRequest
  dsimp only
  (repeat' split) <;> simp [*]

@[simp] theorem State.takeRequest_mem (s : State) (q : RemoteReq) (k : Fin 64) : (s.takeRequest q k).mem = s.mem := rfl

@[simp] theorem execDestinationAdmission_canonical {s : State} (h : s.mem.wf = true) (tid : BitVec 16) :
    Outcome.Canonical (execDestinationAdmission tid s) := by
  fun_cases execDestinationAdmission <;> simp [h]

@[simp] theorem State.serveCsr_wf {s : State} (h : s.mem.wf = true) (x : Packet) : (s.serveCsr x).mem.wf = true := by
  unfold State.serveCsr
  dsimp only
  (repeat' split) <;> simp [*]

@[simp] theorem State.serveAny_wf {s : State} (h : s.mem.wf = true) (p : PortId) (x : Packet) :
    (s.serveAny p x).mem.wf = true := by
  fun_cases State.serveAny <;> simp [h]

@[simp] theorem State.transit_wf {s : State} (h : s.mem.wf = true) (x : Packet) : (s.transit x).mem.wf = true := by
  unfold State.transit
  split <;> simp [h]

@[simp] theorem State.portRequest_wf {s : State} (h : s.mem.wf = true) (p : PortId) (x : Packet) :
    (s.portRequest p x).mem.wf = true := by
  unfold State.portRequest
  dsimp only
  (repeat' split) <;> simp [*]

@[simp] theorem State.request_wf {s : State} (h : s.mem.wf = true) (opc : BitVec 8) (o : Origin) (m : Msg) :
    (s.request opc o m).mem.wf = true := by
  unfold State.request
  split <;> simp [h]

@[simp] theorem State.response_wf {s : State} (h : s.mem.wf = true) (p : PortId) (x : Packet) :
    (s.response p x).mem.wf = true := by
  unfold State.response
  dsimp only
  (repeat' split) <;> simp [*]

@[simp] theorem execRequestTimeout_canonical {s : State} (h : s.mem.wf = true) (tid : BitVec 16) :
    Outcome.Canonical (execRequestTimeout tid s) := by
  fun_cases execRequestTimeout <;> simp [h]

/-! ## KERNEL_RUN (03 R52, R415, R416) -/

@[simp] theorem State.startKernel_mem (s : State) (c : Cmd) (image args : List Byte) (n : CoreId) :
    (s.startKernel c image args n).mem = s.mem := by
  unfold State.startKernel
  split <;> simp

@[simp] theorem State.freeCores_mem (s : State) (ns : List CoreId) : (s.freeCores ns).mem = s.mem :=
  (s.freeCores_keeps ns).2

@[simp] theorem execKernelRun_canonical {s : State} (h : s.mem.wf = true) (handle : Half) (image args : Reply) :
    Outcome.Canonical (execKernelRun handle image args s) := by
  fun_cases execKernelRun
  case case9 him u ar har v =>
    have hu : u.mem.wf = true := by grind [State.fwRead_wf]
    exact State.wf_of_mem ((State.modCmd_mem ..).trans (u.startKernels_keeps ..).1) hu
  all_goals grind [Outcome.Canonical, done_canonical, State.finish_mem, State.freeCores_mem, State.fwRead_wf,
    State.keepRead_mem]

@[simp] theorem State.noteFailure_mem (s : State) (c : Cmd) : (s.noteFailure c).mem = s.mem := by
  unfold State.noteFailure
  dsimp only
  (repeat' split) <;> simp [*]

@[simp] theorem State.restOne_mem (s : State) (c : Cmd) (n : CoreId) : (s.restOne c n).mem = s.mem := by
  unfold State.restOne
  dsimp only
  (repeat' split) <;> simp [*]

@[simp] theorem State.restChains_mem (s : State) (c : Cmd) : (s.restChains c).mem = s.mem :=
  State.foldl_mem _ (fun s n => s.restOne_mem c n) _ s

@[simp] theorem State.watchKernel_mem (s : State) (h : Half) : (s.watchKernel h).mem = s.mem := by
  unfold State.watchKernel
  dsimp only
  (repeat' split) <;> simp [*]

@[simp] theorem execKernelRunComplete_canonical {s : State} (h : s.mem.wf = true) (handle : Half) :
    Outcome.Canonical (execKernelRunComplete handle s) := by
  have hclear : ∀ (ns : List CoreId) (u : State), (ns.foldl (fun s n => s.clearRun n) u).mem = u.mem := fun ns u =>
    State.foldl_mem _ (fun s n => s.clearRun_mem n) ns u
  fun_cases execKernelRunComplete <;> simp +zetaDelta [h, hclear]

/-! ## Lag counters (14 R296, R297) -/

@[simp] theorem State.lagEvent_mem (s : State) (b : Bool) (src : Nat) : (s.lagEvent b src).mem = s.mem := by
  unfold State.lagEvent
  split <;> simp

@[simp] theorem State.lagDdr_mem (s : State) (n : CtrlId) : (s.lagDdr n).mem = s.mem := by
  simp [State.lagDdr]

@[simp] theorem State.lagSlot_mem (s : State) (k : Fin 64) : (s.lagSlot k).mem = s.mem := by
  simp [State.lagSlot]

@[simp] theorem State.lagPort_mem (s : State) (p : PortId) : (s.lagPort p).mem = s.mem := by
  simp [State.lagPort]

@[simp] theorem State.lagStation_mem (s : State) (c : ChainId) (x : Nat) : (s.lagStation c x).mem = s.mem := rfl

@[simp] theorem State.lagStations_mem (s : State) (c : ChainId) : (s.lagStations c).mem = s.mem := by
  unfold State.lagStations
  split
  · rfl
  · exact State.foldl_mem _ (fun s p => by split <;> simp) _ s

@[simp] theorem execBclkPeriod_canonical {s : State} (h : s.mem.wf = true) (waiting : List Nat) :
    Outcome.Canonical (execBclkPeriod waiting s) := by
  unfold execBclkPeriod
  split
  · exact h
  · exact State.wf_of_mem ((State.foldl_mem _ (fun s c => s.lagStations_mem c) _ _).trans
      ((State.foldl_mem _ (fun s p => s.lagPort_mem p) _ _).trans ((State.foldl_mem _ (fun s k => s.lagSlot_mem k) _
        _).trans
        (State.foldl_mem _ (fun s n => s.lagDdr_mem n) _ _)))) h

/-! ## Steps -/

/-- What each command leaves of the canonical form: the meanings of its arm keep it. -/
theorem exec_canonical (i : Instr) {s : State} (hmem : s.mem.wf = true) : Outcome.Canonical (exec i s) := by
  cases i with
  | powerOnReset => exact execPowerOnReset_canonical hmem
  | railsRestored => exact execRailsRestored_canonical hmem
  | resetN => exact execResetN_canonical hmem
  | undervoltage rail => exact execUndervoltage_canonical hmem rail
  | firmwareReset => exact execFirmwareReset_canonical hmem
  | resetEnd bif0 bif1 a0 a1 clkin => exact execResetEnd_canonical hmem bif0 bif1 a0 a1 clkin
  | perstN port => exact execPerstN_canonical hmem port
  | thermalTrip seen => exact execThermalTrip_canonical hmem seen
  | wakeN => exact execWakeN_canonical hmem
  | pwrWakeClear | quickSwitch | relock | clkGate | pwrGate | handover | dbgLockProgram | aciEnable | aciReset |
    registerWrite | evtRoute | evtSwset | coreStart | coreStop | coreCfg | coreDbRing | chainStop | flushQ | clrMsc |
    exctlRestart | exctlReplay | exctlAbandon | sctlRetry | sctlAbandon | writeL2 | writeIlock | writeDlock | invalVa |
    invalUser | invalAll | clearLocks | readL2 | tglPortEnable => exact State.putAccess_canonical hmem ..
  | pllLoss source => exact execPllLoss_canonical hmem source
  | clockSwitchEnd k present => exact execClockSwitchEnd_canonical hmem k present
  | governorPeriod p idx avsOk => exact execGovernorPeriod_canonical hmem p idx avsOk
  | sensorUpdate temps => exact execSensorUpdate_canonical hmem temps
  | thmWearTick => exact execThmWearTick_canonical hmem
  | wearStore => exact execWearStore_canonical hmem
  | coreGateDone n => exact execCoreGateDone_canonical hmem n
  | coreWakeDone n => exact execCoreWakeDone_canonical hmem n
  | recoveryGo flashOk => exact execRecoveryGo_canonical hmem flashOk
  | ddrBringup slots => exact execDdrBringup_canonical hmem slots
  | ddrTrainingDone failed => exact execDdrTrainingDone_canonical hmem failed
  | ddrZeroingDone => exact execDdrZeroingDone_canonical hmem
  | ddrSrEntry n => exact execDdrSrEntry_canonical hmem n
  | ddrSrExit n sub0 sub1 => exact execDdrSrExit_canonical hmem n sub0 sub1
  | refreshRatePoll n sub0 sub1 => exact execRefreshRatePoll_canonical hmem n sub0 sub1
  | ddrScrub n offset found device => exact execDdrScrub_canonical hmem n offset found device
  | scratchScrub offset found => exact execScratchScrub_canonical hmem offset found
  | scratchWriteBack offset => exact execScratchWriteBack_canonical hmem offset
  | scratchRequest m wait offset op found => exact execScratchRequest_canonical hmem m wait offset op found
  | homeAgentAccess tag offset op found device => exact execHomeAgentAccess_canonical hmem tag offset op found device
  | memRd hpa mv => exact execMemRd_canonical hmem hpa mv
  | memRdData hpa mv => exact execMemRdData_canonical hmem hpa mv
  | memInv hpa mv => exact execMemInv_canonical hmem hpa mv
  | memInvNt hpa mv => exact execMemInvNt_canonical hmem hpa mv
  | memSpecRd hpa => exact execMemSpecRd_canonical hmem hpa
  | memClnEvct hpa => exact execMemClnEvct_canonical hmem hpa
  | memWr hpa mv data poison => exact execMemWr_canonical hmem hpa mv data poison
  | memWrPtl hpa mv be data => exact execMemWrPtl_canonical hmem hpa mv be data
  | biConflict hpa => exact execBiConflict_canonical hmem hpa
  | biRspS | biRspI => exact State.biRsp_wf hmem ..
  | h2dSnoop link hpa => exact execH2dSnoop_canonical hmem link hpa
  | d2hResponse link tag r => exact execD2hResponse_canonical hmem link tag r
  | decoderCommit base size ways1 dpaSkip lockOnCommit commit =>
      exact execDecoderCommit_canonical hmem base size ways1 dpaSkip lockOnCommit commit
  | cxlLinkUp link width speed cxl cacheEn memEn msixEn fnMask =>
      exact execCxlLinkUp_canonical hmem link width speed cxl cacheEn memEn msixEn fnMask
  | cxlLinkDown => exact State.linkDown_wf hmem ..
  | msixUnmask vec => exact execMsixUnmask_canonical hmem vec
  | aciReady => exact execAciReady_canonical hmem
  | aciResetComplete => exact execAciResetComplete_canonical hmem
  | aciSqTail | aciCqHead | aciCancel => exact State.hostAci_canonical hmem ..
  | sqFetch q r => exact execSqFetch_canonical hmem q r
  | commandDispatch => exact execCommandDispatch_canonical hmem
  | coalTimeExpiry q => exact execCoalTimeExpiry_canonical hmem q
  | diagGrantExpiry => exact execDiagGrantExpiry_canonical hmem
  | negotiate handle => exact execNegotiate_canonical hmem handle
  | identify handle w => exact execIdentify_canonical hmem handle w
  | createQp handle => exact execCreateQp_canonical hmem handle
  | deleteQp handle => exact execDeleteQp_canonical hmem handle
  | setCoalesce handle => exact execSetCoalesce_canonical hmem handle
  | kernelRun handle image args => exact execKernelRun_canonical hmem handle image args
  | kernelRunComplete handle => exact execKernelRunComplete_canonical hmem handle
  | copy handle stopAt r accepted => exact execCopy_canonical hmem handle stopAt r accepted
  | fill handle stopAt accepted => exact execFill_canonical hmem handle stopAt accepted
  | fwStage handle => exact execFwStage_canonical hmem handle
  | fwStagePiece handle r readBackOk => exact execFwStagePiece_canonical hmem handle r readBackOk
  | fwActivate handle => exact execFwActivate_canonical hmem handle
  | settingsRead handle w => exact execSettingsRead_canonical hmem handle w
  | settingsWrite handle r => exact execSettingsWrite_canonical hmem handle r
  | settingsCommit handle => exact execSettingsCommit_canonical hmem handle
  | calRead handle w => exact execCalRead_canonical hmem handle w
  | calWrite handle r readBackOk => exact execCalWrite_canonical hmem handle r readBackOk
  | fabricSurvey handle => exact execFabricSurvey_canonical hmem handle
  | surveyComplete handle timedOut w => exact execSurveyComplete_canonical hmem handle timedOut w
  | waymarkPropose handle r => exact execWaymarkPropose_canonical hmem handle r
  | waymarkCommit handle => exact execWaymarkCommit_canonical hmem handle
  | diagOpen handle => exact execDiagOpen_canonical hmem handle
  | diagClose handle => exact execDiagClose_canonical hmem handle
  | readToClear a => exact execReadToClear_canonical hmem a
  | tlbInvalEffect n => exact execTlbInvalEffect_canonical hmem n
  | priorityWrite src j m w v => exact execPriorityWrite_canonical hmem src j m w v
  | requestArrival j t rs => exact execRequestArrival_canonical hmem j t rs
  | junctionDecision j t => exact execJunctionDecision_canonical hmem j t
  | grantEnd j t => exact execGrantEnd_canonical hmem j t
  | destinationAdmission tid => exact execDestinationAdmission_canonical hmem tid
  | launchBegin c => exact execLaunchBegin_canonical hmem c
  | reservationGrant => exact State.wf_of_mem (s.reservationGrant_mem ..) hmem
  | stripTranslate => exact State.stripTranslate_wf hmem ..
  | stripIssue => exact State.wf_of_mem (s.stripIssue_mem ..) hmem
  | bufferGrant => exact State.wf_of_mem (s.bufferGrant_mem ..) hmem
  | streamLineFill => exact State.lineFill_wf hmem ..
  | stationStep => exact State.wf_of_mem (s.stationStep_mem ..) hmem
  | stripAbort => exact State.wf_of_mem (s.stripAbort_mem ..) hmem
  | streamAccessFailure => exact State.wf_of_mem (s.accessFailure_mem ..) hmem
  | stripCommit => exact State.wf_of_mem (s.stripCommit_mem ..) hmem
  | drainAccept => exact State.drainAccept_wf hmem ..
  | chainStopped => exact State.wf_of_mem (s.chainStopped_mem ..) hmem
  | loadResponse n idx r => exact execLoadResponse_canonical hmem n idx r
  | divideComplete n t => exact execDivideComplete_canonical hmem n t
  | fetchResponse n t va r => exact execFetchResponse_canonical hmem n t va r
  | storeAccept n r => exact execStoreAccept_canonical hmem n r
  | trapEntry n t => exact execTrapEntry_canonical hmem n t
  | wfiWake n => exact execWfiWake_canonical hmem n
  | adda | suba | anda | movad | liha | ldD | ldA | ldX | ldS | stD | stA | stX | dinv | iinv | dinvall | iinvall |
    aadd | aswp | add | sub | neg | abs | mins | maxs | minu | maxu | and | or | xor | andn | not | shl | shr | sar |
    rol | sext | zext | clz | ctz | popc | bswap | mov | mul | mulhs | mulhu | divs | divu | rems | remu | slt | sltu |
    seq | li | lih | movda | xmac | xfma | xadd | xsub | xext | xpack | xlo | xhi | xclr | xmov | nop | br | bcc |
    dbnz | jal | jr | jalr | trap | eret | wfi | mfcr | mtcr | chiss | chwait | chstop | rdch | wrch | ldca | rdca |
    ssw | sswa | rsw | smov | sclr | illegalInstr => exact State.wf_of_mem (s.coreInstr_mem ..) hmem
  | trainingFrame p seen => exact execTrainingFrame_canonical hmem p seen
  | trainingTimeout p => exact execTrainingTimeout_canonical hmem p
  | frameReceive p frame fecOk => exact execFrameReceive_canonical hmem p frame fecOk
  | replayTimeout => exact State.replay_wf hmem ..
  | fecLockLoss p => exact execFecLockLoss_canonical hmem p
  | heartbeatSend => exact State.wf_of_mem (s.sendLink_mem ..) hmem
  | heartbeatMiss p => exact execHeartbeatMiss_canonical hmem p
  | heartbeat p hb => exact execHeartbeat_canonical hmem p hb
  | catchingUpExpiry p => exact execCatchingUpExpiry_canonical hmem p
  | rd | wr | atom => exact State.request_wf hmem ..
  | rspRefuse | rspData | rspAcc | rdata => exact State.response_wf hmem ..
  | requestTimeout tid => exact execRequestTimeout_canonical hmem tid
  | hello p serial lowest node port => exact execHello_canonical hmem p serial lowest node port
  | neigh p r => exact execNeigh_canonical hmem p r
  | discoveryStart => exact execDiscoveryStart_canonical hmem
  | discoveryRoot => exact execDiscoveryRoot_canonical hmem
  | propose p h e d0 d1 length => exact execPropose_canonical hmem p h e d0 d1 length
  | vote p h e serial result => exact execVote_canonical hmem p h e serial result
  | voteTimeout => exact execVoteTimeout_canonical hmem
  | commit p h e d0 d1 => exact execCommit_canonical hmem p h e d0 d1
  | abort p h e => exact execAbort_canonical hmem p h e
  | stageExpiry => exact execStageExpiry_canonical hmem
  | fsrReq p epoch offset count which => exact execFsrReq_canonical hmem p epoch offset count which
  | fsrData p epoch offset length bytes => exact execFsrData_canonical hmem p epoch offset length bytes
  | fsrRetry p epoch => exact execFsrRetry_canonical hmem p epoch
  | surveyReq p h epoch => exact execSurveyReq_canonical hmem p h epoch
  | surveyRsp p h r => exact execSurveyRsp_canonical hmem p h r
  | floodKeyExpiry origin fseq => exact execFloodKeyExpiry_canonical hmem origin fseq
  | id | temp => exact State.wf_of_mem (s.smbAlways_mem ..) hmem
  | power | state | wear | offReady => exact State.wf_of_mem (s.smbServed_mem ..) hmem
  | prepareOff w => exact execPrepareOff_canonical hmem w
  | vstbyLost => exact execVstbyLost_canonical hmem
  | clkinReturn => exact execClkinReturn_canonical hmem
  | linkLevelRetry link fecCorrected => exact execLinkLevelRetry_canonical hmem link fecCorrected
  | stationAccessResponse => exact State.stationAnswer_wf hmem ..
  | bclkPeriod waiting => exact execBclkPeriod_canonical hmem waiting
  | jtagInstruction j => exact execJtagInstruction_canonical hmem j

/-- Every step keeps the canonical form. -/
theorem step_canonical {s : State} (h : s.mem.wf = true) : Outcome.Canonical (step s) := by
  unfold step
  split
  · exact State.idle_wf h
  · exact exec_canonical _ h

end Sys2Proof.Machine

namespace Sys2Proof.Proofs

open Sys2Proof.Machine

/-- Settles O34: nothing has been stored and nothing is marked. -/
theorem resetMemoryCanonical : Obligations.ResetMemoryCanonical := Memory.reset_wf

/-- Settles O33, from what each command's meaning keeps. -/
theorem stepKeepsMemoryCanonical : Obligations.StepKeepsMemoryCanonical := by
  intro s s' h hstep
  have hcanon := step_canonical h
  rwa [hstep] at hcanon

end Sys2Proof.Proofs
end

section
/-! The proof of O54 (13 R268 to R277, 17 R353): bring-up of DDR, self-refresh and the refresh rate. -/

namespace Sys2Proof.Machine

/-! ## All controllers of DDR -/

theorem State.modDdr_other (s : State) {n m : CtrlId} (h : m ≠ n) (g : Ddr → Ddr) : (s.modDdr n g).ddr[m] = s.ddr[m] := by
  have hne : n.val ≠ m.val := fun e => h (Fin.ext e.symm)
  simp [State.modDdr, hne]

/-- A fold whose steps change one controller each, no controller twice. -/
theorem State.foldl_ddr {f : State → CtrlId → State} {g : CtrlId → Ddr → Ddr}
    (hf : ∀ s n, (f s n).ddr = s.ddr.set n (g n s.ddr[n])) (m : CtrlId) {l : List CtrlId} (hl : l.Nodup) (s : State) :
    (l.foldl f s).ddr[m] = if m ∈ l then g m s.ddr[m] else s.ddr[m] := by
  induction l generalizing s with
  | nil => rfl
  | cons n l ih =>
    obtain ⟨hn, hl⟩ := List.nodup_cons.mp hl
    rw [List.foldl_cons, ih hl]
    by_cases hm : m = n
    · subst hm
      simp [hn, hf]
    · have hne : n.val ≠ m.val := fun h => hm (Fin.ext h.symm)
      simp [hm, hf, hne]

theorem State.foldl_all_ddr {f : State → CtrlId → State} {g : CtrlId → Ddr → Ddr}
    (hf : ∀ s n, (f s n).ddr = s.ddr.set n (g n s.ddr[n])) (s : State) (m : CtrlId) :
    ((List.finRange 16).foldl f s).ddr[m] = g m s.ddr[m] := by
  rw [State.foldl_ddr hf m (List.nodup_finRange 16), if_pos (List.mem_finRange m)]

/-- A fold of `modDdr` over all controllers, as one state. -/
theorem State.foldl_modDdr (g : CtrlId → Ddr → Ddr) (s : State) :
    (List.finRange 16).foldl (fun s n => s.modDdr n (g n)) s = { s with ddr := Vector.ofFn fun n => g n s.ddr[n] } := by
  have hrest : ∀ l : List CtrlId, ∀ s : State, ∃ d, l.foldl (fun s n => s.modDdr n (g n)) s = { s with ddr := d } := by
    intro l
    induction l with
    | nil => exact fun s => ⟨s.ddr, rfl⟩
    | cons n l ih => exact fun s => ⟨_, (ih _).choose_spec⟩
  obtain ⟨d, hd⟩ := hrest (List.finRange 16) s
  have hall := State.foldl_all_ddr (f := fun s n => s.modDdr n (g n)) (g := g) (fun _ _ => rfl) s
  rw [hd] at hall ⊢
  congr 1
  ext i hi : 1
  simpa using hall ⟨i, hi⟩

theorem State.pendingSrc_of_evt {u s : State} (h : u.evt = s.evt) (k : Nat) : u.pendingSrc k = s.pendingSrc k := by
  simp only [State.pendingSrc, h]

/-- A pending source stays pending when a source is raised. -/
theorem State.raise_keeps_pendingSrc {s : State} {k : Nat} (h : s.pendingSrc k = true) (j : Nat) :
    (s.raise j).pendingSrc k = true := by
  unfold State.raise
  split
  · exact h
  · next w hw =>
    split
    · exact h
    · have hset : State.pendingSrc { s with evt := { s.evt with
          pend := s.evt.pend.set w (s.evt.pend[w] ||| (1 : Word) <<< (j % 64)) } } k = true := by
        unfold State.pendingSrc at h ⊢
        split at h
        · next v hv =>
          by_cases hvw : v = w
          · subst hvw
            have hk : s.evt.pend[v.val].getLsbD (k % 64) = true := h
            simp [hk]
          · have hne : w.val ≠ v.val := fun e => hvw (Fin.ext e.symm)
            simpa [hne] using h
        · cases h
      dsimp only
      split
      · rwa [State.pendingSrc_of_evt (State.msix_evt ..)]
      · exact hset

/-! ## The loops of DDR (17 R353, R356) -/

/-- A loop after a write of its CLK_PLL that acts. -/
def Pll.act (p : Pll) (v : Half) : Pll :=
  let relock := p.coast || p.ref != v.getLsbD 24 || p.mult != v.extractLsb' 16 8
  { p with
    loss := p.loss && !v.getLsbD 31
    ref := v.getLsbD 24, mult := v.extractLsb' 16 8, postdiv := v.extractLsb' 0 8
    switching := relock || p.postdiv != v.extractLsb' 0 8, relock := relock, lock := p.lock && !relock }

/-- The controllers of a DPLL enter self-refresh. -/
def State.restCtrls (s : State) (k : PllId) : State :=
  (ctrlsOf k).foldl (fun s n => s.modDdr n fun d => if d.state = 2 then { d with state := 3 } else d) s

theorem State.pllAct_eq (s : State) (k : PllId) (v : Half) : s.pllAct k v =
    if (s.plls[k].act v).switching then (s.modPll k (·.act v)).restCtrls k else s.modPll k (·.act v) := rfl

theorem State.modDdr_eq_self {s : State} {n : CtrlId} {g : Ddr → Ddr} (h : g s.ddr[n] = s.ddr[n]) : s.modDdr n g = s := by
  unfold State.modDdr
  rw [h]
  simp

theorem State.restCtrls_idle {s : State} (h : ∀ n : CtrlId, s.ddr[n].state ≠ 2) (k : PllId) : s.restCtrls k = s :=
  foldl_eq_self fun n _ => State.modDdr_eq_self (if_neg (h n))

/-- With no controller running, a write of CLK_PLL reaches its loop alone. -/
theorem State.pllAct_idle {s : State} (h : ∀ n : CtrlId, s.ddr[n].state ≠ 2) (k : PllId) (v : Half) :
    s.pllAct k v = s.modPll k (·.act v) := by
  rw [State.pllAct_eq, State.restCtrls_idle (s := s.modPll k (·.act v)) h, ite_self]

/-- A loop after a write of its CLK_PLL, which a switch holds back. -/
def Pll.write (p : Pll) (v : Half) : Pll := if p.switching then { p with held := p.held ++ [v] } else p.act v

theorem State.pllWrite_idle {s : State} (h : ∀ n : CtrlId, s.ddr[n].state ≠ 2) (k : PllId) (v : Half) :
    s.pllWrite k v = s.modPll k (·.write v) := by
  unfold State.pllWrite
  rw [State.pllAct_idle h]
  by_cases hs : s.plls[k].switching = true
  · simp only [State.modPll, Pll.write, if_pos hs]
  · simp only [State.modPll, Pll.write, if_neg hs]

/-- CLK_PLL of a DPLL that keeps REF and has the MULT of a speed and POSTDIV 6 (17 R353). -/
def dpllWord (p : Pll) (speed : Nat) : Half := BitVec.ofNat 32 (b2n p.ref <<< 24 + dpllMult speed <<< 16 + 6)

theorem dpllMult_lt (speed : Nat) : dpllMult speed < 256 := by
  rcases Nat.lt_or_ge speed 5 with h | h
  · interval_cases speed <;> decide
  · rw [dpllMult, List.getD_eq_default _ _ h]
    decide

theorem extractLsb'_mult {m : Nat} (hm : m < 256) (r : Nat) :
    (BitVec.ofNat 32 (r <<< 24 + m <<< 16 + 6)).extractLsb' 16 8 = BitVec.ofNat 8 m := by
  apply BitVec.eq_of_toNat_eq
  rw [BitVec.extractLsb'_toNat, BitVec.toNat_ofNat, BitVec.toNat_ofNat, Nat.shiftRight_eq_div_pow, Nat.shiftLeft_eq,
    Nat.shiftLeft_eq]
  omega

theorem extractLsb'_postdiv (r m : Nat) : (BitVec.ofNat 32 (r <<< 24 + m <<< 16 + 6)).extractLsb' 0 8 = 6 := by
  apply BitVec.eq_of_toNat_eq
  rw [BitVec.extractLsb'_toNat, BitVec.toNat_ofNat, Nat.shiftRight_eq_div_pow, Nat.shiftLeft_eq, Nat.shiftLeft_eq]
  change _ = 6
  omega

theorem Pll.write_dpllWord {p : Pll} (h : p.switching = false) (speed : Nat) :
    (p.write (dpllWord p speed)).mult = BitVec.ofNat 8 (dpllMult speed) ∧ (p.write (dpllWord p speed)).postdiv = 6 := by
  rw [Pll.write, h]
  exact ⟨extractLsb'_mult (dpllMult_lt speed) _, extractLsb'_postdiv ..⟩

/-- With no controller running, each loop of a list takes the word of the speed, and nothing else changes. -/
theorem State.foldl_pllWrite_idle (speed : Nat) {l : List PllId} (hl : l.Nodup) {s : State}
    (h : ∀ n : CtrlId, s.ddr[n].state ≠ 2) :
    ∃ ps, l.foldl (fun s k => s.pllWrite k (dpllWord s.plls[k] speed)) s = { s with plls := ps } ∧
      ∀ k : PllId, ps[k] = if k ∈ l then s.plls[k].write (dpllWord s.plls[k] speed) else s.plls[k] := by
  induction l generalizing s with
  | nil => exact ⟨s.plls, rfl, fun _ => rfl⟩
  | cons j l ih =>
    obtain ⟨hj, hl⟩ := List.nodup_cons.mp hl
    rw [List.foldl_cons, State.pllWrite_idle h]
    obtain ⟨ps, hps, hall⟩ := ih hl (s := s.modPll j (·.write (dpllWord s.plls[j] speed))) h
    refine ⟨ps, hps, fun k => (hall k).trans ?_⟩
    by_cases hk : k = j
    · subst hk
      rw [if_neg hj, if_pos List.mem_cons_self, State.modPll_same]
    · have hne : j.val ≠ k.val := fun e => hk (Fin.ext e.symm)
      simp [State.modPll, hk, hne]

theorem State.setDplls_idle {s : State} (h : ∀ n : CtrlId, s.ddr[n].state ≠ 2) (speed : Nat) :
    ∃ ps, s.setDplls speed = { s with plls := ps } ∧
      ∀ k : PllId, 2 ≤ k.val → ps[k] = s.plls[k].write (dpllWord s.plls[k] speed) := by
  obtain ⟨ps, hps, hall⟩ := State.foldl_pllWrite_idle speed (l := [2, 3, 4, 5]) (by decide) h
  exact ⟨ps, hps, fun k hk => (hall k).trans (if_pos (by revert hk; revert k; decide))⟩

/-! ## Bring-up (13 R268 to R271) -/

/-- The controllers' slots as firmware has found them. -/
def State.foundSlots (s : State) (slots : List (Slot × Slot)) : State :=
  { s with ddr := Vector.ofFn fun n : CtrlId =>
      { s.ddr[n] with slots := slotBits ((allSlots slots).getD n.val (.empty, .empty)) } }

/-- Bring-up ends with a REASON. -/
def State.refuseDimms (s : State) (reason : Nat) : State :=
  { s with mem := { s.mem with init := initWord 4 reason 0 0 } }

/-- Bring-up goes on to training. -/
def State.trainDdr (s : State) (ds : List Dimm) : State :=
  let t := State.setDplls { s with ddr := Vector.ofFn fun n : CtrlId => { s.ddr[n] with state := 1 } } (speedOf ds)
  { t with mem := { t.mem with
      init := initWord 2 0 0 (speedOf ds), dNext := capacityOf ds
      dimm := ds.head?.map fun d => (d, decide (16 < ds.length)) } }

/-- What firmware makes of a population, by the first of these that holds: a module that it cannot read, two reasons at
once or MRDIMMs in pairs (a free value), a broken rule, an unsupported module, none of them. -/
theorem execDdrBringup_eq {slots : List (Slot × Slot)} {s : State} (hfw : s.chip.phase = .firmware)
    (hinit : s.ddrInit = 0) :
    execDdrBringup slots s =
      let t := s.foundSlots slots
      if (allSlots slots).any fun p => p.1 == .unreadable || p.2 == .unreadable then .next (t.refuseDimms 3)
      else if (populationBroken slots && unsupportedModule slots) ||
          (pairedMrdimm slots && !populationBroken slots && !unsupportedModule slots) then
        .next (t.refuseDimms (if Config.freeBool s.free then 1 else 2)).tick
      else if populationBroken slots then .next (t.refuseDimms 1)
      else if unsupportedModule slots then .next (t.refuseDimms 2)
      else .next (t.trainDdr (dimmsOf slots)) := by
  have hgo : ¬ ((!s.firmware || s.ddrInit ≠ 0) = true) := by simp [State.firmware, hfw, hinit]
  rw [execDdrBringup, if_neg hgo]
  simp only [State.foldl_modDdr]
  rfl

theorem State.foundSlots_slots (s : State) (slots : List (Slot × Slot)) (n : CtrlId) :
    (s.foundSlots slots).ddr[n].slots = slotBits ((allSlots slots).getD n.val (.empty, .empty)) := by
  simp [State.foundSlots]

/-- What training changes: DDR_INIT with the capacity and the modules, the controllers' states and the loops. -/
theorem State.trainDdr_spec (s : State) (ds : List Dimm) :
    (s.trainDdr ds).mem = { s.mem with
      init := initWord 2 0 0 (speedOf ds), dNext := capacityOf ds
      dimm := ds.head?.map fun d => (d, decide (16 < ds.length)) } ∧
    (s.trainDdr ds).cores = s.cores ∧
    (∀ n : CtrlId, (s.trainDdr ds).ddr[n] = { s.ddr[n] with state := 1 }) ∧
    ∀ k : PllId, 2 ≤ k.val → (s.trainDdr ds).plls[k] = s.plls[k].write (dpllWord s.plls[k] (speedOf ds)) := by
  obtain ⟨ps, hps, hall⟩ := State.setDplls_idle
    (s := { s with ddr := Vector.ofFn fun n : CtrlId => { s.ddr[n] with state := 1 } }) (by simp) (speedOf ds)
  simp only [State.trainDdr, hps]
  refine ⟨trivial, trivial, fun n => ?_, hall⟩
  exact congrArg id (Vector.getElem_ofFn ..)

@[simp] theorem State.foundSlots_mem (s : State) (slots : List (Slot × Slot)) : (s.foundSlots slots).mem = s.mem := rfl
@[simp] theorem State.foundSlots_cores (s : State) (slots : List (Slot × Slot)) : (s.foundSlots slots).cores = s.cores := rfl

@[simp] theorem State.refuseDimms_mem (s : State) (r : Nat) :
    (s.refuseDimms r).mem = { s.mem with init := initWord 4 r 0 0 } := rfl
@[simp] theorem State.refuseDimms_cores (s : State) (r : Nat) : (s.refuseDimms r).cores = s.cores := rfl
@[simp] theorem State.refuseDimms_ddr (s : State) (r : Nat) : (s.refuseDimms r).ddr = s.ddr := rfl

/-- What every end of bring-up keeps, and the slots that it has found. -/
def State.FoundOf (u s : State) (slots : List (Slot × Slot)) : Prop :=
  u.mem.cells = s.mem.cells ∧ u.mem.d = s.mem.d ∧ u.cores = s.cores ∧
    ∀ n : CtrlId, u.ddr[n].slots = slotBits ((allSlots slots).getD n.val (.empty, .empty))

theorem State.refuseDimms_foundOf (s : State) (slots : List (Slot × Slot)) (r : Nat) :
    ((s.foundSlots slots).refuseDimms r).FoundOf s slots :=
  ⟨by simp, by simp, by simp, fun n => by rw [State.refuseDimms_ddr, State.foundSlots_slots]⟩

theorem State.trainDdr_foundOf (s : State) (slots : List (Slot × Slot)) (ds : List Dimm) :
    ((s.foundSlots slots).trainDdr ds).FoundOf s slots := by
  obtain ⟨hmem, hcores, hddr, -⟩ := (s.foundSlots slots).trainDdr_spec ds
  exact ⟨by rw [hmem, State.foundSlots_mem], by rw [hmem, State.foundSlots_mem], by rw [hcores, State.foundSlots_cores],
    fun n => by rw [hddr, State.foundSlots_slots]⟩

/-- DDR_INIT after a population's bring-up, and the loops and controllers of one that trains. -/
def State.BroughtUp (u s : State) (slots : List (Slot × Slot)) : Prop :=
  let unread := (allSlots slots).any (fun p => p.1 == .unreadable || p.2 == .unreadable) = true
  let broken := populationBroken slots = true
  let unsup := unsupportedModule slots = true
  let paired := pairedMrdimm slots = true
  (unread → u.mem.init = initWord 4 3 0 0) ∧
  (¬ unread → broken → ¬ unsup → u.mem.init = initWord 4 1 0 0) ∧
  (¬ unread → ¬ broken → unsup → u.mem.init = initWord 4 2 0 0) ∧
  (¬ unread → broken → unsup → u.mem.init = initWord 4 1 0 0 ∨ u.mem.init = initWord 4 2 0 0) ∧
  (¬ unread → ¬ broken → ¬ unsup → ¬ paired →
    u.mem.init = initWord 2 0 0 (speedOf (dimmsOf slots)) ∧ u.mem.dNext = capacityOf (dimmsOf slots) ∧
    (∀ n : CtrlId, u.ddr[n].state = 1) ∧
    ∀ k : PllId, 2 ≤ k.val → s.plls[k].switching = false →
      u.plls[k].mult = BitVec.ofNat 8 (dpllMult (speedOf (dimmsOf slots))) ∧ u.plls[k].postdiv = 6)

theorem State.trainDdr_broughtUp (s : State) {slots : List (Slot × Slot)}
    (hread : ¬ (allSlots slots).any (fun p => p.1 == .unreadable || p.2 == .unreadable) = true)
    (hb : ¬ populationBroken slots = true) (hn : ¬ unsupportedModule slots = true) :
    ((s.foundSlots slots).trainDdr (dimmsOf slots)).BroughtUp s slots := by
  obtain ⟨hmem, -, hddr, hpll⟩ := (s.foundSlots slots).trainDdr_spec (dimmsOf slots)
  refine ⟨fun h => absurd h hread, fun _ h => absurd h hb, fun _ _ h => absurd h hn, fun _ h => absurd h hb,
    fun _ _ _ _ => ⟨?_, ?_, fun n => ?_, fun k hk hsw => ?_⟩⟩
  · rw [hmem]
  · rw [hmem]
  · rw [hddr]
  · rw [hpll k hk]
    exact Pll.write_dpllWord hsw _

/-- A population that bring-up accepts or refuses ends with the REASON that it earns. -/
theorem execDdrBringup_spec {slots : List (Slot × Slot)} {s : State} (hfw : s.chip.phase = .firmware)
    (hinit : s.ddrInit = 0) :
    ∃ u, execDdrBringup slots s = .next u ∧ u.FoundOf s slots ∧ u.BroughtUp s slots := by
  rw [execDdrBringup_eq hfw hinit]
  dsimp only
  split
  · next hu => exact ⟨_, rfl, s.refuseDimms_foundOf slots 3, fun _ => rfl, fun h => absurd hu h, fun h => absurd hu h,
      fun h => absurd hu h, fun h => absurd hu h⟩
  · next hu =>
    split
    · next hfree =>
      refine ⟨_, rfl, s.refuseDimms_foundOf slots _, fun h => absurd h hu, fun _ hb hn => ?_, fun _ hb hn => ?_,
        fun _ hb hn => ?_, fun _ hb hn hp => ?_⟩
      · simp [hb, hn] at hfree
      · simp [hb, hn] at hfree
      · cases Config.freeBool s.free
        · exact .inr rfl
        · exact .inl rfl
      · simp [hb, hn, hp] at hfree
    · next hfree =>
      split
      · next hb =>
        refine ⟨_, rfl, s.refuseDimms_foundOf slots 1, fun h => absurd h hu, fun _ _ _ => rfl, fun _ h => absurd hb h,
          fun _ _ _ => .inl rfl, fun _ h => absurd hb h⟩
      · next hb =>
        split
        · next hn => exact ⟨_, rfl, s.refuseDimms_foundOf slots 2, fun h => absurd h hu, fun _ h => absurd h hb,
            fun _ _ _ => rfl, fun _ h => absurd h hb, fun _ _ h => absurd hn h⟩
        · next hn => exact ⟨_, rfl, s.trainDdr_foundOf slots _, s.trainDdr_broughtUp hu hb hn⟩

/-! ## The end of training (13 R271) -/

/-- A source that one step of a fold raises stays pending to its end. -/
theorem State.foldl_pendingSrc {α : Type} {f : State → α → State} {k : Nat}
    (hkeep : ∀ s a, s.pendingSrc k = true → (f s a).pendingSrc k = true) {a : α} (hset : ∀ s, (f s a).pendingSrc k = true)
    {l : List α} (ha : a ∈ l) (s : State) : (l.foldl f s).pendingSrc k = true := by
  have hall : ∀ (l : List α) (s : State), s.pendingSrc k = true → (l.foldl f s).pendingSrc k = true := by
    intro l
    induction l with
    | nil => exact fun _ h => h
    | cons b l ih => exact fun s h => ih _ (hkeep s b h)
  induction l generalizing s with
  | nil => cases ha
  | cons b l ih =>
    rcases List.mem_cons.mp ha with rfl | h
    · exact hall l _ (hset s)
    · exact ih h _

/-- One controller at the end of a training that has failed: its own failure is an event. -/
def State.trainFailed (failed : BitVec 16) (s : State) (n : CtrlId) : State :=
  let bad := failed.getLsbD n.val
  let s := s.modDdr n fun d => { d with state := if bad then 4 else 0 }
  if bad then s.raise (0x104 + 16 * n) else s

theorem State.trainFailed_mem (failed : BitVec 16) (s : State) (n : CtrlId) : (s.trainFailed failed n).mem = s.mem := by
  unfold State.trainFailed; dsimp only; split <;> simp

theorem State.trainFailed_cores (failed : BitVec 16) (s : State) (n : CtrlId) :
    (s.trainFailed failed n).cores = s.cores := by
  unfold State.trainFailed; dsimp only; split <;> simp

theorem State.trainFailed_ddr (failed : BitVec 16) (s : State) (n : CtrlId) : (s.trainFailed failed n).ddr =
    s.ddr.set n { s.ddr[n] with state := if failed.getLsbD n.val then 4 else 0 } := by
  unfold State.trainFailed; dsimp only; split <;> simp [State.modDdr]

theorem State.trainFailed_keeps_pendingSrc (failed : BitVec 16) (s : State) (n : CtrlId) {k : Nat}
    (h : s.pendingSrc k = true) : (s.trainFailed failed n).pendingSrc k = true := by
  unfold State.trainFailed
  dsimp only
  split
  · exact State.raise_keeps_pendingSrc (s := s.modDdr n _) h _
  · exact h

theorem State.trainFailed_pendingSrc {failed : BitVec 16} {n : CtrlId} (h : failed.getLsbD n.val = true) (s : State) :
    (s.trainFailed failed n).pendingSrc (0x104 + 16 * n.val) = true := by
  unfold State.trainFailed
  simp only [h, if_true]
  exact State.raise_pendingSrc _ _ (by omega)

/-- Controllers that train, with their clocks (13 R271). -/
theorem State.training_of {s : State} (hinit : s.ddrInit = 2) (hstate : ∀ n : CtrlId, s.ddr[n].state = 1)
    (hclk : ∀ n : CtrlId, s.ctrlStopped n = false) : s.training = true := by
  have hall : s.ddr.all (·.state = 1) = true := Vector.all_eq_true.mpr fun i hi => by simpa using hstate ⟨i, hi⟩
  rw [State.training, hall]
  simp [hinit, hclk]

theorem exec_ddrTrainingDone (failed : BitVec 16) (s : State) :
    exec (.ddrTrainingDone failed) s = execDdrTrainingDone failed s := rfl

theorem execDdrTrainingDone_active {s : State} (h : s.training = true) : ∃ u, execDdrTrainingDone 0 s = .next u ∧
    u.mem = s.mem ∧ u.cores = s.cores ∧ ∀ n : CtrlId, u.ddr[n].state = 2 := by
  rw [execDdrTrainingDone, if_neg (by simp [h]), if_pos rfl, State.foldl_modDdr fun _ d => { d with state := 2 }]
  exact ⟨_, rfl, rfl, rfl, fun n => by simp⟩

theorem execDdrTrainingDone_failed {s : State} (h : s.training = true) {failed : BitVec 16} (hf : failed ≠ 0) :
    ∃ u, execDdrTrainingDone failed s = .next u ∧
      u.mem = { s.mem with init := initWord 5 4 failed.toNat (bits s.mem.init.toNat 27 24) } ∧ u.cores = s.cores ∧
      ∀ n : CtrlId, failed.getLsbD n.val = true → u.ddr[n].state = 4 ∧ u.pendingSrc (0x104 + 16 * n.val) = true := by
  have hmem := State.foldl_keeps State.mem (State.trainFailed_mem failed) (List.finRange 16) s
  have hexec : execDdrTrainingDone failed s =
      let t := (List.finRange 16).foldl (State.trainFailed failed) s
      .next { t with mem := { t.mem with init := initWord 5 4 failed.toNat (bits t.mem.init.toNat 27 24) } } := by
    rw [execDdrTrainingDone, if_neg (by simp [h]), if_neg hf]
    rfl
  refine ⟨_, hexec, ?_, ?_, fun n hn => ⟨?_, ?_⟩⟩
  · rw [hmem]
  · exact State.foldl_keeps State.cores (State.trainFailed_cores failed) _ s
  · have hddr := State.foldl_all_ddr (f := State.trainFailed failed)
      (g := fun n d => { d with state := if failed.getLsbD n.val then 4 else 0 }) (State.trainFailed_ddr failed) s n
    exact (congrArg Ddr.state hddr).trans (if_pos hn)
  · exact State.foldl_pendingSrc (f := State.trainFailed failed) (fun s a => State.trainFailed_keeps_pendingSrc failed s a)
      (State.trainFailed_pendingSrc hn) (List.mem_finRange n) s

theorem ddrTrainingDone_settles (failed : BitVec 16) (s : State) (hinit : s.ddrInit = 2)
    (hstate : ∀ n : CtrlId, s.ddr[n].state = 1) (hclk : ∀ n : CtrlId, s.ctrlStopped n = false) :
    ∃ u, exec (.ddrTrainingDone failed) s = .next u ∧ u.mem.cells = s.mem.cells ∧ u.cores = s.cores ∧
      (failed = 0 → u.mem = s.mem ∧ ∀ n : CtrlId, u.ddr[n].state = 2) ∧
      (failed ≠ 0 → u.mem.init = initWord 5 4 failed.toNat (bits s.mem.init.toNat 27 24) ∧
        ∀ n : CtrlId, failed.getLsbD n.val = true → u.ddr[n].state = 4 ∧ u.pendingSrc (0x104 + 16 * n.val) = true) := by
  have htrain := State.training_of hinit hstate hclk
  rw [exec_ddrTrainingDone]
  by_cases hf : failed = 0
  · subst hf
    obtain ⟨u, hu, hmem, hcores, hact⟩ := execDdrTrainingDone_active htrain
    exact ⟨u, hu, by rw [hmem], hcores, fun _ => ⟨hmem, hact⟩, fun h => absurd rfl h⟩
  · obtain ⟨u, hu, hmem, hcores, hbad⟩ := execDdrTrainingDone_failed htrain hf
    exact ⟨u, hu, by rw [hmem], hcores, fun h => absurd h hf, fun _ => ⟨by rw [hmem], hbad⟩⟩

/-! ## The end of zeroing (13 R271) -/

theorem cellGet_filter_kept {w : Nat} (p : Nat → Bool) {a : Nat} (ha : p a = true) (l : List (Nat × BitVec w)) :
    cellGet (l.filter fun c => p c.1) a = cellGet l a := by
  induction l with
  | nil => rfl
  | cons c l ih =>
    obtain ⟨b, x⟩ := c
    rw [List.filter_cons]
    by_cases hab : a = b
    · subst hab
      simp [ha, cellGet]
    · split <;> simp [cellGet, hab, ih]

theorem cellGet_filter_removed {w : Nat} (p : Nat → Bool) {a : Nat} (ha : p a = false) (l : List (Nat × BitVec w)) :
    cellGet (l.filter fun c => p c.1) a = 0 := by
  induction l with
  | nil => rfl
  | cons c l ih =>
    obtain ⟨b, x⟩ := c
    rw [List.filter_cons]
    by_cases hab : a = b
    · subst hab
      simpa [ha] using ih
    · split
      · simpa [cellGet, hab] using ih
      · exact ih

theorem cellGet_clearCells_within (m : List (Nat × Byte)) {a n k : Nat} (hk : a ≤ k ∧ k < a + n) :
    cellGet (clearCells m a n) k = 0 :=
  cellGet_filter_removed (fun b => !(decide (a ≤ b) && decide (b < a + n))) (by simp [hk]) m

theorem cellGet_clearCells_outside (m : List (Nat × Byte)) {a n k : Nat} (hk : k < a ∨ a + n ≤ k) :
    cellGet (clearCells m a n) k = cellGet m k :=
  cellGet_filter_kept (fun b => !(decide (a ≤ b) && decide (b < a + n)))
    (by simp only [Bool.not_eq_true', Bool.and_eq_false_iff, decide_eq_false_iff_not]; omega) m

theorem initWord_state {reason failed speed : Nat} (hr : reason < 16) (hf : failed < 65536) (hs : speed < 16) (state : Nat)
    (hst : state < 8) : bits (initWord state reason failed speed).toNat 2 0 = state := by
  rw [initWord, BitVec.toNat_ofNat, bits, Nat.shiftLeft_eq, Nat.shiftLeft_eq, Nat.shiftLeft_eq, Nat.shiftRight_eq_div_pow]
  omega

theorem exec_ddrZeroingDone (s : State) : exec .ddrZeroingDone s = execDdrZeroingDone s := rfl

/-- DDR holds zeros with good check bits, and D is what bring-up has found. -/
theorem execDdrZeroingDone_spec {s : State} (hinit : s.ddrInit = 2) (hstate : ∀ n : CtrlId, s.ddr[n].state = 2)
    (hclk : ∀ n : CtrlId, s.ctrlStopped n = false) :
    execDdrZeroingDone s = .next { s with mem := { s.mem with
      cells := clearCells s.mem.cells 0 s.mem.dNext, badDdr := [], softDdr := [], ddrBack := [], d := s.mem.dNext
      init := initWord 3 0 0 (bits s.mem.init.toNat 27 24) } } := by
  have hall : s.ddr.all (·.state = 2) = true := Vector.all_eq_true.mpr fun i hi => by simpa using hstate ⟨i, hi⟩
  rw [execDdrZeroingDone, if_pos (by rw [hall]; simp [hinit, hclk])]

theorem execDdrZeroingDone_stopped {s : State} {n : CtrlId} (h : s.ctrlStopped n = true) :
    execDdrZeroingDone s = .next s := by
  have hall : ((List.finRange 16).all fun n => !s.ctrlStopped n) = false :=
    List.all_eq_false.mpr ⟨n, List.mem_finRange n, by simp [h]⟩
  rw [execDdrZeroingDone, hall, Bool.and_false, if_neg Bool.false_ne_true]

theorem ddrZeroingDone_settles (s : State) (hinit : s.ddrInit = 2) (hstate : ∀ n : CtrlId, s.ddr[n].state = 2) :
    ((∃ n : CtrlId, s.ctrlStopped n = true) → exec .ddrZeroingDone s = .next s) ∧
    ((∀ n : CtrlId, s.ctrlStopped n = false) → ∃ u, exec .ddrZeroingDone s = .next u ∧ u.mem.d = s.mem.dNext ∧
      u.mem.badDdr = [] ∧ u.mem.softDdr = [] ∧ u.mem.badScratch = s.mem.badScratch ∧ u.cores = s.cores ∧ u.ddr = s.ddr ∧
      bits u.mem.init.toNat 2 0 = 3 ∧ (∀ a, a < s.mem.dNext → cellGet u.mem.cells a = 0) ∧
      ∀ a, s.mem.dNext ≤ a → cellGet u.mem.cells a = cellGet s.mem.cells a) := by
  rw [exec_ddrZeroingDone]
  refine ⟨fun ⟨n, hn⟩ => execDdrZeroingDone_stopped hn, fun hclk => ?_⟩
  have hspeed : bits s.mem.init.toNat 27 24 < 16 := Nat.mod_lt _ (by decide)
  exact ⟨_, execDdrZeroingDone_spec hinit hstate hclk, rfl, rfl, rfl, rfl, rfl, rfl,
    initWord_state (by decide) (by decide) hspeed 3 (by decide),
    fun a ha => cellGet_clearCells_within _ ⟨Nat.zero_le a, by omega⟩,
    fun a ha => cellGet_clearCells_outside _ (.inr (by omega))⟩

/-! ## Self-refresh and the refresh rate (13 R275, R277) -/

theorem exec_ddrSrEntry (n : CtrlId) (s : State) : exec (.ddrSrEntry n) s = execDdrSrEntry n s := rfl
theorem exec_ddrSrExit (n : CtrlId) (x y : Bool) (s : State) : exec (.ddrSrExit n x y) s = execDdrSrExit n x y s := rfl
theorem exec_refreshRatePoll (n : CtrlId) (x y : Bool) (s : State) :
    exec (.refreshRatePoll n x y) s = execRefreshRatePoll n x y s := rfl

/-- REFX2 takes the ranks' indication, and its event is raised where it changes. -/
theorem State.refreshRate_spec (s : State) (n : CtrlId) (x2 : Bool) :
    (s.refreshRate n x2).mem = s.mem ∧ (s.refreshRate n x2).cores = s.cores ∧
      (s.refreshRate n x2).ddr[n] = { s.ddr[n] with refx2 := x2 } ∧
      (∀ m, m ≠ n → (s.refreshRate n x2).ddr[m] = s.ddr[m]) ∧
      (s.ddr[n].refx2 ≠ x2 → (s.refreshRate n x2).pendingSrc (0x103 + 16 * n.val) = true) := by
  unfold State.refreshRate
  dsimp only
  split
  · next hsame => exact ⟨rfl, rfl, s.modDdr_same n _, fun m hm => s.modDdr_other hm _, fun h => absurd hsame h⟩
  · refine ⟨by simp, by simp, ?_, fun m hm => ?_, fun _ => State.raise_pendingSrc _ _ (by omega)⟩
    · simp only [State.raise_ddr, State.modDdr_same]
    · simp only [State.raise_ddr, State.modDdr_other s hm]

/-- A controller leaves self-refresh and takes the ranks' indication. -/
theorem State.srExit_spec {s : State} {n : CtrlId} (h : s.ddr[n].state = 3) (x2 : Bool) :
    (s.srExit n x2).mem = s.mem ∧ (s.srExit n x2).cores = s.cores ∧
      (s.srExit n x2).ddr[n] = { s.ddr[n] with state := 2, refx2 := x2 } ∧
      (∀ m, m ≠ n → (s.srExit n x2).ddr[m] = s.ddr[m]) ∧
      (s.ddr[n].refx2 ≠ x2 → (s.srExit n x2).pendingSrc (0x103 + 16 * n.val) = true) := by
  rw [State.srExit, if_pos h]
  obtain ⟨hmem, hcores, hsame, hother, hevt⟩ := (s.modDdr n fun d => { d with state := 2 }).refreshRate_spec n x2
  rw [State.modDdr_same] at hsame hevt
  exact ⟨hmem, hcores, hsame, fun m hm => (hother m hm).trans (s.modDdr_other hm _), hevt⟩

theorem execDdrSrEntry_rests {n : CtrlId} {s : State} (hinit : s.ddrInit = 3) (hstate : s.ddr[n].state = 2)
    (hclk : s.ctrlStopped n = false) (hidle : s.ddr[n].srCfg.extractLsb' 0 16 ≠ 0) :
    execDdrSrEntry n s = .next (s.modDdr n fun d => { d with state := 3 }) := by
  rw [execDdrSrEntry, if_pos]
  simp only [Bool.and_eq_true, decide_eq_true_eq, Bool.not_eq_true']
  exact ⟨⟨⟨hinit, hstate⟩, hclk⟩, hidle⟩

theorem execDdrSrEntry_stays {n : CtrlId} {s : State}
    (h : s.ctrlStopped n = true ∨ s.ddr[n].srCfg.extractLsb' 0 16 = 0 ∨ s.ddr[n].state ≠ 2) :
    execDdrSrEntry n s = .next s := by
  rw [execDdrSrEntry, if_neg]
  intro hgo
  simp only [Bool.and_eq_true, decide_eq_true_eq, Bool.not_eq_true'] at hgo
  obtain ⟨⟨⟨-, hstate⟩, hclk⟩, hidle⟩ := hgo
  rcases h with h | h | h
  · rw [h] at hclk; cases hclk
  · exact hidle h
  · exact h hstate

end Sys2Proof.Machine

namespace Sys2Proof.Proofs

open Sys2Proof.Machine

theorem ddrSelfRefresh (n : CtrlId) (s : State) :
    let d := s.ddr[n]
    (s.ctrlStopped n = true → exec (.ddrSrEntry n) s = .next s ∧
      ∀ x y : Bool, exec (.ddrSrExit n x y) s = .next s ∧ exec (.refreshRatePoll n x y) s = .next s) ∧
    (s.ddrInit = 3 → d.state = 2 → s.ctrlStopped n = false → d.srCfg.extractLsb' 0 16 ≠ 0 →
      exec (.ddrSrEntry n) s = .next (s.modDdr n fun d => { d with state := 3 })) ∧
    (d.srCfg.extractLsb' 0 16 = 0 ∨ d.state ≠ 2 → exec (.ddrSrEntry n) s = .next s) := by
  simp only [exec_ddrSrEntry, exec_ddrSrExit, exec_refreshRatePoll]
  refine ⟨fun hclk => ⟨execDdrSrEntry_stays (.inl hclk), fun x y => ⟨?_, ?_⟩⟩, execDdrSrEntry_rests,
    fun h => execDdrSrEntry_stays (.inr h)⟩
  · rw [execDdrSrExit, if_pos hclk]
  · rw [execRefreshRatePoll, hclk, if_neg (by simp)]

/-- Settles O54: bring-up by the first reason that the population gives, training and zeroing over all the controllers, and
self-refresh with the refresh rate one controller at a time. -/
theorem ddrComesUpAndRefreshes : Obligations.DdrComesUpAndRefreshes := by
  refine ⟨⟨fun slots s hfw hinit => ?_, ddrTrainingDone_settles, ddrZeroingDone_settles⟩, fun n s => ?_⟩
  · obtain ⟨u, hu, ⟨hcells, hd, hcores, hslots⟩, hends⟩ := execDdrBringup_spec (slots := slots) hfw hinit
    exact ⟨u, hu, hcells, hd, hcores, hslots, hends⟩
  · obtain ⟨hstopped, hentry, hstays⟩ := ddrSelfRefresh n s
    refine ⟨hstopped, hentry, hstays, fun x y => ⟨fun hst hclk => ?_, fun hst hclk => ?_⟩⟩
    · exact ⟨_, by rw [exec_ddrSrExit, execDdrSrExit, hclk]; rfl, State.srExit_spec hst _⟩
    · exact ⟨_, by rw [exec_refreshRatePoll, execRefreshRatePoll, hclk, if_pos (by simp only [hst]; rfl)],
        s.refreshRate_spec n _⟩

end Sys2Proof.Proofs
end

section
/-! The patrol scrub of DDR (13 R273, R274), for O55. -/

namespace Sys2Proof.Machine

/-! ## Granules and marks -/

theorem mem_natIns {x n : Nat} {l : List Nat} : x ∈ natIns n l ↔ x = n ∨ x ∈ l := by
  induction l with
  | nil => simp [natIns]
  | cons a t ih =>
    unfold natIns
    split
    · exact List.mem_cons
    · split
      · next h => subst h; simp
      · simp [ih, or_left_comm]

/-- A granule is the one that it touches. -/
theorem granules_granule {g : Nat} (hg : 0 < g) (w : Nat) : granules g (w * g) g = [w] := by
  have hlast : (w * g + g - 1) / g = w := by
    rw [show w * g + g - 1 = g * w + (g - 1) by rw [Nat.mul_comm]; omega, Nat.mul_add_div hg,
      Nat.div_eq_of_lt (by omega), Nat.add_zero]
  simp [granules, hlast, Nat.mul_div_cancel _ hg, upto, Nat.ne_of_gt hg]

theorem State.poisoned_word (s : State) {w : Nat} (h : scratchBase ≤ w * 8) :
    s.poisoned (w * 8) 8 = decide (w ∈ s.mem.badScratch) := by
  simp [State.poisoned, h, granules_granule]

theorem State.poisoned_line (s : State) {l : Nat} (h : l * 64 < scratchBase) :
    s.poisoned (l * 64) 64 = decide (l ∈ s.mem.badDdr) := by
  simp [State.poisoned, Nat.not_le.mpr h, granules_granule]

theorem State.poisonAt_word (s : State) {w : Nat} (h : scratchBase ≤ w * 8) :
    s.poisonAt (w * 8) 8 = { s with mem := { s.mem with badScratch := natIns w s.mem.badScratch } } := by
  simp [State.poisonAt, h, granules_granule]

theorem State.poisonAt_line (s : State) {l : Nat} (h : l * 64 < scratchBase) :
    s.poisonAt (l * 64) 64 = { s with mem := { s.mem with badDdr := natIns l s.mem.badDdr } } := by
  simp [State.poisonAt, Nat.not_le.mpr h, granules_granule]

/-- The controller of a DDR byte is its line's. -/
theorem ddrSplit_line (a : Nat) : (ddrSplit (a / 64 * 64)).1 = (ddrSplit a).1 := by
  have hbits : ∀ hi lo, 8 ≤ lo → bits (a / 64 * 64) hi lo = bits a hi lo := fun hi lo hlo => by
    obtain ⟨k, rfl⟩ := Nat.exists_eq_add_of_le hlo
    have h256 : a / 64 * 64 / 256 = a / 256 := by omega
    simp only [bits, Nat.shiftRight_eq_div_pow, Nat.pow_add, ← Nat.div_div_eq_div_mul]
    rw [show 2 ^ 8 = 256 from rfl, h256]
  simp [ddrSplit, hbits]

/-! ## What a check finds (13 R262, R263, R273, R274) -/

/-- A corrected line counts at its controller. -/
theorem State.ddrCorrected_spec (s : State) (a : Nat) :
    (s.ddrCorrected a).ddr[(ddrSplit a).1] = { s.ddr[(ddrSplit a).1] with ecc := eccCe s.ddr[(ddrSplit a).1].ecc } ∧
      (∀ m, m ≠ (ddrSplit a).1 → (s.ddrCorrected a).ddr[m] = s.ddr[m]) ∧
      (s.ddr[(ddrSplit a).1].ecc.extractLsb' 0 32 = 0 →
        (s.ddrCorrected a).pendingSrc (0x100 + 16 * (ddrSplit a).1.val) = true) := by
  unfold State.ddrCorrected
  dsimp only
  split
  · refine ⟨?_, fun m hm => ?_, fun _ => State.raise_pendingSrc _ _ (by omega)⟩
    · simp only [State.raise_ddr, State.modDdr_same]
    · simp only [State.raise_ddr, State.modDdr_other s hm]
  · next hne => exact ⟨s.modDdr_same .., fun m hm => s.modDdr_other hm _, fun h => absurd h hne⟩

/-- An uncorrectable line counts at its controller, and is an event. -/
theorem State.ddrUncorrectable_spec (s : State) (a : Nat) (device : BitVec 4) :
    (s.ddrUncorrectable a true device).cores = s.cores ∧
      (s.ddrUncorrectable a true device).ddr[(ddrSplit a).1].ecc = eccUe s.ddr[(ddrSplit a).1].ecc ∧
      (∀ m, m ≠ (ddrSplit a).1 → (s.ddrUncorrectable a true device).ddr[m] = s.ddr[m]) ∧
      (s.ddrUncorrectable a true device).pendingSrc (0x102 + 16 * (ddrSplit a).1.val) = true := by
  unfold State.ddrUncorrectable
  refine ⟨by simp, ?_, fun m hm => ?_, State.raise_pendingSrc _ _ (by simp only [if_true]; omega)⟩
  · simp only [State.raise_ddr, State.modDdr_same]
  · simp only [State.raise_ddr, State.modDdr_other s hm]

/-- One line that has an error and no poison is corrected, and its write-back is owed. -/
theorem State.checkDdr_soft {s : State} {l : Nat} (hgood : l ∉ s.mem.badDdr) (hsoft : l ∈ s.mem.softDdr) :
    s.checkDdr [l] =
      { s.ddrCorrected (l * 64) with mem := { s.mem with ddrBack := natIns l s.mem.ddrBack } } := by
  simp [State.checkDdr, hgood, hsoft]

theorem State.checkDdr_soft_spec {s : State} {l : Nat} (hgood : l ∉ s.mem.badDdr) (hsoft : l ∈ s.mem.softDdr)
    {n : CtrlId} (hn : (ddrSplit (l * 64)).1 = n) :
    (s.checkDdr [l]).mem = { s.mem with ddrBack := natIns l s.mem.ddrBack } ∧ (s.checkDdr [l]).cores = s.cores ∧
      (∀ m, m ≠ n → (s.checkDdr [l]).ddr[m] = s.ddr[m]) ∧
      (s.checkDdr [l]).ddr[n] = { s.ddr[n] with ecc := eccCe s.ddr[n].ecc } ∧
      (s.ddr[n].ecc.extractLsb' 0 32 = 0 → (s.checkDdr [l]).pendingSrc (0x100 + 16 * n.val) = true) := by
  subst hn
  obtain ⟨hsame, hother, hevt⟩ := s.ddrCorrected_spec (l * 64)
  have hcores := (s.checkDdr_sameCoresAci [l]).1
  rw [State.checkDdr_soft hgood hsoft] at hcores ⊢
  refine ⟨rfl, hcores, hother, hsame, fun h => ?_⟩
  rw [State.pendingSrc_of_evt rfl]
  exact hevt h

/-! ## Patrol scrub of DDR (13 R274) -/

theorem exec_ddrScrub (n : CtrlId) (off : Nat) (found : EccFind) (device : BitVec 4) (s : State) :
    exec (.ddrScrub n off found device) s = execDdrScrub n off found device s := rfl

/-- A line that the scrub has found uncorrectable is poisoned. -/
def State.scrubBadLine (s : State) (off : Nat) (device : BitVec 4) : State :=
  (s.poisonAt (off / 64 * 64) 64).ddrUncorrectable off true device

/-- A line that the scrub has corrected owes its write-back. -/
def State.scrubSoftLine (s : State) (off : Nat) : State :=
  { s with mem := { s.mem with softDdr := natIns (off / 64) s.mem.softDdr } }.checkDdr [off / 64]

/-- The scrub of an active controller that runs, by what it finds in the line. -/
theorem execDdrScrub_eq {n : CtrlId} {off : Nat} {found : EccFind} {device : BitVec 4} {s : State} (hd : off < s.mem.d)
    (hctrl : (ddrSplit off).1 = n) (hstate : s.ddr[n].state = 2) (hclk : s.ctrlStopped n = false)
    (hon : s.ddr[n].scrub.getLsbD 0 = true) :
    execDdrScrub n off found device s = .next
      (if s.poisoned (off / 64 * 64) 64 = true ∨ found = .uncorrectable then s.scrubBadLine off device
      else if found = .corrected ∨ off / 64 ∈ s.mem.softDdr then s.scrubSoftLine off else s) := by
  have hgo : ¬ (((ddrSplit off).1 ≠ n || s.ddr[n].state ≠ 2 || s.ctrlStopped n || !s.ddr[n].scrub.getLsbD 0) = true) := by
    simp only [Bool.or_eq_true, decide_eq_true_eq, Bool.not_eq_true', not_or]
    exact ⟨⟨⟨fun h => h hctrl, fun h => h hstate⟩, by simp [hclk]⟩, by rw [hon]; exact Bool.noConfusion⟩
  rw [execDdrScrub, if_neg (Nat.not_le.mpr hd), if_neg hgo]
  by_cases hbad : s.poisoned (off / 64 * 64) 64 = true ∨ found = .uncorrectable
  · rw [if_pos hbad, if_pos (by simpa using hbad)]
    rfl
  · rw [if_neg hbad, if_neg (by simpa using hbad)]
    by_cases hsoft : found = .corrected ∨ off / 64 ∈ s.mem.softDdr
    · rw [if_pos hsoft, if_pos (by simpa using hsoft)]
      rfl
    · rw [if_neg hsoft, if_neg (by simpa using hsoft)]

theorem State.scrubBadLine_spec (s : State) {off : Nat} (hoff : off < scratchBase) (device : BitVec 4) :
    (s.scrubBadLine off device).mem.cells = s.mem.cells ∧ (s.scrubBadLine off device).cores = s.cores ∧
      (∀ m, m ≠ (ddrSplit off).1 → (s.scrubBadLine off device).ddr[m] = s.ddr[m]) ∧
      (s.scrubBadLine off device).poisoned (off / 64 * 64) 64 = true ∧
      (s.scrubBadLine off device).pendingSrc (0x102 + 16 * (ddrSplit off).1.val) = true ∧
      (s.scrubBadLine off device).ddr[(ddrSplit off).1].ecc = eccUe s.ddr[(ddrSplit off).1].ecc := by
  have hline : off / 64 * 64 < scratchBase := by omega
  unfold State.scrubBadLine
  rw [s.poisonAt_line hline]
  obtain ⟨hcores, hecc, hother, hevt⟩ :=
    State.ddrUncorrectable_spec { s with mem := { s.mem with badDdr := natIns (off / 64) s.mem.badDdr } } off device
  refine ⟨by simp, hcores, hother, ?_, hevt, hecc⟩
  rw [State.poisoned_line _ hline]
  simp [mem_natIns]

/-- A line as the scrub corrects it, whether or not its error was known. -/
def State.softLine (s : State) (l : Nat) : State := { s with mem := { s.mem with softDdr := natIns l s.mem.softDdr } }

theorem State.scrubSoftLine_spec {s : State} {off : Nat} (hgood : off / 64 ∉ s.mem.badDdr) :
    (s.scrubSoftLine off).mem = { s.mem with
      softDdr := natIns (off / 64) s.mem.softDdr, ddrBack := natIns (off / 64) s.mem.ddrBack } ∧
      (s.scrubSoftLine off).cores = s.cores ∧
      (∀ m, m ≠ (ddrSplit off).1 → (s.scrubSoftLine off).ddr[m] = s.ddr[m]) ∧
      (s.scrubSoftLine off).ddr[(ddrSplit off).1] =
        { s.ddr[(ddrSplit off).1] with ecc := eccCe s.ddr[(ddrSplit off).1].ecc } ∧
      (s.ddr[(ddrSplit off).1].ecc.extractLsb' 0 32 = 0 →
        (s.scrubSoftLine off).pendingSrc (0x100 + 16 * (ddrSplit off).1.val) = true) :=
  State.checkDdr_soft_spec (s := s.softLine (off / 64)) hgood (mem_natIns.mpr (.inl rfl)) (ddrSplit_line off)

end Sys2Proof.Machine

namespace Sys2Proof.Proofs

open Sys2Proof.Machine

theorem ddrPatrolScrub : Sys2Proof.Claims.DdrPatrolScrub := by
  intro n off found device s
  rw [exec_ddrScrub]
  refine ⟨fun hd => by rw [execDdrScrub, if_pos hd], fun hd hoff hctrl hstate hclk hon => ?_⟩
  rw [execDdrScrub_eq hd hctrl hstate hclk hon]
  subst hctrl
  refine ⟨_, rfl, ?_⟩
  have hpois := s.poisoned_line (l := off / 64) (by omega)
  split
  · next hbad =>
    obtain ⟨hcells, hcores, hother, hmark, hevt, hecc⟩ := s.scrubBadLine_spec hoff device
    refine ⟨hcells, hcores, hother, fun hgood hf _ => ?_, fun hgood hf => ?_, fun _ => ⟨hmark, hevt, hecc⟩⟩
    · simp [hgood, hf] at hbad
    · rcases hf with hf | ⟨hf, -⟩ <;> simp [hgood, hf] at hbad
  · next hbad =>
    obtain ⟨hgood, hunc⟩ := not_or.mp hbad
    split
    · next hsoft =>
      have hline : off / 64 ∉ s.mem.badDdr := by simpa [hpois] using hgood
      obtain ⟨hmem, hcores, hother, hecc, hevt⟩ := State.scrubSoftLine_spec hline
      refine ⟨by rw [hmem], hcores, hother, fun _ hf hs => ?_, fun _ _ => ⟨?_, by rw [hmem], hecc, hevt⟩,
        fun h => absurd h hunc⟩
      · simp [hf, hs] at hsoft
      · rw [hmem]; exact mem_natIns.mpr (.inl rfl)
    · next hsoft =>
      refine ⟨rfl, rfl, fun _ _ => rfl, fun _ _ _ => rfl, fun _ hf => ?_, fun h => absurd h hunc⟩
      rcases hf with hf | ⟨-, hs⟩
      · simp [hf] at hsoft
      · simp [hs] at hsoft

end Sys2Proof.Proofs
end

section
/-! The proof of O55 (13 R259 to R267): requests, scrub and write-back of the scratch banks. -/

namespace Sys2Proof.Machine

/-! ## What a check of scratch finds (13 R262, R263) -/

@[simp] theorem State.scrCorrected_scr (s : State) : s.scrCorrected.scr = { s.scr with ecc := eccCe s.scr.ecc } := by
  unfold State.scrCorrected; dsimp only; split <;> simp

@[simp] theorem State.scrCorrected_cores (s : State) : s.scrCorrected.cores = s.cores := by
  unfold State.scrCorrected; dsimp only; split <;> simp

@[simp] theorem State.scrCorrected_chains (s : State) : s.scrCorrected.chains = s.chains := by
  unfold State.scrCorrected; dsimp only; split <;> simp

/-- An uncorrectable word counts in UE. -/
theorem State.scrUncorrectable_scr (s : State) (o : Nat) (scrub : Bool) :
    ∃ a, (s.scrUncorrectable o scrub).scr = { s.scr with ecc := eccUe s.scr.ecc, eccAddr := a } := by
  unfold State.scrUncorrectable
  exact ⟨_, State.raise_scr _ _⟩

@[simp] theorem State.scrUncorrectable_cores (s : State) (o : Nat) (scrub : Bool) :
    (s.scrUncorrectable o scrub).cores = s.cores := by simp [State.scrUncorrectable]

@[simp] theorem State.scrUncorrectable_chains (s : State) (o : Nat) (scrub : Bool) :
    (s.scrUncorrectable o scrub).chains = s.chains := by simp [State.scrUncorrectable]

theorem State.scrUncorrectable_pendingSrc (s : State) (o : Nat) (scrub : Bool) :
    (s.scrUncorrectable o scrub).pendingSrc 0x2E1 = true := by
  unfold State.scrUncorrectable
  exact State.raise_pendingSrc _ 0x2E1 (by decide)

theorem State.scrUncorrectable_keeps_pendingSrc {s : State} {k : Nat} (h : s.pendingSrc k = true) (o : Nat)
    (scrub : Bool) : (s.scrUncorrectable o scrub).pendingSrc k = true := by
  unfold State.scrUncorrectable
  apply State.raise_keeps_pendingSrc
  exact (State.pendingSrc_of_evt (by rfl) k).trans h

theorem State.scrCorrected_keeps_pendingSrc {s : State} {k : Nat} (h : s.pendingSrc k = true) :
    s.scrCorrected.pendingSrc k = true := by
  unfold State.scrCorrected
  dsimp only
  split
  · apply State.raise_keeps_pendingSrc
    exact (State.pendingSrc_of_evt (by rfl) k).trans h
  · exact (State.pendingSrc_of_evt (by rfl) k).trans h

/-- The check of one word that has an error. -/
def State.checkWord (s : State) (w : Nat) : State :=
  if w ∈ s.mem.badScratch then s.scrUncorrectable (w * 8 - scratchBase) false else s.scrCorrected.owe w

theorem State.checkScratch_eq (s : State) (ws : List Nat) : s.checkScratch ws =
    (ws.filter fun w => w ∈ s.mem.badScratch || w ∈ s.scr.soft).foldl State.checkWord s := rfl

theorem State.checkWord_mem (s : State) (w : Nat) : (s.checkWord w).mem = s.mem := by
  unfold State.checkWord; split <;> simp

theorem State.checkWord_chains (s : State) (w : Nat) : (s.checkWord w).chains = s.chains := by
  unfold State.checkWord; split <;> simp [State.owe]

/-- A check leaves the banks' counters and the errors as they are. -/
theorem State.checkWord_counters (s : State) (w : Nat) : ((s.checkWord w).scr.req, (s.checkWord w).scr.conf,
    (s.checkWord w).scr.soft) = (s.scr.req, s.scr.conf, s.scr.soft) := by
  unfold State.checkWord
  split
  · obtain ⟨a, ha⟩ := s.scrUncorrectable_scr (w * 8 - scratchBase) false
    rw [ha]
  · simp [State.owe]

theorem State.checkWord_keeps_writeBack {s : State} {x : Nat} (h : x ∈ s.scr.writeBack) (w : Nat) :
    x ∈ (s.checkWord w).scr.writeBack := by
  unfold State.checkWord
  split
  · obtain ⟨a, ha⟩ := s.scrUncorrectable_scr (w * 8 - scratchBase) false
    rw [ha]
    exact h
  · simp [State.owe, mem_natIns, h]

theorem State.checkWord_keeps_pendingSrc {s : State} {k : Nat} (h : s.pendingSrc k = true) (w : Nat) :
    (s.checkWord w).pendingSrc k = true := by
  unfold State.checkWord
  split
  · exact State.scrUncorrectable_keeps_pendingSrc h ..
  · exact (State.pendingSrc_of_evt (by rfl) k).trans (State.scrCorrected_keeps_pendingSrc h)

/-- A property that every step of a fold keeps holds at its end. -/
theorem State.foldl_keeps_prop {α : Type} {p : State → Prop} {f : State → α → State} (hf : ∀ s a, p s → p (f s a))
    (l : List α) {s : State} (h : p s) : p (l.foldl f s) := by
  induction l generalizing s with
  | nil => exact h
  | cons a l ih => exact ih (hf s a h)

/-- A word with a single-bit error owes its write-back once it has been checked. -/
theorem State.foldl_checkWord_writeBack {w : Nat} {l : List Nat} (hw : w ∈ l) {s : State} (hgood : w ∉ s.mem.badScratch) :
    w ∈ (l.foldl State.checkWord s).scr.writeBack := by
  induction l generalizing s with
  | nil => cases hw
  | cons x l ih =>
    rcases List.mem_cons.mp hw with rfl | h
    · refine State.foldl_keeps_prop (p := fun s => w ∈ s.scr.writeBack) (fun s a h => s.checkWord_keeps_writeBack h a) l ?_
      simp [State.checkWord, hgood, State.owe, mem_natIns]
    · exact ih h (by rwa [State.checkWord_mem])

/-- A poisoned word is an event once it has been checked. -/
theorem State.foldl_checkWord_pendingSrc {w : Nat} {l : List Nat} (hw : w ∈ l) {s : State} (hbad : w ∈ s.mem.badScratch) :
    (l.foldl State.checkWord s).pendingSrc 0x2E1 = true := by
  induction l generalizing s with
  | nil => cases hw
  | cons x l ih =>
    rcases List.mem_cons.mp hw with rfl | h
    · refine State.foldl_keeps_prop (p := fun s => s.pendingSrc 0x2E1 = true)
        (fun s a h => s.checkWord_keeps_pendingSrc h a) l ?_
      rw [State.checkWord, if_pos hbad]
      exact State.scrUncorrectable_pendingSrc ..
    · exact ih h (by rwa [State.checkWord_mem])

theorem State.checkScratch_cores (s : State) (ws : List Nat) : (s.checkScratch ws).cores = s.cores :=
  (s.checkScratch_sameCoresAci ws).1

theorem State.checkScratch_chains (s : State) (ws : List Nat) : (s.checkScratch ws).chains = s.chains :=
  State.foldl_keeps State.chains State.checkWord_chains _ s

theorem State.checkScratch_counters (s : State) (ws : List Nat) : ((s.checkScratch ws).scr.req,
    (s.checkScratch ws).scr.conf, (s.checkScratch ws).scr.soft) = (s.scr.req, s.scr.conf, s.scr.soft) :=
  State.foldl_keeps (fun s => (s.scr.req, s.scr.conf, s.scr.soft)) State.checkWord_counters _ s

theorem State.checkScratch_writeBack {s : State} {ws : List Nat} {w : Nat} (hw : w ∈ ws) (hgood : w ∉ s.mem.badScratch)
    (hsoft : w ∈ s.scr.soft) : w ∈ (s.checkScratch ws).scr.writeBack :=
  State.foldl_checkWord_writeBack (List.mem_filter.mpr ⟨hw, by simp [hsoft]⟩) hgood

theorem State.checkScratch_pendingSrc {s : State} {ws : List Nat} {w : Nat} (hw : w ∈ ws) (hbad : w ∈ s.mem.badScratch) :
    (s.checkScratch ws).pendingSrc 0x2E1 = true :=
  State.foldl_checkWord_pendingSrc (List.mem_filter.mpr ⟨hw, by simp [hbad]⟩) hbad

/-- Words without an error are read as they are. -/
theorem State.checkScratch_clean {s : State} {ws : List Nat} (hgood : ws.any (· ∈ s.mem.badScratch) = false)
    (hclean : ws.any (· ∈ s.scr.soft) = false) : s.checkScratch ws = s := by
  have hnone : (ws.filter fun w => w ∈ s.mem.badScratch || w ∈ s.scr.soft) = [] :=
    List.filter_eq_nil_iff.mpr fun w hw => by
      have h1 := List.any_eq_false.mp hgood w hw
      have h2 := List.any_eq_false.mp hclean w hw
      simp_all
  rw [State.checkScratch_eq, hnone]
  rfl

/-! ## A request at a bank (13 R259, R263, R266, R267) -/

theorem exec_scratchRequest (m : Fin 71) (wait off : Nat) (op : BankOp) (found : EccFind) (s : State) :
    exec (.scratchRequest m wait off op found) s = execScratchRequest m wait off op found s := rfl

theorem State.bankFound_clean (s : State) (off : Nat) (op : BankOp) : s.bankFound off op .clean = s := by
  unfold State.bankFound
  split
  · contradiction
  · contradiction
  · rfl

/-- The bank with the request counted and the words that it reads checked. -/
def State.bankChecked (s : State) (m : Fin 71) (wait off : Nat) (op : BankOp) : State :=
  (s.bankCount m wait).checkScratch (bankReads off op)

/-- The requests and the waits of master `m` have each been counted, and no core or chain has changed. -/
def State.BankCounted (u s : State) (m : Fin 71) (wait : Nat) : Prop :=
  u.scr.req = cellSet s.scr.req m.val (satAdd (cellGet s.scr.req m.val) 1) ∧
    u.scr.conf = cellSet s.scr.conf m.val (satAdd (cellGet s.scr.conf m.val) wait) ∧ u.cores = s.cores ∧
    u.chains = s.chains

theorem State.bankChecked_mem (s : State) (m : Fin 71) (wait off : Nat) (op : BankOp) :
    (s.bankChecked m wait off op).mem = s.mem := State.checkScratch_mem ..

theorem State.bankChecked_counted (s : State) (m : Fin 71) (wait off : Nat) (op : BankOp) :
    (s.bankChecked m wait off op).BankCounted s m wait := by
  have h := (s.bankCount m wait).checkScratch_counters (bankReads off op)
  obtain ⟨hreq, h⟩ := Prod.mk.inj h
  obtain ⟨hconf, -⟩ := Prod.mk.inj h
  exact ⟨hreq, hconf, State.checkScratch_cores .., State.checkScratch_chains ..⟩

theorem State.bankChecked_out {s : State} {off : Nat} {op : BankOp}
    (hgood : (bankReads off op).any (· ∈ s.mem.badScratch) = false)
    (hclean : (bankReads off op).any (· ∈ s.scr.soft) = false) (m : Fin 71) (wait : Nat) :
    (s.bankChecked m wait off op).out = s.out := by
  rw [State.bankChecked, State.checkScratch_clean (s := s.bankCount m wait) hgood hclean]
  rfl

/-- A store leaves the banks' counters as they are. -/
theorem State.memWrite_counters (s : State) (off : Nat) (bs : List Byte) :
    (s.memWrite off bs).scr.req = s.scr.req ∧ (s.memWrite off bs).scr.conf = s.scr.conf := by
  unfold State.memWrite; split <;> exact ⟨rfl, rfl⟩

theorem State.BankCounted.memWrite {u s : State} {m : Fin 71} {wait : Nat} (h : u.BankCounted s m wait) (off : Nat)
    (bs : List Byte) : (u.memWrite off bs).BankCounted s m wait := by
  obtain ⟨hreq, hconf, hcores, hchains⟩ := h
  obtain ⟨h1, h2⟩ := u.memWrite_counters off bs
  rw [State.BankCounted, h1, h2]
  rw [u.memWrite_frame off bs]
  exact ⟨hreq, hconf, hcores, hchains⟩

/-- What the bank makes of a request that it reads without a finding of its own. -/
theorem execScratchRequest_eq {m : Fin 71} {off : Nat} {op : BankOp} {s : State} (hin : inScratch off (bankSpan op) = true)
    (hclk : s.clocksOff = false) (hport : s.masterGated m = false) (wait : Nat) :
    execScratchRequest m wait off op .clean s =
      let t := s.bankChecked m wait off op
      let bad := (bankReads off op).any (· ∈ s.mem.badScratch)
      let old := s.memRead off (bankSpan op)
      let atomic := fun (v : Word) =>
        Host.Outcome.next ((if bad then t else t.memWrite off (bytesOf 8 v.toNat)).emit (.bankRsp m old bad))
      match op with
      | .read _ => .next (t.emit (.bankRsp m old bad))
      | .write bs => .next (t.memWrite off bs)
      | .addI64 v => atomic (wordOf old + v)
      | .addF64 v => atomic (bankAddF64 (wordOf old) v)
      | .swap v => atomic v := by
  have hmem := s.bankChecked_mem m wait off op
  have hread : (s.bankChecked m wait off op).memRead off (bankSpan op) = s.memRead off (bankSpan op) := by
    simp only [State.memRead, hmem]
  rw [execScratchRequest, if_neg (by simp [hin]), if_neg (by simp [hclk, hport])]
  rw [State.bankFound_clean]
  change (match op with | .read _ => _ | .write bs => _ | .addI64 v => _ | .addF64 v => _ | .swap v => _) = _
  cases op <;> simp only [← hmem, ← hread] <;> rfl

/-- A poisoned word that a read or an atomic meets is answered as poisoned, and nothing is stored. -/
theorem execScratchRequest_poisoned {m : Fin 71} {off : Nat} {op : BankOp} {s : State}
    (hin : inScratch off (bankSpan op) = true) (hclk : s.clocksOff = false) (hport : s.masterGated m = false) (wait : Nat)
    (hbad : (bankReads off op).any (· ∈ s.mem.badScratch) = true) (hop : ∀ bs, op ≠ .write bs) :
    execScratchRequest m wait off op .clean s =
      .next ((s.bankChecked m wait off op).emit (.bankRsp m (s.memRead off (bankSpan op)) true)) := by
  rw [execScratchRequest_eq hin hclk hport]
  simp only [hbad]
  cases op with
  | read n => rfl
  | write bs => exact absurd rfl (hop bs)
  | addI64 v => rfl
  | addF64 v => rfl
  | swap v => rfl

/-- What a request does to words that none poisons, by its operation. -/
def State.BankServed (u s : State) (m : Fin 71) (off : Nat) (op : BankOp) : Prop :=
  let old := s.memRead off (bankSpan op)
  let answers := fun (u : State) (r : Out) => ∃ o, u.out = o ++ [r] ∧
    ((bankReads off op).any (· ∈ s.scr.soft) = false → o = s.out)
  match op with
  | .read _ => u.mem = s.mem ∧ answers u (.bankRsp m.val old false) ∧
      ∀ w ∈ bankReads off op, w ∈ s.scr.soft → w ∈ u.scr.writeBack
  | .write bs => u.mem.cells = writeCells s.mem.cells off bs ∧
      ((bankReads off op).any (· ∈ s.scr.soft) = false → u.out = s.out)
  | .addI64 v => u.mem.cells = writeCells s.mem.cells off (bytesOf 8 (wordOf old + v).toNat) ∧
      answers u (.bankRsp m.val old false)
  | .addF64 v => u.mem.cells = writeCells s.mem.cells off (bytesOf 8 (bankAddF64 (wordOf old) v).toNat) ∧
      answers u (.bankRsp m.val old false)
  | .swap v => u.mem.cells = writeCells s.mem.cells off (bytesOf 8 v.toNat) ∧
      answers u (.bankRsp m.val old false)

/-- A word stored by an atomic, and its answer. -/
theorem State.bankChecked_memWrite {s : State} {off : Nat} {op : BankOp}
    (hgood : (bankReads off op).any (· ∈ s.mem.badScratch) = false) (m : Fin 71) (wait : Nat) (bs : List Byte) (r : Out) :
    (((s.bankChecked m wait off op).memWrite off bs).emit r).mem.cells = writeCells s.mem.cells off bs ∧
      ∃ o, (((s.bankChecked m wait off op).memWrite off bs).emit r).out = o ++ [r] ∧
        ((bankReads off op).any (· ∈ s.scr.soft) = false → o = s.out) := by
  refine ⟨?_, ((s.bankChecked m wait off op).memWrite off bs).out, rfl, fun hclean => ?_⟩
  · rw [State.emit_mem, State.memWrite_cells, State.bankChecked_mem]
  · rw [State.memWrite_frame]
    exact State.bankChecked_out hgood hclean m wait

theorem execScratchRequest_served {m : Fin 71} {off : Nat} {op : BankOp} {s : State}
    (hin : inScratch off (bankSpan op) = true) (hclk : s.clocksOff = false) (hport : s.masterGated m = false) (wait : Nat)
    (hgood : (bankReads off op).any (· ∈ s.mem.badScratch) = false) :
    ∃ u, execScratchRequest m wait off op .clean s = .next u ∧ u.BankCounted s m wait ∧ u.BankServed s m off op := by
  have hcount := s.bankChecked_counted m wait off op
  rw [execScratchRequest_eq hin hclk hport]
  simp only [hgood]
  cases op with
  | read n =>
    refine ⟨_, rfl, hcount, State.bankChecked_mem .., ⟨_, rfl, fun hclean => State.bankChecked_out hgood hclean m wait⟩,
      fun w hw hsoft => ?_⟩
    have hw0 : w ∉ s.mem.badScratch := by simpa using List.any_eq_false.mp hgood w hw
    exact State.checkScratch_writeBack (s := s.bankCount m wait) hw hw0 hsoft
  | write bs =>
    refine ⟨_, rfl, hcount.memWrite off bs, ?_, fun hclean => ?_⟩
    · rw [State.memWrite_cells, State.bankChecked_mem]
    · rw [State.memWrite_frame]
      exact State.bankChecked_out hgood hclean m wait
  | addI64 v => exact ⟨_, rfl, hcount.memWrite off _, State.bankChecked_memWrite hgood m wait _ _⟩
  | addF64 v => exact ⟨_, rfl, hcount.memWrite off _, State.bankChecked_memWrite hgood m wait _ _⟩
  | swap v => exact ⟨_, rfl, hcount.memWrite off _, State.bankChecked_memWrite hgood m wait _ _⟩

/-! ## Scrub and write-back of scratch (13 R262, R264) -/

theorem exec_scratchScrub (off : Nat) (found : EccFind) (s : State) :
    exec (.scratchScrub off found) s = execScratchScrub off found s := rfl
theorem exec_scratchWriteBack (off : Nat) (s : State) : exec (.scratchWriteBack off) s = execScratchWriteBack off s := rfl

/-- A word that the scrub has found uncorrectable is poisoned. -/
def State.scrubBadWord (s : State) (off : Nat) : State :=
  (s.poisonAt (off / 8 * 8) 8).scrUncorrectable (off / 8 * 8 - scratchBase) true

/-- A word that the scrub has corrected owes its write-back. -/
def State.scrubSoftWord (s : State) (off : Nat) : State :=
  State.owe (State.scrCorrected { s with scr := { s.scr with soft := natIns (off / 8) s.scr.soft } }) (off / 8)

/-- The scrub of scratch, by what it finds in the word. -/
theorem execScratchScrub_eq {off : Nat} {found : EccFind} {s : State} (hin : inScratch (off / 8 * 8) 8 = true)
    (hclk : s.clocksOff = false) (hon : s.scr.scrub.getLsbD 0 = true) :
    execScratchScrub off found s = .next
      (if s.poisoned (off / 8 * 8) 8 = true ∨ found = .uncorrectable then s.scrubBadWord off
      else if found = .corrected ∨ off / 8 ∈ s.scr.soft then s.scrubSoftWord off else s) := by
  have hgo : ¬ ((!s.scr.scrub.getLsbD 0 || s.clocksOff) = true) := by rw [hon, hclk]; decide
  rw [execScratchScrub]
  dsimp only
  rw [if_neg (by simp [hin]), if_neg hgo]
  by_cases hbad : s.poisoned (off / 8 * 8) 8 = true ∨ found = .uncorrectable
  · rw [if_pos hbad, if_pos (by simpa using hbad)]
    rfl
  · rw [if_neg hbad, if_neg (by simpa using hbad)]
    by_cases hsoft : found = .corrected ∨ off / 8 ∈ s.scr.soft
    · rw [if_pos hsoft, if_pos (by simpa using hsoft)]
      rfl
    · rw [if_neg hsoft, if_neg (by simpa using hsoft)]

theorem State.scrubBadWord_spec (s : State) {off : Nat} (hoff : scratchBase ≤ off / 8 * 8) :
    (s.scrubBadWord off).mem.cells = s.mem.cells ∧ (s.scrubBadWord off).cores = s.cores ∧
      (s.scrubBadWord off).poisoned (off / 8 * 8) 8 = true ∧ (s.scrubBadWord off).scr.ecc = eccUe s.scr.ecc ∧
      (s.scrubBadWord off).pendingSrc 0x2E1 = true := by
  unfold State.scrubBadWord
  rw [s.poisonAt_word hoff]
  refine ⟨by simp, by simp, ?_, ?_, State.scrUncorrectable_pendingSrc ..⟩
  · rw [State.poisoned_word _ hoff]
    simp [mem_natIns]
  · obtain ⟨a, ha⟩ := State.scrUncorrectable_scr
      { s with mem := { s.mem with badScratch := natIns (off / 8) s.mem.badScratch } } (off / 8 * 8 - scratchBase) true
    rw [ha]

theorem State.scrubSoftWord_spec (s : State) (off : Nat) :
    (s.scrubSoftWord off).mem = s.mem ∧ (s.scrubSoftWord off).cores = s.cores ∧
      (s.scrubSoftWord off).scr.ecc = eccCe s.scr.ecc ∧ off / 8 ∈ (s.scrubSoftWord off).scr.writeBack := by
  refine ⟨?_, ?_, ?_, ?_⟩ <;> simp [State.scrubSoftWord, State.owe, mem_natIns]

theorem execScratchWriteBack_spec {off : Nat} (s : State) (hin : inScratch (off / 8 * 8) 8 = true) :
    ∃ u, execScratchWriteBack off s = .next u ∧ u.mem = s.mem ∧ u.cores = s.cores ∧
      (off / 8 ∈ s.scr.writeBack → off / 8 ∉ u.scr.soft) ∧
      ∀ w, w ∈ u.scr.writeBack ↔ (w ∈ s.scr.writeBack ∧ w ≠ off / 8) := by
  rw [execScratchWriteBack]
  dsimp only
  rw [if_neg (by simp [hin])]
  split
  · exact ⟨_, rfl, rfl, rfl, fun _ => by simp, fun w => by simp⟩
  · next h => exact ⟨_, rfl, rfl, rfl, fun hw => absurd hw h, fun w => ⟨fun hw => ⟨hw, fun e => h (e ▸ hw)⟩, And.left⟩⟩

end Sys2Proof.Machine

namespace Sys2Proof.Proofs

open Sys2Proof.Machine

theorem scratchScrub_spec {off : Nat} {found : EccFind} {s : State} (hin : inScratch (off / 8 * 8) 8 = true)
    (hclk : s.clocksOff = false) (hon : s.scr.scrub.getLsbD 0 = true) :
    ∃ u, execScratchScrub off found s = .next u ∧ u.mem.cells = s.mem.cells ∧ u.cores = s.cores ∧
      (s.poisoned (off / 8 * 8) 8 = false → found = .clean → off / 8 ∉ s.scr.soft → u = s) ∧
      (s.poisoned (off / 8 * 8) 8 = false → found = .corrected ∨ (found = .clean ∧ off / 8 ∈ s.scr.soft) →
        u.mem = s.mem ∧ u.scr.ecc = eccCe s.scr.ecc ∧ off / 8 ∈ u.scr.writeBack) ∧
      (found = .uncorrectable → u.poisoned (off / 8 * 8) 8 = true ∧ u.scr.ecc = eccUe s.scr.ecc ∧
        u.pendingSrc 0x2E1 = true) := by
  have hoff : scratchBase ≤ off / 8 * 8 := by
    simp only [inScratch, Bool.and_eq_true, decide_eq_true_eq] at hin
    exact hin.1
  rw [execScratchScrub_eq hin hclk hon]
  refine ⟨_, rfl, ?_⟩
  split
  · next hbad =>
    obtain ⟨hcells, hcores, hends⟩ := s.scrubBadWord_spec hoff
    refine ⟨hcells, hcores, fun hgood hf _ => ?_, fun hgood hf => ?_, fun _ => hends⟩
    · simp [hgood, hf] at hbad
    · rcases hf with hf | ⟨hf, -⟩ <;> simp [hgood, hf] at hbad
  · next hbad =>
    obtain ⟨-, hunc⟩ := not_or.mp hbad
    split
    · next hsoft =>
      obtain ⟨hmem, hcores, hecc, hback⟩ := s.scrubSoftWord_spec off
      refine ⟨by rw [hmem], hcores, fun _ hf hs => ?_, fun _ _ => ⟨hmem, hecc, hback⟩, fun h => absurd h hunc⟩
      simp [hf, hs] at hsoft
    · next hsoft =>
      refine ⟨rfl, rfl, fun _ _ _ => rfl, fun _ hf => ?_, fun h => absurd h hunc⟩
      rcases hf with hf | ⟨-, hs⟩
      · simp [hf] at hsoft
      · simp [hs] at hsoft

theorem scratchBanksAnswer : Sys2Proof.Claims.ScratchBanksAnswer := by
  refine ⟨fun m wait off op s => ?_, fun off found s => ?_⟩
  · simp only [exec_scratchRequest]
    refine ⟨fun hin f => ?_, fun hin hstop f => ?_, fun hin hclk hport hgood => ?_, fun hin hclk hport hbad hop => ?_⟩
    · rw [execScratchRequest, hin]
      rfl
    · rw [execScratchRequest, hin, if_neg (by decide), if_pos (by simpa using hstop)]
    · exact execScratchRequest_served hin hclk hport wait hgood
    · obtain ⟨w, hw, hwb⟩ := List.any_eq_true.mp hbad
      refine ⟨_, execScratchRequest_poisoned hin hclk hport wait hbad hop, State.bankChecked_mem .., ?_, ?_, _, rfl⟩
      · rw [State.pendingSrc_of_evt (State.emit_evt ..)]
        exact State.checkScratch_pendingSrc (s := s.bankCount m wait) hw (by simpa using hwb)
      · exact (s.bankChecked_counted m wait off op).2.2.1
  · rw [exec_scratchScrub, exec_scratchWriteBack]
    refine ⟨fun hin => ⟨?_, ?_⟩, scratchScrub_spec, execScratchWriteBack_spec s⟩
    · rw [execScratchScrub, hin]
      rfl
    · rw [execScratchWriteBack, hin]
      rfl

/-- Settles O55: the patrol scrub of DDR, the requests at a scratch bank, and its scrub and write-back, each by what the check
finds. -/
theorem scrubsAndBanksAnswer : Obligations.ScrubsAndBanksAnswer := ⟨ddrPatrolScrub, scratchBanksAnswer⟩

end Sys2Proof.Proofs
end

section
/-! The refutation of O16 (15 R306, R308): a device access of parts whose run leaves its line. -/

namespace Sys2Proof.Machine

/-! ## Device accesses of the home agent (15 R306, R308) -/

theorem exec_homeAgentAccess (tag off : Nat) (op : LineOp) (found : EccFind) (device : BitVec 4) (s : State) :
    exec (.homeAgentAccess tag off op found device) s = execHomeAgentAccess tag off op found device s := rfl

/-- What a device access answers once the home agent has served or held it. -/
def homeOutcome (tag : Nat) : State × HomeAns → Outcome
  | (s, .served r) => .next (s.emit (.lineRsp tag r.bytes r.poison))
  | (s, .held) => .next s

/-- A device access whose line the check finds as memory holds it. -/
theorem execHomeAgentAccess_clean {off : Nat} {s : State} (hd : off < s.mem.d) (tag : Nat) (op : LineOp)
    (device : BitVec 4) :
    execHomeAgentAccess tag off op .clean device s = homeOutcome tag (s.homeAccess off op (.tag tag)) := by
  have hunc : (EccFind.clean == .uncorrectable) = false := rfl
  have hcor : (EccFind.clean == .corrected) = false := rfl
  unfold execHomeAgentAccess
  rw [if_neg (Nat.not_le.mpr hd)]
  cases op <;> simp only [hunc, hcor, Bool.and_false, Bool.false_eq_true, if_false] <;> rfl

/-- A request that meets no controller in self-refresh wakes none. -/
theorem State.ddrWake_active {s : State} {off n : Nat} (h : ∀ l ∈ granules 64 off n, s.ddr[ctrlOf (64 * l)].state ≠ 3) :
    s.ddrWake off n = s := by
  have hnone : ((List.finRange 16).filter fun k => decide (s.ddr[k].state = 3) && !s.ctrlStopped k
      && (granules 64 off n).any fun l => ctrlOf (64 * l) = k) = [] := by
    refine List.filter_eq_nil_iff.mpr fun k _ hk => ?_
    simp only [Bool.and_eq_true, decide_eq_true_eq, List.any_eq_true] at hk
    obtain ⟨⟨hrest, -⟩, l, hl, hlk⟩ := hk
    subst hlk
    exact h l hl hrest
  rw [State.ddrWake, hnone]
  rfl

/-- Lines without an error are read as they are. -/
theorem State.checkDdr_clean {s : State} {ls : List Nat} (h : ∀ l ∈ ls, l ∉ s.mem.badDdr ∧ l ∉ s.mem.softDdr) :
    s.checkDdr ls = s := by
  have hnone : (ls.filter fun l => l ∈ s.mem.badDdr || l ∈ s.mem.softDdr) = [] :=
    List.filter_eq_nil_iff.mpr fun l hl => by simp [h l hl]
  rw [State.checkDdr, hnone]
  rfl

/-! ## A run of bytes beyond its line -/

/-- DDR after reset with 4 KiB, controller 0 active, every clock on, and the loop of controllers 4 to 7 coasting. -/
def State.otherLoopCoasts : State :=
  { State.reset with
    chip := { Chip.reset with phase := .firmware, clkGate := BitVec.allOnes 32 }
    mem := { Memory.reset with d := 4096 }
    ddr := (Vector.replicate 16 Ddr.reset).set 0 { Ddr.reset with state := 2 }
    plls := Pll.resetAll.set 3 { Pll.resetAll[3] with coast := true } }

/-- The byte that a coasting loop makes of byte 1024 of a run of 1,025. -/
def coastByte : Byte := (bytesOf 1025 (Config.freeNat State.otherLoopCoasts.free)).getD 1024 0

/-- 1,025 bytes for the line at 0: byte 1024 stands at a controller whose loop coasts, and differs from what comes out there. -/
def longRun : List Byte := List.replicate 1025 (coastByte + 1)

theorem longRun_getElem? : longRun[1024]? = some (coastByte + 1) := by
  rw [longRun, List.getElem?_replicate, if_pos (by decide)]

theorem State.otherLoopCoasts_ddrBytes : ((State.otherLoopCoasts.ddrBytes 0 longRun).2)[1024]? = some coastByte := by
  have hlen : longRun.length = 1025 := List.length_replicate ..
  have hany : ((granules 64 0 1025).any fun l => State.otherLoopCoasts.plls[dpllOf (ctrlOf (64 * l))].coast) = true := by
    decide
  have hcoast : State.otherLoopCoasts.plls[dpllOf (ctrlOf (64 * ((0 + 1024) / 64)))].coast = true := by decide
  rw [State.ddrBytes]
  simp only [hlen, hany, if_true]
  rw [List.getElem?_mapIdx, longRun, List.getElem?_replicate, if_pos (by decide)]
  simp only [Option.map_some, hcoast, if_true]
  rfl

/-- The write is served, with the byte that the coasting loop has made of byte 1024. -/
theorem execHomeAgentAccess_longRun : ∃ u,
    execHomeAgentAccess 0 0 (.parts [(0, longRun)]) .clean 0 State.otherLoopCoasts = .next u ∧
      u.mem.cells = writeCells [] 0 (State.otherLoopCoasts.ddrBytes 0 longRun).2 := by
  have hwake : State.otherLoopCoasts.ddrWake (0 * 64) 64 = State.otherLoopCoasts := State.ddrWake_active (by decide)
  have hcheck : State.otherLoopCoasts.checkDdr [0] = State.otherLoopCoasts := State.checkDdr_clean (by decide)
  have hheld : State.otherLoopCoasts.heldOn (0 / 64) = false := by decide
  have hserve : State.otherLoopCoasts.canServe (0 / 64) (.parts [(0, longRun)]) = true := by
    have hclk : State.otherLoopCoasts.ctrlStopped (ddrSplit (0 / 64 * 64)).1 = false := by decide
    have hsf : State.otherLoopCoasts.sfOf (0 / 64) = none := by decide
    rw [State.canServe, hclk, hsf]
    rfl
  rw [execHomeAgentAccess_clean (by decide), State.homeAccess]
  simp only [hheld, hserve, if_true, Bool.false_eq_true, if_false, State.serveOp, State.ddrParts, hwake, hcheck]
  refine ⟨_, rfl, ?_⟩
  simp only [List.foldl_cons, List.foldl_nil, State.emit_mem, State.memWrite_cells, State.ddrBytes_mem]
  rfl
end Sys2Proof.Machine

namespace Sys2Proof.Proofs

open Sys2Proof.Machine

/-- Refutes O16: the runs of a write of parts may reach beyond their line, and the loop of another line's controller may coast;
then a run's bytes there are not the bytes that the command names. -/
theorem not_homeAgentServesOrSnoops : ¬ Obligations.HomeAgentServesOrSnoops := by
  intro h
  obtain ⟨-, -, hserved⟩ := h 0 0 (.parts [(0, longRun)]) 0 State.otherLoopCoasts
  obtain ⟨hfree, -, -⟩ := hserved (by decide) (by decide) (by decide) (by decide) (by decide) (by decide)
    (by decide) (by decide)
  obtain ⟨-, -, hparts⟩ := hfree (.inl (by decide))
  obtain ⟨u, hu, hcells, -⟩ := hparts _ rfl
  obtain ⟨v, hv, hcoast⟩ := execHomeAgentAccess_longRun
  have huv : u = v := by
    rw [exec_homeAgentAccess, hv] at hu
    exact (Host.Outcome.next.inj hu).symm
  have hclaimed : cellGet u.mem.cells 1024 = coastByte + 1 := by
    obtain ⟨hlt, hget⟩ := List.getElem?_eq_some_iff.mp longRun_getElem?
    rw [hcells, List.foldl_cons, List.foldl_nil]
    change cellGet (writeCells [] 0 longRun) 1024 = _
    exact (cellGet_writeCells (m := []) rfl 0 longRun 1024 hlt).trans hget
  have hmade : cellGet u.mem.cells 1024 = coastByte := by
    obtain ⟨hlt, hget⟩ := List.getElem?_eq_some_iff.mp State.otherLoopCoasts_ddrBytes
    rw [huv, hcoast]
    exact (cellGet_writeCells (m := []) rfl 0 _ 1024 hlt).trans hget
  rw [hmade] at hclaimed
  generalize coastByte = b at hclaimed
  revert b
  decide

end Sys2Proof.Proofs
end

section
/-! The record of access errors (02 R37), for O23 and O25. -/

namespace Sys2Proof.Machine

/-! ## The record of an access error (02 R37) -/

@[simp] theorem State.raise_accErr (s : State) (k : Nat) : (s.raise k).evt.accErr = s.evt.accErr := by
  rw [State.raise_frame]

@[simp] theorem State.raise_accAddr (s : State) (k : Nat) : (s.raise k).evt.accAddr = s.evt.accAddr := by
  rw [State.raise_frame]

/-- Of `s`, only the pending sources with their messages and the record of access errors have changed. -/
def State.ErrorOnly (u s : State) : Prop :=
  u = { s with
    evt := { s.evt with accErr := u.evt.accErr, accAddr := u.evt.accAddr, pend := u.evt.pend }
    out := u.out
    cxl := { s.cxl with pba := u.cxl.pba } }

theorem State.ErrorOnly.raise {u s : State} (h : u.ErrorOnly s) (k : Nat) : (u.raise k).ErrorOnly s := by
  unfold State.ErrorOnly at *
  rw [State.raise_frame, h]

/-- ACC_ERR after an error of kind `bit`: OVERRUN marks a second one. -/
def accErrAfter (e : BitVec 4) (bit : Fin 3) : BitVec 4 :=
  let one := fun (i : Nat) => (1 : BitVec 4) <<< i
  e ||| one bit ||| (if e.extractLsb' 0 3 = 0 then 0 else one 3)

theorem accErrAfter_getLsbD : ∀ (e : BitVec 4) (bit i : Fin 3),
    (accErrAfter e bit).getLsbD i.val = (e.getLsbD i.val || decide (i = bit)) := by decide

theorem accErrAfter_overrun : ∀ (e : BitVec 4) (bit : Fin 3),
    (accErrAfter e bit).getLsbD 3 = (e.getLsbD 3 || decide (e.extractLsb' 0 3 ≠ 0)) := by decide

/-- ACC_ADDR of an error. -/
def accAddrOf (src : Src) (space off be : Nat) : Word :=
  BitVec.ofNat 64 (be <<< 40 + srcCode src <<< 32 + space <<< 30 + (off / 8 * 8) % 2 ^ 29)

/-- The error's record, before its events. -/
def State.noteError (s : State) (bit : Fin 3) (src : Src) (space off be : Nat) : State :=
  { s with evt := { s.evt with
    accErr := accErrAfter s.evt.accErr bit
    accAddr := if s.evt.accErr.extractLsb' 0 3 = 0 then accAddrOf src space off be else s.evt.accAddr } }

/-- The error's own event: it is raised as its bit goes to 1. -/
def State.errorEvent (s t : State) (bit : Fin 3) : State := if s.evt.accErr.getLsbD bit then t else t.raise (0x80 + bit)

theorem State.accError_eq (s : State) (bit : Fin 3) (src : Src) (space off be : Nat) :
    s.accError bit src space off be =
      let t := s.errorEvent (s.noteError bit src space off be) bit
      if !decide (s.evt.accErr.extractLsb' 0 3 = 0) && !s.evt.accErr.getLsbD 3 then t.raise 0x83 else t := rfl

theorem State.accError_record (s : State) (bit : Fin 3) (src : Src) (space off be : Nat) :
    (s.accError bit src space off be).evt.accErr = accErrAfter s.evt.accErr bit ∧
      (s.accError bit src space off be).evt.accAddr =
        if s.evt.accErr.extractLsb' 0 3 = 0 then accAddrOf src space off be else s.evt.accAddr := by
  rw [State.accError_eq]
  unfold State.errorEvent
  constructor <;> (dsimp only; split <;> split <;> simp [State.noteError])

theorem State.accError_errorOnly (s : State) (bit : Fin 3) (src : Src) (space off be : Nat) :
    (s.accError bit src space off be).ErrorOnly s := by
  have hnote : (s.noteError bit src space off be).ErrorOnly s := rfl
  rw [State.accError_eq]
  unfold State.errorEvent
  dsimp only
  split <;> split
  · exact hnote.raise _
  · exact (hnote.raise _).raise _
  · exact hnote
  · exact hnote.raise _

theorem State.accError_pendingSrc {s : State} {bit : Fin 3} (h : s.evt.accErr.getLsbD bit = false) (src : Src)
    (space off be : Nat) : (s.accError bit src space off be).pendingSrc (0x80 + bit.val) = true := by
  have hevt : ∀ t, (s.errorEvent t bit).pendingSrc (0x80 + bit.val) = true := fun t => by
    rw [State.errorEvent, h]
    exact State.raise_pendingSrc _ _ (by omega)
  rw [State.accError_eq]
  dsimp only
  split
  · exact State.raise_keeps_pendingSrc (hevt _) _
  · exact hevt _

/-- An access error is recorded as 02 R37 says. -/
theorem State.accError_erred (s : State) (bit : Fin 3) (src : Src) (space off : Nat) (be : BitVec 8) :
    Sys2Proof.Claims.erred (s.accError bit src space off be.toNat) s bit src space off be := by
  obtain ⟨herr, haddr⟩ := s.accError_record bit src space off be.toNat
  refine ⟨fun i => ?_, ?_, ?_, fun h => State.accError_pendingSrc h .., s.accError_errorOnly bit src space off be.toNat⟩
  · rw [herr, accErrAfter_getLsbD]
  · rw [herr, accErrAfter_overrun]
  · rw [haddr]
    simp only [accAddrOf, Nat.shiftLeft_eq, decide_eq_true_eq, ite_not]

end Sys2Proof.Machine
end

section
/-! The proof of O23 (02 R26, R36, R37): accesses to offsets that nothing has. -/

namespace Sys2Proof.Machine

/-! ## Register accesses by path (02 R26, R28, R36) -/

theorem exec_registerWrite (a : Access) (s : State) : exec (.registerWrite a) s = s.putAccess a [] := rfl
theorem exec_readToClear (a : Access) (s : State) : exec (.readToClear a) s = execReadToClear a s := rfl

theorem div_eight_mul_eight {off : Nat} (h : off % 8 = 0) : off / 8 * 8 = off := by omega

/-- A CSR access of a source, as a path carries it. -/
def srcAccess (src : Src) (off : Nat) (be : BitVec 8) (v : Word) : Access :=
  { path := pathOf src, offset := off, be := be, data := v }

theorem State.srcAccess_waits (s : State) (src : Src) (off : Nat) (be : BitVec 8) (v : Word) :
    s.accessWaits (srcAccess src off be v) = s.busWaits off := by cases src <;> rfl

/-- A port that carries the accesses of a source: a host's is up. -/
def State.carries (s : State) (src : Src) : Prop := ∀ p, src = .host p → s.portUp p = true

/-- No posted store of a core comes before its write. -/
def State.noStores (s : State) (src : Src) : Prop := ∀ n, src = .core n → s.cores[n].stores = []

/-- A write of a source that its bus carries at once. -/
theorem State.putAccess_src {s : State} {src : Src} {off : Nat} {be : BitVec 8} {v : Word} (hbus : s.busWaits off = false)
    (hstores : s.noStores src) :
    s.putAccess (srcAccess src off be v) [] = .next (s.accessWrite (srcAccess src off be v) []) := by
  have hwait := (s.srcAccess_waits src off be v).trans hbus
  rw [State.putAccess, hwait, if_neg Bool.false_ne_true]
  cases src with
  | core n => simp only [srcAccess, pathOf, hstores n rfl, List.isEmpty_nil, if_true]
  | host p => rfl
  | fabric => rfl

/-- A write to an offset that nothing has is recorded as unmapped. -/
theorem State.accessWrite_unmapped {s : State} {src : Src} {off : Nat} (hb : blockOf off = none) (h8 : off % 8 = 0)
    (hport : s.carries src) (be : BitVec 8) (v : Word) :
    s.accessWrite (srcAccess src off be v) [] = s.accError 1 src 0 off be.toNat := by
  cases src with
  | core n => simp [State.accessWrite, srcAccess, pathOf, div_eight_mul_eight h8, State.csrWrite, hb]
  | host p =>
    simp [State.accessWrite, srcAccess, pathOf, div_eight_mul_eight h8, State.diagWrite, State.csrWrite, hb, hport p rfl]
  | fabric => simp [State.accessWrite, srcAccess, pathOf, div_eight_mul_eight h8, State.csrWrite, hb]

/-- A read of an offset that nothing has gives zero and is recorded as unmapped. -/
theorem State.accessRead_unmapped {s : State} {src : Src} {off : Nat} (hb : blockOf off = none) (h8 : off % 8 = 0)
    (be : BitVec 8) (v : Word) :
    s.accessRead (srcAccess src off be v) = (s.accError 1 src 0 off be.toNat, 0, false) := by
  cases src <;>
    simp [State.accessRead, srcAccess, pathOf, div_eight_mul_eight h8, State.csrRead, State.diagRead, hb]

/-- A read whose path is up and whose bus does not wait. -/
theorem execReadToClear_eq {a : Access} {s : State} (hwait : s.accessWaits a = false) (hdead : s.deadPath a = false) :
    execReadToClear a s = .next ((s.accessRead a).1.emit (.barData (s.accessRead a).2.1 (s.accessRead a).2.2)) := by
  rw [execReadToClear, hwait, hdead]
  rfl

theorem State.deadPath_src {s : State} {src : Src} (hport : s.carries src) (off : Nat) (be : BitVec 8) (v : Word) :
    s.deadPath (srcAccess src off be v) = false := by
  cases src with
  | core n => rfl
  | host p => simp [State.deadPath, srcAccess, pathOf, hport p rfl]
  | fabric => rfl

/-- The reserved offsets of BAR0. -/
def bar0Reserved (off : Nat) : Prop := 0x2000 ≤ off ∧ off < 0x10000 ∨ 0x28100 ≤ off ∧ off < 0x100000

/-- The reserved offsets of BAR2. -/
def bar2Reserved (off : Nat) : Prop := 0x18000000 ≤ off ∧ off < 0x20000000

theorem bar0Csr_reserved {off : Nat} (h : bar0Reserved off) : bar0Csr off = false := by
  unfold bar0Reserved at h
  simp only [bar0Csr, Bool.or_eq_false_iff, Bool.and_eq_false_iff, decide_eq_false_iff_not]
  omega

/-- No part of BAR0 behind the CSR blocks holds a reserved offset. -/
theorem bar0_holds_none {off : Nat} (h : bar0Reserved off) :
    (decide (0x10000 ≤ off) && decide (off < 0x20000)) = false ∧
      (decide (0x20000 ≤ off) && decide (off < 0x28000)) = false ∧
      (decide (0x28000 ≤ off) && decide (off < 0x28100)) = false := by
  unfold bar0Reserved at h
  simp only [Bool.and_eq_false_iff, decide_eq_false_iff_not]
  omega

theorem State.accessWrite_bar0Reserved {s : State} {p : Fin 2} {off : Nat} (hup : s.portUp p = true) (h8 : off % 8 = 0)
    (hres : bar0Reserved off) (be : BitVec 8) (v : Word) :
    s.accessWrite { path := .bar0 p, offset := off, be := be, data := v } [] = s.accError 1 (.host p) 1 off be.toNat := by
  obtain ⟨hcomp, hmsix, hpba⟩ := bar0_holds_none hres
  simp only [State.accessWrite, div_eight_mul_eight h8, hup, bar0Csr_reserved hres, hcomp, hmsix, hpba, Bool.not_true,
    Bool.false_eq_true, if_false]

theorem State.accessRead_bar0Reserved {off : Nat} (h8 : off % 8 = 0) (hres : bar0Reserved off) (s : State) (p : Fin 2)
    (be : BitVec 8) (v : Word) : s.accessRead { path := .bar0 p, offset := off, be := be, data := v } =
      (s.accError 1 (.host p) 1 off be.toNat, 0, false) := by
  obtain ⟨hcomp, hmsix, hpba⟩ := bar0_holds_none hres
  simp only [State.accessRead, div_eight_mul_eight h8, bar0Csr_reserved hres, hcomp, hmsix, hpba, Bool.false_eq_true,
    if_false]

theorem State.accessWrite_bar2Reserved {s : State} {p : Fin 2} {off : Nat} (hup : s.portUp p = true) (h8 : off % 8 = 0)
    (hres : bar2Reserved off) {be : BitVec 8} (hbe : be ≠ 0) (v : Word) :
    s.accessWrite { path := .bar2 p, offset := off, be := be, data := v } [] = s.accError 1 (.host p) 2 off be.toNat := by
  simp only [State.accessWrite, div_eight_mul_eight h8, hup, hbe, Bool.not_true, decide_false, Bool.or_false,
    Bool.false_eq_true, if_false, if_neg (Nat.not_lt.mpr hres.1 : ¬ off < scratchSize)]

theorem State.accessRead_bar2Reserved {off : Nat} (h8 : off % 8 = 0) (hres : bar2Reserved off) (s : State) (p : Fin 2)
    (be : BitVec 8) (v : Word) : s.accessRead { path := .bar2 p, offset := off, be := be, data := v } =
      (s.accError 1 (.host p) 2 off be.toNat, 0, false) := by
  simp only [State.accessRead, div_eight_mul_eight h8, if_neg (Nat.not_lt.mpr hres.1 : ¬ off < scratchSize)]

end Sys2Proof.Machine

namespace Sys2Proof.Proofs

open Sys2Proof.Machine

/-- A read that is recorded as an error gives zero. -/
theorem readToClear_errs {a : Access} {s : State} (hwait : s.accessWaits a = false) (hdead : s.deadPath a = false)
    {bit : Fin 3} {src : Src} {space off : Nat} {be : BitVec 8}
    (hread : s.accessRead a = (s.accError bit src space off be.toNat, 0, false)) :
    ∃ u, exec (.readToClear a) s = .next (u.emit (.barData 0 false)) ∧ Sys2Proof.Claims.erred u s bit src space off be :=
  ⟨_, by rw [exec_readToClear, execReadToClear_eq hwait hdead, hread], s.accError_erred bit src space off be⟩

/-- A write that is recorded as an error does nothing else. -/
theorem registerWrite_errs {a : Access} {s : State} (hput : s.putAccess a [] = .next (s.accessWrite a []))
    {bit : Fin 3} {src : Src} {space off : Nat} {be : BitVec 8}
    (hwrite : s.accessWrite a [] = s.accError bit src space off be.toNat) :
    ∃ u, exec (.registerWrite a) s = .next u ∧ Sys2Proof.Claims.erred u s bit src space off be :=
  ⟨_, by rw [exec_registerWrite, hput, hwrite], s.accError_erred bit src space off be⟩

/-- Settles O23: no block and no part of a BAR holds the offset, so each path comes to the error's record. -/
theorem unmappedAccessesAreReported : Obligations.UnmappedAccessesAreReported := by
  refine ⟨fun src off be v s hb h8 _ hbus hport hstores => ?_,
    fun p off be v s hclk hup h8 hbe => ⟨fun hres => ?_, fun hres => ?_⟩,
    fun src off be s hb h8 hbus hport => ?_, fun p off be s hclk hup h8 => ⟨fun hres => ?_, fun hres => ?_⟩⟩
  · exact registerWrite_errs (State.putAccess_src hbus hstores) (State.accessWrite_unmapped hb h8 hport be v)
  · exact registerWrite_errs (by simp [State.putAccess, State.accessWaits, hclk])
      (State.accessWrite_bar0Reserved hup h8 hres be v)
  · exact registerWrite_errs (by simp [State.putAccess, State.accessWaits, hclk])
      (State.accessWrite_bar2Reserved hup h8 hres hbe v)
  · exact readToClear_errs ((s.srcAccess_waits ..).trans hbus) (State.deadPath_src hport ..)
      (State.accessRead_unmapped hb h8 be 0)
  · exact readToClear_errs (by exact hclk) (by simp [State.deadPath, hup]) (State.accessRead_bar0Reserved h8 hres s p be 0)
  · exact readToClear_errs (by exact hclk) (by simp [State.deadPath, hup]) (State.accessRead_bar2Reserved h8 hres s p be 0)

end Sys2Proof.Proofs
end

section
/-! Accesses of one register and of two (02 R31 to R34), for O25. -/

namespace Sys2Proof.Machine

/-! ## Bytes of an access (02 R31) -/

theorem natOf_bytesOf (k n : Nat) : natOf (bytesOf k n) = n % 256 ^ k := by
  induction k generalizing n with
  | zero => simp [bytesOf, natOf, Nat.mod_one]
  | succ k ih =>
    have hsplit : n % 256 ^ (k + 1) = n % 256 + 256 * (n / 256 % 256 ^ k) := by
      rw [Nat.pow_succ', Nat.mod_mul]
    rw [bytesOf, natOf, ih, hsplit, BitVec.toNat_ofNat]

theorem masked_full (v : Word) : masked 0xFF v = v := by
  have hmerge : mergeBytes (0xFF : BitVec 8).toNat 0 (List.replicate 8 0) (bytesOf 8 v.toNat) = bytesOf 8 v.toNat := rfl
  rw [masked, hmerge, natOf_bytesOf, asWord]
  exact BitVec.eq_of_toNat_eq (by rw [BitVec.toNat_ofNat]; omega)

/-- The bytes of the lower half. -/
theorem masked_low (v : Word) : masked 0x0F v = v &&& 0xFFFFFFFF := by
  have hmerge : mergeBytes (0x0F : BitVec 8).toNat 0 (List.replicate 8 0) (bytesOf 8 v.toNat) =
      bytesOf 4 v.toNat ++ [0, 0, 0, 0] := rfl
  have hzeros : ∀ bs : List Byte, natOf (bs ++ [0, 0, 0, 0]) = natOf bs := fun bs => by
    induction bs with
    | nil => rfl
    | cons b t ih => rw [List.cons_append, natOf, natOf, ih]
  rw [masked, hmerge, hzeros, natOf_bytesOf, asWord]
  apply BitVec.eq_of_toNat_eq
  rw [BitVec.toNat_ofNat, BitVec.toNat_and]
  change _ = v.toNat &&& (2 ^ 32 - 1)
  rw [Nat.and_two_pow_sub_one_eq_mod]
  omega

theorem masked_half (x : Half) : masked 0x0F (x.setWidth 64) = x.setWidth 64 := by
  rw [masked_low]
  apply BitVec.eq_of_toNat_eq
  rw [BitVec.toNat_and, BitVec.toNat_setWidth]
  change x.toNat % 2 ^ 64 &&& (2 ^ 32 - 1) = _
  rw [Nat.and_two_pow_sub_one_eq_mod]
  omega

theorem asWord_half (x : Half) : asWord ((x.setWidth 64).toNat % 2 ^ 32) = x.setWidth 64 := by
  apply BitVec.eq_of_toNat_eq
  rw [asWord, BitVec.toNat_ofNat, BitVec.toNat_setWidth]
  omega

theorem asWord_word (v : Word) : asWord (v.toNat % 2 ^ 64) = v := by
  apply BitVec.eq_of_toNat_eq
  rw [asWord, BitVec.toNat_ofNat]
  omega

theorem setWidth_half (v : Half) : (v.setWidth 64).setWidth 32 = v := by simp

/-- Byte enables of the lower half that leave one of its bytes out. -/
theorem enables_lower_narrow : ∀ {be : BitVec 8}, be.extractLsb' 4 4 = (0 : BitVec 4) →
    be.extractLsb' 0 4 ≠ (0 : BitVec 4) → be.extractLsb' 0 4 ≠ (0xF : BitVec 4) →
    enables be 0 4 ≠ 0 ∧ enables be 0 4 ≠ 15 ∧ enables be 4 4 = 0 := by decide

/-! ## Accesses of one register (02 R31, R32) -/

theorem regsAt_eight {b : Block} {o : Nat} (h : regWidth b o = some 8) : regsAt b o = [(o, 0, 8)] := by
  rw [regsAt, if_pos h]

/-- 8 bytes whose lower half one register fills: another may stand in the upper half. -/
theorem regsAt_four {b : Block} {o : Nat} (h : regWidth b o = some 4) :
    regsAt b o = (o, 0, 4) :: if regWidth b (o + 4) = some 4 then [(o + 4, 4, 4)] else [] := by
  have h8 : regWidth b o ≠ some 8 := by rw [h]; decide
  rw [regsAt, if_neg h8, if_pos h]
  rfl

/-- A write's effect on one of the registers that its 8 bytes name. -/
def State.csrWriteReg (src : Src) (off : Nat) (be : BitVec 8) (data : Word) (b : Block) (s : State)
    (r : Nat × Nat × Nat) : State :=
  let e := enables be r.2.1 r.2.2
  if e = 0 then s
  else if e = 2 ^ r.2.2 - 1 then s.regWrite b r.1 (data >>> (8 * r.2.1)) src []
  else s.accError 0 src 0 off be.toNat

/-- A read's effect on one of the registers that its 8 bytes name. -/
def State.csrReadReg (be : BitVec 8) (b : Block) (acc : State × Word) (r : Nat × Nat × Nat) : State × Word :=
  let e := enables be r.2.1 r.2.2
  if e = 0 then acc
  else
    let (s, v) := acc.1.regRead b r.1
    let s := if e = 2 ^ r.2.2 - 1 then s.regClear b r.1 else s
    (s, acc.2 ||| asWord (v.toNat % 2 ^ (8 * r.2.2)) <<< (8 * r.2.1))

section
variable {s : State} {src : Src} {off o : Nat} {b : Block} {be : BitVec 8}

theorem State.csrWrite_eq (hb : blockOf off = some (b, o)) (hg : s.gatedBlock b = false) (v : Word) :
    s.csrWrite src off be v [] = (regsAt b o).foldl (State.csrWriteReg src off be v b) s := by
  simp only [State.csrWrite, hb, hg, Bool.false_eq_true, if_false]
  rfl

theorem State.csrRead_eq (hb : blockOf off = some (b, o)) (hg : s.gatedBlock b = false) :
    s.csrRead src off be = (((regsAt b o).foldl (State.csrReadReg be b) (s, 0)).1,
      masked be ((regsAt b o).foldl (State.csrReadReg be b) (s, 0)).2) := by
  simp only [State.csrRead, hb, hg, Bool.false_eq_true, if_false]
  rfl

theorem State.csrWriteReg_off {r lo n : Nat} (h : enables be lo n = 0) (v : Word) :
    State.csrWriteReg src off be v b s (r, lo, n) = s := if_pos h

theorem State.csrWriteReg_whole {r lo n : Nat} (h0 : enables be lo n ≠ 0) (h : enables be lo n = 2 ^ n - 1) (v : Word) :
    State.csrWriteReg src off be v b s (r, lo, n) = s.regWrite b r (v >>> (8 * lo)) src [] :=
  (if_neg h0).trans (if_pos h)

theorem State.csrWriteReg_narrow {r lo n : Nat} (h0 : enables be lo n ≠ 0) (h : enables be lo n ≠ 2 ^ n - 1) (v : Word) :
    State.csrWriteReg src off be v b s (r, lo, n) = s.accError 0 src 0 off be.toNat :=
  (if_neg h0).trans (if_neg h)

/-- A write of the lower half of 8 bytes reaches no register of the upper half. -/
theorem State.csrWrite_lower (hb : blockOf off = some (b, o)) (hg : s.gatedBlock b = false) (hw : regWidth b o = some 4)
    (hhi : enables be 4 4 = 0) (v : Word) :
    s.csrWrite src off be v [] = State.csrWriteReg src off be v b s (o, 0, 4) := by
  rw [State.csrWrite_eq hb hg, regsAt_four hw, List.foldl_cons]
  split
  · rw [List.foldl_cons, List.foldl_nil, State.csrWriteReg_off hhi]
  · rfl

/-- A write of the lower half of 8 bytes, which one register fills. -/
theorem State.csrWrite_low (hb : blockOf off = some (b, o)) (hg : s.gatedBlock b = false) (hw : regWidth b o = some 4)
    (v : Word) : s.csrWrite src off 0x0F v [] = s.regWrite b o v src [] := by
  rw [State.csrWrite_lower hb hg hw (by decide), State.csrWriteReg_whole (by decide) (by decide), Nat.mul_zero,
    BitVec.ushiftRight_zero]

/-- A write of 8 bytes that two registers fill. -/
theorem State.csrWrite_pair (hb : blockOf off = some (b, o)) (hg : s.gatedBlock b = false) (hw : regWidth b o = some 4)
    (hw' : regWidth b (o + 4) = some 4) (v : Word) :
    s.csrWrite src off 0xFF v [] = (s.regWrite b o v src []).regWrite b (o + 4) (v >>> 32) src [] := by
  rw [State.csrWrite_eq hb hg, regsAt_four hw, if_pos hw', List.foldl_cons, List.foldl_cons, List.foldl_nil,
    State.csrWriteReg_whole (by decide) (by decide), State.csrWriteReg_whole (by decide) (by decide), Nat.mul_zero,
    BitVec.ushiftRight_zero]

/-- A write that leaves a byte of its register disabled. -/
theorem State.csrWrite_narrow (hb : blockOf off = some (b, o)) (hg : s.gatedBlock b = false)
    (h : regWidth b o = some 8 ∧ be ≠ 0 ∧ be ≠ 0xFF ∨
      regWidth b o = some 4 ∧ be.extractLsb' 4 4 = (0 : BitVec 4) ∧ be.extractLsb' 0 4 ≠ (0 : BitVec 4) ∧
        be.extractLsb' 0 4 ≠ (0xF : BitVec 4)) (v : Word) :
    s.csrWrite src off be v [] = s.accError 0 src 0 off be.toNat := by
  rcases h with ⟨hw, hne0, hneF⟩ | ⟨hw, hhi, hne0, hneF⟩
  · have h0 : enables be 0 8 ≠ 0 := by revert hne0; clear hneF; revert be; decide
    have hF : enables be 0 8 ≠ 255 := by revert hneF; clear h0 hne0; revert be; decide
    rw [State.csrWrite_eq hb hg, regsAt_eight hw, List.foldl_cons, List.foldl_nil, State.csrWriteReg_narrow h0 hF]
  · obtain ⟨h0, hF, h4⟩ := enables_lower_narrow hhi hne0 hneF
    rw [State.csrWrite_lower hb hg hw h4, State.csrWriteReg_narrow h0 hF]

theorem State.csrReadReg_off {r lo n : Nat} (h : enables be lo n = 0) (acc : State × Word) :
    State.csrReadReg be b acc (r, lo, n) = acc := if_pos h

theorem State.csrReadReg_first {r n : Nat} {v : Word} (h0 : enables be 0 n ≠ 0) (hread : s.regRead b r = (s, v)) :
    State.csrReadReg be b (s, 0) (r, 0, n) =
      (if enables be 0 n = 2 ^ n - 1 then s.regClear b r else s, asWord (v.toNat % 2 ^ (8 * n))) := by
  rw [State.csrReadReg]
  dsimp only
  rw [if_neg h0, hread, Nat.mul_zero, BitVec.shiftLeft_zero]
  exact congrArg (Prod.mk _) BitVec.zero_or

/-- A whole read of a 64-bit register. -/
theorem State.csrRead_full (hb : blockOf off = some (b, o)) (hg : s.gatedBlock b = false) (hw : regWidth b o = some 8)
    {v : Word} (hread : s.regRead b o = (s, v)) : s.csrRead src off 0xFF = (s.regClear b o, v) := by
  rw [State.csrRead_eq hb hg, regsAt_eight hw, List.foldl_cons, List.foldl_nil,
    State.csrReadReg_first (by decide) hread, if_pos (by decide), asWord_word, masked_full]

/-- A read of the lower half of a 64-bit register. -/
theorem State.csrRead_part (hb : blockOf off = some (b, o)) (hg : s.gatedBlock b = false) (hw : regWidth b o = some 8)
    {v : Word} (hread : s.regRead b o = (s, v)) : s.csrRead src off 0x0F = (s, v &&& 0xFFFFFFFF) := by
  rw [State.csrRead_eq hb hg, regsAt_eight hw, List.foldl_cons, List.foldl_nil,
    State.csrReadReg_first (by decide) hread, if_neg (by decide), asWord_word, masked_low]

/-- A whole read of a 32-bit register that a read does not clear. -/
theorem State.csrRead_low (hb : blockOf off = some (b, o)) (hg : s.gatedBlock b = false) (hw : regWidth b o = some 4)
    {x : Half} (hread : s.regRead b o = (s, x.setWidth 64)) (hclear : s.regClear b o = s) :
    s.csrRead src off 0x0F = (s, x.setWidth 64) := by
  have hall : (regsAt b o).foldl (State.csrReadReg 0x0F b) (s, 0) = (s, x.setWidth 64) := by
    rw [regsAt_four hw, List.foldl_cons, State.csrReadReg_first (by decide) hread, if_pos (by decide), hclear, asWord_half]
    split
    · rw [List.foldl_cons, List.foldl_nil, State.csrReadReg_off (by decide)]
    · rfl
  rw [State.csrRead_eq hb hg, hall, masked_half]

end

/-! ## Accesses that take effect at once -/

/-- What it takes for a register write of a source to take effect at once. -/
theorem State.reaches_iff {s : State} {src : Src} {off o : Nat} {b : Block} (h8 : off % 8 = 0)
    (hb : blockOf off = some (b, o)) :
    s.reaches src off = true ↔ s.busWaits off = false ∧ s.gatedBlock b = false ∧ s.carries src ∧ s.noStores src ∧
      ∀ p, src = .host p → s.noGrant b true = false := by
  unfold State.reaches State.carries State.noStores
  rw [div_eight_mul_eight h8, hb]
  cases src <;> simp [and_assoc]

end Sys2Proof.Machine
end

section
/-! Plain registers, arrays of registers, and the paths of an access (02 R29 to R34; 15 R299), for O25. -/

namespace Sys2Proof.Machine

section
variable {s : State} {src : Src} {off o : Nat} {b : Block}

theorem State.accessWrite_src (h8 : off % 8 = 0) (hb : blockOf off = some (b, o)) (hport : s.carries src)
    (hgrant : ∀ p, src = .host p → s.noGrant b true = false) (be : BitVec 8) (v : Word) :
    s.accessWrite (srcAccess src off be v) [] = s.csrWrite src off be v [] := by
  cases src with
  | core n => simp only [State.accessWrite, srcAccess, pathOf, div_eight_mul_eight h8]
  | host p =>
    simp only [State.accessWrite, srcAccess, pathOf, div_eight_mul_eight h8, hport p rfl, if_true, State.diagWrite, hb,
      hgrant p rfl, Bool.false_eq_true, if_false]
  | fabric => simp only [State.accessWrite, srcAccess, pathOf, div_eight_mul_eight h8]

/-- A register write that takes effect at once. -/
theorem State.putAccess_reaches (h8 : off % 8 = 0) (hb : blockOf off = some (b, o)) (h : s.reaches src off = true)
    (be : BitVec 8) (v : Word) :
    s.putAccess (srcAccess src off be v) [] = .next (s.csrWrite src off be v []) := by
  obtain ⟨hbus, -, hport, hstores, hgrant⟩ := (State.reaches_iff h8 hb).mp h
  rw [State.putAccess_src hbus hstores, State.accessWrite_src h8 hb hport hgrant]

/-- A core's register read that takes effect at once. -/
theorem execReadToClear_core (h8 : off % 8 = 0) (hbus : s.busWaits off = false) (m : CoreId) (be : BitVec 8) :
    exec (.readToClear { path := .core m, offset := off, be := be, data := 0 }) s =
      .next ((s.csrRead (.core m) off be).1.emit (.barData (s.csrRead (.core m) off be).2 false)) := by
  rw [exec_readToClear, execReadToClear_eq (by exact hbus) rfl]
  simp only [State.accessRead, div_eight_mul_eight h8]

end

/-! ## Plain registers -/

/-- The offset has a 32-bit register whose bits of the mask hold what a write gives them, in a block that no gate stops; no
clock, memory, core, chain or port hangs on its value. -/
def PlainReg (off : Nat) (mask : Half) : Prop :=
  ∃ b o, off % 8 = 0 ∧ blockOf off = some (b, o) ∧ regWidth b o = some 4 ∧ (∀ s : State, s.gatedBlock b = false) ∧
    ∀ (s : State) (src : Src) (v : Half),
      let u := s.regWrite b o (v.setWidth 64) src []
      (u.mem = s.mem ∧ u.cores = s.cores ∧ u.chains = s.chains ∧ u.tgl = s.tgl) ∧
        (u.plls = s.plls ∧ u.chip.phase = s.chip.phase) ∧
        u.regRead b o = (u, (v &&& mask).setWidth 64) ∧ u.regClear b o = u

theorem and_ones_half (v : Half) : v &&& 0xFFFFFFFF = v := BitVec.and_allOnes

theorem asWord_bit (v : Half) : asWord (b2n (((v.setWidth 64 : Word)).getLsbD 0)) = (v &&& 1).setWidth 64 := by
  have hbit : (v.setWidth 64 : Word).getLsbD 0 = v.getLsbD 0 := by simp
  rw [hbit]
  apply BitVec.eq_of_toNat_eq
  rw [BitVec.toNat_setWidth, BitVec.toNat_and]
  change _ = (v.toNat &&& 1) % 2 ^ 64
  rw [Nat.and_one_is_mod, BitVec.getLsbD, Nat.testBit_zero]
  rcases Nat.mod_two_eq_zero_or_one v.toNat with h | h <;> rw [h] <;> rfl

/-- The value of a plain register that takes bits of the low half of a write. -/
theorem plain_value {s : State} (v mask : Half) {w : Word}
    (h : w = (((v.setWidth 64 : Word).setWidth 32) &&& mask).setWidth 64) :
    (s, w) = (s, (v &&& mask).setWidth 64) := by rw [h, setWidth_half]

theorem plainRegs_plain : ∀ row ∈ Sys2Proof.Claims.plainRegs, PlainReg row.1 row.2 := by
  simp only [Sys2Proof.Claims.plainRegs, List.forall_mem_cons]
  refine ⟨?_, ?_, ?_, ?_, ?_, ?_, ?_, ?_, ?_, ?_, fun _ h => nomatch h⟩
  · exact ⟨.jnc, 0, by decide, by decide, by decide, fun _ => rfl, fun s src v =>
      ⟨⟨rfl, rfl, rfl, rfl⟩, ⟨rfl, rfl⟩, plain_value v _ rfl, rfl⟩⟩
  · exact ⟨.jnc, 0x10, by decide, by decide, by decide, fun _ => rfl, fun s src v =>
      ⟨⟨rfl, rfl, rfl, rfl⟩, ⟨rfl, rfl⟩, plain_value v _ rfl, rfl⟩⟩
  · exact ⟨.jnc, 0x18, by decide, by decide, by decide, fun _ => rfl, fun s src v =>
      ⟨⟨rfl, rfl, rfl, rfl⟩, ⟨rfl, rfl⟩, plain_value v _ rfl, rfl⟩⟩
  · exact ⟨.jnc, 0x500, by decide, by decide, by decide, fun _ => rfl, fun s src v =>
      ⟨⟨rfl, rfl, rfl, rfl⟩, ⟨rfl, rfl⟩, plain_value v _ rfl, rfl⟩⟩
  · exact ⟨.scr, 0x10, by decide, by decide, by decide, fun _ => rfl, fun s src v =>
      ⟨⟨rfl, rfl, rfl, rfl⟩, ⟨rfl, rfl⟩, plain_value v _ rfl, rfl⟩⟩
  · exact ⟨.xl, 0, by decide, by decide, by decide, fun _ => rfl, fun s src v =>
      ⟨⟨rfl, rfl, rfl, rfl⟩, ⟨rfl, rfl⟩, plain_value v _ rfl, rfl⟩⟩
  · exact ⟨.xl, 0x40, by decide, by decide, by decide, fun _ => rfl, fun s src v =>
      ⟨⟨rfl, rfl, rfl, rfl⟩, ⟨rfl, rfl⟩, plain_value v _ (by rw [and_ones_half]; rfl), rfl⟩⟩
  · exact ⟨.xl, 0x48, by decide, by decide, by decide, fun _ => rfl, fun s src v =>
      ⟨⟨rfl, rfl, rfl, rfl⟩, ⟨rfl, rfl⟩, plain_value v _ (by rw [and_ones_half]; rfl), rfl⟩⟩
  · exact ⟨.thm, 0x108, by decide, by decide, by decide, fun _ => rfl, fun s src v =>
      ⟨⟨rfl, rfl, rfl, rfl⟩, ⟨rfl, rfl⟩, plain_value v _ rfl, rfl⟩⟩
  · exact ⟨.cal, 0, by decide, by decide, by decide, fun _ => rfl, fun s src v =>
      ⟨⟨rfl, rfl, rfl, rfl⟩, ⟨rfl, rfl⟩, congrArg (Prod.mk _) (asWord_bit v), rfl⟩⟩

theorem State.busWaits_congr {u s : State} (hplls : u.plls = s.plls) (hphase : u.chip.phase = s.chip.phase)
    (hcores : u.cores = s.cores) (off : Nat) : u.busWaits off = s.busWaits off := by
  simp only [State.busWaits, State.bclkStopped, State.cclkStopped, State.clocksOff, State.tlbBusy, hplls, hphase, hcores]

/-- A plain register takes what is written and gives it back. -/
theorem plainReg_write_read {off : Nat} {mask : Half} (h : PlainReg off mask) (n : CoreId) (v : Half) {s : State}
    (hreach : s.reaches (.core n) off = true) :
    ∃ u, exec (.registerWrite { path := .core n, offset := off, be := 0x0F, data := v.setWidth 64 }) s = .next u ∧
      u.mem = s.mem ∧ u.cores = s.cores ∧ u.chains = s.chains ∧ u.tgl = s.tgl ∧
      exec (.readToClear { path := .core n, offset := off, be := 0x0F, data := 0 }) u =
        .next (u.emit (.barData ((v &&& mask).setWidth 64) false)) := by
  obtain ⟨b, o, h8, hb, hw, hgate, hreg⟩ := h
  obtain ⟨⟨hmem, hcores, hchains, htgl⟩, ⟨hplls, hphase⟩, hread, hclear⟩ := hreg s (.core n) v
  obtain ⟨hbus, -⟩ := (State.reaches_iff h8 hb).mp hreach
  refine ⟨s.regWrite b o (v.setWidth 64) (.core n) [], ?_, hmem, hcores, hchains, htgl, ?_⟩
  · rw [exec_registerWrite]
    exact (State.putAccess_reaches h8 hb hreach _ _).trans (congrArg _ (State.csrWrite_low hb (hgate s) hw _))
  · rw [execReadToClear_core h8 ((State.busWaits_congr hplls hphase hcores off).trans hbus),
      State.csrRead_low hb (hgate _) hw hread hclear]

/-! ## Arrays of the JNC_ block (14, Registers) -/

/-- Offsets of the JNC_ block that name one plain register. -/
def jncSingle : List Nat := [0, 8, 0x10, 0x18, 0x500]

theorem State.jncRead_dlag {s : State} {off : Nat} {n : Fin 16} (hsingle : off ∉ jncSingle) (hpri : priReg off = none)
    (hslag : slagReg off = none) (hn : (elemAt 0x100 8 16 off).bind (fin? 16) = some n) :
    s.jncRead off = s.jnc.dlag[n] := by
  unfold State.jncRead
  split
  case h_6 => rw [hpri, hslag, hn]
  all_goals exact absurd (by decide) hsingle

theorem State.jncRead_plag {s : State} {off : Nat} {p : Fin 8} (hsingle : off ∉ jncSingle) (hpri : priReg off = none)
    (hslag : slagReg off = none) (hn : (elemAt 0x100 8 16 off).bind (fin? 16) = none)
    (hp : (elemAt 0x180 8 8 off).bind (fin? 8) = some p) :
    s.jncRead off = s.jnc.plag[p] := by
  unfold State.jncRead
  split
  case h_6 => rw [hpri, hslag, hn, hp]
  all_goals exact absurd (by decide) hsingle

theorem State.jncWrite_sqos {s : State} {off : Nat} {n : CoreId} (hsingle : off ∉ jncSingle) (hpri : priReg off = none)
    (hn : (elemAt 0x400 4 36 off).bind (fin? 36) = some n) (v : Word) :
    s.jncWrite off v = s.modCore n fun c => { c with sqos := v.setWidth 32 &&& 0xFF } := by
  unfold State.jncWrite
  dsimp only
  split
  case h_5 => rw [hpri, hn]
  all_goals exact absurd (by decide) hsingle

theorem dlag_offsets : ∀ n : Fin 16, 0x100 + 8 * n.val ∉ jncSingle ∧ priReg (0x100 + 8 * n.val) = none ∧
    slagReg (0x100 + 8 * n.val) = none ∧ (elemAt 0x100 8 16 (0x100 + 8 * n.val)).bind (fin? 16) = some n := by decide

theorem plag_offsets : ∀ p : Fin 8, 0x180 + 8 * p.val ∉ jncSingle ∧ priReg (0x180 + 8 * p.val) = none ∧
    slagReg (0x180 + 8 * p.val) = none ∧ (elemAt 0x100 8 16 (0x180 + 8 * p.val)).bind (fin? 16) = none ∧
    (elemAt 0x180 8 8 (0x180 + 8 * p.val)).bind (fin? 8) = some p := by decide

theorem sqos_offsets : ∀ n : CoreId, 0x400 + 4 * n.val ∉ jncSingle ∧ priReg (0x400 + 4 * n.val) = none ∧
    (elemAt 0x400 4 36 (0x400 + 4 * n.val)).bind (fin? 36) = some n := by decide

/-! ## Two registers in one write (02 R34) -/

theorem blockOf_sqos : ∀ k : Fin 18, blockOf (0x400400 + 8 * k.val) = some (.jnc, 0x400 + 4 * (2 * k.val)) ∧
    regWidth .jnc (0x400 + 4 * (2 * k.val)) = some 4 ∧ regWidth .jnc (0x400 + 4 * (2 * k.val) + 4) = some 4 := by decide

/-- A write of a core's QOS register. -/
theorem State.regWrite_sqos (s : State) (n : CoreId) (v : Word) (src : Src) :
    s.regWrite .jnc (0x400 + 4 * n.val) v src [] = s.modCore n fun c => { c with sqos := v.setWidth 32 &&& 0xFF } := by
  obtain ⟨hsingle, hpri, hn⟩ := sqos_offsets n
  exact State.jncWrite_sqos hsingle hpri hn v

/-! ## Reads that clear (02 R32) -/

theorem blockOf_dlag : ∀ n : Fin 16, blockOf (0x400100 + 8 * n.val) = some (.jnc, 0x100 + 8 * n.val) ∧
    regWidth .jnc (0x100 + 8 * n.val) = some 8 := by decide

theorem blockOf_plag : ∀ p : PortId, blockOf (0x400180 + 8 * p.val) = some (.jnc, 0x180 + 8 * p.val) ∧
    regWidth .jnc (0x180 + 8 * p.val) = some 8 := by decide

theorem blockOf_tgl : ∀ p : PortId, blockOf (0x2000018 + 0x100000 * p.val) = some (.tgl p, 0x18) ∧
    blockOf (0x2000020 + 0x100000 * p.val) = some (.tgl p, 0x20) := by decide

theorem blockOf_ddr : ∀ n : CtrlId, blockOf (0x1000008 + 0x100000 * n.val) = some (.ddr n, 8) := by decide

theorem State.regClear_dlag (s : State) (n : Fin 16) :
    s.regClear .jnc (0x100 + 8 * n.val) = { s with jnc := { s.jnc with dlag := s.jnc.dlag.set n 0 } } := by
  obtain ⟨-, -, hslag, hn⟩ := dlag_offsets n
  simp only [State.regClear, hslag, hn]

theorem State.regClear_plag (s : State) (p : PortId) :
    s.regClear .jnc (0x180 + 8 * p.val) = { s with jnc := { s.jnc with plag := s.jnc.plag.set p 0 } } := by
  obtain ⟨-, -, hslag, hn, hp⟩ := plag_offsets p
  simp only [State.regClear, hslag, hn, hp]
theorem State.regRead_dlag (s : State) (n : Fin 16) : s.regRead .jnc (0x100 + 8 * n.val) = (s, s.jnc.dlag[n]) := by
  obtain ⟨hsingle, hpri, hslag, hn⟩ := dlag_offsets n
  exact congrArg (Prod.mk s) (State.jncRead_dlag hsingle hpri hslag hn)

theorem State.regRead_plag (s : State) (p : PortId) : s.regRead .jnc (0x180 + 8 * p.val) = (s, s.jnc.plag[p]) := by
  obtain ⟨hsingle, hpri, hslag, hn, hp⟩ := plag_offsets p
  exact congrArg (Prod.mk s) (State.jncRead_plag hsingle hpri hslag hn hp)

section
variable {s : State} {off o : Nat} {b : Block} {v : Word} {m : CoreId}

/-- A core reads a 64-bit register whole. -/
theorem readToClear_full (h8 : off % 8 = 0) (hb : blockOf off = some (b, o)) (hw : regWidth b o = some 8)
    (h : s.reaches (.core m) off = true) (hread : s.regRead b o = (s, v)) :
    exec (.readToClear { path := .core m, offset := off, be := 0xFF, data := 0 }) s =
      .next ((s.regClear b o).emit (.barData v false)) := by
  obtain ⟨hbus, hg, -⟩ := (State.reaches_iff h8 hb).mp h
  rw [execReadToClear_core h8 hbus, State.csrRead_full hb hg hw hread]

/-- A core reads the lower half of a 64-bit register. -/
theorem readToClear_part (h8 : off % 8 = 0) (hb : blockOf off = some (b, o)) (hw : regWidth b o = some 8)
    (h : s.reaches (.core m) off = true) (hread : s.regRead b o = (s, v)) :
    exec (.readToClear { path := .core m, offset := off, be := 0x0F, data := 0 }) s =
      .next (s.emit (.barData (v &&& 0xFFFFFFFF) false)) := by
  obtain ⟨hbus, hg, -⟩ := (State.reaches_iff h8 hb).mp h
  rw [execReadToClear_core h8 hbus, State.csrRead_part hb hg hw hread]

end

/-! ## Narrow writes of BAR0's own registers (02 R33) -/

section
variable {s : State} {p : Fin 2} {be : BitVec 8}

theorem State.compWrite64_narrow (hhi : be.extractLsb' 4 4 = (0 : BitVec 4)) (hne0 : be.extractLsb' 0 4 ≠ (0 : BitVec 4))
    (hneF : be.extractLsb' 0 4 ≠ (0xF : BitVec 4)) (off : Nat) (v : Word) :
    s.compWrite64 p off be v = s.accError 0 (.host p) 1 (0x10000 + off) be.toNat := by
  obtain ⟨h0, hF, h4⟩ := enables_lower_narrow hhi hne0 hneF
  simp only [State.compWrite64, if_neg h0, h4, if_true]
  rw [if_pos hF]

theorem State.pbaWrite_narrow (hhi : be.extractLsb' 4 4 = (0 : BitVec 4)) (hne0 : be.extractLsb' 0 4 ≠ (0 : BitVec 4))
    (hneF : be.extractLsb' 0 4 ≠ (0xF : BitVec 4)) (off : Nat) :
    s.pbaWrite p off be = s.accError 0 (.host p) 1 off be.toNat := by
  obtain ⟨h0, hF, h4⟩ := enables_lower_narrow hhi hne0 hneF
  simp [State.pbaWrite, h0, hF, h4]

theorem State.accessWrite_bar0_narrow {off : Nat} (hup : s.portUp p = true) (h8 : off % 8 = 0)
    (hoff : 0x10000 ≤ off ∧ off < 0x20000 ∨ 0x28000 ≤ off ∧ off < 0x28100) (hhi : be.extractLsb' 4 4 = (0 : BitVec 4))
    (hne0 : be.extractLsb' 0 4 ≠ (0 : BitVec 4)) (hneF : be.extractLsb' 0 4 ≠ (0xF : BitVec 4)) (v : Word) :
    s.accessWrite { path := .bar0 p, offset := off, be := be, data := v } [] = s.accError 0 (.host p) 1 off be.toNat := by
  have hcsr : bar0Csr off = false := by
    simp only [bar0Csr, Bool.or_eq_false_iff, Bool.and_eq_false_iff, decide_eq_false_iff_not]
    omega
  simp only [State.accessWrite, div_eight_mul_eight h8, hup, hcsr, Bool.not_true, Bool.false_eq_true, if_false]
  rcases hoff with ⟨hlo, hlt⟩ | ⟨hlo, hlt⟩
  · rw [if_pos (by simp [hlo, hlt]), State.compWrite64_narrow hhi hne0 hneF,
      Nat.add_sub_cancel' hlo]
  · rw [if_neg (by simp; omega), if_neg (by simp; omega), if_pos (by simp [hlo, hlt]),
      State.pbaWrite_narrow hhi hne0 hneF]

/-! ## Host paths (02 R29; 15 R299) -/

theorem State.portUp_false
    (h : ∀ l : LinkId, portOf l = p.val → s.cxl.links[l].up = false ∨ s.cxl.links[l].cfg.d3hot = true) :
    s.portUp p = false := by
  refine List.any_eq_false.mpr fun l _ hl => ?_
  simp only [Bool.and_eq_true, decide_eq_true_eq, Link.answersBars, Bool.not_eq_true'] at hl
  obtain ⟨hp, ⟨hup, hd3⟩, -⟩ := hl
  rcases h l hp with h | h
  · rw [h] at hup; cases hup
  · rw [h] at hd3; cases hd3

/-- A path of a port that is down carries nothing. -/
theorem State.deadBar (hdown : s.portUp p = false) {path : Path} (hpath : path ∈ [Path.bar0 p, .bar2 p, .bar4 p])
    (off : Nat) (be : BitVec 8) (v : Word) :
    exec (.registerWrite { path := path, offset := off, be := be, data := v }) s = .next s ∧
      exec (.readToClear { path := path, offset := off, be := be, data := v }) s = .next s := by
  rw [exec_registerWrite, exec_readToClear, State.putAccess, execReadToClear]
  simp only [List.mem_cons, List.not_mem_nil, or_false] at hpath
  rcases hpath with rfl | rfl | rfl <;>
    simp [State.accessWrite, State.deadPath, hdown]

theorem State.accessWrite_noGrant {b : Block} {o off : Nat} (h8 : off % 8 = 0) (hup : s.portUp p = true)
    (hb : blockOf off = some (b, o)) (hg : s.noGrant b true = true) (v : Word) :
    s.accessWrite (srcAccess (.host p) off be v) [] = s.accError 2 (.host p) 0 off be.toNat := by
  simp only [State.accessWrite, srcAccess, pathOf, div_eight_mul_eight h8, hup, if_true, State.diagWrite, hb, hg]

theorem State.accessRead_noGrant {b : Block} {o off : Nat} (h8 : off % 8 = 0)
    (hb : blockOf off = some (b, o)) (hg : s.noGrant b false = true) (v : Word) :
    s.accessRead (srcAccess (.host p) off be v) = (s.accError 2 (.host p) 0 off be.toNat, 0, false) := by
  simp only [State.accessRead, srcAccess, pathOf, div_eight_mul_eight h8, State.diagRead, hb, hg, if_true]

end

/-! ## Writes behind posted stores (09 R201) -/

theorem Core.post_stores (c : Core) (t : ThreadId) (loc : Phys) (va : Word) (bs : List Byte) :
    ∃ x, (c.post t loc va bs).stores = c.stores ++ [x] ∧ x.loc = loc ∧ x.bytes = bs := ⟨_, rfl, rfl, rfl⟩

theorem Core.ownCfg_stores (c : Core) (n : CoreId) (loc : Phys) (bs : List Byte) : (c.ownCfg n loc bs).stores = c.stores := by
  unfold Core.ownCfg
  split <;> rfl

/-- A core's whole write joins its posted stores. -/
theorem State.postWrite_joins {s : State} {n : CoreId} {off : Nat} (h8 : off % 8 = 0) (hroom : s.cores[n].stores.length < 8)
    (v : Word) : ∃ x u, s.postWrite n { path := .core n, offset := off, be := 0xFF, data := v } [] = u ∧
      x.loc = .here (csrBase + off) ∧ x.bytes = bytesOf 8 v.toNat ∧ u.cores[n].stores = s.cores[n].stores ++ [x] ∧
      (∀ m, m ≠ n → u.cores[m] = s.cores[m]) ∧ u = { s with cores := u.cores } := by
  have hrun : byteRun 0xFF = some (0, 8) := by decide
  have hroom' : (decide (8 ≤ s.cores[n].stores.length) || !([] : List Word).isEmpty) = false := by
    rw [Bool.or_eq_false_iff]
    exact ⟨decide_eq_false (Nat.not_le.mpr hroom), rfl⟩
  obtain ⟨x, hx, hloc, hbytes⟩ := s.cores[n].post_stores 0 (.here (csrBase + off)) (s.global (csrBase + off))
    (bytesOf 8 v.toNat)
  unfold State.postWrite
  simp only [hrun, hroom', div_eight_mul_eight h8, Bool.false_eq_true, if_false]
  refine ⟨x, _, rfl, hloc, hbytes, ?_, fun m hm => s.modCore_other n m _ hm, rfl⟩
  rw [State.modCore_same, Core.ownCfg_stores]
  exact hx

end Sys2Proof.Machine
end

section
/-! The proof of O25 (02 R26 to R37). -/

namespace Sys2Proof.Machine

/-- The configuration space begins with the Vendor and Device IDs. -/
theorem State.cfgRead64_ids {s : State} {l : LinkId} (hup : s.cxl.links[l].up = true) :
    masked 0x0F (s.cfgRead64 l 0) = 0xD7071F3C := by
  have hids : s.cfgRead l 0 = 0xD7071F3C := by
    unfold State.cfgRead
    simp only [hup]
    rfl
  rw [masked_low, State.cfgRead64, hids]
  apply BitVec.eq_of_toNat_eq
  rw [BitVec.toNat_and, BitVec.toNat_ofNat, Nat.shiftLeft_eq]
  change _ % 2 ^ 64 &&& (2 ^ 32 - 1) = _
  rw [Nat.and_two_pow_sub_one_eq_mod]
  change (0xD7071F3C + _) % 2 ^ 64 % 2 ^ 32 = 0xD7071F3C
  omega

/-- On the registers of a port the bus waits for BCLK alone. -/
theorem State.busWaits_tgl {off o : Nat} {p : PortId} (hb : blockOf off = some (.tgl p, o)) (hlow : off < 0x4000000)
    (s : State) : s.busWaits off = s.bclkStopped := by
  have htlb : s.tlbBusy off = false := by simp only [State.tlbBusy, hb]
  have hcore : decide (0x4000000 ≤ off) = false := decide_eq_false (Nat.not_le.mpr hlow)
  rw [State.busWaits, htlb, hcore]
  simp

end Sys2Proof.Machine

namespace Sys2Proof.Proofs

open Sys2Proof.Machine

theorem registerWrites : Sys2Proof.Claims.RegisterWrites := by
  refine ⟨fun row hrow n v s hreach => plainReg_write_read (plainRegs_plain row hrow) n v hreach, fun n k v s hreach => ?_,
    fun src b o off be v s hreach h8 hb hnarrow => ?_, fun p off be v s h8 hclk hup hoff hhi hne0 hneF => ?_,
    fun p b o off be v s h8 _ hbus hup hb hg => ?_, fun p off be v s hdown path hpath => ?_,
    fun n off v s h8 hbus hstores hroom => ?_⟩
  · obtain ⟨hb, hw, hw'⟩ := blockOf_sqos k
    rw [exec_registerWrite]
    refine (State.putAccess_reaches (by omega) hb hreach _ _).trans (congrArg _ ?_)
    rw [State.csrWrite_pair hb rfl hw hw']
    exact (congrArg (fun u => State.regWrite u .jnc _ _ _ _) (s.regWrite_sqos ⟨2 * k.val, by omega⟩ v _)).trans
      (State.regWrite_sqos _ ⟨2 * k.val + 1, by omega⟩ (v >>> 32) _)
  · obtain ⟨-, hg, -⟩ := (State.reaches_iff h8 hb).mp hreach
    refine ⟨_, (exec_registerWrite ..).trans (State.putAccess_reaches h8 hb hreach be v), ?_⟩
    rw [State.csrWrite_narrow hb hg hnarrow]
    exact s.accError_erred 0 src 0 off be
  · exact registerWrite_errs (by simp [State.putAccess, State.accessWaits, hclk])
      (State.accessWrite_bar0_narrow hup h8 hoff hhi hne0 hneF v)
  · exact registerWrite_errs (State.putAccess_src hbus fun _ h => by cases h) (State.accessWrite_noGrant h8 hup hb hg v)
  · exact State.deadBar (State.portUp_false hdown) hpath off be v
  · obtain ⟨x, u, hu, hspec⟩ := State.postWrite_joins h8 hroom v
    refine ⟨x, u, ?_, hspec⟩
    have hwait : s.accessWaits { path := .core n, offset := off, be := 0xFF, data := v } = false := hbus
    have hqueue : s.cores[n].stores.isEmpty = false := by simpa using hstores
    rw [exec_registerWrite, State.putAccess, hwait, if_neg Bool.false_ne_true]
    simp only [hqueue, Bool.false_eq_true, if_false, hu]

theorem registerReads : Sys2Proof.Claims.RegisterReads := by
  refine ⟨fun m s => ⟨fun n h => ?_, fun p h => ?_, fun p h => ?_, fun n h => ?_⟩,
    fun p b o off be s h8 hbus hup hb hg => ?_, fun l s hclk hup => ?_⟩
  · obtain ⟨hb, hw⟩ := blockOf_dlag n
    refine ⟨?_, readToClear_part (by omega) hb hw h (s.regRead_dlag n)⟩
    rw [← State.regClear_dlag]
    exact readToClear_full (by omega) hb hw h (s.regRead_dlag n)
  · obtain ⟨hb, hw⟩ := blockOf_plag p
    rw [← State.regClear_plag]
    exact readToClear_full (by omega) hb hw h (s.regRead_plag p)
  · obtain ⟨hb, hb'⟩ := blockOf_tgl p
    obtain ⟨hbus, hrest⟩ := (State.reaches_iff (by omega) hb).mp h
    have hbus' : s.busWaits (0x2000020 + 0x100000 * p.val) = false := by
      rwa [State.busWaits_tgl hb' (by omega), ← State.busWaits_tgl hb (by omega)]
    have h' : s.reaches (.core m) (0x2000020 + 0x100000 * p.val) = true :=
      (State.reaches_iff (by omega) hb').mpr ⟨hbus', hrest⟩
    exact ⟨readToClear_full (by omega) hb rfl h rfl, readToClear_full (by omega) hb' rfl h' rfl,
      readToClear_part (by omega) hb rfl h rfl⟩
  · have hb := blockOf_ddr n
    exact ⟨readToClear_full (by omega) hb rfl h rfl, readToClear_part (by omega) hb rfl h rfl⟩
  · exact readToClear_errs (a := srcAccess (.host p) off be 0) hbus (by simp [State.deadPath, srcAccess, pathOf, hup])
      (State.accessRead_noGrant h8 hb hg 0)
  · have hdead : s.deadPath { path := .config l, offset := 0, be := 0x0F, data := 0 } = false := congrArg (!·) hup
    rw [exec_readToClear, execReadToClear_eq (by exact hclk) hdead]
    simp only [State.accessRead]
    rw [State.cfgRead64_ids hup]

/-- Settles O25: writes and reads by the registers that an access's bytes fill, and the paths that carry none. -/
theorem registerAccessesAct : Obligations.RegisterAccessesAct := ⟨registerWrites, registerReads⟩

end Sys2Proof.Proofs
end

section
/-! The proof of O17 (03 R38, R43, R45): enabling and resetting the ACI. -/

namespace Sys2Proof.Machine

/-! ## A write of ACI_CTRL (03 R38, R45) -/

theorem exec_aciEnable (src : Src) (s : State) : exec (.aciEnable src) s = s.put4 src 0x100000 1 [] := rfl
theorem exec_aciReset (src : Src) (s : State) : exec (.aciReset src) s = s.put4 src 0x100000 0 [] := rfl
theorem exec_aciReady (s : State) : exec .aciReady s = execAciReady s := rfl
theorem exec_aciResetComplete (s : State) : exec .aciResetComplete s = execAciResetComplete s := rfl

/-- A write of ACI_CTRL that its path carries reaches the register. -/
theorem State.put4_aciCtrl {s : State} {src : Src} (h : s.reaches src 0x100000 = true) (v : Half) :
    s.put4 src 0x100000 v [] = .next (s.aciCtrl v) := by
  have hb : blockOf 0x100000 = some (.aci, 0) := by decide
  refine (State.putAccess_reaches (by decide) hb h 0x0F ((v.setWidth 64 : Word) <<< 0)).trans (congrArg _ ?_)
  rw [State.csrWrite_low hb rfl (by decide), BitVec.shiftLeft_zero]
  exact congrArg s.aciCtrl (setWidth_half v)

/-! ## Event routes -/

/-- A write of a route changes the route, and may send the message of a pending source. -/
theorem State.setRoute_frame (s : State) (src : Nat) (v : Half) : s.setRoute src v = { s with
    evt := (s.setRoute src v).evt, out := (s.setRoute src v).out
    cxl := { s.cxl with pba := (s.setRoute src v).cxl.pba } } := by
  unfold State.setRoute
  dsimp only
  split
  · rw [State.msix_frame]
  · rfl

/-- Writes of several routes leave the ACI, the cores and the chains as they are. -/
theorem State.foldl_setRoute_keeps (g : State → Nat → Half) (l : List Nat) (s : State) :
    (l.foldl (fun s i => s.setRoute i (g s i)) s).aci = s.aci ∧
      (l.foldl (fun s i => s.setRoute i (g s i)) s).cores = s.cores ∧
      (l.foldl (fun s i => s.setRoute i (g s i)) s).chains = s.chains := by
  have h := State.foldl_keeps (fun u => (u.aci, u.cores, u.chains)) (f := fun s i => s.setRoute i (g s i))
    (fun s i => by rw [State.setRoute_frame]) l s
  simpa only [Prod.mk.injEq] using h

/-! ## Errors of the ACI -/

/-- An error of the ACI changes ACI_ERR, and what the event of its source changes. -/
theorem State.aciError_aci (s : State) (bit q : Nat) :
    (s.aciError bit q).aci = { s.aci with err := (s.aciError bit q).aci.err } := by
  unfold State.aciError
  dsimp only
  split
  · rfl
  · simp only [State.raise_aci]

theorem State.aciError_cores (s : State) (bit q : Nat) : (s.aciError bit q).cores = s.cores := by
  simp [State.aciError, apply_ite State.cores]

theorem State.aciError_pairs (s : State) (bit q : Nat) : (s.aciError bit q).aci.pairs = s.aci.pairs := by
  rw [State.aciError_aci]

/-- The bit of an error is set. -/
theorem State.aciError_err (s : State) {bit : Nat} (hbit : bit < 32) (q : Nat) :
    (s.aciError bit q).aci.err.getLsbD bit = true := by
  have key : ∀ e : Nat, (BitVec.ofNat 32 (e ||| 2 ^ bit)).getLsbD bit = true := fun e => by
    rw [BitVec.getLsbD_ofNat, Nat.testBit_or, Nat.testBit_two_pow_self, Bool.or_true, decide_eq_true hbit, Bool.and_true]
  unfold State.aciError
  dsimp only
  split
  · exact key _
  · rw [State.raise_aci]
    exact key _

/-! ## ACI_READY (03 R38, R43) -/

/-- The configuration meets R38. -/
def Aci.sound (a : Aci) (s : State) : Bool :=
  s.ringOk (a.aqCfg.getLsbD 16) a.sqBase.toNat (a.aqCfg.extractLsb' 0 5).toNat 64 &&
    s.ringOk (a.aqCfg.getLsbD 16) a.cqBase.toNat (a.aqCfg.extractLsb' 8 5).toNat 32 &&
    decide ((a.aqCfg.extractLsb' 0 5).toNat ≤ (a.aqCfg.extractLsb' 8 5).toNat)

/-- Pair 0 as its configuration creates it. -/
def Aci.adminPair (a : Aci) : Pair :=
  Pair.new (a.aqGen + 1) (a.aqCfg.extractLsb' 0 5).toNat (a.aqCfg.extractLsb' 8 5).toNat (a.aqCfg.getLsbD 16) a.sqBase
    a.cqBase (a.aqCfg.extractLsb' 17 11).toNat 1 0 0

/-- The ACI with pair 0 created. -/
def Aci.readied (a : Aci) : Aci :=
  { a with aqGen := a.aqGen + 1, gens := cellSet a.gens 0 (a.aqGen + 1), pairs := [(0, a.adminPair)], ready := true }

/-- ACI_READY, where firmware looks at the configuration. -/
theorem execAciReady_eq {s : State} (hfw : s.chip.phase = .firmware) (hclk : s.cclkStopped = false)
    (hen : s.aci.enable = true) (hready : s.aci.ready = false) (hreset : s.aci.resetting = false)
    (hfail : s.aci.failed = false) : execAciReady s =
      if s.aci.sound s = true then .next (aciSources.foldl
        (fun s' i => s'.setRoute i (BitVec.ofNat 32 (2 ^ 30 + (s.aci.aqCfg.extractLsb' 17 11).toNat)))
        { s with aci := s.aci.readied })
      else .next (State.aciError { s with aci := { s.aci with failed := true } } 3 0) := by
  have hgo : (!s.firmware || s.cclkStopped || !s.aci.enable || s.aci.ready || s.aci.resetting || s.aci.failed) = false := by
    simp [State.firmware, hfw, hclk, hen, hready, hreset, hfail]
  unfold execAciReady
  dsimp only
  rw [hgo, if_neg Bool.false_ne_true]
  rfl

/-! ## ACI_RESET and its end (03 R45) -/

/-- Without a KERNEL_RUN that runs, a reset ends what the ACI holds. -/
theorem State.aciDisable_idle {s : State} (hidle : ∀ c ∈ s.aci.cmds, ¬ (c.phase = .running ∧ c.op = 0x10)) :
    s.aciDisable.cores = s.cores ∧ s.aciDisable.chains = s.chains ∧ s.aciDisable.aci = { s.aci with
      enable := false, failed := false, resetting := s.aci.ready, pairs := [], cancels := [], marked := [], cmds := []
      readyQ := [], version := none, features := 0, grant := none, roundQid := 0, roundTaken := 0 } := by
  obtain ⟨haci, hcores, hchains⟩ := State.foldl_setRoute_keeps
    (fun s i => cellGet s.evt.route i &&& ~~~((1 : Half) <<< 30)) aciSources s
  have hnone : (s.aci.cmds.filter fun c => c.phase == .running && c.op = 0x10) = [] :=
    List.filter_eq_nil_iff.mpr fun c hc => by simpa using hidle c hc
  unfold State.aciDisable
  simp only [haci, hnone, List.foldl_nil, List.filterMap_nil, hcores, hchains, and_self]

/-- A reset that is under way ends once every sequencer that a KERNEL_RUN names has ended and its chain is at rest. -/
theorem execAciResetComplete_eq {s : State} (hreset : s.aci.resetting = true) : execAciResetComplete s =
    if ∀ c ∈ s.aci.cmds, ∀ n : CoreId, (c.at 32 4).testBit n.val = true → s.cores[n].stat = 0 ∧ s.chainAtRest n = true then
      .next { s with aci := { s.aci with resetting := false, ready := false, cmds := [] } }
    else .next s := by
  unfold execAciResetComplete
  dsimp only
  refine if_congr ?_ rfl rfl
  simp only [hreset, Bool.true_and, List.all_eq_true, List.mem_flatten, List.mem_map, Bool.and_eq_true, decide_eq_true_eq]
  constructor
  · exact fun h c hc n hn => h n ⟨c.cores, ⟨c, hc, rfl⟩, Cmd.mem_cores.mpr hn⟩
  · rintro h n ⟨-, ⟨c, hc, rfl⟩, hn⟩
    exact h c hc n (Cmd.mem_cores.mp hn)

theorem State.chainAtRest_of_idle {s : State} {n : CoreId}
    (h : ∀ k, chainOf n = some k → s.chains[k].idle = true ∧ s.chains[k].stopReq = false) : s.chainAtRest n = true := by
  unfold State.chainAtRest State.ofChain
  cases hk : chainOf n with
  | none => rfl
  | some k => simpa using h k hk

end Sys2Proof.Machine

namespace Sys2Proof.Proofs

open Sys2Proof.Machine

/-- Settles O17: a write of ACI_CTRL reaches the register, ACI_READY creates pair 0 of a sound configuration, and a reset ends
with the sequencers that its commands name. -/
theorem aciEnableAndReset : Obligations.AciEnableAndReset := by
  unfold Obligations.AciEnableAndReset
  refine ⟨fun src s hreach => ⟨?_, fun hoff => ?_, fun hen hreset hidle => ?_⟩,
    fun s hfw hclk hen hready hreset hfail => ?_, fun s hreset => ⟨fun hrest => ?_, fun c hc n hn hbusy => ?_⟩⟩
  · rw [exec_aciEnable, State.put4_aciCtrl hreach]
    rfl
  · rw [exec_aciReset, State.put4_aciCtrl hreach]
    simp [State.aciCtrl, hoff]
  · obtain ⟨hcores, hchains, haci⟩ := State.aciDisable_idle hidle
    refine ⟨s.aciDisable, ?_, State.aciDisable_mem s, hcores, hchains, ?_⟩
    · rw [exec_aciReset, State.put4_aciCtrl hreach]
      simp [State.aciCtrl, hen, hreset]
    · rw [haci]
      exact ⟨rfl, rfl, rfl, rfl, rfl, rfl, rfl, rfl, rfl⟩
  · rw [exec_aciReady]
    intro sq cq dev good
    have hgood : good ↔ s.aci.sound s = true := by
      simp only [good, Aci.sound, Bool.and_eq_true, decide_eq_true_eq, and_assoc]
      exact Iff.rfl
    rw [execAciReady_eq hfw hclk hen hready hreset hfail]
    cases hok : s.aci.sound s with
    | true =>
      obtain ⟨haci, hcores, -⟩ := State.foldl_setRoute_keeps
        (fun _ _ => BitVec.ofNat 32 (2 ^ 30 + (s.aci.aqCfg.extractLsb' 17 11).toNat)) aciSources
        { s with aci := s.aci.readied }
      refine ⟨_, if_pos rfl, State.foldl_setRoute_mem _ _ _, hcores, fun _ => ?_, fun h => absurd (hgood.mpr hok) h⟩
      rw [haci]
      exact ⟨rfl, rfl, _, rfl, rfl, rfl, rfl, rfl, rfl, rfl, rfl, rfl, rfl, rfl, rfl, rfl, rfl, rfl⟩
    | false =>
      refine ⟨_, if_neg Bool.false_ne_true, State.aciError_mem .., State.aciError_cores ..,
        fun h => absurd (hgood.mp h) (by simp [hok]), fun _ => ⟨?_, State.aciError_err _ (by decide) 0, State.aciError_pairs ..⟩⟩
      rw [State.aciError_aci]
      exact hready
  · rw [exec_aciResetComplete, execAciResetComplete_eq hreset,
      if_pos fun c hc n hn => ⟨(hrest c hc n hn).1, State.chainAtRest_of_idle (hrest c hc n hn).2⟩]
  · rw [exec_aciResetComplete, execAciResetComplete_eq hreset, if_neg fun h => hbusy (h c hc n hn).1]

end Sys2Proof.Proofs
end

section
/-! The proof of O18 (03 R48, R57, R58, R417): doorbells and cancels. -/

namespace Sys2Proof.Machine

/-! ## The pairs of the ACI -/

@[simp] theorem alookup_aset_same {α β : Type} [DecidableEq α] (k : α) (v : β) (l : List (α × β)) :
    alookup k (aset k v l) = some v := by
  induction l with
  | nil => simp [aset, alookup]
  | cons x t ih =>
    rw [aset]
    split
    · simp [alookup]
    · next h => rw [alookup, if_neg h, ih]

/-- A pair that exists is replaced. -/
theorem State.modPair_of_pair {s : State} {q : Nat} {p : Pair} (h : s.pair q = some p) (g : Pair → Pair) :
    s.modPair q g = { s with aci := { s.aci with pairs := aset q (g p) s.aci.pairs } } := by
  rw [State.modPair, h]

/-! ## Writes of the ACI's registers by the host (03 R417) -/

theorem exec_aciSqTail (q : Byte) (v : Half) (s : State) :
    exec (.aciSqTail q v) s = s.hostAci (0x80000 + 8 * q.toNat) v := rfl
theorem exec_aciCqHead (q : Byte) (v : Half) (s : State) :
    exec (.aciCqHead q v) s = s.hostAci (0x80004 + 8 * q.toNat) v := rfl
theorem exec_aciCancel (v : Half) (s : State) : exec (.aciCancel v) s = s.hostAci 0x20 v := rfl

/-- A doorbell is half of the pair of words of its QID. -/
theorem State.aciWrite_doorbell (s : State) {i off : Nat} (hi : i < 512) (hoff : off = 0x80000 + 4 * i) (v : Half) :
    s.aciWrite off (v.setWidth 64) = if i % 2 = 0 then s.sqTail (i / 2) v else s.cqHead (i / 2) v := by
  have helem : elemAt 0x80000 4 512 off = some i := by
    simp [elemAt, hoff, hi]
  unfold State.aciWrite
  dsimp only
  split
  case h_8 => rw [helem, setWidth_half]
  all_goals omega

section
variable {s : State} (hclk : s.bclkStopped = false) (q : Byte) (v : Half)
include hclk

theorem exec_aciSqTail_eq : exec (.aciSqTail q v) s = .next (s.sqTail q.toNat v) := by
  have hw := s.aciWrite_doorbell (i := 2 * q.toNat) (off := 0x80000 + 8 * q.toNat) (by omega) (by omega) v
  rw [exec_aciSqTail, State.hostAci, hclk, if_neg Bool.false_ne_true, hw, if_pos (by omega),
    Nat.mul_div_cancel_left _ (by decide)]

theorem exec_aciCqHead_eq : exec (.aciCqHead q v) s = .next (s.cqHead q.toNat v) := by
  have hw := s.aciWrite_doorbell (i := 2 * q.toNat + 1) (off := 0x80004 + 8 * q.toNat) (by omega) (by omega) v
  rw [exec_aciCqHead, State.hostAci, hclk, if_neg Bool.false_ne_true, hw, if_neg (by omega),
    show (2 * q.toNat + 1) / 2 = q.toNat by omega]

theorem exec_aciCancel_eq : exec (.aciCancel v) s = .next (s.cancelWrite v) := by
  rw [exec_aciCancel, State.hostAci, hclk, if_neg Bool.false_ne_true]
  exact congrArg (fun h => Host.Outcome.next (s.cancelWrite h)) (setWidth_half v)

end

/-- The value of a doorbell is its low half. -/
theorem doorbell_value (v : Half) : (v.extractLsb' 0 16).toNat = v.toNat % 65536 := by simp

/-! ## ACI_SQ_TAIL and ACI_CQ_HEAD (03 R48, R58, R417) -/

section
variable {s : State} {q : Nat} {p : Pair} {v : Half} (hp : s.pair q = some p)
include hp

theorem State.sqTail_eq : s.sqTail q v =
    (let t := { p with sqTail := v.toNat % 65536 }
    let u := { s with aci := { s.aci with pairs := aset q t s.aci.pairs } }
    if 2 ^ p.sqLog2 ≤ v.toNat % 65536 then s.aciError 0 q
    else if p.deleting && !p.halted then (u.flushWritten q t.waiting).aciSettle else u) := by
  simp only [State.sqTail, hp, State.modPair_of_pair hp, doorbell_value, Pair.sqDepth]

theorem State.cqHead_eq : s.cqHead q v =
    if 2 ^ p.cqLog2 ≤ v.toNat % 65536 ∨ p.unread < (v.toNat % 65536 + 2 ^ p.cqLog2 - p.cqHead) % 2 ^ p.cqLog2 then s.aciError 0 q
    else State.aciSettle { s with aci := { s.aci with pairs := aset q { p with cqHead := v.toNat % 65536 } s.aci.pairs } } := by
  simp only [State.cqHead, hp, State.modPair_of_pair hp, doorbell_value, Pair.cqDepth, Bool.or_eq_true, decide_eq_true_eq]

end

/-- A doorbell of a pair that does not exist is dropped. -/
theorem State.doorbell_noPair {s : State} {q : Nat} (hp : s.pair q = none) (v : Half) :
    s.sqTail q v = s.aciError 0 q ∧ s.cqHead q v = s.aciError 0 q := by
  constructor
  · simp only [State.sqTail, hp]
  · simp only [State.cqHead, hp]

/-! ## ACI_CANCEL (03 R57) -/

theorem State.cancelWrite_room {s : State} (hreset : s.aci.resetting = false) (hroom : s.aci.cancels.length < 256) (v : Half) :
    s.cancelWrite v = { s with aci := { s.aci with cancels := s.aci.cancels ++ [v] } } := by
  rw [State.cancelWrite, hreset, if_neg Bool.false_ne_true, if_neg (Nat.not_le.mpr hroom)]

/-- A cancel that finds the FIFO full is dropped, with its event when it is the first. -/
theorem State.cancelWrite_full {s : State} (hreset : s.aci.resetting = false) (hfull : 256 ≤ s.aci.cancels.length) (v : Half) :
    (s.cancelWrite v).aci = { s.aci with dropped := true } ∧ (s.cancelWrite v).mem = s.mem ∧
      (s.cancelWrite v).cores = s.cores ∧ (s.aci.dropped = false → (s.cancelWrite v).pendingSrc 0x87 = true) := by
  rw [State.cancelWrite, hreset, if_neg Bool.false_ne_true, if_pos hfull]
  dsimp only
  cases s.aci.dropped with
  | true => exact ⟨rfl, rfl, rfl, fun h => by cases h⟩
  | false =>
    rw [if_neg Bool.false_ne_true]
    exact ⟨State.raise_aci _ _, State.raise_mem _ _, State.raise_cores _ _, fun _ => State.raise_pendingSrc _ 0x87 (by decide)⟩

end Sys2Proof.Machine

namespace Sys2Proof.Proofs

open Sys2Proof.Machine

/-- Settles O18: a doorbell by its value and the depth of its pair, and a cancel by the room of the FIFO. -/
theorem doorbellsAndCancels : Obligations.DoorbellsAndCancels := by
  unfold Obligations.DoorbellsAndCancels
  intro q v s hclk
  dsimp only
  rw [exec_aciSqTail_eq hclk, exec_aciCqHead_eq hclk, exec_aciCancel_eq hclk]
  refine ⟨fun p hp => ⟨fun hx hlive => ?_, fun hx hdel hhalt => ?_, fun hx => ?_, fun hx hroom => ?_, fun hx => ?_⟩,
    fun hp => ⟨?_, ?_, State.aciError_err s (by decide) _, State.aciError_pairs ..⟩, fun hreset hroom => ?_,
    fun hreset hfull => ?_⟩
  · rw [State.sqTail_eq hp]
    exact congrArg _ ((if_neg (Nat.not_le.mpr hx)).trans (if_neg (by rcases hlive with h | h <;> simp [h])))
  · rw [State.sqTail_eq hp]
    exact congrArg _ ((if_neg (Nat.not_le.mpr hx)).trans (if_pos (by simp [hdel, hhalt])))
  · rw [State.sqTail_eq hp]
    exact congrArg _ (if_pos hx)
  · rw [State.cqHead_eq hp, if_neg (by omega)]
  · rw [State.cqHead_eq hp, if_pos hx]
  · rw [(State.doorbell_noPair hp v).1]
  · rw [(State.doorbell_noPair hp v).2]
  · rw [State.cancelWrite_room hreset hroom]
  · obtain ⟨haci, hmem, hcores, hevent⟩ := State.cancelWrite_full hreset hfull v
    refine ⟨_, rfl, ?_, ?_, hmem, hcores, hevent⟩ <;> rw [haci]

end Sys2Proof.Proofs
end

section
/-! The proof of O19 (03 R40, R42, R44, R47, R50, R57): fetching and dispatching commands. -/

namespace Sys2Proof.Machine

theorem exec_sqFetch (q : Byte) (r : Reply) (s : State) : exec (.sqFetch q r) s = execSqFetch q r s := rfl
theorem exec_commandDispatch (s : State) : exec .commandDispatch s = execCommandDispatch s := rfl

theorem State.serving_of_serves {s : State} (h : Claims.serves s) : s.serving = true := by
  obtain ⟨hfw, hclk, hready, hreset, hfatal⟩ := h
  simp [State.serving, State.firmware, hfw, hclk, hready, hreset, hfatal]

/-! ## The dispatcher's looks at the FIFO and at the round -/

theorem State.takeCancels_none {s : State} (h : s.aci.cancels = []) : s.takeCancels = s := by
  have hsame : { s.aci with cancels := [] } = s.aci := by rw [← h]
  simp only [State.takeCancels, h, List.foldl_nil, hsame]

/-- The end of a visit changes the count of the round alone. -/
theorem State.endVisit_frame (s : State) :
    s.endVisit = { s with aci := { s.aci with roundTaken := s.endVisit.aci.roundTaken } } := by
  fun_cases State.endVisit <;> rfl

/-- The round goes on by one entry of pair `n`: `same` says that it stays with the pair (03 R42). -/
def Aci.nextRound (a : Aci) (n : Nat) (same : Bool) : Aci :=
  if n = 0 then a
  else if same then { a with roundTaken := a.roundTaken + 1 } else { a with roundQid := n, roundTaken := 1 }

theorem Aci.nextRound_frame (a : Aci) (n : Nat) (same : Bool) : a.nextRound n same = { a with
    roundQid := (a.nextRound n same).roundQid, roundTaken := (a.nextRound n same).roundTaken } := by
  unfold Aci.nextRound
  split
  · rfl
  · split <;> rfl

/-- The round changes none of the ACI's commands, marks and pairs. -/
theorem State.endVisit_nextRound (s : State) (n : Nat) (same : Bool) :
    (s.endVisit.aci.nextRound n same).cmds = s.aci.cmds ∧ (s.endVisit.aci.nextRound n same).marked = s.aci.marked ∧
      (s.endVisit.aci.nextRound n same).pairs = s.aci.pairs := by
  rw [Aci.nextRound_frame, State.endVisit_frame]
  exact ⟨rfl, rfl, rfl⟩

/-! ## The read of an entry (03 R40, R47; 15 R311, R312) -/

/-- A read of host memory that is answered at once is one request on the cache link of its address. -/
theorem State.reach_hostRead {s : State} {w : Wanted} {hpa : Word} {n : Nat} {bs : List Byte} {l : LinkId}
    (hnew : s.d2hOf w = none) (hl : s.cacheLink hpa = some l) (hroom : s.cxl.links[l].d2h.length < 512)
    (hlen : bs.length = n) (m : Nat) :
    s.reach m false w (.host hpa) n none (.ok bs) =
      (s.emit (.rdCurr l (freeTag s.cxl.links[l].d2h) (hpa.toNat / 64)), some (.ok bs)) := by
  have hfit : ∀ lo, fitReply (.ok bs) lo n = .ok bs := fun lo => if_pos hlen
  simp only [State.reach, State.hostAsk, Option.isSome_none, Bool.false_eq_true, if_false, hfit, hnew, hl]
  rw [if_neg (by simpa using hroom), if_neg (by simp)]
  rfl

/-- An entry that names its own handle, and that no cancel has marked, becomes a command. -/
theorem State.takeEntry_accepted {s : State} {q : Nat} {p : Pair} {e : List Byte} (hp : s.pair q = some p)
    (hentry : p.entry = none) (hmark : s.aci.marked.contains (p.handle q p.tag) = false)
    (hhandle : fieldAt e 4 4 = (p.handle q p.tag).toNat) :
    s.takeEntry q p e = { s with aci := { s.aci with
      cmds := s.aci.cmds ++ [Cmd.new q (p.handle q p.tag) e]
      marked := s.aci.marked.filter (· ≠ p.handle q p.tag)
      pairs := aset q { p with sqHead := (p.sqHead + 1) % 2 ^ p.sqLog2, tag := p.tag + 1 } s.aci.pairs } } := by
  have hown : ¬ (Cmd.new q (p.handle q p.tag) e).at 4 4 ≠ (p.handle q p.tag).toNat := not_not.mpr hhandle
  have hpair : { p with sqHead := (p.sqHead + 1) % 2 ^ p.sqLog2, tag := p.tag + 1, entry := none } =
      { p with sqHead := (p.sqHead + 1) % 2 ^ p.sqLog2, tag := p.tag + 1 } := by rw [← hentry]
  simp only [State.takeEntry, hmark, Bool.false_eq_true, if_false, if_neg hown, State.modPair_of_pair hp, Pair.sqDepth, hpair]

/-- SQ_FETCH, of the pair whose turn it is, with the answer of host memory for its entry. -/
theorem execSqFetch_hostEntry {q : Byte} {p : Pair} {same : Bool} {e : List Byte} {l : LinkId} {s : State}
    (hserves : Claims.serves s) (hprep : s.chip.preparing = false) (hcancels : s.aci.cancels = [])
    (hturn : s.endVisit.nextFetch = some (q.toNat, same)) (hp : s.pair q.toNat = some p) (hentry : p.entry = none)
    (hdev : p.dev = false) (ha : p.sqBase.toNat + 64 * p.sqHead < 2 ^ 52)
    (hl : s.cacheLink (BitVec.ofNat 64 (p.sqBase.toNat + 64 * p.sqHead)) = some l)
    (hroom : s.cxl.links[l].d2h.length < 512) (hnew : s.d2hOf (.entry (p.handle q.toNat p.tag)) = none)
    (hlen : e.length = 64) :
    execSqFetch q (.ok e) s = .next (State.aciSettle (State.endVisit (State.takeEntry (
      let v := s.endVisit.emit (.rdCurr l (freeTag s.cxl.links[l].d2h) ((p.sqBase.toNat + 64 * p.sqHead) / 64))
      { v with aci := v.aci.nextRound q.toNat same }) q.toNat p e))) := by
  have hcxl : s.endVisit.cxl = s.cxl := by rw [State.endVisit_frame]
  have hpv : s.endVisit.pair q.toNat = some p := by rw [State.pair, State.endVisit_frame]; exact hp
  have hread := State.reach_hostRead (s := s.endVisit) (w := .entry (p.handle q.toNat p.tag)) (n := 64) (l := l)
    (hpa := BitVec.ofNat 64 (p.sqBase.toNat + 64 * p.sqHead)) (bs := e)
    (by rw [State.endVisit_frame]; exact hnew) (by rw [State.endVisit_frame]; exact hl)
    (by rw [hcxl]; exact hroom) hlen 64
  rw [BitVec.toNat_ofNat, Nat.mod_eq_of_lt (by omega), hcxl] at hread
  simp only [execSqFetch, State.serving_of_serves hserves, hprep, State.takeCancels_none hcancels, hturn, hpv, hentry, hdev,
    Bool.not_true, Bool.or_false, Bool.false_eq_true, if_false, ne_eq, not_true, Option.isSome_none, Option.getD_none, hread]
  congr 5
  unfold Aci.nextRound
  split
  · rfl
  · split <;> rfl

/-! ## Dispatch (03 R57) -/

/-- COMMAND_DISPATCH of the command that became ready first. -/
theorem execCommandDispatch_eq {c : Cmd} {rest : List Half} {s : State} (hserves : Claims.serves s)
    (hsettled : s.aciSettle = s) (hq : s.aci.readyQ = c.handle :: rest) (hcancels : s.aci.cancels = [])
    (hc : s.cmd c.handle = some c) (hphase : c.phase = .ready) :
    execCommandDispatch s = match s.checkCmd c with
      | some (st, d) => .next (Claims.ended s c.handle st d 0 0)
      | none => .next ((s.assignChains c).modCmd c.handle fun k => { k with phase := .running }).aciSettle := by
  simp only [execCommandDispatch, State.serving_of_serves hserves, hsettled, hq, State.takeCancels_none hcancels, hc, hphase,
    Bool.not_true, Bool.false_eq_true, if_false, beq_self_eq_true]
  rfl

/-! ## The checks (03 R44, R50, R51, R55) -/

theorem State.checkCmd_unknown {s : State} {c : Cmd} (h : opInfo c.op = none) : s.checkCmd c = some (0x10, 0) := by
  simp only [State.checkCmd, h]
  rfl

/-- Before a version is agreed, NEGOTIATE and IDENTIFY alone pass. -/
theorem State.checkCmd_notNegotiated {s : State} {c : Cmd} (h : (opInfo c.op).isSome = true) (hver : s.aci.version = none)
    (h1 : c.op ≠ 1) (h2 : c.op ≠ 2) : s.checkCmd c = some (0x13, 0) := by
  obtain ⟨o, ho⟩ := Option.isSome_iff_exists.mp h
  simp only [State.checkCmd, ho, hver, h1, h2, decide_false, Bool.or_false, Bool.false_eq_true, if_false]
  rfl

/-- The opcodes that version 1.2 knows, but for four, are for pair 0. -/
theorem opInfo_admin {op : Nat} {o : OpInfo} (ho : opInfo op = some o) :
    o.since ≤ 2 ∧ (op ∉ [2, 0x10, 0x11, 0x12] → o.admin = true) := by
  unfold opInfo at ho
  split at ho <;> cases ho <;> decide

theorem State.checkCmd_adminOnly {s : State} {c : Cmd} (h : (opInfo c.op).isSome = true)
    (hver : s.aci.version = some (1, 2)) (hop : c.op ∉ [2, 0x10, 0x11, 0x12]) (hq : c.qid ≠ 0) :
    s.checkCmd c = some (0x15, 0) := by
  obtain ⟨o, ho⟩ := Option.isSome_iff_exists.mp h
  obtain ⟨hsince, hadmin⟩ := opInfo_admin ho
  simp only [State.checkCmd, ho, hver, if_neg (Nat.not_lt.mpr hsince), hadmin hop, hq, decide_true, ne_eq, not_false_eq_true,
    Bool.and_true, if_true]
  rfl

end Sys2Proof.Machine

namespace Sys2Proof.Proofs

open Sys2Proof.Machine

/-- Settles O19: the fetch of the entry whose turn it is, the dispatch of the command that became ready first, and the first
check that a command fails. -/
theorem commandsAreFetchedAndDispatched : Obligations.CommandsAreFetchedAndDispatched := by
  unfold Obligations.CommandsAreFetchedAndDispatched
  refine ⟨?_, fun c rest s hserves hsettled hq hcancels hc hphase => ⟨fun hok => ?_, fun st d hbad => ?_⟩,
    fun c s => ⟨State.checkCmd_unknown, State.checkCmd_notNegotiated, State.checkCmd_adminOnly⟩⟩
  case refine_1 =>
    intro q p same e s n h round a' l hserves hprep hcancels hturn hp hentry hdev _ ha hl hroom hnew hlen hmark hhandle v a
    obtain ⟨hcmds, hmarked, hpairs⟩ := s.endVisit_nextRound n same
    have hpa : State.pair { v with aci := a } n = some p := (congrArg (alookup n) hpairs).trans hp
    have htake := State.takeEntry_accepted (s := { v with aci := a }) hpa hentry
      ((congrArg (·.contains h) hmarked).trans hmark) hhandle
    rw [exec_sqFetch, execSqFetch_hostEntry hserves hprep hcancels hturn hp hentry hdev ha hl hroom hnew hlen]
    refine congrArg (fun u => Host.Outcome.next (State.aciSettle (State.endVisit u))) (htake.trans ?_)
    rw [← hcmds, ← hmarked, ← hpairs]
    rfl
  · rw [exec_commandDispatch, execCommandDispatch_eq hserves hsettled hq hcancels hc hphase, hok]
  · rw [exec_commandDispatch, execCommandDispatch_eq hserves hsettled hq hcancels hc hphase, hbad]

end Sys2Proof.Proofs
end

section
/-! The proof of O59 (03 R41, R46, R49, R54, R59; 09 R186; 15 R311 to R313; 17 R356): completion records, their answers and the
timers. -/

namespace Sys2Proof.Machine

theorem exec_coalTimeExpiry (q : Byte) (s : State) : exec (.coalTimeExpiry q) s = execCoalTimeExpiry q s := rfl
theorem exec_diagGrantExpiry (s : State) : exec .diagGrantExpiry s = execDiagGrantExpiry s := rfl
theorem exec_d2hResponse (l : LinkId) (tag : Nat) (r : Reply) (s : State) :
    exec (.d2hResponse l tag r) s = execD2hResponse l tag r s := rfl

/-! ## Firmware goes on (03 R42, R49) -/

/-- Without a command there is nothing to go on with. -/
theorem State.aciSettle_noCmds {s : State} (h : s.aci.cmds = []) :
    s.aciSettle = { s with aci := { s.aci with readyQ := [] } } := by
  have hflush : s.flushRecords = s := by rw [State.flushRecords, h]; rfl
  have hcmd : ∀ x, s.cmd x = none := fun x => by rw [State.cmd, h]; rfl
  have hpromote : s.promote = { s with aci := { s.aci with readyQ := [] } } := by
    simp only [State.promote, hcmd, h, List.filter_false, List.filter_nil, List.map_nil, List.append_nil]
  simp only [State.aciSettle, hflush, h, List.filter_nil, List.foldl_nil, hpromote]

/-- The record of the only command, once it is written, is all that firmware goes on with. -/
theorem State.aciSettle_oneRecord {s : State} {c : Cmd} (hcmds : s.aci.cmds = [c]) (hphase : c.phase = .finished)
    (hgone : (s.flushOne c).aci.cmds = []) :
    s.aciSettle = { s.flushOne c with aci := { (s.flushOne c).aci with readyQ := [] } } := by
  have hflush : s.flushRecords = s.flushOne c := by
    rw [State.flushRecords, hcmds, List.filter_cons_of_pos (by rw [hphase]; rfl)]
    rfl
  have hagain : (s.flushOne c).flushRecords = s.flushOne c := by rw [State.flushRecords, hgone]; rfl
  have hsettle : s.aciSettle = (s.flushOne c).aciSettle := by simp only [State.aciSettle, hflush, hagain]
  rw [hsettle, State.aciSettle_noCmds hgone]

/-! ## A record's write (03 R49; 15 R311 to R313) -/

theorem State.d2hAll_nil {s : State} (h : ∀ k : LinkId, s.cxl.links[k].d2h = []) : s.d2hAll = [] := by
  refine List.flatten_eq_nil_iff.mpr fun l hl => ?_
  obtain ⟨x, hx, rfl⟩ := List.mem_map.mp hl
  obtain ⟨i, hi, rfl⟩ := Vector.getElem_of_mem (Vector.mem_toList_iff.mp hx)
  exact h ⟨i, hi⟩

theorem freeTag_nil : freeTag [] = 0 := by
  rw [freeTag, upto, List.range_succ_eq_map]
  rfl

/-- A record for host memory is one write on the cache link of its slot. -/
theorem State.writeRecord_host {s : State} {p : Pair} {l : LinkId} (hdev : p.dev = false)
    (hl : s.cacheLink (BitVec.ofNat 64 (p.cqBase.toNat + 32 * p.cqNext)) = some l)
    (hidle : ∀ k : LinkId, s.cxl.links[k].d2h = []) (bs : List Byte) (ref : RecordRef) :
    let hpa : Word := BitVec.ofNat 64 (p.cqBase.toNat + 32 * p.cqNext)
    s.writeRecord p bs ref = ((s.modLink l fun k => { k with
      d2h := k.d2h ++ [{ tag := 0, hpa := hpa, write := true, who := .record ref }] }).emit (d2hWrite l 0 hpa [(0, bs)]),
      .given) := by
  have hfree : freeTag s.cxl.links[l].d2h = 0 := by rw [hidle l, freeTag_nil]
  have howed : s.writeOwed fwSource ((p.cqBase.toNat + 32 * p.cqNext) / 64) = false := by
    rw [State.writeOwed, State.d2hAll_nil hidle]
    rfl
  have hroom : (false || decide (512 ≤ s.cxl.links[l].d2h.length)) = false := by rw [hidle l]; rfl
  simp only [State.writeRecord, hdev, Bool.false_eq_true, if_false, hl, howed, hroom, hfree]

/-- A record that is given to its link: the command is gone, and the slot of the next record advances. -/
theorem State.flushOne_given {s t : State} {c : Cmd} {r : CmdRecord} {p : Pair} (hr : c.record = some r)
    (hp : s.pair c.qid = some p) (hhalt : p.halted = false) (hgen : p.gen = c.handle.extractLsb' 20 4)
    (hroom : p.unread + 1 < 2 ^ p.cqLog2)
    (hw : s.writeRecord p (recordBytes c.handle r p.phase p.sqHead)
      { qid := c.qid, gen := p.gen, irq := c.flags.testBit 1 } = (t, .given)) (ht : t.aci = s.aci) :
    s.flushOne c = { t with aci := { s.aci with
      cmds := s.aci.cmds.filter (·.handle ≠ c.handle)
      pairs := aset c.qid { p with
        cqNext := (p.cqNext + 1) % 2 ^ p.cqLog2
        phase := if (p.cqNext + 1) % 2 ^ p.cqLog2 = 0 then !p.phase else p.phase } s.aci.pairs } } := by
  have hpt : t.pair c.qid = some p := by rw [State.pair, ht]; exact hp
  have hlive : (p.halted || decide (p.gen ≠ c.handle.extractLsb' 20 4)) = false := by simp [hhalt, hgen]
  simp only [State.flushOne, hr, hp]
  rw [hlive, if_neg Bool.false_ne_true, if_neg (Nat.not_le.mpr hroom : ¬ p.cqDepth ≤ p.unread + 1), hw]
  simp only [State.modPair_of_pair hpt, ht, Pair.cqDepth]
  rfl

@[simp] theorem bytesOf_length (n v : Nat) : (bytesOf n v).length = n := by
  induction n generalizing v with
  | zero => rfl
  | succ n ih => rw [bytesOf, List.length_cons, ih]

theorem recordBytes_length (h : Half) (r : CmdRecord) (phase : Bool) (sqHead : Nat) :
    (recordBytes h r phase sqHead).length = 32 := by simp [recordBytes]

/-! ## The timers (03 R54, R59) -/

theorem State.cqInterrupt_of_pair {s : State} {q : Nat} {p : Pair} (hp : s.pair q = some p) :
    s.cqInterrupt q =
      State.msix { s with aci := { s.aci with pairs := aset q { p with counted := 0 } s.aci.pairs } } p.vector := by
  simp only [State.cqInterrupt, hp, State.modPair_of_pair hp]

/-! ## Answers of host memory (03 R46; 09 R186; 15 R311, R313) -/

/-- An interrupt of a CQ changes its pair, and what its message changes. -/
theorem State.cqInterrupt_frame (s : State) (q : Nat) : s.cqInterrupt q = { s with
    aci := { s.aci with pairs := (s.cqInterrupt q).aci.pairs }, out := (s.cqInterrupt q).out
    cxl := { s.cxl with pba := (s.cqInterrupt q).cxl.pba } } := by
  unfold State.cqInterrupt
  split
  · rw [State.msix_frame, State.modPair_frame]
  · rfl

/-- A record that has reached memory changes its pair, and what an interrupt changes. -/
theorem State.recordDone_frame (s : State) (r : RecordRef) : s.recordDone r = { s with
    aci := { s.aci with pairs := (s.recordDone r).aci.pairs }, out := (s.recordDone r).out
    cxl := { s.cxl with pba := (s.recordDone r).cxl.pba } } := by
  unfold State.recordDone
  split
  · rfl
  · dsimp only
    split
    · rfl
    · generalize (r.irq || _) = irq
      cases irq with
      | true =>
        rw [if_pos rfl, State.cqInterrupt_frame, State.modPair_frame]
      | false =>
        rw [if_neg Bool.false_ne_true, State.modPair_frame]

theorem State.recordDone_keeps (s : State) (r : RecordRef) : (s.recordDone r).mem = s.mem ∧
    (s.recordDone r).cores = s.cores ∧ (s.recordDone r).aci.cmds = s.aci.cmds ∧
    (s.recordDone r).cxl.links = s.cxl.links := by
  rw [State.recordDone_frame]
  exact ⟨rfl, rfl, rfl, rfl⟩

/-- The request that is answered leaves its link. -/
theorem State.dropD2h_only {s : State} {k : LinkId} {d : D2h} (h : s.cxl.links[k].d2h = [d]) :
    (s.dropD2h k d.tag).cxl.links[k].d2h = [] := by
  rw [State.dropD2h, State.modLink_same, h]
  simp

section
variable {s : State} {k : LinkId} {d : D2h} (hd : s.cxl.links[k].d2h = [d])
include hd

theorem State.d2h_only_find : s.cxl.links[k].d2h.find? (fun x => decide (x.tag = d.tag)) = some d := by
  rw [hd, List.find?_cons_of_pos (by exact decide_eq_true rfl)]

theorem execD2hResponse_recordOk {x : RecordRef} (hw : d.who = .record x) (bs : List Byte) :
    execD2hResponse k d.tag (.ok bs) s = .next ((s.dropD2h k d.tag).recordDone x).aciSettle := by
  simp only [execD2hResponse, State.d2h_only_find hd, hw]
  rfl

theorem execD2hResponse_recordFails {x : RecordRef} (hw : d.who = .record x) :
    execD2hResponse k d.tag .hostError s = .next ((s.dropD2h k d.tag).failD2h k [d]).aciSettle := by
  simp only [execD2hResponse, State.d2h_only_find hd, hw]
  rfl

theorem execD2hResponse_want {w : Wanted} (hw : d.who = .want w) {r : Reply} (hr : r ≠ .owed) :
    execD2hResponse k d.tag r s =
      .next (((s.dropD2h k d.tag).d2hEnd k r).1.answer w ((s.dropD2h k d.tag).d2hEnd k r).2) := by
  simp only [execD2hResponse, State.d2h_only_find hd, hw, if_neg hr]

end

/-- A record whose write has failed halts its pair. -/
theorem State.failD2h_record {s : State} {d : D2h} {r : RecordRef} {p : Pair} (hw : d.who = .record r)
    (hp : s.pair r.qid = some p) (hgen : p.gen = r.gen) (k : LinkId) :
    s.failD2h k [d] = (s.raise (linkEvent k 6)).haltPair r.qid := by
  have hpr : (s.raise (linkEvent k 6)).pair r.qid = some p := by rw [State.pair, State.raise_aci]; exact hp
  simp only [State.failD2h, List.isEmpty_cons, Bool.false_eq_true, if_false, List.foldl_cons, List.foldl_nil, hw, hpr, hgen,
    if_true]

/-- A pair that halts keeps the links, the cores and the commands of other pairs. -/
theorem State.haltPair_spec {s : State} {q : Nat} {p : Pair} (hp : s.pair q = some p) (hcmds : s.aci.cmds = []) :
    (s.haltPair q).cxl.links = s.cxl.links ∧ (s.haltPair q).cores = s.cores ∧ (s.haltPair q).aci.cmds = [] ∧
      (s.haltPair q).pair q = some { p with halted := true, entry := none } := by
  have hframe : ∀ (v : State) (b r : Nat), (v.aciError b r).cxl.links = v.cxl.links := fun v b r => by
    unfold State.aciError
    dsimp only
    split
    · rfl
    · rw [State.raise_frame]
  have hcmd : ∀ (v : State) (b r : Nat), (v.aciError b r).aci.cmds = v.aci.cmds := fun v b r => by rw [State.aciError_aci]
  rw [State.haltPair, State.modPair_of_pair hp]
  refine ⟨hframe _ 2 q, State.aciError_cores _ 2 q, ?_, ?_⟩
  · simp only [hcmd, hcmds, List.filter_nil]
  · exact (congrArg (alookup q) (State.aciError_pairs _ 2 q)).trans (alookup_aset_same ..)

/-! ## Answers to a core's posted store (09 R186; 15 R311; 17 R356) -/

theorem Core.settle_frame (c : Core) : c.settle = { c with stat := c.settle.stat } := by
  unfold Core.settle
  split <;> rfl

theorem State.foldl_emit_frame {α : Type} (o : α → Out) (l : List α) (s : State) :
    l.foldl (fun s x => s.emit (o x)) s = { s with out := (l.foldl (fun s x => s.emit (o x)) s).out } := by
  induction l generalizing s with
  | nil => rfl
  | cons x l ih => exact ih (s.emit (o x))

/-- What the surroundings see of a store is sent, and nothing else changes. -/
theorem State.landed_frame (s : State) (loc : Phys) (ps : List (Nat × List Byte)) :
    s.landed loc ps = { s with out := (s.landed loc ps).out } := by
  cases loc with
  | here off => rfl
  | remote ga => exact State.foldl_emit_frame (fun p => .farStore (ga + BitVec.ofNat 64 p.1) p.2) ps s
  | host hpa => exact State.foldl_emit_frame (fun p => .hostStore (hpa + BitVec.ofNat 64 p.1) p.2) ps s

/-- An answer for a core waits while its clock is stopped. -/
theorem State.answer_stopped {s : State} {w : Wanted} (hw : w.ofCore = true) (hclk : s.cclkStopped = true) (r : Reply) :
    s.answer w r = s.delay (.reply w r) := if_pos (by rw [hw, hclk]; rfl)

theorem State.answer_running {s : State} (hclk : s.cclkStopped = false) (w : Wanted) (r : Reply) :
    s.answer w r = s.answerNow w r := if_neg (by rw [hclk, Bool.and_false]; exact Bool.false_ne_true)

/-- The oldest posted store of a core has been answered: its effect on the core's stores and deferred errors. -/
structure State.StoreEnds (u s : State) (n : CoreId) (rest : List Store) (deferred : List Deferred) : Prop where
  links : u.cxl.links = s.cxl.links
  mem : u.mem = s.mem
  stores : u.cores[n].stores = rest
  deferred : u.cores[n].deferred = deferred
  others : ∀ m, m ≠ n → u.cores[m] = s.cores[m]

theorem State.StoreEnds.landed {u s : State} {n : CoreId} {rest : List Store} {ds : List Deferred}
    (h : u.StoreEnds s n rest ds) (loc : Phys) (ps : List (Nat × List Byte)) : (u.landed loc ps).StoreEnds s n rest ds := by
  rw [State.landed_frame]
  exact ⟨h.links, h.mem, h.stores, h.deferred, h.others⟩

/-- A change of a core's stores and deferred errors, after which it settles. -/
theorem State.modCore_storeEnds (s : State) (n : CoreId) {g : Core → Core} {c : Core} (h : g s.cores[n] = c.settle) :
    (s.modCore n g).StoreEnds s n c.stores c.deferred := by
  refine ⟨rfl, rfl, ?_, ?_, fun m hm => State.modCore_other s n m g hm⟩ <;>
    rw [State.modCore_same, h, Core.settle_frame]

section
variable {s : State} {n : CoreId} {x : Store} {rest : List Store} (hx : s.cores[n].stores = x :: rest)
include hx

theorem State.storeReply_ok (bs : List Byte) :
    (s.storeReply n (.ok bs)).StoreEnds s n rest s.cores[n].deferred := by
  have hdone : s.storeReply n (.ok bs) = (s.storeDone n).landed x.loc [(0, x.bytes)] := by
    simp only [State.storeReply, hx]
  have hends : (s.storeDone n).StoreEnds s n s.cores[n].stores.tail s.cores[n].deferred :=
    s.modCore_storeEnds n (c := { s.cores[n] with stores := s.cores[n].stores.tail }) rfl
  rw [hx] at hends
  rw [hdone]
  exact hends.landed ..

theorem State.storeReply_hostError : (s.storeReply n .hostError).StoreEnds s n rest
      (s.cores[n].deferred ++ [{ thread := x.thread, info := 3, addr := x.va }]) ∧
    (s.storeReply n .hostError).evt = s.evt := by
  have hfail : s.storeReply n .hostError = s.storeFail n 3 := by
    simp only [State.storeReply, hx]
    rfl
  rw [hfail]
  exact ⟨s.modCore_storeEnds n (c := { s.cores[n] with
    stores := rest, deferred := s.cores[n].deferred ++ [{ thread := x.thread, info := 3, addr := x.va }] }) (by rw [hx]), rfl⟩

end

end Sys2Proof.Machine

namespace Sys2Proof.Proofs

open Sys2Proof.Machine

theorem recordsAndExpiries : Sys2Proof.Claims.RecordsAndExpiries := by
  refine ⟨?_, fun q p s hp => ⟨fun hcount htime => ?_, fun hno => ?_⟩, fun g s hg => ⟨fun h => ?_, fun h => ?_⟩⟩
  case refine_1 =>
    intro c r p l s hcmds hphase hr hp hdev hhalt hgen hroom hl hidle bytes u
    have hflush := State.flushOne_given hr hp hhalt hgen hroom (State.writeRecord_host hdev hl hidle _ _) rfl
    have hnone : s.aci.cmds.filter (·.handle ≠ c.handle) = [] := by simp [hcmds]
    have hgone : (s.flushOne c).aci.cmds = [] := by
      rw [hflush]
      exact hnone
    have hu : u = { s.flushOne c with aci := { (s.flushOne c).aci with readyQ := [] } } :=
      State.aciSettle_oneRecord hcmds hphase hgone
    rw [hu, hflush]
    exact ⟨rfl, hnone, rfl, rfl, recordBytes_length .., _, alookup_aset_same .., rfl, rfl, rfl⟩
  · rw [exec_coalTimeExpiry, execCoalTimeExpiry, hp]
    simp only [State.cqInterrupt_of_pair hp]
    exact if_pos (by simp [hcount, htime])
  · rw [exec_coalTimeExpiry, execCoalTimeExpiry, hp]
    rcases hno with h | h <;> simp [h]
  · rw [exec_diagGrantExpiry, execDiagGrantExpiry, hg]
    simp [h]
  · rw [exec_diagGrantExpiry, execDiagGrantExpiry, hg]
    simp [h]

/-- The answer to the write of a record. -/
theorem d2hResponse_record {k : LinkId} {d : D2h} {r : RecordRef} {p : Pair} {s : State} (hd : s.cxl.links[k].d2h = [d])
    (hw : d.who = .record r) (hp : s.pair r.qid = some p) (hgen : p.gen = r.gen) (hcmds : s.aci.cmds = []) :
    (∃ u, exec (.d2hResponse k d.tag .hostError) s = .next u ∧ u.cxl.links[k].d2h = [] ∧ u.mem = s.mem ∧ u.cores = s.cores ∧
      ∃ p', u.pair r.qid = some p' ∧ p'.halted = true) ∧
    ∃ u, exec (.d2hResponse k d.tag (.ok [])) s = .next u ∧ u.cxl.links[k].d2h = [] ∧ u.mem = s.mem ∧ u.cores = s.cores := by
  have hdrop := State.dropD2h_only hd
  constructor
  · have hframe := State.raise_frame (s.dropD2h k d.tag) (linkEvent k 6)
    have hpr : ((s.dropD2h k d.tag).raise (linkEvent k 6)).pair r.qid = some p := by
      rw [State.pair, State.raise_aci]
      exact hp
    obtain ⟨hlinks, hcores, hnone, hhalted⟩ := State.haltPair_spec hpr (by rw [State.raise_aci]; exact hcmds)
    rw [exec_d2hResponse, execD2hResponse_recordFails hd hw, State.failD2h_record (s := s.dropD2h k d.tag) hw hp hgen,
      State.aciSettle_noCmds hnone]
    refine ⟨_, rfl, (congrArg (fun ls => ls[k].d2h) hlinks).trans ?_, (State.haltPair_mem ..).trans (State.raise_mem ..),
      hcores.trans (State.raise_cores ..), _, hhalted, rfl⟩
    rw [hframe]
    exact hdrop
  · obtain ⟨hmem, hcores, hnone, hlinks⟩ := (s.dropD2h k d.tag).recordDone_keeps r
    rw [exec_d2hResponse, execD2hResponse_recordOk hd hw, State.aciSettle_noCmds (hnone.trans hcmds)]
    exact ⟨_, rfl, (congrArg (fun ls => ls[k].d2h) hlinks).trans hdrop, hmem, hcores⟩

theorem d2hRequestsAreAnswered : Sys2Proof.Claims.D2hRequestsAreAnswered := by
  refine ⟨fun k d r p s hd hw hpairs hgen hcmds _ => ?_, fun k d n x rest s hd hw hx => ?_⟩
  · exact d2hResponse_record hd hw (by rw [State.pair, hpairs]; exact if_pos rfl) hgen hcmds
  · have hdrop := State.dropD2h_only hd
    have hok : exec (.d2hResponse k d.tag (.ok [])) s = .next ((s.dropD2h k d.tag).answer (.store n) (.ok [])) :=
      execD2hResponse_want hd hw (by decide)
    have herr : exec (.d2hResponse k d.tag .hostError) s =
        .next (((s.dropD2h k d.tag).raise (0x286 + 16 * portOf k)).answer (.store n) .hostError) :=
      execD2hResponse_want hd hw (by decide)
    refine ⟨fun hclk => ?_, fun hclk => ?_, fun hclk => ?_⟩
    · rw [hok, State.answer_stopped (s := s.dropD2h k d.tag) (w := .store n) rfl hclk]
      exact ⟨_, rfl, hdrop, rfl, rfl, rfl⟩
    · have hends := State.storeReply_ok (s := s.dropD2h k d.tag) hx []
      rw [hok, State.answer_running (s := s.dropD2h k d.tag) hclk]
      exact ⟨_, rfl, (congrArg (fun ls => ls[k].d2h) hends.links).trans hdrop, hends.mem, hends.stores, hends.deferred,
        hends.others⟩
    · have hframe := State.raise_frame (s.dropD2h k d.tag) (0x286 + 16 * portOf k)
      obtain ⟨hends, hevt⟩ := State.storeReply_hostError (s := (s.dropD2h k d.tag).raise (0x286 + 16 * portOf k))
        (by rw [State.raise_cores]; exact hx)
      rw [herr, State.answer_running (by rw [hframe]; exact hclk)]
      refine ⟨_, rfl, (congrArg (fun ls => ls[k].d2h) hends.links).trans ?_, hends.mem.trans (State.raise_mem ..),
        hends.stores, (State.pendingSrc_of_evt hevt _).trans (State.raise_pendingSrc _ _ ?_),
        { thread := x.thread, info := 3, addr := x.va }, ?_, rfl, rfl⟩
      · rw [hframe]
        exact hdrop
      · unfold portOf
        split <;> decide
      · exact hends.deferred.trans (by rw [State.raise_cores]; rfl)

/-- Settles O59: the record of a finished command and the timers, and the answers of host memory by what they answer. -/
theorem recordsAreWrittenAndExpire : Obligations.RecordsAreWrittenAndExpire := ⟨recordsAndExpiries, d2hRequestsAreAnswered⟩

end Sys2Proof.Proofs
end

section
/-! The refutation of O60 (03 R49, R59): a SET_COALESCE that makes its pair's counted records due, and whose own record goes to
a completion ring in local DDR. -/

namespace Sys2Proof.Machine

/-! ## A completion ring in local DDR -/

/-- A running SET_COALESCE of pair 0 for pair 0, with COAL_COUNT 1 and COAL_TIME 0. -/
def coalesceNow : Cmd :=
  { Cmd.new 0 0x100000 (0x05 :: List.replicate 17 0 ++ 0x01 :: List.replicate 45 0) with phase := .running }

/-- Pair 0 of generation 1, with both rings in local DDR, 16 entries each, and one record counted. -/
def pairInDdr : Pair := { Pair.new 1 4 4 true 0x1000 0x2000 0 1 2 5 with counted := 1 }

/-- Firmware serves that pair and works on that command; 16 KiB of DDR, and every clock on. -/
def State.ringsInDdr : State :=
  { State.reset with
    chip := { Chip.reset with phase := .firmware, clkGate := BitVec.allOnes 32 }
    mem := { Memory.reset with d := 0x4000 }
    aci := { Aci.reset with enable := true, ready := true, cmds := [coalesceNow], pairs := [(0, pairInDdr)] } }

/-- The byte at a DDR offset once a command is done. -/
def Outcome.byteAt (a : Nat) : Outcome → Byte
  | .next u => cellGet u.mem.cells a
  | _ => 0

theorem State.ringsInDdr_runs : Claims.runs State.ringsInDdr 0x100000 0x05 coalesceNow :=
  ⟨⟨by decide, by decide, by decide, by decide, by decide⟩, by decide, by decide, by decide⟩

/-- SET_COALESCE completes, and its record, with the handle in the first four bytes, stands in the ring. -/
theorem setCoalesce_storesRecord : Outcome.byteAt 0x2002 (exec (.setCoalesce 0x100000) State.ringsInDdr) = 0x10 := by
  rfl

end Sys2Proof.Machine

namespace Sys2Proof.Proofs

open Sys2Proof.Machine

/-- Refutes O60: the record of a SET_COALESCE whose pair has its completion ring in local DDR is written there as the command
completes, so memory does not stay as it is. -/
theorem not_adminCommandsComplete : ¬ Obligations.AdminCommandsComplete := by
  intro h
  obtain ⟨hadmin, -⟩ := h
  obtain ⟨-, -, -, hcoalesce, -⟩ := hadmin 0x100000 coalesceNow State.ringsInDdr
  obtain ⟨-, hdue⟩ := hcoalesce State.ringsInDdr_runs pairInDdr (by decide)
  obtain ⟨u, hu, hmem, -⟩ := hdue (by decide)
  have hstored := setCoalesce_storesRecord
  rw [hu, Outcome.byteAt, hmem] at hstored
  revert hstored
  decide

end Sys2Proof.Proofs
end

section
/-! The reads and writes of scratch for a command, for O21 (03 R50, R52; 13 R263, R267). -/

namespace Sys2Proof.Machine

/-! ## Runs of bytes -/

/-- The runs are not empty, follow one another, and cover the bytes from `a` up to `b`. -/
def RunsCover : Nat → Nat → List (Nat × Nat) → Prop
  | a, b, [] => a = b
  | a, b, (x, n) :: t => x = a ∧ 0 < n ∧ RunsCover (a + n) b t

theorem RunsCover.le {a b : Nat} {rs : List (Nat × Nat)} (h : RunsCover a b rs) : a ≤ b := by
  induction rs generalizing a with
  | nil => exact Nat.le_of_eq h
  | cons x rs ih =>
    obtain ⟨-, -, hrest⟩ := h
    exact Nat.le_trans (Nat.le_add_right ..) (ih hrest)

/-- The part of the bytes from `a` up to `b` that line `l` holds. -/
def lineRun (a b l : Nat) : Nat × Nat := (max a (64 * l), min b (64 * l + 64) - max a (64 * l))

/-- The parts of the lines from `l` to `l + m`, which hold the first and the last byte. -/
theorem runsCover_lines {a b : Nat} (hb : a < b) (m l : Nat) (hfirst : a < 64 * l + 64) (hlast : 64 * (l + m) < b)
    (hend : b ≤ 64 * (l + m) + 64) : RunsCover (max a (64 * l)) b ((List.range' l (m + 1)).map (lineRun a b)) := by
  induction m generalizing l with
  | zero =>
    rw [List.range'_one, List.map_singleton]
    refine ⟨rfl, by omega, ?_⟩
    change max a (64 * l) + (min b (64 * l + 64) - max a (64 * l)) = b
    omega
  | succ m ih =>
    have hnext : max a (64 * l) + (min b (64 * l + 64) - max a (64 * l)) = max a (64 * (l + 1)) := by omega
    rw [List.range'_succ, List.map_cons]
    refine ⟨rfl, by omega, ?_⟩
    rw [hnext]
    exact ih (l + 1) (by omega) (by omega) (by omega)

/-- The parts of an access in the lines that it touches. -/
theorem lineRuns_cover (a n : Nat) : RunsCover a (a + n) (lineRuns a n) := by
  rcases Nat.eq_zero_or_pos n with rfl | hn
  · rfl
  · have hlines : lineRuns a n = (List.range' (a / 64) ((a + n - 1) / 64 - a / 64 + 1)).map (lineRun a (a + n)) := by
      rw [lineRuns, granules, if_neg (Nat.ne_of_gt hn), List.range'_eq_map_range]
      simp only [List.map_map, upto, Nat.add_comm (a / 64)]
      rfl
    rw [hlines]
    have hstart : max a (64 * (a / 64)) = a := by omega
    have h := runsCover_lines (a := a) (b := a + n) (by omega) ((a + n - 1) / 64 - a / 64) (a / 64) (by omega) (by omega)
      (by omega)
    rwa [hstart] at h

/-- A word that bytes touch holds one of them. -/
theorem mem_words {off n x : Nat} : x ∈ granules 8 off n ↔ ∃ i, i < n ∧ (off + i) / 8 = x := by
  rcases Nat.eq_zero_or_pos n with rfl | hn
  · simp [granules]
  · rw [granules, if_neg (Nat.ne_of_gt hn)]
    simp only [upto, List.mem_map, List.mem_range]
    constructor
    · rintro ⟨k, hk, rfl⟩
      exact ⟨max off (8 * (k + off / 8)) - off, by omega, by omega⟩
    · rintro ⟨i, hi, rfl⟩
      exact ⟨(off + i) / 8 - off / 8, by omega, by omega⟩

theorem State.poisoned_iff {s : State} {off : Nat} (hoff : scratchBase ≤ off) (n : Nat) :
    s.poisoned off n = true ↔ ∃ i, i < n ∧ (off + i) / 8 ∈ s.mem.badScratch := by
  simp only [State.poisoned, if_pos hoff, List.any_eq_true, mem_words, decide_eq_true_eq]
  constructor
  · rintro ⟨-, ⟨i, hi, rfl⟩, hbad⟩
    exact ⟨i, hi, hbad⟩
  · rintro ⟨i, hi, hbad⟩
    exact ⟨_, ⟨i, hi, rfl⟩, hbad⟩

/-- Bytes of scratch are poisoned where their first part is, or their second. -/
theorem State.poisoned_add {s : State} {off : Nat} (hoff : scratchBase ≤ off) (k n : Nat) :
    s.poisoned off (k + n) = (s.poisoned off k || s.poisoned (off + k) n) := by
  rw [Bool.eq_iff_iff, Bool.or_eq_true, State.poisoned_iff hoff, State.poisoned_iff hoff,
    State.poisoned_iff (Nat.le_add_right_of_le hoff)]
  constructor
  · rintro ⟨i, hi, hbad⟩
    by_cases hk : i < k
    · exact .inl ⟨i, hk, hbad⟩
    · exact .inr ⟨i - k, by omega, by rwa [show off + k + (i - k) = off + i by omega]⟩
  · rintro (⟨i, hi, hbad⟩ | ⟨i, hi, hbad⟩)
    · exact ⟨i, by omega, hbad⟩
    · exact ⟨k + i, by omega, by rwa [← Nat.add_assoc]⟩

/-! ## Cells -/

@[simp] theorem readCells_length (m : Mem) (a n : Nat) : (readCells m a n).length = n := by
  induction n generalizing a with
  | zero => rfl
  | succ n ih => rw [readCells, List.length_cons, ih]

theorem readCells_add (m : Mem) (a k n : Nat) : readCells m a (k + n) = readCells m a k ++ readCells m (a + k) n := by
  induction k generalizing a with
  | zero => rw [Nat.zero_add]; rfl
  | succ k ih =>
    rw [Nat.succ_add, readCells, readCells, ih, List.cons_append, show a + 1 + k = a + (k + 1) by omega]

theorem readCells_congr {m m' : Mem} {a n : Nat} (h : ∀ i, i < n → cellGet m (a + i) = cellGet m' (a + i)) :
    readCells m a n = readCells m' a n := by
  induction n generalizing a with
  | zero => rfl
  | succ n ih =>
    have hnext : readCells m (a + 1) n = readCells m' (a + 1) n := ih fun i hi => by
      rw [show a + 1 + i = a + (i + 1) by omega]
      exact h _ (by omega)
    rw [readCells, readCells, hnext]
    exact congrArg (· :: _) (h 0 (by omega))

theorem writeCells_append (m : Mem) (a : Nat) (xs ys : List Byte) :
    writeCells m a (xs ++ ys) = writeCells (writeCells m a xs) (a + xs.length) ys := by
  induction xs generalizing m a with
  | nil => rfl
  | cons x xs ih =>
    rw [List.cons_append, writeCells, writeCells, ih, List.length_cons, show a + 1 + xs.length = a + (xs.length + 1) by omega]

theorem sliceAt_inside {bs : List Byte} {i n : Nat} (h : i + n ≤ bs.length) : sliceAt bs i n = (bs.drop i).take n := by
  have hlen : ((bs.drop i).take n).length = n := by
    rw [List.length_take, List.length_drop]
    omega
  rw [sliceAt, hlen, Nat.sub_self, List.replicate_zero, List.append_nil]

/-! ## What an access of scratch leaves -/

/-- The cores, the chains, the ACI and the map of memory are those of `s`. -/
structure State.ScratchOnly (u s : State) : Prop where
  cores : u.cores = s.cores
  chains : u.chains = s.chains
  aci : u.aci = s.aci
  size : u.mem.d = s.mem.d

theorem State.ScratchOnly.refl (s : State) : s.ScratchOnly s := ⟨rfl, rfl, rfl, rfl⟩

theorem State.ScratchOnly.trans {u v s : State} (h : u.ScratchOnly v) (k : v.ScratchOnly s) : u.ScratchOnly s :=
  ⟨h.cores.trans k.cores, h.chains.trans k.chains, h.aci.trans k.aci, h.size.trans k.size⟩

theorem State.ScratchOnly.place {u s : State} (h : u.ScratchOnly s) (off : Nat) : u.place off = s.place off := by
  rw [State.place, State.place, h.size]

theorem State.bankCountFree_chains (m n : Nat) : ∀ s : State, (s.bankCountFree m n).chains = s.chains := by
  induction n with
  | zero => exact fun _ => rfl
  | succ n ih => exact fun s => ih _

/-- The requests counted and the words checked, as every access of scratch begins. -/
theorem State.checked_scratchOnly (s : State) (m n : Nat) (ws : List Nat) :
    ((s.bankCountFree m n).checkScratch ws).ScratchOnly s := by
  obtain ⟨hcores, haci⟩ := (State.checkScratch_sameCoresAci (s.bankCountFree m n) ws).trans
    (State.bankCountFree_sameCoresAci m n s)
  exact ⟨hcores, (State.checkScratch_chains ..).trans (State.bankCountFree_chains m n s), haci, by simp⟩

theorem State.scratchRead_scratchOnly (s : State) (m off n : Nat) : (s.scratchRead m off n).1.ScratchOnly s :=
  s.checked_scratchOnly ..

theorem State.memWrite_scratchOnly (s : State) (off : Nat) (bs : List Byte) : (s.memWrite off bs).ScratchOnly s := by
  unfold State.memWrite
  split <;> exact ⟨rfl, rfl, rfl, rfl⟩

theorem State.scratchWrite_scratchOnly (s : State) (m off : Nat) (bs : List Byte) :
    (s.scratchWrite m off bs).ScratchOnly s :=
  (State.memWrite_scratchOnly ..).trans (s.checked_scratchOnly ..)

theorem State.scratchWrite_cells (s : State) (m off : Nat) (bs : List Byte) :
    (s.scratchWrite m off bs).mem.cells = writeCells s.mem.cells off bs := by simp [State.scratchWrite]

/-- Scratch lies behind its base. -/
theorem State.base_of_scratch {s : State} {off : Nat} (h : s.place off = .scratch) : scratchBase ≤ off := by
  unfold State.place at h
  split at h
  · cases h
  · split at h
    · next hin =>
      simp only [Bool.and_eq_true, decide_eq_true_eq] at hin
      exact hin.1
    · split at h <;> cases h

/-! ## One line -/

/-- The answer of a line of scratch that has been read. -/
def State.scratchAns (s : State) (off n : Nat) : Reply := if s.poisoned off n then .poison else .ok (s.memRead off n)

section
variable {s : State} {c : Cmd} {e : FwIo} {off : Nat} (hio : c.io = []) (howed : e.ans = .owed) (hloc : e.loc = .here off)
  (hplace : s.place off = .scratch) (r : Reply)
include hio howed hloc hplace

theorem State.ioStep_read (hwr : e.wr = false) :
    s.ioStep c e r = ((s.scratchRead e.m off e.n).1, { e with ans := s.scratchAns off e.n }) := by
  have hat : c.ioAt e.wr e.ptr e.line = none := by rw [Cmd.ioAt, hio]; rfl
  have hfit : fitReply (.ok (s.memRead off e.n)) 0 e.n = .ok (s.memRead off e.n) := if_pos (readCells_length ..)
  have hreach : s.reach e.m false (.fw e.m c.handle e.wr e.ptr e.line) e.loc e.n none r =
      ((s.scratchRead e.m off e.n).1, some (s.scratchAns off e.n)) := by
    simp only [State.reach, hloc, hplace, Bool.false_eq_true, if_false, State.scratchRead, ReadAns.reply, hfit, State.scratchAns]
  simp only [State.ioStep, hat, Option.getD_none, howed, ne_eq, not_true, if_false]
  rw [if_neg (by simp [hwr]), hreach]
  simp only [hwr, Option.getD_some]

theorem State.ioStep_write (hwr : e.wr = true) :
    s.ioStep c e r = (s.scratchWrite e.m off e.data, { e with ans := .ok [] }) := by
  have hat : c.ioAt e.wr e.ptr e.line = none := by rw [Cmd.ioAt, hio]; rfl
  have hreach : s.reach e.m false (.fw e.m c.handle e.wr e.ptr e.line) e.loc e.n (some [(0, e.data)]) r =
      (s.scratchWrite e.m off e.data, some (.ok [])) := by
    simp only [State.reach, hloc, hplace, Bool.false_eq_true, if_false, State.scratchParts, Nat.add_zero]
  simp only [State.ioStep, hat, Option.getD_none, howed, ne_eq, not_true, if_false]
  rw [if_pos hwr, hreach]
  simp only [hwr, hloc, State.landed, Option.getD_some]

end

/-! ## An access that lies in scratch -/

/-- The `n` bytes at the global address `a` are those of this device's scratch at `off`. -/
def State.InScratch (s : State) (a off n : Nat) : Prop :=
  ∀ i, i < n → s.route (BitVec.ofNat 64 (a + i)) = .here (off + i) ∧ s.place (off + i) = .scratch

theorem State.InScratch.head {s : State} {a off n : Nat} (h : s.InScratch a off n) (hn : 0 < n) :
    s.route (BitVec.ofNat 64 a) = .here off ∧ s.place off = .scratch := h 0 hn

theorem State.InScratch.tail {s : State} {a off k n : Nat} (h : s.InScratch a off (k + n)) :
    s.InScratch (a + k) (off + k) n := fun i hi => by
  have hi' := h (k + i) (by omega)
  rwa [← Nat.add_assoc, ← Nat.add_assoc] at hi'

/-- The first run of an access, and what is left. -/
theorem RunsCover.split {a n x k : Nat} {rs : List (Nat × Nat)} (h : RunsCover a (a + n) ((x, k) :: rs)) :
    x = a ∧ 0 < k ∧ ∃ n', n = k + n' ∧ RunsCover (a + k) (a + k + n') rs := by
  obtain ⟨hx, hk, hrest⟩ := h
  have hle := hrest.le
  refine ⟨hx, hk, n - k, by omega, ?_⟩
  rwa [show a + k + (n - k) = a + n by omega]

theorem State.ioLine_loc {s : State} {c : Cmd} {k : Nat} (hptr : c.hostptr.testBit k = false) (m : Nat) (wr : Bool)
    (a n : Nat) (data : List Byte) (ans : Reply) : (s.ioLine m c wr k a n data ans).loc = s.route (BitVec.ofNat 64 a) := by
  rw [State.ioLine, hptr]
  rfl

/-! ## The lines of a read -/

/-- The answers of the lines of a read of scratch. -/
structure State.ReadAnswers (s : State) (off n : Nat) (es : List FwIo) : Prop where
  come : ∀ e ∈ es, e.ans ≠ .owed
  good : (es.all fun e => replyGood e.ans) = !s.poisoned off n
  bytes : s.poisoned off n = false → (es.flatMap fun e => replyBytes e.ans) = s.memRead off n

theorem State.poisoned_zero (s : State) (off : Nat) : s.poisoned off 0 = false := by simp [State.poisoned, granules]

theorem State.ReadAnswers.nil (s : State) (off : Nat) : s.ReadAnswers off 0 [] :=
  ⟨fun _ h => (List.not_mem_nil h).elim, by rw [State.poisoned_zero]; rfl, fun _ => rfl⟩

theorem State.ReadAnswers.cons {s : State} {off k n : Nat} {e : FwIo} {es : List FwIo} (hoff : scratchBase ≤ off)
    (he : e.ans = s.scratchAns off k) (h : s.ReadAnswers (off + k) n es) : s.ReadAnswers off (k + n) (e :: es) := by
  unfold State.scratchAns at he
  refine ⟨List.forall_mem_cons.mpr ⟨?_, h.come⟩, ?_, fun hclean => ?_⟩
  · rw [he]
    split <;> exact Reply.noConfusion
  · rw [List.all_cons, h.good, State.poisoned_add hoff, Bool.not_or, he]
    cases s.poisoned off k <;> rfl
  · rw [State.poisoned_add hoff, Bool.or_eq_false_iff] at hclean
    obtain ⟨hk, hn⟩ := hclean
    rw [List.flatMap_cons, h.bytes hn, he, hk]
    exact (readCells_add ..).symm

/-- What the answers of a read come to. -/
theorem State.ReadAnswers.ioAns {s : State} {off n : Nat} {es : List FwIo} (h : s.ReadAnswers off n es) :
    ioAns es = if s.poisoned off n then .fail else .done (s.memRead off n) := by
  have hcome : (es.any fun e => decide (e.ans = .owed)) = false :=
    List.any_eq_false.mpr fun e he => by simpa using h.come e he
  rw [Machine.ioAns, hcome, if_neg Bool.false_ne_true, h.good]
  cases hbad : s.poisoned off n with
  | true => rfl
  | false => exact congrArg FwAns.done (h.bytes hbad)

theorem State.scratchAns_congr {u s : State} (h : u.mem = s.mem) (off n : Nat) : u.scratchAns off n = s.scratchAns off n := by
  unfold State.scratchAns State.poisoned State.memRead
  rw [h]

section
variable {s0 : State} {c : Cmd} {k : Nat} (hio : c.io = []) (hptr : c.hostptr.testBit k = false) (m : Nat)
include hio hptr

/-- The lines of a read of scratch are answered one after another. -/
theorem State.ioSteps_read (f : Nat × Nat → Reply) (rs : List (Nat × Nat)) (a off n : Nat) (s : State)
    (hcover : RunsCover a (a + n) rs) (hin : s0.InScratch a off n) (hs : s.ScratchOnly s0) (hmem : s.mem = s0.mem) :
    let q := s.ioSteps c (rs.map fun x => (s0.ioLine m c false k x.1 x.2 [] .owed, f x))
    q.1.ScratchOnly s0 ∧ q.1.mem = s0.mem ∧ s0.ReadAnswers off n q.2 := by
  induction rs generalizing a off n s with
  | nil =>
    have hn : n = 0 := by have h : a = a + n := hcover; omega
    subst hn
    exact ⟨hs, hmem, .nil s0 off⟩
  | cons x rs ih =>
    obtain ⟨x, len⟩ := x
    obtain ⟨rfl, hlen, n', rfl, hrest⟩ := hcover.split
    obtain ⟨hroute, hplace⟩ := hin.head (by omega)
    have hstep := State.ioStep_read (s := s) (e := s0.ioLine m c false k x len [] .owed) hio rfl
      ((State.ioLine_loc hptr ..).trans hroute) ((hs.place off).trans hplace) (f (x, len)) rfl
    obtain ⟨hu, humem, hans⟩ := ih (x + len) (off + len) n' (s.scratchRead m off len).1 hrest hin.tail
      ((s.scratchRead_scratchOnly ..).trans hs) ((State.scratchRead_mem ..).trans hmem)
    simp only [List.map_cons, State.ioSteps]
    rw [hstep]
    exact ⟨hu, humem, hans.cons (State.base_of_scratch hplace) (State.scratchAns_congr hmem off len)⟩

/-- The lines of a write of scratch are stored one after another: those from byte `j` on. -/
theorem State.ioSteps_write {bs : List Byte} (a off : Nat) (r : Reply) (rs : List (Nat × Nat)) (j n : Nat) (s : State)
    (hlen : j + n = bs.length) (hcover : RunsCover (a + j) (a + j + n) rs) (hin : s0.InScratch (a + j) (off + j) n)
    (hs : s.ScratchOnly s0) :
    let q := s.ioSteps c (rs.map fun x => (s0.ioLine m c true k x.1 x.2 (sliceAt bs (x.1 - a) x.2) .owed, r))
    q.1.ScratchOnly s0 ∧ q.1.mem.cells = writeCells s.mem.cells (off + j) (bs.drop j) ∧ ∀ e ∈ q.2, e.ans = .ok [] := by
  induction rs generalizing j n s with
  | nil =>
    have hn : n = 0 := by have h : a + j = a + j + n := hcover; omega
    have hdrop : bs.drop j = [] := List.drop_eq_nil_of_le (by omega)
    rw [hdrop]
    exact ⟨hs, rfl, fun _ h => (List.not_mem_nil h).elim⟩
  | cons x rs ih =>
    obtain ⟨x, len⟩ := x
    obtain ⟨rfl, hpos, n', rfl, hrest⟩ := hcover.split
    obtain ⟨hroute, hplace⟩ := hin.head (by omega)
    have hslice : sliceAt bs (a + j - a) len = (bs.drop j).take len := by
      rw [Nat.add_sub_cancel_left]
      exact sliceAt_inside (by omega)
    have hstep := State.ioStep_write (s := s) (e := s0.ioLine m c true k (a + j) len ((bs.drop j).take len) .owed) hio rfl
      ((State.ioLine_loc hptr ..).trans hroute) ((hs.place _).trans hplace) r rfl
    have hnext : (bs.drop j).take len ++ bs.drop (j + len) = bs.drop j := by
      rw [← List.drop_drop, List.take_append_drop]
    have htake : ((bs.drop j).take len).length = len := by
      rw [List.length_take, List.length_drop]
      omega
    obtain ⟨hu, hcells, hans⟩ := ih (j + len) n' (s.scratchWrite m (off + j) ((bs.drop j).take len)) (by omega)
      (by rwa [← Nat.add_assoc]) (by have h := hin.tail; rwa [Nat.add_assoc, Nat.add_assoc] at h)
      ((s.scratchWrite_scratchOnly ..).trans hs)
    simp only [List.map_cons, State.ioSteps, hslice]
    rw [hstep]
    refine ⟨hu, hcells.trans ?_, List.forall_mem_cons.mpr ⟨rfl, hans⟩⟩
    have happ := writeCells_append s.mem.cells (off + j) ((bs.drop j).take len) (bs.drop (j + len))
    rw [hnext, htake, Nat.add_assoc] at happ
    rw [State.scratchWrite_cells]
    exact happ.symm

end

end Sys2Proof.Machine
end

section
/-! The pieces that COPY and FILL move, for O21 (03 R50 to R52). -/

namespace Sys2Proof.Machine

/-! ## Whole accesses of scratch -/

/-- A command that keeps no lines keeps none when an access of it ends. -/
theorem State.keepIo_nil {c : Cmd} (hio : c.io = []) (s : State) (wr : Bool) (ptr : Nat) : s.keepIo c wr ptr [] = s := by
  rw [State.keepIo, hio]
  rfl

/-- A write whose lines are stored has nothing to return. -/
theorem ioAns_stored {es : List FwIo} (h : ∀ e ∈ es, e.ans = .ok []) : ioAns es = .done [] := by
  have hcome : (es.any fun e => decide (e.ans = .owed)) = false :=
    List.any_eq_false.mpr fun e he => by simp [h e he]
  have hgood : (es.all fun e => replyGood e.ans) = true := List.all_eq_true.mpr fun e he => by rw [h e he]; rfl
  have hbytes : (es.flatMap fun e => replyBytes e.ans) = [] := List.flatMap_eq_nil_iff.mpr fun e he => by rw [h e he]; rfl
  rw [ioAns, hcome, hgood, hbytes]
  rfl

section
variable {s : State} {c : Cmd} {k a off n : Nat} (hio : c.io = []) (hptr : c.hostptr.testBit k = false)
  (hin : s.InScratch a off n) (m : Nat) (r : Reply)
include hio hptr hin

theorem State.readBy_scratch : ∃ u, s.readBy m c k a n r = (u, if s.poisoned off n then .fail else .done (s.memRead off n)) ∧
    u.mem = s.mem ∧ u.ScratchOnly s := by
  obtain ⟨hu, hmem, hans⟩ := State.ioSteps_read hio hptr m (fun x => replyPart r (x.1 - a) x.2) (lineRuns a n) a off n s
    (lineRuns_cover a n) hin (.refl s) rfl
  refine ⟨_, ?_, hmem, hu⟩
  simp only [State.readBy, State.endIo, hans.ioAns]
  cases s.poisoned off n <;> simp only [Bool.false_eq_true, if_false, if_true, State.keepIo_nil hio]

theorem State.writeBy_scratch {bs : List Byte} (hlen : bs.length = n) : ∃ u, s.writeBy m c k a bs r = (u, .done []) ∧
    u.mem.cells = writeCells s.mem.cells off bs ∧ u.ScratchOnly s := by
  obtain ⟨hu, hcells, hans⟩ := State.ioSteps_write hio hptr m (bs := bs) a off r (lineRuns a bs.length) 0 n s
    (by omega) (by rw [hlen]; exact lineRuns_cover a n) hin (.refl s)
  refine ⟨_, ?_, hcells, hu⟩
  simp only [State.writeBy, State.endIo, ioAns_stored hans, State.keepIo_nil hio]

end

/-! ## COPY and FILL of one piece -/

theorem pieces_one {n : Nat} (hn : 0 < n) (hle : n ≤ 0x100000) : pieces n = [(0, n)] := by
  have hcount : (n + pieceBytes - 1) / pieceBytes = 1 := by unfold pieceBytes; omega
  have hall : min pieceBytes n = n := Nat.min_eq_right hle
  simp [pieces, hcount, upto, hall]

theorem Cmd.todo_fresh {c : Cmd} (hcancel : c.cancelled = false) (hdid : c.milestones = 0) (n stopAt : Nat) :
    c.todo n stopAt = pieces n := by
  simp [Cmd.todo, hcancel, hdid]

/-- What a COPY or FILL of `n` bytes comes to when nothing of it has been moved before. -/
def State.moves (s : State) (keep : State → Nat → Nat → List Byte → State) (c : Cmd) (dstPtr dst : Nat) (acc : Reply)
    (src : State → Cmd → Nat → Nat → Nat → State × FwAns) (n : Nat) : Outcome :=
  State.copyEnds c n
    (copyPieces keep c dstPtr dst acc src { s := s, did := 0, failed := false, stalled := false } (pieces n))

theorem State.copyEnds_failed (s : State) (c : Cmd) (n did : Nat) :
    State.copyEnds c n { s := s, did := did, failed := true, stalled := false } =
      .next (Claims.ended s c.handle 0x18 0 did 0) := rfl

section
variable {keep : State → Nat → Nat → List Byte → State} {c : Cmd} {dstPtr dst n : Nat} {acc : Reply}
  {src : State → Cmd → Nat → Nat → Nat → State × FwAns} {s u v : State} {bs out : List Byte}

section
variable (hcancel : c.cancelled = false)
include hcancel

theorem State.copyEnds_whole (did : Nat) {milestones : Nat} (hwhole : n = milestones * 0x100000) :
    State.copyEnds c n { s := s, did := did, failed := false, stalled := false } =
      .next (Claims.ended s c.handle 0 0 milestones 0) := by
  have hrest : n % 0x100000 = 0 := by omega
  have hcount : n / 0x100000 = milestones := by omega
  simp only [State.copyEnds, State.endCopy, State.wholeMilestones, pieceBytes, hcancel, hrest, hcount, if_true,
    Bool.false_eq_true, if_false]
  rfl

/-- Whether a last piece shorter than 1 MiB counts as a milestone is a free value, which is drawn. -/
theorem State.copyEnds_part (did : Nat) (hpart : n % 0x100000 ≠ 0) :
    ∃ milestones, State.copyEnds c n { s := s, did := did, failed := false, stalled := false } =
      .next (Claims.ended s.tick c.handle 0 0 milestones 0) := by
  refine ⟨n / 0x100000 + b2n (Config.freeBool s.free), ?_⟩
  simp only [State.copyEnds, State.endCopy, State.wholeMilestones, pieceBytes, hcancel, hpart, Bool.false_eq_true, if_false]
  rfl

theorem State.moves_nothing : s.moves keep c dstPtr dst acc src 0 = .next (Claims.ended s c.handle 0 0 0 0) :=
  State.copyEnds_whole hcancel 0 (Nat.zero_mul _).symm

end

theorem State.moves_unread (hpos : 0 < n) (hle : n ≤ 0x100000)
    (hread : src (s.copyMaster c).1 c (s.copyMaster c).2 0 n = (u, .fail)) :
    s.moves keep c dstPtr dst acc src n = .next (Claims.ended u c.handle 0x18 0 0 0) := by
  simp only [State.moves, pieces_one hpos hle, copyPieces, hread, State.copyEnds_failed]

section
variable (hpos : 0 < n) (hle : n ≤ 0x100000) (hread : src (s.copyMaster c).1 c (s.copyMaster c).2 0 n = (u, .done bs))
include hpos hle hread

theorem State.moves_unwritten (hwrite : u.writeBy (s.copyMaster c).2 c dstPtr dst bs acc = (v, .fail)) :
    s.moves keep c dstPtr dst acc src n = .next (Claims.ended v c.handle 0x18 0 0 0) := by
  simp only [State.moves, pieces_one hpos hle, copyPieces, hread, Nat.add_zero, hwrite, State.copyEnds_failed]

theorem State.moves_written (hwrite : u.writeBy (s.copyMaster c).2 c dstPtr dst bs acc = (v, .done out)) :
    s.moves keep c dstPtr dst acc src n =
      State.copyEnds c n { s := v, did := 1, failed := false, stalled := false } := by
  simp only [State.moves, pieces_one hpos hle, copyPieces, hread, Nat.add_zero, hwrite]

end
end

/-! ## The instructions -/

/-- The answer of a place outside the device, for a source of `n` bytes at `o` of it. -/
def replyPiece (r : Reply) (o n : Nat) : Reply :=
  match r with
  | .ok bs => if o + n ≤ bs.length then .ok (sliceAt bs o n) else .hostError
  | x => x

/-- A chain reads a piece of COPY's source, which is at `src`. -/
def copyRead (src : Nat) (r : Reply) (s : State) (c : Cmd) (m o n : Nat) : State × FwAns :=
  s.readBy m c 0 (src + o) n (replyPiece r o n)

/-- A piece of FILL's pattern. -/
def fillRead (pattern : Nat) (s : State) (_ : Cmd) (_ _ n : Nat) : State × FwAns :=
  (s, .done (List.replicate (n / 8) (bytesOf 8 pattern)).flatten)

/-- The bytes of a source outside the device are those it has at the piece's place. -/
theorem replyPiece_first (r : Reply) (n : Nat) :
    replyPiece r 0 n = match r with
      | .ok bs => if n ≤ bs.length then .ok (bs.take n) else .hostError
      | x => x := by
  cases r with
  | ok bs =>
    simp only [replyPiece, Nat.zero_add]
    split
    next hlen => rw [sliceAt_inside (by omega), List.drop_zero]
    next => rfl
  | _ => rfl

section
variable {h : Half} {c : Cmd} {s : State} (hcancel : c.cancelled = false) (hdid : c.milestones = 0) (k : Nat) (acc : Reply)
include hcancel hdid

/-- A COPY of which nothing has been moved. -/
theorem State.execCopy_fresh (hrun : s.running h 0x11 = some c) (r : Reply) : execCopy h k r acc s =
    s.moves (fun s m o bs => s.keepRead m c 0 (c.at 16 8 + o) bs) c 1 (c.at 24 8) acc (copyRead (c.at 16 8) r) (c.at 32 8) := by
  simp only [execCopy, hrun, Cmd.todo_fresh hcancel hdid, hdid]
  cases r <;> rfl

/-- A FILL of which nothing has been moved. -/
theorem State.execFill_fresh (hrun : s.running h 0x12 = some c) : execFill h k acc s =
    s.moves (fun s _ _ _ => s) c 0 (c.at 16 8) acc (fillRead (c.at 32 8)) (c.at 24 8) := by
  simp only [execFill, hrun, Cmd.todo_fresh hcancel hdid, hdid]
  rfl

end

end Sys2Proof.Machine

namespace Sys2Proof.Proofs
open Sys2Proof.Machine

theorem scratchCarriesCommands : Claims.ScratchCarriesCommands := by
  intro m k a off n c r s hwf hio hptr hin
  constructor
  · intro _
    obtain ⟨u, hread, hmem, hu⟩ := State.readBy_scratch hio hptr hin m r
    exact ⟨u, hread, hmem, hu.cores, hu.chains, hu.aci⟩
  · rintro bs rfl
    obtain ⟨hcellsWf, -, -⟩ := (Memory.wf_iff _).mp hwf
    obtain ⟨u, hwrite, hcells, hu⟩ := State.writeBy_scratch hio hptr hin m r (bs := bs) rfl
    refine ⟨u, hwrite, ?_, fun x l hx => ?_, hu.cores, hu.chains, hu.aci⟩
    · rw [State.memRead, hcells]
      exact readCells_writeCells hcellsWf off bs
    · rw [State.memRead, hcells]
      exact readCells_congr fun i hi => cellGet_writeCells_other _ bs (by omega)

theorem copyMovesItsPiece (h : Half) (c : Cmd) (k : Nat) (r acc : Reply) (s : State) (hruns : Claims.runs s h 0x11 c)
    (hcancel : c.cancelled = false) (hdid : c.milestones = 0) :
    let n := c.at 32 8
    let m := (s.copyMaster c).2
    let part := match r with
      | .ok bs => if n ≤ bs.length then Reply.ok (bs.take n) else .hostError
      | x => x
    let read := (s.copyMaster c).1.readBy m c 0 (c.at 16 8) n part
    (n = 0 → exec (.copy h k r acc) s = .next (Claims.ended s h 0 0 0 0)) ∧
    (0 < n → n ≤ 0x100000 → read.2 = .fail → exec (.copy h k r acc) s = .next (Claims.ended read.1 h 0x18 0 0 0)) ∧
    ∀ bs, 0 < n → n ≤ 0x100000 → read.2 = .done bs →
      let wrote := read.1.writeBy m c 1 (c.at 24 8) bs acc
      (wrote.2 = .done [] → n = 0x100000 → exec (.copy h k r acc) s = .next (Claims.ended wrote.1 h 0 0 1 0)) ∧
      (wrote.2 = .done [] → n < 0x100000 → ∃ done,
        exec (.copy h k r acc) s = .next (Claims.ended wrote.1.tick h 0 0 done 0)) ∧
      (wrote.2 = .fail → exec (.copy h k r acc) s = .next (Claims.ended wrote.1 h 0x18 0 0 0)) := by
  intro n m part read
  have hrun := State.running_of_runs hruns
  obtain rfl : c.handle = h := State.cmd_handle (State.cmd_of_running hrun)
  have hexec : exec (.copy c.handle k r acc) s =
      s.moves (fun s m o bs => s.keepRead m c 0 (c.at 16 8 + o) bs) c 1 (c.at 24 8) acc (copyRead (c.at 16 8) r) n :=
    State.execCopy_fresh hcancel hdid k acc hrun r
  have hsource : copyRead (c.at 16 8) r (s.copyMaster c).1 c m 0 n = read := by
    rw [copyRead, replyPiece_first]
    cases r <;> rfl
  rw [hexec]
  refine ⟨fun hzero => ?_, fun hpos hle hfail => State.moves_unread hpos hle (hsource.trans (Prod.ext rfl hfail)), ?_⟩
  · rw [hzero]
    exact State.moves_nothing hcancel
  intro bs hpos hle hbytes wrote
  have hread : copyRead (c.at 16 8) r (s.copyMaster c).1 c (s.copyMaster c).2 0 n = (read.1, .done bs) :=
    hsource.trans (Prod.ext rfl hbytes)
  refine ⟨fun hdone hwhole => ?_, fun hdone hpart => ?_, fun hfail =>
    State.moves_unwritten hpos hle hread (Prod.ext rfl hfail)⟩
  · rw [State.moves_written hpos hle hread (Prod.ext rfl hdone : wrote = (wrote.1, .done []))]
    exact State.copyEnds_whole hcancel 1 (by omega)
  · rw [State.moves_written hpos hle hread (Prod.ext rfl hdone : wrote = (wrote.1, .done []))]
    exact State.copyEnds_part hcancel 1 (by omega)

theorem fillMovesItsPiece (h : Half) (c : Cmd) (k : Nat) (acc : Reply) (s : State) (hruns : Claims.runs s h 0x12 c)
    (hcancel : c.cancelled = false) (hdid : c.milestones = 0) :
    let n := c.at 24 8
    let wrote := (s.copyMaster c).1.writeBy (s.copyMaster c).2 c 0 (c.at 16 8)
      (List.replicate (n / 8) (bytesOf 8 (c.at 32 8))).flatten acc
    (n = 0 → exec (.fill h k acc) s = .next (Claims.ended s h 0 0 0 0)) ∧
    (wrote.2 = .done [] → n = 0x100000 → exec (.fill h k acc) s = .next (Claims.ended wrote.1 h 0 0 1 0)) ∧
    (wrote.2 = .done [] → 0 < n → n < 0x100000 → ∃ m,
      exec (.fill h k acc) s = .next (Claims.ended wrote.1.tick h 0 0 m 0)) ∧
    (wrote.2 = .fail → 0 < n → n ≤ 0x100000 → exec (.fill h k acc) s = .next (Claims.ended wrote.1 h 0x18 0 0 0)) := by
  intro n wrote
  have hrun := State.running_of_runs hruns
  obtain rfl : c.handle = h := State.cmd_handle (State.cmd_of_running hrun)
  have hexec : exec (.fill c.handle k acc) s =
      s.moves (fun s _ _ _ => s) c 0 (c.at 16 8) acc (fillRead (c.at 32 8)) n :=
    State.execFill_fresh hcancel hdid k acc hrun
  rw [hexec]
  refine ⟨fun hzero => ?_, fun hdone hwhole => ?_, fun hdone hpos hpart => ?_, fun hfail hpos hle =>
    State.moves_unwritten hpos hle rfl (Prod.ext rfl hfail : wrote = (wrote.1, .fail))⟩
  · rw [hzero]
    exact State.moves_nothing hcancel
  · rw [State.moves_written (by omega) (by omega) rfl (Prod.ext rfl hdone : wrote = (wrote.1, .done []))]
    exact State.copyEnds_whole hcancel 1 (by omega)
  · rw [State.moves_written hpos (by omega) rfl (Prod.ext rfl hdone : wrote = (wrote.1, .done []))]
    exact State.copyEnds_part hcancel 1 (by omega)

/-- Settles O21: the lines of an access of scratch cover it one after another, and what a single piece reads and writes decides
how its COPY or FILL ends. -/
theorem copiesAndFillsComplete : Obligations.CopiesAndFillsComplete :=
  ⟨scratchCarriesCommands,
    fun h c k r acc s hruns hcancel hdid _ => copyMovesItsPiece h c k r acc s hruns hcancel hdid,
    fun h c k acc s hruns hcancel hdid _ => fillMovesItsPiece h c k acc s hruns hcancel hdid⟩

end Sys2Proof.Proofs
end

section
/-! What the operations of one chain leave as it is: the other chains, the pools of other clusters and the rest of the device;
for O6, O7, O8, O45 and O47. -/

namespace Sys2Proof.Machine

/-! ## One chain and its cluster's pool -/

/-- Only chain `c`, the pool of its cluster and the counter of free values differ from `s`. -/
structure State.ChainOnly (u s : State) (c : ChainId) : Prop where
  frame : u = { s with chains := u.chains, pools := u.pools, free := u.free }
  chains : ∀ k, k ≠ c → u.chains[k] = s.chains[k]
  pools : ∀ k, k ≠ clusterOf c → u.pools[k] = s.pools[k]

theorem State.ChainOnly.refl (s : State) (c : ChainId) : s.ChainOnly s c := ⟨rfl, fun _ _ => rfl, fun _ _ => rfl⟩

theorem State.ChainOnly.trans {u v s : State} {c : ChainId} (h : u.ChainOnly v c) (k : v.ChainOnly s c) : u.ChainOnly s c where
  frame := by
    have hu := h.frame
    rw [k.frame] at hu
    exact hu
  chains m hm := (h.chains m hm).trans (k.chains m hm)
  pools m hm := (h.pools m hm).trans (k.pools m hm)

section
variable {u s : State} {c : ChainId} (h : u.ChainOnly s c)
include h

theorem State.ChainOnly.mem : u.mem = s.mem := by rw [h.frame]

theorem State.ChainOnly.cores : u.cores = s.cores := by rw [h.frame]

theorem State.ChainOnly.out : u.out = s.out := by rw [h.frame]

end

theorem State.modPool_other (s : State) (k m : ClusterId) (g : Pool → Pool) (h : m ≠ k) :
    (s.modPool k g).pools[m] = s.pools[m] := by
  have : k.val ≠ m.val := fun e => h (Fin.ext e.symm)
  simp [State.modPool, this]

theorem State.modChain_chainOnly (s : State) (c : ChainId) (g : Chain → Chain) : (s.modChain c g).ChainOnly s c :=
  ⟨rfl, fun k hk => s.modChain_other c k g hk, fun _ _ => rfl⟩

theorem State.modPool_chainOnly (s : State) (c : ChainId) (g : Pool → Pool) : (s.modPool (clusterOf c) g).ChainOnly s c :=
  ⟨rfl, fun _ _ => rfl, fun k hk => s.modPool_other _ k g hk⟩

theorem State.tick_chainOnly (s : State) (c : ChainId) : s.tick.ChainOnly s c := ⟨rfl, fun _ _ => rfl, fun _ _ => rfl⟩

/-- A fold of such steps is such a step. -/
theorem State.chainOnly_foldl {α : Type} {c : ChainId} {f : State → α → State} (hf : ∀ s a, (f s a).ChainOnly s c)
    (l : List α) : ∀ s : State, (l.foldl f s).ChainOnly s c := by
  induction l with
  | nil => exact fun s => .refl s c
  | cons a l ih => exact fun s => (ih _).trans (hf s a)

/-! ## Buffers (04 R63, R64; 05 R106, R107) -/

/-- `g` is `h` but for the buffers that its streams hold and its reservations. -/
def Chain.SameButBuffers (g h : Chain) : Prop :=
  ∃ held peak resv, g = { h with held := held, peak := peak, resv := resv }

theorem Chain.SameButBuffers.refl (h : Chain) : h.SameButBuffers h := ⟨_, _, _, rfl⟩

theorem Chain.SameButBuffers.trans {g k h : Chain} (hg : g.SameButBuffers k) (hk : k.SameButBuffers h) :
    g.SameButBuffers h := by
  obtain ⟨_, _, _, rfl⟩ := hg
  obtain ⟨_, _, _, rfl⟩ := hk
  exact ⟨_, _, _, rfl⟩

/-- Only the buffers of chain `c` and the pool of its cluster differ from `s`. -/
structure State.BuffersOnly (u s : State) (c : ChainId) : Prop extends State.ChainOnly u s c where
  chain : u.chains[c].SameButBuffers s.chains[c]

theorem State.BuffersOnly.refl (s : State) (c : ChainId) : s.BuffersOnly s c := ⟨.refl s c, .refl _⟩

theorem State.BuffersOnly.trans {u v s : State} {c : ChainId} (h : u.BuffersOnly v c) (k : v.BuffersOnly s c) :
    u.BuffersOnly s c := ⟨h.toChainOnly.trans k.toChainOnly, h.chain.trans k.chain⟩

theorem State.buffersOnly_foldl {α : Type} {c : ChainId} {f : State → α → State} (hf : ∀ s a, (f s a).BuffersOnly s c)
    (l : List α) : ∀ s : State, (l.foldl f s).BuffersOnly s c := by
  induction l with
  | nil => exact fun s => .refl s c
  | cons a l ih => exact fun s => (ih _).trans (hf s a)

/-- A pool takes or gives buffers, and the chain's own count changes with it. -/
theorem State.modBuffers_buffersOnly (s : State) (c : ChainId) (p : Pool → Pool) {g : Chain → Chain}
    (hg : ∀ h, (g h).SameButBuffers h) : ((s.modPool (clusterOf c) p).modChain c g).BuffersOnly s c :=
  ⟨(State.modChain_chainOnly _ c g).trans (s.modPool_chainOnly c p), by
    rw [State.modChain_same]
    exact hg _⟩

theorem State.trimStream_buffersOnly (s : State) (c : ChainId) (i : Fin 6) : (s.trimStream c i).BuffersOnly s c := by
  unfold State.trimStream
  dsimp only
  split
  · exact s.modBuffers_buffersOnly c _ fun _ => ⟨_, _, _, rfl⟩
  · exact .refl s c

theorem State.trimFreed_buffersOnly (s0 s : State) (c : ChainId) (i : Fin 6) : (s0.trimFreed s c i).BuffersOnly s c := by
  unfold State.trimFreed
  dsimp only
  split
  · exact s.modBuffers_buffersOnly c _ fun _ => ⟨_, _, _, rfl⟩
  · exact .refl s c

theorem State.trim_buffersOnly (s : State) (c : ChainId) : (s.trim c).BuffersOnly s c :=
  State.buffersOnly_foldl (fun s i => s.trimStream_buffersOnly c i) _ s

theorem State.freedSince_buffersOnly (s0 s : State) (c : ChainId) : (s0.freedSince s c).BuffersOnly s c :=
  State.buffersOnly_foldl (fun s i => s0.trimFreed_buffersOnly s c i) _ s

/-- Changes of what several streams hold. -/
theorem Chain.foldl_setHeld_sameButBuffers (n : Fin 6 → Chain → Nat) (l : List (Fin 6)) :
    ∀ h : Chain, (l.foldl (fun h i => h.setHeld i (n i h)) h).SameButBuffers h := by
  induction l with
  | nil => exact .refl
  | cons i l ih => exact fun h => (ih _).trans ⟨_, _, _, rfl⟩

theorem State.dropResv_buffersOnly (s : State) (c : ChainId) : (s.dropResv c).BuffersOnly s c := by
  unfold State.dropResv
  refine State.buffersOnly_foldl (fun s r => s.modBuffers_buffersOnly c _ fun h => ?_) _ s
  exact (Chain.foldl_setHeld_sameButBuffers (fun i h => h.held[i] - r.per[i]) streams6 _).trans
    ⟨h.held, h.peak, h.resv.filter (·.serial ≠ r.serial), rfl⟩

/-! ## Launches that end (04 R62, R80, R85) -/

/-- `g` is `h` but for its buffers and for the loads of CAn that have taken effect. -/
def Chain.SameButLoads (g h : Chain) : Prop :=
  ∃ held peak resv ca loads, g = { h with held := held, peak := peak, resv := resv, ca := ca, caLoads := loads } ∧
    (h.caLoads = [] → ca = h.ca ∧ loads = [])

theorem Chain.SameButLoads.refl (h : Chain) : h.SameButLoads h := ⟨_, _, _, _, _, rfl, fun hnone => ⟨rfl, hnone⟩⟩

theorem Chain.SameButLoads.of_buffers {g k h : Chain} (hg : g.SameButBuffers k) (hk : k.SameButLoads h) :
    g.SameButLoads h := by
  obtain ⟨_, _, _, rfl⟩ := hg
  obtain ⟨_, _, _, _, _, rfl, hca⟩ := hk
  exact ⟨_, _, _, _, _, rfl, hca⟩

theorem Chain.applyCaLoads_sameButLoads (h : Chain) : h.applyCaLoads.SameButLoads h := by
  have hset : ∀ (l : List (Nat × Fin 8 × Wide)) (k : Chain), ∃ ca,
      l.foldl (fun c p => { c with ca := c.ca.set p.2.1 p.2.2 }) k = { k with ca := ca } := fun l => by
    induction l with
    | nil => exact fun k => ⟨k.ca, rfl⟩
    | cons p l ih => exact fun k => ih _
  obtain ⟨ca, hca⟩ := hset (h.caLoads.filter fun p => h.hasEnded p.1)
    { h with caLoads := h.caLoads.filter fun p => !h.hasEnded p.1 }
  refine ⟨h.held, h.peak, h.resv, ca, _, hca, fun hnone => ?_⟩
  rw [hnone] at hca ⊢
  exact ⟨(congrArg Chain.ca hca).symm, rfl⟩

theorem State.endLaunch_chainOnly (s : State) (c : ChainId) : (s.endLaunch c).ChainOnly s c :=
  (State.trim_buffersOnly _ c).toChainOnly.trans <| (State.dropResv_buffersOnly _ c).toChainOnly.trans <|
    (State.modChain_chainOnly _ c _).trans (s.modPool_chainOnly c _)

theorem State.endLaunch_chain (s : State) (c : ChainId) :
    (s.endLaunch c).chains[c].SameButLoads { s.chains[c] with run := none, lwait := false } := by
  refine .of_buffers ((State.trim_buffersOnly _ c).chain.trans (State.dropResv_buffersOnly _ c).chain) ?_
  rw [State.modChain_same]
  exact Chain.applyCaLoads_sameButLoads _

theorem State.dropQueued_chainOnly (s : State) (c : ChainId) : (s.dropQueued c).ChainOnly s c := s.modChain_chainOnly c _

theorem State.dropQueued_chain (s : State) (c : ChainId) :
    (s.dropQueued c).chains[c].SameButLoads { s.chains[c] with queued := none } := by
  rw [State.dropQueued, State.modChain_same]
  exact Chain.applyCaLoads_sameButLoads _

/-! ## Stops (04 R85; 08 R180, R181; 05 R99) -/

/-- The running launch once a stop has discarded what is not to finish. -/
def Run.cut (r : Run) (keep : Nat) : Run :=
  { r with
    trans := if r.strips.isEmpty then r.trans.filter (·.restarted) else none
    strips := r.strips.take keep }

/-- The launch goes on: a strip in Translate or an issued one is to finish. -/
def Run.goesOn (r : Run) : Bool := r.trans.isSome || !r.strips.isEmpty

/-- A launch of which neither a strip nor a restarted one is to finish ends. -/
def State.endIfDone (s : State) (c : ChainId) : State :=
  match s.chains[c].run with
  | none => s.modChain c fun h => { h with cause := none }
  | some r =>
    if r.trans.isSome then s
    else
      let s := s.modChain c fun h => { h with cause := none }
      if r.strips.isEmpty then s.endLaunch c else s.trim c

theorem State.beginStop_eq (s : State) (c : ChainId) (keep : Nat) : s.beginStop c keep =
    ((s.dropQueued c).modChain c fun h => { h with stopReq := true, run := h.run.map (·.cut keep) }).endIfDone c := rfl

theorem State.endIfDone_chainOnly (s : State) (c : ChainId) : (s.endIfDone c).ChainOnly s c := by
  have hcause := s.modChain_chainOnly c fun h => { h with cause := none }
  unfold State.endIfDone
  dsimp only
  split
  · exact hcause
  · split
    · exact .refl s c
    · split
      · exact (State.endLaunch_chainOnly _ c).trans hcause
      · exact (State.trim_buffersOnly _ c).toChainOnly.trans hcause

theorem State.endIfDone_chain (s : State) (c : ChainId) : ∃ lwait cause,
    (s.endIfDone c).chains[c].SameButLoads { s.chains[c] with
      lwait := lwait, cause := cause, run := s.chains[c].run.filter Run.goesOn } := by
  have hcause : (s.modChain c fun h => { h with cause := none }).chains[c] = { s.chains[c] with cause := none } :=
    s.modChain_same c _
  unfold State.endIfDone
  dsimp only
  cases hrun : s.chains[c].run with
  | none =>
    refine ⟨s.chains[c].lwait, none, ?_⟩
    rw [hcause, Option.filter_none, ← hrun]
    exact .refl _
  | some r =>
    dsimp only
    split
    · next htrans =>
      have hgo : r.goesOn = true := by rw [Run.goesOn, htrans, Bool.true_or]
      refine ⟨s.chains[c].lwait, s.chains[c].cause, ?_⟩
      rw [Option.filter_some, if_pos hgo, ← hrun]
      exact .refl _
    · next htrans =>
      split
      · next hnone =>
        have hgo : r.goesOn = false := by simp [Run.goesOn, hnone, htrans]
        have hend := State.endLaunch_chain (s.modChain c fun h => { h with cause := none }) c
        rw [hcause] at hend
        refine ⟨false, none, ?_⟩
        rw [Option.filter_some, hgo]
        exact hend
      · next hsome =>
        have hgo : r.goesOn = true := by simp [Run.goesOn, hsome]
        refine ⟨s.chains[c].lwait, none, .of_buffers (State.trim_buffersOnly _ c).chain ?_⟩
        rw [hcause, Option.filter_some, if_pos hgo, ← hrun]
        exact .refl _

theorem State.beginStop_chainOnly (s : State) (c : ChainId) (keep : Nat) : (s.beginStop c keep).ChainOnly s c :=
  (State.endIfDone_chainOnly _ c).trans ((State.modChain_chainOnly _ c _).trans (s.dropQueued_chainOnly c))

/-- A stop request that finds none in progress drops the queued launch, and of the running one all that is not to finish. -/
theorem State.beginStop_chain (s : State) (c : ChainId) (keep : Nat) : ∃ lwait cause,
    (s.beginStop c keep).chains[c].SameButLoads { s.chains[c] with
      queued := none, stopReq := true, lwait := lwait, cause := cause
      run := (s.chains[c].run.map (·.cut keep)).filter Run.goesOn } := by
  obtain ⟨held, peak, resv, ca, loads, hq, hca⟩ := s.dropQueued_chain c
  have hcut : ((s.dropQueued c).modChain c fun h => { h with stopReq := true, run := h.run.map (·.cut keep) }).chains[c] =
      { s.chains[c] with
        queued := none, stopReq := true, run := s.chains[c].run.map (·.cut keep)
        held := held, peak := peak, resv := resv, ca := ca, caLoads := loads } := by
    rw [State.modChain_same, hq]
  rw [State.beginStop_eq]
  obtain ⟨lwait, cause, held', peak', resv', ca', loads', hend, hca'⟩ :=
    State.endIfDone_chain ((s.dropQueued c).modChain c fun h => { h with stopReq := true, run := h.run.map (·.cut keep) }) c
  refine ⟨lwait, cause, held', peak', resv', ca', loads', ?_, fun h => ?_⟩
  · rw [hend, hcut]
  · rw [hcut] at hca'
    obtain ⟨rfl, hloads⟩ := hca h
    exact hca' hloads

theorem State.abandon_chainOnly (s : State) (c : ChainId) : (s.abandon c).ChainOnly s c :=
  (State.endLaunch_chainOnly _ c).trans ((State.modChain_chainOnly _ c _).trans (s.dropQueued_chainOnly c))

/-- ABANDON ends the launch of a halted chain and stops the chain. -/
theorem State.abandon_chain (s : State) (c : ChainId) : (s.abandon c).chains[c].SameButLoads { s.chains[c] with
    queued := none, exc := false, stopReq := true, cause := none, run := none, lwait := false } := by
  obtain ⟨_, _, _, _, _, hq, hca⟩ := s.dropQueued_chain c
  obtain ⟨_, _, _, _, _, hend, hca'⟩ :=
    State.endLaunch_chain ((s.dropQueued c).modChain c fun h => { h with exc := false, stopReq := true, cause := none }) c
  rw [State.modChain_same, hq] at hend hca'
  refine ⟨_, _, _, _, _, hend, fun h => ?_⟩
  obtain ⟨rfl, hloads⟩ := hca h
  exact hca' hloads

/-! ## What a stop leaves of the running launch -/

section
variable {s : State} {c : ChainId} {r : Run} (hrun : s.chains[c].run = some r) (keep : Nat)
include hrun

theorem State.beginStop_run : (s.beginStop c keep).chains[c].run = (some (r.cut keep)).filter Run.goesOn := by
  obtain ⟨_, _, _, _, _, _, _, h, -⟩ := s.beginStop_chain c keep
  rw [h, hrun]
  rfl

/-- A launch without an issued or a restarted strip ends. -/
theorem State.beginStop_run_ends (hstrips : r.strips = []) (htrans : ∀ t, r.trans = some t → t.restarted = false) :
    (s.beginStop c keep).chains[c].run = none := by
  have hnone : r.trans.filter (·.restarted) = none := by
    cases hr : r.trans with
    | none => rfl
    | some t => rw [Option.filter_some, htrans t hr]; rfl
  have hdone : (r.cut keep).goesOn = false := by simp [Run.cut, Run.goesOn, hstrips, hnone]
  rw [State.beginStop_run hrun, Option.filter_some, hdone]
  rfl

/-- A restarted strip stands for the oldest issued one. -/
theorem State.beginStop_run_restarted {t : Translating} (hstrips : r.strips = []) (htrans : r.trans = some t)
    (hagain : t.restarted = true) : (s.beginStop c keep).chains[c].run = some r := by
  have hcut : r.cut keep = r := by
    obtain ⟨⟩ := r
    subst hstrips htrans
    simp [Run.cut, hagain]
  rw [State.beginStop_run hrun, hcut, Option.filter_some, if_pos (by simp [Run.goesOn, htrans])]

/-- The oldest issued strips stay. -/
theorem State.beginStop_run_strips (hstrips : r.strips ≠ []) (hkeep : keep ≠ 0) :
    (s.beginStop c keep).chains[c].run = some { r with trans := none, strips := r.strips.take keep } := by
  have hcut : r.cut keep = { r with trans := none, strips := r.strips.take keep } := by
    rw [Run.cut, if_neg (by simpa using hstrips)]
  rw [State.beginStop_run hrun, hcut, Option.filter_some, if_pos (by simp [Run.goesOn, hstrips, hkeep])]

end

end Sys2Proof.Machine
end

section
/-! The proof of O8 (04 R73, R85; 08 R179 to R181): the chain control registers. -/

namespace Sys2Proof.Machine

/-! ## Writes of a chain's registers (02 R31) -/

/-- A write of the upper half of 8 bytes that two registers fill. -/
theorem State.csrWrite_high {s : State} {src : Src} {off o : Nat} {b : Block} (hb : blockOf off = some (b, o))
    (hg : s.gatedBlock b = false) (hw : regWidth b o = some 4) (hw' : regWidth b (o + 4) = some 4) (v : Word) :
    s.csrWrite src off 0xF0 v [] = s.regWrite b (o + 4) (v >>> 32) src [] := by
  have hoff : enables 0xF0 0 4 = 0 := by decide
  rw [State.csrWrite_eq hb hg, regsAt_four hw, if_pos hw', List.foldl_cons, List.foldl_cons, List.foldl_nil,
    State.csrWriteReg_off hoff, State.csrWriteReg_whole (by decide) (by decide)]

theorem blockOf_chain : ∀ c : ChainId,
    blockOf (0x4000000 + 0x100000 * c.val + 0x80010) = some (.core (seqOf c), 0x80010) ∧
    blockOf (0x4000000 + 0x100000 * c.val + 0x80050) = some (.core (seqOf c), 0x80050) := by decide

theorem regWidth_chain : ∀ c : ChainId, regWidth (.core (seqOf c)) 0x80010 = some 4 ∧
    regWidth (.core (seqOf c)) 0x80014 = some 4 ∧ regWidth (.core (seqOf c)) 0x80050 = some 4 := by decide

theorem chainOf_seqOf : ∀ c : ChainId, chainOf (seqOf c) = some c := by decide

/-- The upper half of a word that holds a half there. -/
theorem half_above (v : Half) : (((v.setWidth 64 : Word) <<< 32) >>> 32).setWidth 32 = v := by
  apply BitVec.eq_of_toNat_eq
  simp only [BitVec.toNat_setWidth, BitVec.toNat_ushiftRight, BitVec.toNat_shiftLeft, Nat.shiftRight_eq_div_pow,
    Nat.shiftLeft_eq]
  omega

theorem coreBase_seqOf (c : ChainId) (o : Nat) : coreBase (seqOf c) + o = 0x4000000 + 0x100000 * c.val + o := by
  simp only [coreBase, seqOf]
  omega

section
variable {s : State} {src : Src} {c : ChainId} {off : Nat}

/-- A write of an offset of a chain's window reaches the chain. -/
theorem State.regWrite_chain (s : State) {o : Nat} (hlo : 0x80000 ≤ o) (hhi : o < 0x80800) (v : Word) (src : Src) :
    s.regWrite (.core (seqOf c)) o v src [] = s.chainWrite c (o - 0x80000) v := by
  simp only [State.regWrite, State.coreRegWrite]
  rw [if_neg (by omega), if_pos hhi, chainOf_seqOf]

theorem State.reaches_aligned (h : s.reaches src off = true) : s.reaches src (off / 8 * 8) = true := by
  rw [State.reaches, div_eight_mul_eight (by omega)]
  exact h

/-- A write of CORE_CHAIN_CTL that its path carries reaches the register. -/
theorem State.putChain_ctl (h : s.reaches src (0x4000000 + 0x100000 * c.val + 0x80014) = true) (v : Half) :
    s.putChain src c 0x80014 v [] = .next (s.chainCtl c v) := by
  obtain ⟨hb, -⟩ := blockOf_chain c
  obtain ⟨hw, hw', -⟩ := regWidth_chain c
  have hdiv : (0x4000000 + 0x100000 * c.val + 0x80014) / 8 * 8 = 0x4000000 + 0x100000 * c.val + 0x80010 := by omega
  have hmod : (0x4000000 + 0x100000 * c.val + 0x80014) % 8 = 4 := by omega
  have h8 : (0x4000000 + 0x100000 * c.val + 0x80010) % 8 = 0 := by omega
  have hreach := State.reaches_aligned h
  rw [hdiv] at hreach
  obtain ⟨-, hg, -⟩ := (State.reaches_iff h8 hb).mp hreach
  rw [State.putChain, coreBase_seqOf, State.put4, hdiv, hmod]
  refine (State.putAccess_reaches h8 hb hreach 0xF0 ((v.setWidth 64 : Word) <<< 32)).trans (congrArg _ ?_)
  rw [State.csrWrite_high hb hg hw hw', State.regWrite_chain s (by omega) (by omega)]
  exact congrArg (s.chainCtl c) (half_above v)

/-- A write of CORE_EXCTL that its path carries reaches the register. -/
theorem State.putChain_exctl (h : s.reaches src (0x4000000 + 0x100000 * c.val + 0x80050) = true) (v : Half) :
    s.putChain src c 0x80050 v [] = .next (s.exctl c v) := by
  obtain ⟨-, hb⟩ := blockOf_chain c
  obtain ⟨-, -, hw⟩ := regWidth_chain c
  have h8 : (0x4000000 + 0x100000 * c.val + 0x80050) % 8 = 0 := by omega
  obtain ⟨-, hg, -⟩ := (State.reaches_iff h8 hb).mp h
  rw [State.putChain, coreBase_seqOf, State.put4, h8, div_eight_mul_eight h8]
  refine (State.putAccess_reaches h8 hb h 0x0F ((v.setWidth 64 : Word) <<< 0)).trans (congrArg _ ?_)
  rw [State.csrWrite_low hb hg hw, State.regWrite_chain s (by omega) (by omega), BitVec.shiftLeft_zero]
  exact congrArg (s.exctl c) (setWidth_half v)

end

/-! ## What the registers do -/

theorem exec_chainStop (src : Src) (c : ChainId) (s : State) : exec (.chainStop src c) s = s.putChain src c 0x80014 1 [] := rfl
theorem exec_flushQ (src : Src) (c : ChainId) (s : State) : exec (.flushQ src c) s = s.putChain src c 0x80014 2 [] := rfl
theorem exec_clrMsc (src : Src) (c : ChainId) (s : State) : exec (.clrMsc src c) s = s.putChain src c 0x80014 4 [] := rfl
theorem exec_exctlRestart (src : Src) (c : ChainId) (f : Bool) (s : State) :
    exec (.exctlRestart src c f) s = s.putChain src c 0x80050 (if f then 0x101 else 1) [] := rfl
theorem exec_exctlReplay (src : Src) (c : ChainId) (f : Bool) (s : State) :
    exec (.exctlReplay src c f) s = s.putChain src c 0x80050 (if f then 0x102 else 2) [] := rfl
theorem exec_exctlAbandon (src : Src) (c : ChainId) (s : State) :
    exec (.exctlAbandon src c) s = s.putChain src c 0x80050 3 [] := rfl

theorem State.modChain_congr {s : State} {c : ChainId} {f g : Chain → Chain} (h : f s.chains[c] = g s.chains[c]) :
    s.modChain c f = s.modChain c g := by rw [State.modChain, h]; rfl

/-- CST.STATE is 0 on a chain that neither is halted nor stops nor holds a launch or a drain. -/
theorem Chain.stateCode_eq_zero (h : Chain) : h.stateCode = 0 ↔ h.exc = false ∧ h.stopReq = false ∧ h.idle = true := by
  unfold Chain.stateCode
  cases h.exc <;> cases h.stopReq <;> cases h.idle <;> decide

theorem Chain.applyCaLoads_none {h : Chain} (hnone : h.caLoads = []) : h.applyCaLoads = h := by
  obtain ⟨⟩ := h
  subst hnone
  rfl

theorem State.dropQueued_noLoads {s : State} {c : ChainId} (h : s.chains[c].caLoads = []) :
    s.dropQueued c = s.modChain c fun x => { x with queued := none } :=
  State.modChain_congr (Chain.applyCaLoads_none h)

theorem State.chainCtl_stop (s : State) (c : ChainId) : s.chainCtl c 1 = s.requestStop c := rfl

theorem State.chainCtl_flush (s : State) (c : ChainId) : s.chainCtl c 2 = s.dropQueued c := rfl

theorem State.chainCtl_clrMsc (s : State) (c : ChainId) : s.chainCtl c 4 = s.clrMsc c := rfl

theorem State.exctl_running {s : State} {c : ChainId} (h : s.chains[c].exc = false) (v : Half) : s.exctl c v = s := by
  rw [State.exctl, h]
  rfl

theorem State.exctl_restart {s : State} {c : ChainId} (h : s.chains[c].exc = true) (f : Bool) :
    s.exctl c (if f then 0x101 else 1) = s.restart c false f := by
  rw [State.exctl, h]
  cases f <;> rfl

theorem State.exctl_replay {s : State} {c : ChainId} (h : s.chains[c].exc = true) (f : Bool) :
    s.exctl c (if f then 0x102 else 2) = s.restart c true f := by
  rw [State.exctl, h]
  cases f <;> rfl

theorem State.exctl_abandon {s : State} {c : ChainId} (h : s.chains[c].exc = true) : s.exctl c 3 = s.abandon c := by
  rw [State.exctl, h]
  rfl

/-- The aborted strip enters Translate again. -/
theorem State.restart_halted {s : State} {c : ChainId} {r : Run} (hexc : s.chains[c].exc = true)
    (hrun : s.chains[c].run = some r) (replay f : Bool) : s.restart c replay f = s.modChain c fun x => { x with
      exc := false
      run := some { r with
        trans := some { k := r.nextK, map := [], done := false, waiting := false, replay := replay, flushOnce := f,
                        restarted := true, opa := s.chains[c].opa.toNat, opb := s.chains[c].opb.toNat,
                        act := r.launch.sizeOf r.nextK, dir := [] }
        nextK := r.nextK + 1 } } := by
  rw [State.restart, hexc]
  refine (if_neg (by decide)).trans (State.modChain_congr ?_)
  rw [hrun]
  rfl

theorem State.requestStop_chainOnly (s : State) (c : ChainId) : (s.requestStop c).ChainOnly s c := by
  unfold State.requestStop
  dsimp only
  split
  · exact s.abandon_chainOnly c
  · split
    · exact .refl s c
    · exact s.beginStop_chainOnly c 1

theorem State.requestStop_halted {s : State} {c : ChainId} (h : s.chains[c].exc = true) : s.requestStop c = s.abandon c :=
  if_pos h

theorem State.requestStop_stopping {s : State} {c : ChainId} (hexc : s.chains[c].exc = false)
    (h : s.chains[c].stopReq = true) : s.requestStop c = s := by
  rw [State.requestStop, hexc, h]
  rfl

theorem State.requestStop_running {s : State} {c : ChainId} (hexc : s.chains[c].exc = false)
    (h : s.chains[c].stopReq = false) : s.requestStop c = s.beginStop c 1 := by
  rw [State.requestStop, hexc, h]
  rfl

/-- What any stop request leaves of a chain's drains and of MSC. -/
theorem State.requestStop_drains (s : State) (c : ChainId) :
    (s.requestStop c).chains[c].drains = s.chains[c].drains ∧ (s.requestStop c).chains[c].msc = s.chains[c].msc := by
  unfold State.requestStop
  dsimp only
  split
  · obtain ⟨_, _, _, _, _, h, -⟩ := s.abandon_chain c
    exact ⟨by rw [h], by rw [h]⟩
  · split
    · exact ⟨rfl, rfl⟩
    · obtain ⟨_, _, _, _, _, _, _, h, -⟩ := s.beginStop_chain c 1
      exact ⟨by rw [h], by rw [h]⟩

end Sys2Proof.Machine

namespace Sys2Proof.Proofs
open Sys2Proof.Machine

/-- Settles O8: each register write reaches its chain, and acts by the state in which it finds the chain. -/
theorem chainControlActs : Obligations.ChainControlActs := by
  unfold Obligations.ChainControlActs
  intro src c s h at' ended
  have habandon : ended (s.abandon c) := by
    obtain ⟨_, _, _, _, _, hu, -⟩ := s.abandon_chain c
    exact ⟨by rw [hu], by rw [hu], by rw [hu], by rw [hu]⟩
  refine ⟨fun hat => ?_, fun hat hloads => ?_, fun hat => ?_, fun f r hat hexc hrun => ?_, fun hat hexc => ?_,
    fun f hat hexc => ?_⟩
  · have hframe := s.requestStop_chainOnly c
    obtain ⟨hdrains, hmsc⟩ := s.requestStop_drains c
    refine ⟨s.requestStop c, by rw [exec_chainStop, State.putChain_ctl hat, State.chainCtl_stop], hframe.mem, hframe.cores,
      hframe.chains, hdrains, hmsc, fun hexc => ?_, State.requestStop_stopping, fun hexc hstop => ?_⟩
    · rw [State.requestStop_halted hexc]
      exact habandon
    · rw [State.requestStop_running hexc hstop]
      obtain ⟨_, _, _, _, _, _, _, hu, -⟩ := s.beginStop_chain c 1
      exact ⟨by rw [hu], by rw [hu], fun r hrun => ⟨State.beginStop_run_ends hrun 1,
        fun t => State.beginStop_run_restarted hrun 1, fun hstrips => State.beginStop_run_strips hrun 1 hstrips (by decide)⟩⟩
  · rw [exec_flushQ, State.putChain_ctl hat, State.chainCtl_flush, State.dropQueued_noLoads hloads]
  · rw [exec_clrMsc, State.putChain_ctl hat, State.chainCtl_clrMsc, State.clrMsc]
    exact congrArg _ (if_congr (Chain.stateCode_eq_zero h) rfl rfl)
  · rw [exec_exctlRestart, exec_exctlReplay, State.putChain_exctl hat, State.putChain_exctl hat, State.exctl_restart hexc,
      State.exctl_replay hexc, State.restart_halted hexc hrun, State.restart_halted hexc hrun]
    exact ⟨rfl, rfl⟩
  · have hframe := s.abandon_chainOnly c
    refine ⟨s.abandon c, by rw [exec_exctlAbandon, State.putChain_exctl hat, State.exctl_abandon hexc], habandon, hframe.mem,
      hframe.cores, hframe.chains⟩
  · rw [exec_exctlRestart, exec_exctlReplay, exec_exctlAbandon, State.putChain_exctl hat, State.putChain_exctl hat,
      State.putChain_exctl hat, State.exctl_running hexc, State.exctl_running hexc, State.exctl_running hexc]
    exact ⟨rfl, rfl, rfl⟩

end Sys2Proof.Proofs
end

section
/-! The proof of O7 (04 R69, R85; 05 R99; 08 R174 to R178; 11 R240): aborts, failed accesses and the end of a stop. -/

namespace Sys2Proof.Machine

theorem exec_stripAbort (c : ChainId) (s : State) : exec (.stripAbort c) s = .next (s.stripAbort c) := rfl
theorem exec_streamAccessFailure (c : ChainId) (i : Fin 2) (s : State) :
    exec (.streamAccessFailure c i) s = .next (s.accessFailure c i) := rfl
theorem exec_chainStopped (c : ChainId) (s : State) : exec (.chainStopped c) s = .next (s.chainStopped c) := rfl

/-! ## Aborts (08 R174 to R178) -/

/-- The record of an abort, and the launch without its issued strips. -/
def Chain.aborted (h : Chain) (r : Run) (t : Strip) (a : Abort) : Chain :=
  { h with
    exs := exsOf t a
    expos := BitVec.ofNat 64 a.pos
    exval0 := a.val0
    exval1 := a.val1
    cause := none
    run := some { r with
      strips := [], trans := none, nextK := t.k
      again := if r.strips.length = 2 then some (t.k + 1) else r.again } }

section
variable {s : State} {c : ChainId} {r : Run} {t : Strip} {rest : List Strip} {a : Abort} (hrun : s.chains[c].run = some r)
  (hstrips : r.strips = t :: rest) (habort : t.abort = some a) (hdrained : t.drained r.launch = true)
include hrun hstrips habort hdrained

theorem State.stripAbort_eq : s.stripAbort c = if s.chains[c].stopReq then
      (s.modChain c fun h => h.aborted r t a).endLaunch c
    else ((s.modChain c fun h => h.aborted r t a).modChain c fun h => { h with exc := true, excHeld := true }).trim c := by
  have hmod : (s.modChain c fun h => { h with
      exs := exsOf t a, expos := BitVec.ofNat 64 a.pos, exval0 := a.val0, exval1 := a.val1, cause := none
      run := h.run.map fun r => { r with
        strips := [], trans := none, nextK := t.k
        again := if r.strips.length = 2 then some (t.k + 1) else r.again } }) = s.modChain c fun h => h.aborted r t a :=
    State.modChain_congr (by rw [hrun]; rfl)
  simp only [State.stripAbort, hrun, hstrips, habort, hdrained, Bool.not_true, Bool.false_eq_true, if_false]
  rw [hmod]

theorem State.stripAbort_chainOnly : (s.stripAbort c).ChainOnly s c := by
  have hrecord := s.modChain_chainOnly c fun h => h.aborted r t a
  rw [State.stripAbort_eq hrun hstrips habort hdrained]
  split
  · exact (State.endLaunch_chainOnly _ c).trans hrecord
  · exact (State.trim_buffersOnly _ c).toChainOnly.trans ((State.modChain_chainOnly _ c _).trans hrecord)

/-- The chain halts. -/
theorem State.stripAbort_halts (hstop : s.chains[c].stopReq = false) : (s.stripAbort c).chains[c].SameButBuffers
    { s.chains[c].aborted r t a with exc := true, excHeld := true } := by
  rw [State.stripAbort_eq hrun hstrips habort hdrained, hstop, if_neg Bool.false_ne_true, State.modChain_modChain]
  have htrim := (State.trim_buffersOnly (s.modChain c fun h => { h.aborted r t a with exc := true, excHeld := true }) c).chain
  rw [State.modChain_same] at htrim
  exact htrim

/-- In a stop the launch ends. -/
theorem State.stripAbort_ends (hstop : s.chains[c].stopReq = true) : (s.stripAbort c).chains[c].SameButLoads
    { s.chains[c].aborted r t a with run := none, lwait := false } := by
  rw [State.stripAbort_eq hrun hstrips habort hdrained, if_pos hstop]
  have hend := State.endLaunch_chain (s.modChain c fun h => h.aborted r t a) c
  rw [State.modChain_same] at hend
  exact hend

end

/-! ## Failed accesses (05 R99) -/

section
variable {s : State} {c : ChainId} {r : Run} {i : Nat} (hrun : s.chains[c].run = some r) (hi : i < r.strips.length)
  (hstop : s.chains[c].stopReq = false)
include hrun hi hstop

/-- Strip `i` and every younger one are discarded, and the chain stops. -/
theorem State.accessFailure_eq : s.accessFailure c i = (s.modChain c fun h => { h with
    failed := true, run := some { r with trans := none, strips := r.strips.take i } }).beginStop c 1 := by
  have hmod : (s.modChain c fun h => { h with
      failed := true, run := h.run.map fun r => { r with trans := none, strips := r.strips.take i } }) =
      s.modChain c fun h => { h with failed := true, run := some { r with trans := none, strips := r.strips.take i } } :=
    State.modChain_congr (by rw [hrun]; rfl)
  simp only [State.accessFailure, hrun, hi, if_true]
  rw [hmod, State.modChain_same, hstop, if_neg Bool.false_ne_true]

theorem State.accessFailure_chainOnly : (s.accessFailure c i).ChainOnly s c := by
  rw [State.accessFailure_eq hrun hi hstop]
  exact (State.beginStop_chainOnly _ c 1).trans (s.modChain_chainOnly c _)

theorem State.accessFailure_chain : ∃ lwait cause run, (s.accessFailure c i).chains[c].SameButLoads { s.chains[c] with
    failed := true, queued := none, stopReq := true, lwait := lwait, cause := cause, run := run } := by
  rw [State.accessFailure_eq hrun hi hstop]
  obtain ⟨lwait, cause, h⟩ := State.beginStop_chain (s.modChain c fun h => { h with
    failed := true, run := some { r with trans := none, strips := r.strips.take i } }) c 1
  rw [State.modChain_same] at h
  exact ⟨lwait, cause, _, h⟩

theorem State.accessFailure_run : (s.accessFailure c i).chains[c].run =
    if i = 0 then none else some { r with trans := none, strips := r.strips.take 1 } := by
  have hcut : (s.modChain c fun h => { h with
      failed := true, run := some { r with trans := none, strips := r.strips.take i } }).chains[c].run =
      some { r with trans := none, strips := r.strips.take i } := by rw [State.modChain_same]
  rw [State.accessFailure_eq hrun hi hstop]
  split
  · next h0 =>
    subst h0
    exact State.beginStop_run_ends hcut 1 rfl fun _ h => nomatch h
  · next h0 =>
    have hsome : r.strips.take i ≠ [] := by
      rw [← List.length_pos_iff_ne_nil, List.length_take]
      omega
    rw [State.beginStop_run_strips hcut 1 hsome (by decide), List.take_take, Nat.min_eq_left (by omega)]

end

end Sys2Proof.Machine

namespace Sys2Proof.Proofs
open Sys2Proof.Machine

/-- Settles O7: an abort is recorded and takes every issued strip with it, a failed access begins a stop, and a stop ends with
the last drain. -/
theorem stripsAbortAndChainsStop : Obligations.StripsAbortAndChainsStop := by
  unfold Obligations.StripsAbortAndChainsStop
  refine ⟨fun c r t rest a s hrun hstrips habort hdrained => ?_, fun c i r s hrun hi hstop => ?_,
    fun c s hstop hrun hdrains => ?_⟩
  · have hframe := State.stripAbort_chainOnly hrun hstrips habort hdrained
    have hagain : (r.strips.length = 2) = (rest.length = 1) := by simp [hstrips]
    refine ⟨s.stripAbort c, exec_stripAbort c s, hframe.mem, hframe.cores, hframe.chains, ?_⟩
    cases hstop : s.chains[c].stopReq with
    | false =>
      obtain ⟨_, _, _, hu⟩ := State.stripAbort_halts hrun hstrips habort hdrained hstop
      simp only [← hagain]
      rw [hu]
      exact ⟨rfl, rfl, rfl, rfl, rfl, rfl, rfl, rfl, fun _ => ⟨rfl, rfl, rfl, rfl⟩, rfl, fun h => nomatch h⟩
    | true =>
      obtain ⟨_, _, _, _, _, hu, -⟩ := State.stripAbort_ends hrun hstrips habort hdrained hstop
      rw [hu]
      exact ⟨rfl, rfl, rfl, rfl, rfl, rfl, rfl, rfl, fun h => (nomatch h), rfl, fun _ => ⟨rfl, rfl⟩⟩
  · have hframe := State.accessFailure_chainOnly hrun hi hstop
    have hend := State.accessFailure_run hrun hi hstop
    obtain ⟨_, _, _, _, _, _, _, _, hu, -⟩ := State.accessFailure_chain hrun hi hstop
    refine ⟨s.accessFailure c i, exec_streamAccessFailure c i s, hframe.mem, hframe.cores, hframe.chains, by rw [hu],
      by rw [hu], by rw [hu], by rw [hu], by rw [hu], fun h0 => ?_, fun h1 => ?_⟩
    · rw [hend, if_pos h0]
    · rw [hend, if_neg (by omega)]
  · rw [exec_chainStopped, State.chainStopped, hstop, hrun, hdrains]
    rfl

end Sys2Proof.Proofs
end

section
/-! The begin of a launch and the grants of buffers, for O45 (04 R61 to R64, R78; 05 R106). -/

namespace Sys2Proof.Machine

theorem exec_launchBegin (c : ChainId) (s : State) : exec (.launchBegin c) s = .next (s.launchBegin c) := rfl
theorem exec_reservationGrant (k : ClusterId) (s : State) : exec (.reservationGrant k) s = .next (s.reservationGrant k) := rfl
theorem exec_bufferGrant (k : ClusterId) (s : State) : exec (.bufferGrant k) s = .next (s.bufferGrant k) := rfl

/-! ## Reservations (04 R63, R64) -/

/-- What several streams gain, each once. -/
theorem Chain.foldl_setHeld_add (per : Vector Nat 6) (l : List (Fin 6)) (hl : l.Nodup) : ∀ h : Chain, ∃ held peak,
    l.foldl (fun h i => h.setHeld i (h.held[i] + per[i])) h = { h with held := held, peak := peak } ∧
      ∀ j : Fin 6, held[j] = h.held[j] + if j ∈ l then per[j] else 0 := by
  induction l with
  | nil => exact fun h => ⟨h.held, h.peak, rfl, fun j => by simp⟩
  | cons i l ih =>
    intro h
    obtain ⟨hi, hl⟩ := List.nodup_cons.mp hl
    obtain ⟨held, peak, hfold, hheld⟩ := ih hl (h.setHeld i (h.held[i] + per[i]))
    refine ⟨held, peak, hfold, fun j => ?_⟩
    rw [hheld j]
    by_cases hj : j = i
    · subst hj
      simp [Chain.setHeld, hi]
    · have hne : i.val ≠ j.val := fun e => hj (Fin.ext e.symm)
      simp [Chain.setHeld, hj, hne]

theorem streams6_nodup : streams6.Nodup := by decide

theorem mem_streams6 : ∀ i : Fin 6, i ∈ streams6 := by decide

theorem State.grant_chainOnly (s : State) (c : ChainId) (l : Launch) (need : Nat) : (s.grant c l need).ChainOnly s c := by
  unfold State.grant
  exact (State.modChain_chainOnly _ c _).trans (s.modPool_chainOnly c _)

theorem State.grant_pool (s : State) (c : ChainId) (l : Launch) (need : Nat) :
    (s.grant c l need).pools[clusterOf c] = { s.pools[clusterOf c] with
      free := s.pools[clusterOf c].free - need, reserved := s.pools[clusterOf c].reserved + need } := by
  unfold State.grant
  dsimp only
  rw [State.modChain_pools, State.modPool_same]

/-- The launch holds its reservation, and each stream what it needs of it. -/
theorem State.grant_chain (s : State) (c : ChainId) (l : Launch) (need : Nat) : ∃ held peak resv,
    (s.grant c l need).chains[c] = { s.chains[c] with
      lwait := false, run := s.chains[c].run.map (fun r => { r with granted := true })
      held := held, peak := peak, resv := resv } ∧
    ∀ i : Fin 6, held[i] = s.chains[c].held[i] + l.perStream[i] := by
  obtain ⟨held, peak, hfold, hheld⟩ := Chain.foldl_setHeld_add l.perStream streams6 streams6_nodup { s.chains[c] with
    lwait := false
    resv := s.chains[c].resv ++ [{ serial := l.serial, total := need, per := l.perStream }]
    run := s.chains[c].run.map fun r => { r with granted := true } }
  refine ⟨held, peak, s.chains[c].resv ++ [{ serial := l.serial, total := need, per := l.perStream }], ?_, fun i => ?_⟩
  · unfold State.grant
    exact (State.modChain_same _ c _).trans hfold
  · rw [hheld i, if_pos (mem_streams6 i)]

/-! ## Launches begin (04 R61 to R64, R78) -/

/-- The accumulators that a launch clears. -/
theorem Chain.caClear_ca (h : Chain) (mask : BitVec 8) : ∃ ca cas, h.caClear mask = { h with ca := ca, cas := cas } ∧
    ∀ i : Fin 8, ca[i] = if mask.getLsbD i.val then 0 else h.ca[i] := by
  have hfold : ∀ (l : List (Fin 8)) (h : Chain), ∃ ca cas, l.foldl (fun (c : Chain) (i : Fin 8) =>
      if mask.getLsbD i then
        { c with ca := c.ca.set i 0, cas := c.cas &&& ~~~((0xF : Half) <<< (4 * i.val)) }
      else c) h = { h with ca := ca, cas := cas } ∧
      ∀ i : Fin 8, ca[i] = if i ∈ l ∧ mask.getLsbD i.val then 0 else h.ca[i] := fun l => by
    induction l with
    | nil => exact fun h => ⟨h.ca, h.cas, rfl, fun i => by simp⟩
    | cons k l ih =>
      intro h
      obtain ⟨ca, cas, hl, hca⟩ := ih (if mask.getLsbD k then
        { h with ca := h.ca.set k 0, cas := h.cas &&& ~~~((0xF : Half) <<< (4 * k.val)) } else h)
      refine ⟨ca, cas, hl.trans (by split <;> rfl), fun i => ?_⟩
      rw [hca i]
      by_cases hi : i = k
      · subst hi
        by_cases hm : mask.getLsbD i.val <;> simp [hm, -BitVec.getLsbD_eq_getElem]
      · have hne : k.val ≠ i.val := fun e => hi (Fin.ext e.symm)
        by_cases hm : mask.getLsbD k.val <;> simp [hm, hi, hne, -BitVec.getLsbD_eq_getElem]
  obtain ⟨ca, cas, hl, hca⟩ := hfold [0, 1, 2, 3, 4, 5, 6, 7] h
  have hall : ∀ i : Fin 8, i ∈ ([0, 1, 2, 3, 4, 5, 6, 7] : List (Fin 8)) := by decide
  exact ⟨ca, cas, hl, fun i => by rw [hca i]; simp only [hall i, true_and]⟩

/-- The chain as its queued launch begins. -/
def Chain.begun (h : Chain) (l : Launch) : Chain :=
  { h.caClear l.caClear with
    queued := none
    run := some (Run.start l (reservation l.stations l.sregs l.sl))
    opa := 0
    opb := 0
    markCnt := 0
    peak := h.held }

theorem Chain.begun_eq (h : Chain) (l : Launch) : ∃ ca cas, h.begun l = { h with
      queued := none, run := some (Run.start l (reservation l.stations l.sregs l.sl)), opa := 0, opb := 0, markCnt := 0
      peak := h.held, ca := ca, cas := cas } ∧
    ∀ i : Fin 8, ca[i] = if l.caClear.getLsbD i.val then 0 else h.ca[i] := by
  obtain ⟨ca, cas, hclear, hca⟩ := h.caClear_ca l.caClear
  exact ⟨ca, cas, by rw [Chain.begun, hclear], hca⟩

/-- What the begin of a launch leaves of its chain, whether it holds its reservation, waits for it or has ended. -/
def Chain.BegunFrom (g h : Chain) (l : Launch) : Prop :=
  g.queued = none ∧ g.opa = 0 ∧ g.opb = 0 ∧ g.markCnt = 0 ∧ g.msc = h.msc ∧
    (h.caLoads = [] → ∀ i : Fin 8, g.ca[i] = if l.caClear.getLsbD i.val then 0 else h.ca[i])

section
variable {s : State} {c : ChainId} {l : Launch} (hrun : s.chains[c].run = none) (hqueued : s.chains[c].queued = some l)
  (hstop : s.chains[c].stopReq = false) (hexc : s.chains[c].exc = false) (hheld : s.chains[c].excHeld = false)
  (hcause : s.chains[c].cause = none)
include hrun hqueued hstop hexc hheld hcause

theorem State.launchBegin_eq : s.launchBegin c =
    if l.n = 0 then (s.modChain c (·.begun l)).endLaunch c
    else if s.pools[clusterOf c].waiting.isEmpty && reservation l.stations l.sregs l.sl ≤ s.pools[clusterOf c].free then
      (s.modChain c (·.begun l)).grant c l (reservation l.stations l.sregs l.sl)
    else ((s.modChain c (·.begun l)).modPool (clusterOf c) fun p => { p with waiting := p.waiting ++ [c] }).modChain c
      fun h => { h with lwait := true } := by
  have hbegun : (s.modChain c fun h =>
      let h := h.caClear l.caClear
      { h with
        queued := none, run := some (Run.start l (reservation l.stations l.sregs l.sl)), opa := 0, opb := 0, markCnt := 0
        peak := h.held }) = s.modChain c (·.begun l) := by
    refine State.modChain_congr ?_
    obtain ⟨ca, cas, hclear, -⟩ := s.chains[c].caClear_ca l.caClear
    simp only [Chain.begun, hclear]
  simp only [State.launchBegin, hrun, hqueued, hstop, hexc, hheld, hcause, Option.isSome_none, Bool.or_self,
    Bool.false_eq_true, if_false]
  rw [hbegun]
  rfl

theorem State.launchBegin_chainOnly : (s.launchBegin c).ChainOnly s c := by
  have hbegun := s.modChain_chainOnly c (·.begun l)
  rw [State.launchBegin_eq hrun hqueued hstop hexc hheld hcause]
  split
  · exact (State.endLaunch_chainOnly _ c).trans hbegun
  · split
    · exact (State.grant_chainOnly _ c _ _).trans hbegun
    · exact (State.modChain_chainOnly _ c _).trans ((State.modPool_chainOnly _ c _).trans hbegun)

/-- A launch of no elements ends. -/
theorem State.launchBegin_empty (hn : l.n = 0) :
    (s.launchBegin c).chains[c].BegunFrom s.chains[c] l ∧ (s.launchBegin c).chains[c].run = none := by
  obtain ⟨ca, cas, hbegun, hca⟩ := s.chains[c].begun_eq l
  obtain ⟨_, _, _, ca', _, hend, hca'⟩ := State.endLaunch_chain (s.modChain c (·.begun l)) c
  rw [State.modChain_same, hbegun] at hend hca'
  rw [State.launchBegin_eq hrun hqueued hstop hexc hheld hcause, if_pos hn, hend]
  refine ⟨⟨rfl, rfl, rfl, rfl, rfl, fun hloads i => ?_⟩, rfl⟩
  rw [← hca i, (hca' hloads).1]

/-- A launch whose reservation fits, in a cluster where none waits, holds it at once. -/
theorem State.launchBegin_granted (hn : l.n ≠ 0) (hwait : s.pools[clusterOf c].waiting = [])
    (hfit : reservation l.stations l.sregs l.sl ≤ s.pools[clusterOf c].free) :
    let need := reservation l.stations l.sregs l.sl
    (s.launchBegin c).chains[c].BegunFrom s.chains[c] l ∧
      (s.launchBegin c).chains[c].run = some { Run.start l need with granted := true } ∧
      (s.launchBegin c).chains[c].lwait = false ∧
      (s.launchBegin c).pools[clusterOf c] = { s.pools[clusterOf c] with
        free := s.pools[clusterOf c].free - need, reserved := s.pools[clusterOf c].reserved + need } ∧
      ∀ i : Fin 6, (s.launchBegin c).chains[c].held[i] = s.chains[c].held[i] + l.perStream[i] := by
  intro need
  obtain ⟨ca, cas, hbegun, hca⟩ := s.chains[c].begun_eq l
  obtain ⟨held, _, _, hgrant, hadd⟩ := State.grant_chain (s.modChain c (·.begun l)) c l need
  rw [State.modChain_same, hbegun] at hgrant hadd
  rw [State.launchBegin_eq hrun hqueued hstop hexc hheld hcause, if_neg hn, hwait, if_pos (by simpa using hfit), hgrant]
  exact ⟨⟨rfl, rfl, rfl, rfl, rfl, fun _ => hca⟩, rfl, rfl, State.grant_pool .., hadd⟩

/-- Any other launch waits behind those of its cluster. -/
theorem State.launchBegin_waits (hn : l.n ≠ 0) (hwait : s.pools[clusterOf c].waiting ≠ [] ∨
      s.pools[clusterOf c].free < reservation l.stations l.sregs l.sl) :
    (s.launchBegin c).chains[c].BegunFrom s.chains[c] l ∧
      (s.launchBegin c).chains[c].run = some (Run.start l (reservation l.stations l.sregs l.sl)) ∧
      (s.launchBegin c).chains[c].lwait = true ∧ (s.launchBegin c).chains[c].held = s.chains[c].held ∧
      (s.launchBegin c).pools[clusterOf c] =
        { s.pools[clusterOf c] with waiting := s.pools[clusterOf c].waiting ++ [c] } := by
  obtain ⟨ca, cas, hbegun, hca⟩ := s.chains[c].begun_eq l
  have hno : ¬ (s.pools[clusterOf c].waiting.isEmpty &&
      decide (reservation l.stations l.sregs l.sl ≤ s.pools[clusterOf c].free)) = true := by
    rw [Bool.and_eq_true, List.isEmpty_iff, decide_eq_true_eq]
    exact fun h => hwait.elim (· h.1) fun hlt => by omega
  rw [State.launchBegin_eq hrun hqueued hstop hexc hheld hcause, if_neg hn, if_neg hno, State.modChain_same,
    State.modPool_chains, State.modChain_same, hbegun, State.modChain_pools, State.modPool_same, State.modChain_pools]
  exact ⟨⟨rfl, rfl, rfl, rfl, rfl, fun _ => hca⟩, rfl, rfl, rfl, rfl⟩

end

/-! ## Grants (04 R64; 05 R106) -/

/-- The launch that waits first gets its reservation. -/
theorem State.reservationGrant_eq {s : State} {c : ChainId} {rest : List ChainId} {r : Run}
    (hwait : s.pools[clusterOf c].waiting = c :: rest) (hrun : s.chains[c].run = some r)
    (hfit : r.need ≤ s.pools[clusterOf c].free) : s.reservationGrant (clusterOf c) =
      (s.modPool (clusterOf c) fun p => { p with waiting := rest }).grant c r.launch r.need := by
  simp only [State.reservationGrant, hwait, hrun, hfit, if_true]

/-- One buffer goes to the stream of the round that asks first. -/
theorem State.bufferGrant_eq {s : State} {k : ClusterId} {c : ChainId} {i : Fin 6} {x : Nat} (hfree : s.pools[k].free ≠ 0)
    (hnext : (clusterStreams k s.pools[k].turn).find? (fun y => s.chains[y.1].asks y.2.1) = some (c, i, x)) :
    s.bufferGrant k = (s.modPool k fun p => { p with free := p.free - 1, turn := (x + 1) % 48 }).modChain c
      fun h => h.setHeld i (h.held[i] + 1) := by
  simp only [State.bufferGrant, hfree, if_false, hnext]

theorem Chain.setHeld_same (h : Chain) (i : Fin 6) (n : Nat) : (h.setHeld i n).held[i] = n := by simp [Chain.setHeld]

theorem Chain.setHeld_other (h : Chain) {i j : Fin 6} (n : Nat) (hj : j ≠ i) : (h.setHeld i n).held[j] = h.held[j] := by
  have hne : i.val ≠ j.val := fun e => hj (Fin.ext e.symm)
  simp [Chain.setHeld, hne]

end Sys2Proof.Machine

namespace Sys2Proof.Proofs
open Sys2Proof.Machine

theorem launchesBeginAndReserve : Sys2Proof.Claims.LaunchesBeginAndReserve := by
  unfold Sys2Proof.Claims.LaunchesBeginAndReserve
  refine ⟨fun c l s => ?_, fun k c rest r s hwait hk hrun hfit => ?_⟩
  · intro h p need hrun hqueued hstop hexc hheld hcause
    have hframe := State.launchBegin_chainOnly hrun hqueued hstop hexc hheld hcause
    have hbegun : (s.launchBegin c).chains[c].BegunFrom h l := by
      by_cases hn : l.n = 0
      · exact (State.launchBegin_empty hrun hqueued hstop hexc hheld hcause hn).1
      · by_cases hwait : p.waiting = [] ∧ need ≤ p.free
        · exact (State.launchBegin_granted hrun hqueued hstop hexc hheld hcause hn hwait.1 hwait.2).1
        · refine (State.launchBegin_waits hrun hqueued hstop hexc hheld hcause hn ?_).1
          exact (Decidable.not_and_iff_or_not.mp hwait).imp_right Nat.lt_of_not_le
    obtain ⟨hqueue, hopa, hopb, hmark, hmsc, hca⟩ := hbegun
    exact ⟨s.launchBegin c, exec_launchBegin c s, hframe.mem, hframe.cores, hframe.out, hframe.chains, hframe.pools, hqueue,
      hopa, hopb, hmark, hmsc, hca,
      fun hn => (State.launchBegin_empty hrun hqueued hstop hexc hheld hcause hn).2,
      fun hn hwait hfit => (State.launchBegin_granted hrun hqueued hstop hexc hheld hcause hn hwait hfit).2,
      fun hn hwait => (State.launchBegin_waits hrun hqueued hstop hexc hheld hcause hn hwait).2⟩
  · subst hk
    have hframe := (State.grant_chainOnly (s.modPool (clusterOf c) fun p => { p with waiting := rest }) c r.launch r.need).trans
      (s.modPool_chainOnly c _)
    obtain ⟨held, _, _, hgrant, hadd⟩ :=
      State.grant_chain (s.modPool (clusterOf c) fun p => { p with waiting := rest }) c r.launch r.need
    rw [State.modPool_chains] at hgrant hadd
    refine ⟨_, (exec_reservationGrant _ s).trans (congrArg _ (State.reservationGrant_eq hwait hrun hfit)), hframe.mem,
      hframe.cores, ?_, ?_, ?_, ?_, hframe.chains⟩
    · rw [hgrant, hrun]
      rfl
    · rw [hgrant]
    · rw [State.grant_pool, State.modPool_same]
    · rw [hgrant]
      exact hadd

end Sys2Proof.Proofs
end

section
/-! The proof of O45 (04 R68, R73; 08 R174): strips issue. -/

namespace Sys2Proof.Machine

theorem exec_stripIssue (c : ChainId) (s : State) : exec (.stripIssue c) s = .next (s.stripIssue c) := rfl

/-! ## The limit of COUNT (04 R73) -/

theorem State.wrapStop_below {s : State} {c : ChainId} {r : Run} (hrun : s.chains[c].run = some r)
    (hroom : s.chains[c].msc.toNat + r.strips.length < 2 ^ 40 - 1) : s.wrapStop c = s := by
  have hno : ¬ 2 ^ 40 - 1 ≤ s.chains[c].msc.toNat + r.strips.length := by omega
  simp only [State.wrapStop, hrun, hno, decide_false, Bool.false_and, Bool.false_eq_true, if_false]

/-- The chain stops. -/
theorem State.wrapStop_reached {s : State} {c : ChainId} {r : Run} (hrun : s.chains[c].run = some r)
    (hfull : 2 ^ 40 - 1 ≤ s.chains[c].msc.toNat + r.strips.length) (hexc : s.chains[c].exc = false)
    (hstop : s.chains[c].stopReq = false) :
    s.wrapStop c = (s.modChain c fun h => { h with wrapped := true }).beginStop c 1 := by
  simp only [State.wrapStop, hrun, hfull, hstop, decide_true, Bool.not_false, Bool.and_self, if_true]
  exact State.requestStop_running (by rw [State.modChain_same]; exact hexc) (by rw [State.modChain_same]; exact hstop)

/-- What a stop at the limit leaves of a chain. -/
def State.WrappedFrom (u s : State) (c : ChainId) : Prop :=
  u.chains[c].stopReq = true ∧ u.chains[c].wrapped = true ∧ u.chains[c].queued = none ∧
    u.chains[c].msc = s.chains[c].msc ∧ u.mem = s.mem ∧ u.cores = s.cores

theorem State.wrapStop_wrapped {s : State} {c : ChainId} {r : Run} (hrun : s.chains[c].run = some r)
    (hfull : 2 ^ 40 - 1 ≤ s.chains[c].msc.toNat + r.strips.length) (hexc : s.chains[c].exc = false)
    (hstop : s.chains[c].stopReq = false) : (s.wrapStop c).WrappedFrom s c := by
  rw [State.wrapStop_reached hrun hfull hexc hstop]
  have hframe := (State.beginStop_chainOnly (s.modChain c fun h => { h with wrapped := true }) c 1).trans
    (s.modChain_chainOnly c _)
  obtain ⟨_, _, _, _, _, _, _, hu, -⟩ := State.beginStop_chain (s.modChain c fun h => { h with wrapped := true }) c 1
  rw [State.modChain_same] at hu
  rw [State.WrappedFrom, hu]
  exact ⟨rfl, rfl, rfl, rfl, hframe.mem, hframe.cores⟩

/-! ## Issue (04 R68; 08 R174) -/

/-- A strip of the translation `t` as it issues. -/
def Run.issued (r : Run) (t : Translating) (tries : Nat) : Strip :=
  { k := t.k, att := tries + 1, size := r.launch.sizeOf t.k, map := t.map, lines := [], asked := [], rle := []
    stations := r.launch.stations.map fun _ => StationRun.start, shadows := [], marks := [], lost := 0, flags := 0
    abort := none, replay := t.replay, flushOnce := t.flushOnce, held := [], outA := 0, outB := 0 }

/-- A strip may issue behind those that have issued: behind at most one, and alone where the launch is non-restartable or the
strip was discarded with an older one. -/
def Run.hasRoom (r : Run) (t : Translating) : Prop :=
  if r.launch.nonRestart = true ∨ r.again = some t.k then r.strips = [] else r.strips.length < 2

/-- The test of the model for the room that a strip needs. -/
theorem Run.hasRoom_iff (r : Run) (t : Translating) : (if r.launch.nonRestart || decide (r.again = some t.k) then
    r.strips.isEmpty else decide (r.strips.length < 2)) = true ↔ r.hasRoom t := by
  unfold Run.hasRoom
  simp only [Bool.or_eq_true, decide_eq_true_eq]
  split
  · exact List.isEmpty_iff
  · exact decide_eq_true_iff

theorem Chain.advances_exc {h : Chain} (ha : h.advances = true) : h.exc = false := by
  simp only [Chain.advances, Bool.and_eq_true, Bool.not_eq_true'] at ha
  exact ha.1.1.1

/-- What keeps a chain from advancing. -/
theorem Chain.advances_false {h : Chain} {r : Run} {t : Translating} (hrun : h.run = some r) (htrans : r.trans = some t)
    (hwhy : (h.stopReq = true ∧ t.restarted = false) ∨ h.exc = true ∨ h.excHeld = true ∨ h.cause ≠ none) :
    h.advances = false := by
  unfold Chain.advances
  simp only [hrun, htrans, Option.map_some, Option.getD_some]
  rcases hwhy with ⟨hstop, hre⟩ | hexc | hheld | hcause
  · rw [hstop, hre]
    exact Bool.and_false _
  · rw [hexc]
    rfl
  · simp [hheld]
  · simp [Option.isNone_iff_eq_none, hcause]

section
variable {s : State} {c : ChainId} {r : Run} {t : Translating} (hrun : s.chains[c].run = some r) (htrans : r.trans = some t)
include hrun htrans

theorem State.stripIssue_kept (h : t.done = false ∨ ¬ r.hasRoom t ∨ s.chains[c].advances = false) : s.stripIssue c = s := by
  simp only [State.stripIssue, hrun, htrans]
  refine if_pos ?_
  rw [Bool.not_eq_true', ← Bool.not_eq_true, Bool.and_eq_true, Bool.and_eq_true, Run.hasRoom_iff]
  rintro ⟨⟨hdone, hroom⟩, hadv⟩
  rcases h with h | h | h
  · exact Bool.false_ne_true (h.symm.trans hdone)
  · exact h hroom
  · exact Bool.false_ne_true (h.symm.trans hadv)

variable (hdone : t.done = true) (hroom : r.hasRoom t) (hadv : s.chains[c].advances = true)
include hdone hroom hadv

theorem State.stripIssue_eq : s.stripIssue c =
    if 2 ^ 40 - 1 ≤ s.chains[c].msc.toNat + r.strips.length then s.wrapStop c
    else (s.modChain c fun x => { x with
      tries := s.chains[c].tries + 1
      run := some { r with trans := none, strips := r.strips ++ [r.issued t s.chains[c].tries] } }).wrapStop c := by
  have hmod : (s.modChain c fun h => { h with
      tries := h.tries + 1
      run := h.run.map fun x => { x with trans := none, strips := x.strips ++ [r.issued t s.chains[c].tries] } }) =
      s.modChain c fun x => { x with
        tries := s.chains[c].tries + 1
        run := some { r with trans := none, strips := r.strips ++ [r.issued t s.chains[c].tries] } } :=
    State.modChain_congr (by rw [hrun]; rfl)
  simp only [State.stripIssue, hrun, htrans]
  rw [if_neg, ← hmod]
  · rfl
  · rw [Bool.not_eq_true', ← Bool.not_eq_true, not_not, Bool.and_eq_true, Bool.and_eq_true, Run.hasRoom_iff]
    exact ⟨⟨hdone, hroom⟩, hadv⟩

/-- Below the limit the strip issues. -/
theorem State.stripIssue_issues (hbelow : s.chains[c].msc.toNat + r.strips.length + 1 < 2 ^ 40 - 1) :
    s.stripIssue c = s.modChain c fun x => { x with
      tries := s.chains[c].tries + 1
      run := some { r with trans := none, strips := r.strips ++ [r.issued t s.chains[c].tries] } } := by
  rw [State.stripIssue_eq hrun htrans hdone hroom hadv, if_neg (by omega)]
  refine State.wrapStop_below (r := { r with trans := none, strips := r.strips ++ [r.issued t s.chains[c].tries] }) ?_ ?_
  · rw [State.modChain_same]
  · rw [State.modChain_same, List.length_append]
    exact hbelow

/-- At the limit the chain stops, with this strip or before it. -/
theorem State.stripIssue_wraps (hreach : 2 ^ 40 - 1 ≤ s.chains[c].msc.toNat + r.strips.length + 1)
    (hstop : s.chains[c].stopReq = false) : (s.stripIssue c).WrappedFrom s c := by
  have hexc := Chain.advances_exc hadv
  rw [State.stripIssue_eq hrun htrans hdone hroom hadv]
  split
  · next hfull => exact State.wrapStop_wrapped hrun hfull hexc hstop
  · let u := s.modChain c fun x => { x with
      tries := s.chains[c].tries + 1
      run := some { r with trans := none, strips := r.strips ++ [r.issued t s.chains[c].tries] } }
    have hu : u.chains[c] = { s.chains[c] with
        tries := s.chains[c].tries + 1
        run := some { r with trans := none, strips := r.strips ++ [r.issued t s.chains[c].tries] } } := s.modChain_same c _
    have hwrap : (u.wrapStop c).WrappedFrom u c :=
      State.wrapStop_wrapped (r := { r with trans := none, strips := r.strips ++ [r.issued t s.chains[c].tries] })
        (by rw [hu]) (by rw [hu, List.length_append]; exact hreach) (by rw [hu]; exact hexc) (by rw [hu]; exact hstop)
    obtain ⟨hstop', hwrapped, hqueued, hmsc, hmem, hcores⟩ := hwrap
    exact ⟨hstop', hwrapped, hqueued, hmsc.trans (by rw [hu]), hmem, hcores⟩

end

end Sys2Proof.Machine

namespace Sys2Proof.Proofs
open Sys2Proof.Machine

theorem stripsIssueAndTakeBuffers : Sys2Proof.Claims.StripsIssueAndTakeBuffers := by
  unfold Sys2Proof.Claims.StripsIssueAndTakeBuffers
  refine ⟨fun c r t s => ?_, fun c r t s => ?_, fun k c i x s hfree hnext => ?_⟩
  · intro h hrun htrans hdone hadv hroom
    exact ⟨fun hbelow => ⟨_, exec_stripIssue c s, State.stripIssue_issues hrun htrans hdone hroom hadv hbelow⟩,
      fun hreach hstop => ⟨_, exec_stripIssue c s, State.stripIssue_wraps hrun htrans hdone hroom hadv hreach hstop⟩⟩
  · intro h hrun htrans hwhy
    rw [exec_stripIssue, State.stripIssue_kept hrun htrans]
    rcases hwhy with hstop | hexc | hheld | hcause | hdone | htwo | ⟨halone, hsome⟩
    · exact .inr (.inr (Chain.advances_false hrun htrans (.inl hstop)))
    · exact .inr (.inr (Chain.advances_false hrun htrans (.inr (.inl hexc))))
    · exact .inr (.inr (Chain.advances_false hrun htrans (.inr (.inr (.inl hheld)))))
    · exact .inr (.inr (Chain.advances_false hrun htrans (.inr (.inr (.inr hcause)))))
    · exact .inl hdone
    · refine .inr (.inl fun hroom => ?_)
      unfold Run.hasRoom at hroom
      split at hroom
      · simp [hroom] at htwo
      · omega
    · refine .inr (.inl fun hroom => hsome ?_)
      rwa [Run.hasRoom, if_pos halone] at hroom
  · have hframe := (s.modPool k fun p => { p with free := p.free - 1, turn := (x + 1) % 48 }).modChain_other c
    refine ⟨_, (exec_bufferGrant k s).trans (congrArg _ (State.bufferGrant_eq hfree hnext)), rfl, rfl, ?_, ?_, ?_, ?_,
      fun m hm => hframe m _ hm⟩
    · rw [State.modChain_pools, State.modPool_same]
    · rw [State.modChain_same, Chain.setHeld_same, State.modPool_chains]
    · intro j hj
      rw [State.modChain_same, Chain.setHeld_other _ _ hj, State.modPool_chains]
    · rw [State.modChain_same]
      rfl

/-- Settles O45: the begin of a launch by what its cluster has free, and the issue of strips by what the chain has issued. -/
theorem launchesBeginAndStripsIssue : Obligations.LaunchesBeginAndStripsIssue :=
  ⟨launchesBeginAndReserve, stripsIssueAndTakeBuffers⟩

end Sys2Proof.Proofs
end

section
/-! What steps of a station do to its strip, for O6 (04 R76, R77; 05 R92; 06 R112; 07 R151, R157). -/

namespace Sys2Proof.Machine

/-! ## Elements of lists that change in place -/

@[simp] theorem modifyAt_modifyAt {α : Type} (f g : α → α) (i : Nat) (l : List α) :
    modifyAt f i (modifyAt g i l) = modifyAt (fun x => f (g x)) i l := by
  induction l generalizing i with
  | nil => cases i <;> rfl
  | cons x l ih => cases i with
    | zero => rfl
    | succ i => exact congrArg (x :: ·) (ih i)

theorem modifyAt_const {α : Type} {f : α → α} {i : Nat} {l : List α} {x : α} (h : l[i]? = some x) :
    modifyAt f i l = modifyAt (fun _ => f x) i l := by
  induction l generalizing i with
  | nil => simp at h
  | cons y l ih => cases i with
    | zero =>
      obtain rfl : y = x := by simpa using h
      rfl
    | succ i => exact congrArg (y :: ·) (ih (by simpa using h))

/-- An element that is replaced by itself. -/
theorem modifyAt_self {α : Type} {i : Nat} {l : List α} {x : α} (h : l[i]? = some x) : modifyAt (fun _ => x) i l = l := by
  induction l generalizing i with
  | nil => simp at h
  | cons y l ih => cases i with
    | zero =>
      obtain rfl : y = x := by simpa using h
      rfl
    | succ i => exact congrArg (y :: ·) (ih (by simpa using h))

/-! ## One strip of a chain -/

/-- Only chain `c` and the counter of free values differ from `s`. -/
structure State.OneChain (u s : State) (c : ChainId) : Prop extends State.ChainOnly u s c where
  samePools : u.pools = s.pools

theorem State.OneChain.refl (s : State) (c : ChainId) : s.OneChain s c := ⟨.refl s c, rfl⟩

theorem State.OneChain.trans {u v s : State} {c : ChainId} (h : u.OneChain v c) (k : v.OneChain s c) : u.OneChain s c :=
  ⟨h.toChainOnly.trans k.toChainOnly, h.samePools.trans k.samePools⟩

theorem State.modStrip_oneChain (s : State) (c : ChainId) (i : Nat) (g : Strip → Strip) : (s.modStrip c i g).OneChain s c :=
  ⟨s.modChain_chainOnly c _, rfl⟩

theorem State.tick_oneChain (s : State) (c : ChainId) : s.tick.OneChain s c := ⟨s.tick_chainOnly c, rfl⟩

/-- Chain `c` runs `r`, of which strip `i` has become `t`. -/
def State.HasStrip (u : State) (c : ChainId) (i : Nat) (r : Run) (t : Strip) : Prop :=
  u.chains[c].run = some { r with strips := modifyAt (fun _ => t) i r.strips }

theorem State.hasStrip_of_run {s : State} {c : ChainId} {i : Nat} {r : Run} {t : Strip} (hrun : s.chains[c].run = some r)
    (ht : r.strips[i]? = some t) : s.HasStrip c i r t := by
  rw [State.HasStrip, modifyAt_self ht]
  exact hrun

section
variable {u s : State} {c : ChainId} {i : Nat} {r : Run} {t : Strip} (h : s.HasStrip c i r t)
include h

theorem State.HasStrip.modStrip (g : Strip → Strip) : (s.modStrip c i g).HasStrip c i r (g t) := by
  rw [State.HasStrip, State.modStrip, State.modChain_same, h, Option.map_some, modifyAt_modifyAt]

theorem State.HasStrip.of_chains (hu : u.chains = s.chains) : u.HasStrip c i r t := by
  rw [State.HasStrip, hu]
  exact h

theorem State.HasStrip.of_buffers (hu : u.chains[c].SameButBuffers s.chains[c]) : u.HasStrip c i r t := by
  obtain ⟨_, _, _, hu⟩ := hu
  rw [State.HasStrip, hu]
  exact h

end

/-! ## Conditions (08 R175, R183) -/

theorem State.condition_oneChain (s : State) (c : ChainId) (i p stn mode pos : Nat) (x : Raised) :
    (s.condition c i p stn mode pos x).OneChain s c := by
  obtain ⟨_, _, v0, v1⟩ := x
  unfold State.condition
  split
  · cases v0 <;> cases v1
    · exact (State.modStrip_oneChain _ c i _).trans ((State.tick_oneChain _ c).trans (s.tick_oneChain c))
    · exact (State.modStrip_oneChain _ c i _).trans (s.tick_oneChain c)
    · exact (State.modStrip_oneChain _ c i _).trans (s.tick_oneChain c)
    · exact s.modStrip_oneChain c i _
  · exact s.modStrip_oneChain c i _
  · exact .refl s c

/-- A strip with other conditions noted: an abort, marks, marks lost. -/
def Strip.noted (t : Strip) (abort : Option Abort) (marks : List Mark) (lost : Nat) : Strip :=
  { t with abort := abort, marks := marks, lost := lost }

/-- A condition is noted in its strip. -/
theorem State.HasStrip.condition {s : State} {c : ChainId} {i : Nat} {r : Run} {t : Strip} (h : s.HasStrip c i r t)
    (p stn mode pos : Nat) (x : Raised) : ∃ abort marks lost,
    (s.condition c i p stn mode pos x).HasStrip c i r (t.noted abort marks lost) := by
  obtain ⟨_, _, v0, v1⟩ := x
  unfold State.condition
  split
  · cases v0 <;> cases v1 <;> exact ⟨_, t.marks, t.lost, (h.of_chains rfl).modStrip fun t => { t with abort := _ }⟩
  · cases hfull : s.chains[c].queueFull with
    | true => exact ⟨t.abort, t.marks, _, h.modStrip fun t => { t with lost := t.lost + 1 }⟩
    | false => exact ⟨t.abort, _, t.lost, h.modStrip fun t => { t with marks := _ }⟩
  · exact ⟨t.abort, t.marks, t.lost, h⟩

theorem State.conditions_oneChain (c : ChainId) (i p stn mode : Nat) (xs : List (Nat × Raised)) :
    ∀ s : State, (s.conditions c i p stn mode xs).OneChain s c := by
  induction xs with
  | nil => exact fun s => .refl s c
  | cons x xs ih => exact fun s => (ih _).trans (s.condition_oneChain c i p stn mode x.1 x.2)

theorem State.HasStrip.conditions {c : ChainId} {i : Nat} {r : Run} (p stn mode : Nat) (xs : List (Nat × Raised)) :
    ∀ {s : State} {t : Strip}, s.HasStrip c i r t → ∃ abort marks lost,
      (s.conditions c i p stn mode xs).HasStrip c i r (t.noted abort marks lost) := by
  induction xs with
  | nil => exact fun {s t} h => ⟨t.abort, t.marks, t.lost, h⟩
  | cons x xs ih =>
    intro s t h
    obtain ⟨_, _, _, hx⟩ := h.condition p stn mode x.1 x.2
    obtain ⟨_, _, _, hxs⟩ := ih hx
    exact ⟨_, _, _, hxs⟩

/-! ## Inputs (05 R92, R95, R109) -/

/-- A strip takes RLE blocks out of its lines, and nothing else of it changes. -/
theorem Strip.absorb_rle (d : Desc) (stream i fuel : Nat) : ∀ t : Strip, ∃ rle,
    Strip.absorb d stream i fuel t = { t with rle := rle } := by
  induction fuel with
  | zero => exact fun t => ⟨t.rle, rfl⟩
  | succ fuel ih =>
    intro t
    unfold Strip.absorb
    split
    · split
      · exact ⟨t.rle, rfl⟩
      · exact ih _
    · dsimp only
      split
      · exact ⟨t.rle, rfl⟩
      · split
        · exact ⟨t.rle, rfl⟩
        · exact ih _

theorem Strip.absorbAll_rle (l : Launch) (t : Strip) : ∃ rle, t.absorbAll l = { t with rle := rle } := by
  have hfold : ∀ (ps : List (Stn × Nat)) (f : Strip → Stn × Nat → Strip)
      (_ : ∀ t p, ∃ rle, f t p = { t with rle := rle })
      (t : Strip), ∃ rle, ps.foldl f t = { t with rle := rle } := fun ps f hf => by
    induction ps with
    | nil => exact fun t => ⟨t.rle, rfl⟩
    | cons p ps ih =>
      intro t
      obtain ⟨_, hp⟩ := hf t p
      obtain ⟨_, hps⟩ := ih (f t p)
      exact ⟨_, by rw [List.foldl_cons, hps, hp]⟩
  refine hfold _ _ (fun t p => ?_) t
  dsimp only
  split
  · exact Strip.absorb_rle ..
  · exact ⟨t.rle, rfl⟩

/-- Consumed lines leave a strip, and nothing else of it changes but its RLE blocks. -/
theorem Strip.absorbAll_freeLines (l : Launch) (t : Strip) (stream : Nat) : ∃ rle keep,
    (t.absorbAll l).freeLines l stream = { t with rle := rle, lines := t.lines.filter keep } := by
  obtain ⟨rle, h⟩ := t.absorbAll_rle l
  exact ⟨rle, _, by rw [h]; rfl⟩

/-- An input takes the elements that are there; buffers whose lines are consumed are freed. -/
theorem Strip.stepInput_eq (l : Launch) (t : Strip) {p : Nat} (q : Stn) (ws : List Wire) {sr : StationRun}
    (hsr : t.stations[p]? = some sr) : ∃ rle keep,
    let d := descOf l.sregs q
    let stream := streamOf l.stations l.sregs q
    let a := (l.span t.k).1
    let n := t.readyRun d q.m1 stream a (min (min (q.stepWidth ws d) (t.room l q ws sr)) (t.limit l - sr.taken)) sr.taken
    t.stepInput l p q ws sr = { t with
      stations := modifyAt (fun _ => { sr with
        taken := sr.taken + n
        out1 := sr.out1 ++ (upto n).map fun k => t.inputElem d q.m1 stream l.n (a + sr.taken + k) }) p t.stations
      rle := rle
      lines := t.lines.filter keep } := by
  unfold Strip.stepInput
  dsimp only
  rw [modifyAt_const hsr]
  exact Strip.absorbAll_freeLines l _ _

/-! ## Elements that a station takes one after another -/

theorem upto_succ (n : Nat) : upto (n + 1) = upto n ++ [n] := List.range_succ

theorem Stn.stepWidth_le (q : Stn) (ws : List Wire) (d : Desc) : q.stepWidth ws d ≤ 8 := by
  unfold Stn.stepWidth
  split <;> omega

theorem Run.stepCount_le (r : Run) (h : Chain) (t : Strip) (q : Stn) (ws : List Wire) (sr : StationRun) :
    r.stepCount h t q ws sr ≤ 8 := by
  have hbase : min (min (q.stepWidth ws (descOf r.launch.sregs q)) (t.arrived q ws - sr.taken)) (t.room r.launch q ws sr) ≤ 8 :=
    (Nat.min_le_left _ _).trans ((Nat.min_le_left _ _).trans (q.stepWidth_le ws _))
  unfold Run.stepCount
  dsimp only
  split
  · split
    · omega
    · exact hbase
  · exact (Nat.min_le_left _ _).trans hbase
  · exact (Nat.min_le_left _ _).trans hbase
  · exact hbase

/-- Only an INSERT uses an entry index. -/
theorem stationElem_idx {q : Stn} (hkind : q.kind ≠ .prb) (l : Launch) (dict : List Word) (t : Strip) (ws : List Wire)
    (i idx : Nat) : stationElem l dict t q ws i idx = stationElem l dict t q ws i 0 ∧
      (stationElem l dict t q ws i 0).used = false := by
  unfold stationElem
  dsimp only
  split
  case h_11 h => exact absurd h hkind
  all_goals refine ⟨rfl, ?_⟩
  · rfl
  · rfl
  · rfl
  · split <;> rfl
  · rfl
  · rfl
  · rfl
  · rfl
  · rfl
  · rfl
  · unfold outTake
    dsimp only
    split
    · split
      · rfl
      · split <;> rfl
    · split
      · rfl
      · split <;> rfl
    · rfl
  · unfold groupTake
    dsimp only
    split
    · rfl
    · split <;> rfl

/-- PRB puts its elements into flight. -/
theorem stationElem_prb {q : Stn} (hkind : q.kind = .prb) (l : Launch) (dict : List Word) (t : Strip) (ws : List Wire)
    (i idx : Nat) : (stationElem l dict t q ws i idx).out1 = none ∧ (stationElem l dict t q ws i idx).out2 = none ∧
      (stationElem l dict t q ws i idx).held = [] := by
  simp only [stationElem, hkind]
  exact ⟨rfl, rfl, rfl⟩

/-- PRB's flights once it has taken an element more. -/
def Strip.prbTaken (l : Launch) (dict : List Word) (t : Strip) (q : Stn) (ws : List Wire) (inserted : Nat)
    (x : StationRun) : StationRun :=
  let e := stationElem l dict t q ws x.taken (dbits (descOf l.sregs q) 167 128 + inserted + x.count)
  { x with taken := x.taken + 1, flight := x.flight ++ e.flight, count := x.count + b2n e.used }

/-- What the station makes of each of `n` elements, for any but PRB and ACC's reduction slots. -/
def Strip.made (l : Launch) (dict : List Word) (t : Strip) (q : Stn) (ws : List Wire) (taken n : Nat) : List ElemRes :=
  (upto n).map fun k => stationElem l dict t q ws (taken + k) 0

section
variable {q : Stn} (l : Launch) (dict : List Word) (t : Strip) (ws : List Wire) (inserted : Nat) (a : StepAcc) (n : Nat)

theorem Strip.stepElem_acc (hkind : q.kind = .acc) (hgroup : q.group = false) : ∃ flags raised,
    t.stepElem l dict q ws inserted a = { a with
      run := { a.run with taken := a.run.taken + 1 }, shadows := (accTake t q ws a.run.taken a.shadows).1
      flags := flags, raised := raised } := by
  unfold Strip.stepElem
  rw [hkind, hgroup]
  exact ⟨_, _, rfl⟩

theorem Strip.stepElem_prb (hkind : q.kind = .prb) : ∃ flags raised, t.stepElem l dict q ws inserted a = { a with
    run := t.prbTaken l dict q ws inserted a.run, flags := flags, raised := raised } := by
  have hnot : ¬ (q.kind = .acc && !q.group) = true := by simp [hkind]
  obtain ⟨hout1, hout2, hheld⟩ := stationElem_prb hkind l dict t ws a.run.taken
    (dbits (descOf l.sregs q) 167 128 + inserted + a.run.count)
  unfold Strip.stepElem
  rw [if_neg hnot]
  dsimp only
  rw [hout1, hout2, hheld, Option.toList_none, List.append_nil, List.append_nil, List.append_nil]
  exact ⟨_, _, rfl⟩

theorem Strip.stepElem_other (hprb : q.kind ≠ .prb) (hacc : ¬ (q.kind = .acc ∧ q.group = false)) :
    let e := stationElem l dict t q ws a.run.taken 0
    t.stepElem l dict q ws inserted a = { a with
      run := { a.run with
        taken := a.run.taken + 1
        out1 := a.run.out1 ++ e.out1.toList
        out2 := a.run.out2 ++ e.out2.toList
        flight := a.run.flight ++ e.flight }
      held := a.held ++ e.held
      flags := a.flags ||| e.flags
      raised := a.raised ++ (e.raised.map fun c => (t.posOf q ws a.run.taken, c)).toList } := by
  have hnot : ¬ (q.kind = .acc && !q.group) = true := by simpa using hacc
  obtain ⟨hidx, hused⟩ := stationElem_idx hprb l dict t ws a.run.taken
    (dbits (descOf l.sregs q) 167 128 + inserted + a.run.count)
  refine (if_neg hnot).trans ?_
  dsimp only
  rw [hidx, hused]
  rfl

/-- ACC's reduction slots take `n` elements into the shadows. -/
theorem Strip.foldl_stepElem_acc (hkind : q.kind = .acc) (hgroup : q.group = false) : ∃ flags raised,
    (upto n).foldl (fun a _ => t.stepElem l dict q ws inserted a) a = { a with
      run := { a.run with taken := a.run.taken + n }
      shadows := (upto n).foldl (fun hs k => (accTake t q ws (a.run.taken + k) hs).1) a.shadows
      flags := flags
      raised := raised } := by
  induction n with
  | zero => exact ⟨a.flags, a.raised, rfl⟩
  | succ n ih =>
    obtain ⟨flags, raised, h⟩ := ih
    rw [upto_succ, List.foldl_append, List.foldl_cons, List.foldl_nil, h, List.foldl_append]
    obtain ⟨_, _, hstep⟩ := Strip.stepElem_acc l dict t ws inserted { a with
      run := { a.run with taken := a.run.taken + n }
      shadows := (upto n).foldl (fun hs k => (accTake t q ws (a.run.taken + k) hs).1) a.shadows
      flags := flags
      raised := raised } hkind hgroup
    exact ⟨_, _, hstep⟩

/-- PRB's flights once it has taken `n` elements. -/
theorem Strip.foldl_stepElem_prb (hkind : q.kind = .prb) : ∃ flags raised,
    (upto n).foldl (fun a _ => t.stepElem l dict q ws inserted a) a = { a with
      run := (upto n).foldl (fun x _ => t.prbTaken l dict q ws inserted x) a.run, flags := flags, raised := raised } := by
  induction n with
  | zero => exact ⟨a.flags, a.raised, rfl⟩
  | succ n ih =>
    obtain ⟨flags, raised, h⟩ := ih
    rw [upto_succ, List.foldl_append, List.foldl_cons, List.foldl_nil, h, List.foldl_append]
    obtain ⟨_, _, hstep⟩ := Strip.stepElem_prb l dict t ws inserted { a with
      run := (upto n).foldl (fun x _ => t.prbTaken l dict q ws inserted x) a.run, flags := flags, raised := raised } hkind
    exact ⟨_, _, hstep⟩

/-- What any other station puts on its wires, holds and gathers of `n` elements. -/
theorem Strip.foldl_stepElem_other (hprb : q.kind ≠ .prb) (hacc : ¬ (q.kind = .acc ∧ q.group = false)) :
    let es := t.made l dict q ws a.run.taken n
    ∃ raised, (upto n).foldl (fun a _ => t.stepElem l dict q ws inserted a) a = { a with
      run := { a.run with
        taken := a.run.taken + n
        out1 := a.run.out1 ++ es.flatMap fun e => e.out1.toList
        out2 := a.run.out2 ++ es.flatMap fun e => e.out2.toList
        flight := a.run.flight ++ es.flatMap fun e => e.flight }
      held := a.held ++ es.flatMap fun e => e.held
      flags := es.foldl (fun x e => x ||| e.flags) a.flags
      raised := raised } ∧
      ((∀ e ∈ es, e.raised = none) → raised = a.raised) := by
  induction n with
  | zero => exact ⟨a.raised, by simp [Strip.made, upto], fun _ => rfl⟩
  | succ n ih =>
    obtain ⟨raised, h, hraised⟩ := ih
    have hmade : t.made l dict q ws a.run.taken (n + 1) =
        t.made l dict q ws a.run.taken n ++ [stationElem l dict t q ws (a.run.taken + n) 0] := by
      rw [Strip.made, upto_succ, List.map_append]
      rfl
    refine ⟨raised ++ ((stationElem l dict t q ws (a.run.taken + n) 0).raised.map
      fun c => (t.posOf q ws (a.run.taken + n), c)).toList, ?_, fun hnone => ?_⟩
    · rw [upto_succ, List.foldl_append, List.foldl_cons, List.foldl_nil, h, Strip.stepElem_other l dict t ws inserted _ hprb hacc,
        hmade]
      simp only [List.flatMap_append, List.flatMap_singleton, List.foldl_append, List.foldl_cons, List.foldl_nil,
        List.append_assoc, Nat.add_assoc]
    · rw [hmade] at hnone
      rw [hraised fun e he => hnone e (List.mem_append_left _ he), hnone _ (List.mem_append_right _ (List.mem_singleton_self _))]
      exact List.append_nil _

end

/-- The flight has its result. -/
def Flight.isDone (f : Flight) : Bool :=
  match f.st with
  | .done _ => true
  | _ => false

/-- The result that a flight has. -/
def Flight.results (f : Flight) : List Elem :=
  match f.st with
  | .done e => [e]
  | _ => []

/-- Results of PRB's oldest flights leave in order. -/
theorem popDone_eq (n : Nat) : ∀ sr : StationRun,
    let left := min n (sr.flight.takeWhile Flight.isDone).length
    popDone n sr = { sr with
      out1 := sr.out1 ++ (sr.flight.take left).flatMap Flight.results, flight := sr.flight.drop left } := by
  induction n with
  | zero => intro sr; simp [popDone]
  | succ n ih =>
    intro sr
    obtain ⟨taken, out1, out2, flight, count⟩ := sr
    cases flight with
    | nil => simp [popDone]
    | cons f fs =>
      obtain ⟨elem, fh, k0, k1, p0, p1, st⟩ := f
      cases st with
      | done e =>
        have htake : (({ elem := elem, h := fh, k0 := k0, k1 := k1, p0 := p0, p1 := p1, st := .done e } : Flight) ::
            fs).takeWhile Flight.isDone = _ :: fs.takeWhile Flight.isDone := List.takeWhile_cons_of_pos rfl
        simp only [popDone, ih, htake, List.length_cons, Nat.add_min_add_right, List.take_succ_cons, List.drop_succ_cons,
          List.flatMap_cons, List.append_assoc]
        rfl
      | _ => simp [popDone, Flight.isDone]

/-! ## A step (04 R76, R77) -/

/-- A step of a station other than an input, before its conditions take effect. -/
def Run.stepAcc (r : Run) (h : Chain) (t : Strip) (q : Stn) (ws : List Wire) (sr : StationRun) : StepAcc :=
  (upto (r.stepCount h t q ws sr)).foldl (fun a _ => t.stepElem r.launch r.dict q ws r.inserted a)
    { run := sr, held := [], flags := 0, raised := []
      shadows := if q.kind = .acc && !q.group then t.shadowsOf q else t.shadows }

section
variable (r : Run) (h : Chain) (t : Strip) {q : Stn} (ws : List Wire) (sr : StationRun)

theorem Run.stepAcc_acc (hkind : q.kind = .acc) (hgroup : q.group = false) : ∃ flags raised,
    r.stepAcc h t q ws sr =
      { run := { sr with taken := sr.taken + r.stepCount h t q ws sr }, held := [], flags := flags, raised := raised
        shadows := (upto (r.stepCount h t q ws sr)).foldl (fun hs k => (accTake t q ws (sr.taken + k) hs).1)
          (t.shadowsOf q) } := by
  unfold Run.stepAcc
  rw [if_pos (by simp [hkind, hgroup])]
  exact Strip.foldl_stepElem_acc r.launch r.dict t ws r.inserted _ _ hkind hgroup

theorem Run.stepAcc_prb (hkind : q.kind = .prb) : ∃ flags raised, r.stepAcc h t q ws sr =
    { run := (upto (r.stepCount h t q ws sr)).foldl (fun x _ => t.prbTaken r.launch r.dict q ws r.inserted x) sr
      held := [], flags := flags, raised := raised, shadows := t.shadows } := by
  unfold Run.stepAcc
  rw [if_neg (by simp [hkind])]
  exact Strip.foldl_stepElem_prb r.launch r.dict t ws r.inserted _ _ hkind

theorem Run.stepAcc_other (hprb : q.kind ≠ .prb) (hacc : ¬ (q.kind = .acc ∧ q.group = false)) :
    let es := t.made r.launch r.dict q ws sr.taken (r.stepCount h t q ws sr)
    ∃ raised, r.stepAcc h t q ws sr =
      { run := { sr with
          taken := sr.taken + r.stepCount h t q ws sr
          out1 := sr.out1 ++ es.flatMap fun e => e.out1.toList
          out2 := sr.out2 ++ es.flatMap fun e => e.out2.toList
          flight := sr.flight ++ es.flatMap fun e => e.flight }
        held := es.flatMap fun e => e.held
        flags := es.foldl (fun x e => x ||| e.flags) 0
        raised := raised
        shadows := t.shadows } ∧
      ((∀ e ∈ es, e.raised = none) → raised = []) := by
  unfold Run.stepAcc
  rw [if_neg (by simpa using hacc)]
  exact Strip.foldl_stepElem_other r.launch r.dict t ws r.inserted _ _ hprb hacc

end

/-- The strip `x` after the step `a` of station `q`, parcel `p`, before its conditions take effect. -/
def Strip.stepped (l : Launch) (x : Strip) (p : Nat) (q : Stn) (a : StepAcc) : Strip :=
  let wrote := if q.kind = .out && dKind (descOf l.sregs q) ≠ 6 then a.held.length else 0
  { x with
    stations := modifyAt (fun _ => a.run) p x.stations
    shadows := a.shadows
    held := x.held ++ a.held
    flags := x.flags ||| BitVec.ofNat 32 a.flags
    outA := if q.code = 4 then x.outA + wrote else x.outA
    outB := if q.code = 5 then x.outB + wrote else x.outB }

theorem State.stepStation_eq (s : State) (c : ChainId) (i p : Nat) (r : Run) (t : Strip) (q : Stn) (ws : List Wire)
    (sr : StationRun) :
    let a := r.stepAcc s.chains[c] t q ws (if q.kind = .prb then popDone (t.room r.launch q ws sr) sr else sr)
    s.stepStation c i p r t q ws sr = (s.modStrip c i fun x => x.stepped r.launch p q a).conditions c i p q.code
      (q.mode t.flushOnce) a.raised := rfl

/-- Strip `t'` is `t` after the step `a` of its station `p`, its conditions noted. -/
structure Strip.SteppedFrom (t' t : Strip) (p : Nat) (a : StepAcc) : Prop where
  stations : t'.stations = modifyAt (fun _ => a.run) p t.stations
  shadows : t'.shadows = a.shadows
  held : t'.held = t.held ++ a.held
  flags : t'.flags = t.flags ||| BitVec.ofNat 32 a.flags
  quiet : a.raised = [] → t'.abort = t.abort ∧ t'.marks = t.marks

section
variable {s : State} {c : ChainId} {i p : Nat} {r : Run} {t : Strip} {q : Stn} {ws : List Wire} {sr : StationRun}
  (hrun : s.chains[c].run = some r) (ht : r.strips[i]? = some t)
include hrun ht

theorem State.stepStation_strip (p : Nat) (q : Stn) (ws : List Wire) (sr : StationRun) :
    let a := r.stepAcc s.chains[c] t q ws (if q.kind = .prb then popDone (t.room r.launch q ws sr) sr else sr)
    (s.stepStation c i p r t q ws sr).OneChain s c ∧
      ∃ t', (s.stepStation c i p r t q ws sr).HasStrip c i r t' ∧ t'.SteppedFrom t p a := by
  intro a
  have hstep := (State.hasStrip_of_run hrun ht).modStrip fun x => x.stepped r.launch p q a
  rw [State.stepStation_eq]
  refine ⟨(State.conditions_oneChain ..).trans (s.modStrip_oneChain c i _), ?_⟩
  change ∃ t', (State.conditions _ c i p q.code (q.mode t.flushOnce) a.raised).HasStrip c i r t' ∧ _
  cases hraised : a.raised with
  | nil => exact ⟨_, hstep, rfl, rfl, rfl, rfl, fun _ => ⟨rfl, rfl⟩⟩
  | cons x xs =>
    obtain ⟨_, _, _, hnoted⟩ := hstep.conditions p q.code (q.mode t.flushOnce) (x :: xs)
    exact ⟨_, hnoted, rfl, rfl, rfl, rfl, fun h => nomatch h.symm.trans hraised⟩

variable (hrow : r.launch.rows[p]? = some (q, ws)) (hsr : t.stations[p]? = some sr) (hstep : r.mayStep i p = true)
include hrow hsr hstep

theorem State.stationStep_input (hkind : q.kind = .inp) :
    s.stationStep c i p = s.freedSince (s.modStrip c i fun t => t.stepInput r.launch p q ws sr) c := by
  simp only [State.stationStep, hrun, ht, hrow, hsr, Option.getD_some, hstep, Bool.not_true, Bool.false_eq_true, if_false, hkind,
    if_true]

theorem State.stationStep_other (hkind : q.kind ≠ .inp) : s.stationStep c i p = s.stepStation c i p r t q ws sr := by
  simp only [State.stationStep, hrun, ht, hrow, hsr, Option.getD_some, hstep, Bool.not_true, Bool.false_eq_true, if_false, hkind]

end

end Sys2Proof.Machine
end

section
/-! The proof of O6 (04 R76, R77; 05 R92; 06 R112; 07 R151, R157): stations step. -/

namespace Sys2Proof.Machine

theorem exec_stationStep (c : ChainId) (i : Fin 2) (p : Fin 16) (s : State) :
    exec (.stationStep c i p) s = .next (s.stationStep c i p) := rfl

section
variable {s : State} {c : ChainId} {i p : Nat} {r : Run} {t : Strip} {q : Stn} {ws : List Wire} {sr : StationRun}
  (hrun : s.chains[c].run = some r) (ht : r.strips[i]? = some t) (hrow : r.launch.rows[p]? = some (q, ws))
  (hsr : t.stations[p]? = some sr) (hstep : r.mayStep i p = true)
include hrun ht hrow hsr hstep

/-- An input's step changes its own strip and frees buffers of its chain. -/
theorem State.stationStep_input_strip (hkind : q.kind = .inp) :
    (s.stationStep c i p).ChainOnly s c ∧ (s.stationStep c i p).HasStrip c i r (t.stepInput r.launch p q ws sr) := by
  have hmod := (State.hasStrip_of_run hrun ht).modStrip fun t => t.stepInput r.launch p q ws sr
  have hfreed := State.freedSince_buffersOnly s (s.modStrip c i fun t => t.stepInput r.launch p q ws sr) c
  rw [State.stationStep_input hrun ht hrow hsr hstep hkind]
  exact ⟨hfreed.toChainOnly.trans (s.modChain_chainOnly c _), hmod.of_buffers hfreed.chain⟩

/-- ACC's reduction slots take elements into the strip's shadows. -/
theorem State.stationStep_acc (hkind : q.kind = .acc) (hgroup : q.group = false) :
    let n := r.stepCount s.chains[c] t q ws sr
    (s.stationStep c i p).OneChain s c ∧ ∃ t', (s.stationStep c i p).HasStrip c i r t' ∧
      t'.stations = modifyAt (fun _ => { sr with taken := sr.taken + n }) p t.stations ∧
      t'.shadows = (upto n).foldl (fun hs k => (accTake t q ws (sr.taken + k) hs).1) (t.shadowsOf q) ∧ t'.held = t.held := by
  intro n
  obtain ⟨hframe, t', hstrip, hstations, hshadows, hheld, -, -⟩ := State.stepStation_strip hrun ht p q ws sr
  obtain ⟨_, _, hacc⟩ := r.stepAcc_acc s.chains[c] t ws sr hkind hgroup
  have hprb : q.kind ≠ .prb := by simp [hkind]
  rw [if_neg hprb, hacc] at hstations hshadows hheld
  rw [State.stationStep_other hrun ht hrow hsr hstep (by simp [hkind])]
  exact ⟨hframe, t', hstrip, hstations, hshadows, hheld.trans (List.append_nil _)⟩

/-- PRB lets the results of its oldest flights leave, and takes elements into flight. -/
theorem State.stationStep_prb (hkind : q.kind = .prb) :
    let sr0 := popDone (t.room r.launch q ws sr) sr
    (s.stationStep c i p).OneChain s c ∧ ∃ t', (s.stationStep c i p).HasStrip c i r t' ∧ t'.held = t.held ∧
      t'.stations = modifyAt (fun _ => (upto (r.stepCount s.chains[c] t q ws sr0)).foldl
        (fun x _ => t.prbTaken r.launch r.dict q ws r.inserted x) sr0) p t.stations := by
  intro sr0
  obtain ⟨hframe, t', hstrip, hstations, -, hheld, -, -⟩ := State.stepStation_strip hrun ht p q ws sr
  obtain ⟨_, _, hacc⟩ := r.stepAcc_prb s.chains[c] t ws sr0 hkind
  rw [if_pos hkind, hacc] at hstations hheld
  rw [State.stationStep_other hrun ht hrow hsr hstep (by simp [hkind])]
  exact ⟨hframe, t', hstrip, hheld.trans (List.append_nil _), hstations⟩

/-- Any other station puts on its wires what it makes of each element, and gathers its flags. -/
theorem State.stationStep_made (hinp : q.kind ≠ .inp) (hprb : q.kind ≠ .prb)
    (hnot : ¬ (q.kind = .acc ∧ q.group = false)) :
    let n := r.stepCount s.chains[c] t q ws sr
    let made := t.made r.launch r.dict q ws sr.taken n
    (s.stationStep c i p).OneChain s c ∧ ∃ t', (s.stationStep c i p).HasStrip c i r t' ∧
      t'.flags = t.flags ||| BitVec.ofNat 32 (made.foldl (fun x e => x ||| e.flags) 0) ∧
      ((∀ e ∈ made, e.raised = none) → t'.abort = t.abort ∧ t'.marks = t.marks) ∧
      t'.stations = modifyAt (fun _ => { sr with
        taken := sr.taken + n
        out1 := sr.out1 ++ made.flatMap fun e => e.out1.toList
        out2 := sr.out2 ++ made.flatMap fun e => e.out2.toList
        flight := sr.flight ++ made.flatMap fun e => e.flight }) p t.stations ∧
      t'.held = t.held ++ made.flatMap fun e => e.held := by
  intro n made
  obtain ⟨hframe, t', hstrip, hstations, -, hheld, hflags, hquiet⟩ := State.stepStation_strip hrun ht p q ws sr
  obtain ⟨raised, hacc, hraised⟩ := r.stepAcc_other s.chains[c] t ws sr hprb hnot
  rw [if_neg hprb, hacc] at hstations hheld hflags hquiet
  rw [State.stationStep_other hrun ht hrow hsr hstep hinp]
  exact ⟨hframe, t', hstrip, hflags, fun h => hquiet (hraised h), hstations, hheld⟩

end

end Sys2Proof.Machine

namespace Sys2Proof.Proofs
open Sys2Proof.Machine

/-- Settles O6: the step of an input, of ACC's reduction slots, of PRB and of any other station, each on its own strip. -/
theorem stationsStep : Obligations.StationsStep := by
  unfold Obligations.StationsStep
  intro c i p r t q ws sr s hrun ht hrow hsr hstep
  have hnow : ∀ {u : State} {t' : Strip}, u.OneChain s c → u.HasStrip c i r t' →
      u.mem = s.mem ∧ u.cores = s.cores ∧ u.pools = s.pools ∧ (∀ k, k ≠ c → u.chains[k] = s.chains[k]) ∧
        u.chains[c].run = some { r with strips := modifyAt (fun _ => t') i.val r.strips } :=
    fun hframe hstrip => ⟨hframe.mem, hframe.cores, hframe.samePools, hframe.chains, hstrip⟩
  refine ⟨fun hkind => ?_, fun hkind hgroup => ⟨Run.stepCount_le .., ?_⟩, fun hkind => ?_,
    fun hinp hprb hnot => ⟨Run.stepCount_le .., ?_⟩⟩
  · obtain ⟨hframe, hstrip⟩ := State.stationStep_input_strip hrun ht hrow hsr hstep hkind
    obtain ⟨_, _, hinput⟩ := t.stepInput_eq r.launch q ws hsr
    refine ⟨_, _, exec_stationStep c i p s, hframe.mem, hframe.cores, hframe.chains, hstrip, ?_⟩
    rw [hinput]
    exact ⟨rfl, rfl, rfl, fun b hb => (List.mem_filter.mp hb).1⟩
  · obtain ⟨hframe, t', hstrip, hrest⟩ := State.stationStep_acc hrun ht hrow hsr hstep hkind hgroup
    exact ⟨_, t', exec_stationStep c i p s, hnow hframe hstrip, hrest⟩
  · obtain ⟨hframe, t', hstrip, hheld, hstations⟩ := State.stationStep_prb hrun ht hrow hsr hstep hkind
    rw [popDone_eq] at hstations
    exact ⟨Run.stepCount_le .., _, t', exec_stationStep c i p s, hnow hframe hstrip, hheld, hstations⟩
  · obtain ⟨hframe, t', hstrip, hrest⟩ := State.stationStep_made hrun ht hrow hsr hstep hinp hprb hnot
    exact ⟨_, t', exec_stationStep c i p s, hnow hframe hstrip, hrest⟩

end Sys2Proof.Proofs
end

section
/-! The commit of a strip, for O47 (04 R67, R73, R78; 06 R119; 07 R157; 08 R183). -/

namespace Sys2Proof.Machine

theorem exec_stripCommit (c : ChainId) (s : State) : exec (.stripCommit c) s = .next (s.stripCommit c) := rfl

/-! ## Accumulators and marks (07 R157; 08 R183) -/

/-- `g` is `h` but for its accumulators, their flags and the count of its marks. -/
def Chain.SameButFolds (g h : Chain) : Prop :=
  ∃ ca cas numf marks, g = { h with ca := ca, cas := cas, numf := numf, markCnt := marks }

theorem Chain.SameButFolds.trans {g k h : Chain} (hg : g.SameButFolds k) (hk : k.SameButFolds h) : g.SameButFolds h := by
  obtain ⟨_, _, _, _, rfl⟩ := hg
  obtain ⟨_, _, _, _, rfl⟩ := hk
  exact ⟨_, _, _, _, rfl⟩

theorem State.foldSlot_chainOnly (s : State) (c : ChainId) (x : Shadow) : (s.foldSlot c x).ChainOnly s c := by
  unfold State.foldSlot
  dsimp only
  split
  · exact (State.modChain_chainOnly _ c _).trans (s.tick_chainOnly c)
  · exact s.modChain_chainOnly c _

theorem State.foldSlot_chain (s : State) (c : ChainId) (x : Shadow) :
    (s.foldSlot c x).chains[c].SameButFolds s.chains[c] ∧
      (s.foldSlot c x).chains[c].ca = s.chains[c].ca.set x.ca
        (x.fold s.chains[c].ca[x.ca] ((s.chains[c].cas.toNat >>> (4 * x.ca.val)) % 16) (Config.freeNat s.free)).ca := by
  unfold State.foldSlot
  dsimp only
  rw [State.modChain_same]
  split <;> exact ⟨⟨_, _, _, _, rfl⟩, rfl⟩

theorem State.foldSlots_chain (c : ChainId) (xs : List Shadow) : ∀ s : State,
    (xs.foldl (fun s x => s.foldSlot c x) s).chains[c].SameButFolds s.chains[c] := by
  induction xs with
  | nil => exact fun s => ⟨_, _, _, _, rfl⟩
  | cons x xs ih => exact fun s => (ih _).trans (s.foldSlot_chain c x).1

/-- The marks of a strip go to DMEM, and their count to the chain. -/
theorem State.writeMarks_eq (s : State) (c : ChainId) (cfg : Half) (t : Strip) : ∃ (u : State) (marks : Half),
    s.writeMarks c cfg t = u.modChain c (fun h => { h with markCnt := marks }) ∧ u.chains = s.chains ∧
      (t.marks = [] → u.cores = s.cores) := by
  refine ⟨_, _, rfl, State.foldl_keeps State.chains (fun s p => ?_) _ s, fun h => ?_⟩
  · rfl
  · rw [h, List.foldl_nil, List.take_nil]
    rfl

theorem State.writeMarks_chain (s : State) (c : ChainId) (cfg : Half) (t : Strip) : ∃ marks,
    (s.writeMarks c cfg t).chains[c] = { s.chains[c] with markCnt := marks } := by
  obtain ⟨u, marks, h, hchains, -⟩ := s.writeMarks_eq c cfg t
  exact ⟨marks, by rw [h, State.modChain_same, hchains]⟩

theorem State.writeMarks_other (s : State) (c : ChainId) (cfg : Half) (t : Strip) {k : ChainId} (hk : k ≠ c) :
    (s.writeMarks c cfg t).chains[k] = s.chains[k] := by
  obtain ⟨u, _, h, hchains, -⟩ := s.writeMarks_eq c cfg t
  rw [h, State.modChain_other _ _ _ _ hk, hchains]

theorem State.writeMarks_none (s : State) (c : ChainId) (cfg : Half) {t : Strip} (hnone : t.marks = []) :
    (s.writeMarks c cfg t).cores = s.cores := by
  obtain ⟨u, _, h, -, hcores⟩ := s.writeMarks_eq c cfg t
  rw [h, State.modChain_cores, hcores hnone]

/-! ## What a commit makes of its chain -/

/-- The device once the accumulators of strip `t` are folded and its marks are written. -/
def State.folded (s : State) (c : ChainId) (r : Run) (t : Strip) : State :=
  ((Sys2Proof.Claims.foldedBy r t).foldl (fun s x => s.foldSlot c x) s).writeMarks c r.launch.markCfg t

section
variable (s : State) (c : ChainId) (r : Run) (t : Strip)

theorem State.folded_chain : (s.folded c r t).chains[c].SameButFolds s.chains[c] := by
  obtain ⟨_, h⟩ := State.writeMarks_chain ((Sys2Proof.Claims.foldedBy r t).foldl (fun s x => s.foldSlot c x) s) c
    r.launch.markCfg t
  exact .trans ⟨_, _, _, _, h⟩ (State.foldSlots_chain c _ s)

theorem State.folded_mem : (s.folded c r t).mem = s.mem :=
  (State.writeMarks_mem ..).trans (State.chainOnly_foldl (fun s x => s.foldSlot_chainOnly c x) _ s).mem

theorem State.folded_other {k : ChainId} (hk : k ≠ c) : (s.folded c r t).chains[k] = s.chains[k] :=
  (State.writeMarks_other _ _ _ _ hk).trans
    ((State.chainOnly_foldl (fun s x => s.foldSlot_chainOnly c x) _ s).chains k hk)

variable {t}

theorem State.folded_cores (h : t.marks = []) : (s.folded c r t).cores = s.cores :=
  (State.writeMarks_none _ _ _ h).trans (State.chainOnly_foldl (fun s x => s.foldSlot_chainOnly c x) _ s).cores

/-- Nothing to fold. -/
theorem State.folded_nil (h : Sys2Proof.Claims.foldedBy r t = []) : ∃ marks,
    (s.folded c r t).chains[c] = { s.chains[c] with markCnt := marks } := by
  rw [State.folded, h]
  exact s.writeMarks_chain c _ t

/-- One slot to fold. -/
theorem State.folded_one {x : Shadow} (h : Sys2Proof.Claims.foldedBy r t = [x]) :
    (s.folded c r t).chains[c].ca = s.chains[c].ca.set x.ca
      (x.fold s.chains[c].ca[x.ca] ((s.chains[c].cas.toNat >>> (4 * x.ca.val)) % 16) (Config.freeNat s.free)).ca := by
  obtain ⟨_, hmarks⟩ := State.writeMarks_chain (s.foldSlot c x) c r.launch.markCfg t
  rw [State.folded, h, List.foldl_cons, List.foldl_nil, hmarks]
  exact (s.foldSlot_chain c x).2

end

/-- What goes to the drain of strip `t`. -/
def State.writesOf (s : State) (c : ChainId) (l : Launch) (t : Strip) : List HeldWrite :=
  l.stations.flatMap fun q =>
    if q.kind = .out then s.outWrites l t q (if q.code = 4 then s.chains[c].opa.toNat else s.chains[c].opb.toNat) else []

/-- The launch that has committed strip `t`. -/
def Run.committed (r : Run) (t : Strip) (rest : List Strip) : Run :=
  { r with
    strips := rest
    inserted := r.inserted + t.insertedBy r.launch
    again := if r.again = some (t.k + 1) then none else r.again }

/-- The chain that has committed strip `t`, before its buffers go back. -/
def Chain.committed (h : Chain) (l : Launch) (t : Strip) (writes : List HeldWrite) (lwait : Bool) (run : Option Run) : Chain :=
  { h with
    msc := h.msc + 1
    opa := h.opa + BitVec.ofNat 41 t.outA
    opb := h.opb + BitVec.ofNat 41 t.outB
    numf := h.numf ||| t.flags ||| (if t.replay then 0x10000 else 0)
    replays := if t.replay && h.replays ≠ 0xFFFFFFFF then h.replays + 1 else h.replays
    drains := if writes.isEmpty then h.drains else h.drains ++ [{ serial := l.serial, writes := writes }]
    lwait := lwait
    run := run }

section
variable {u g h : Chain} {l : Launch} {t : Strip} {writes : List HeldWrite} {lwait : Bool} {run : Option Run}

/-- What the fold of accumulators, the marks and the buffers leave alone of a commit. -/
theorem Chain.committed_fields (hu : u.SameButLoads (g.committed l t writes lwait run)) (hg : g.SameButFolds h) :
    u.msc = h.msc + 1 ∧ u.opa = h.opa + BitVec.ofNat 41 t.outA ∧ u.opb = h.opb + BitVec.ofNat 41 t.outB ∧
      u.replays = (if t.replay = true ∧ h.replays ≠ 0xFFFFFFFF then h.replays + 1 else h.replays) ∧
      u.drains = (if writes = [] then h.drains else h.drains ++ [{ serial := l.serial, writes := writes }]) ∧
      u.stopReq = h.stopReq ∧ u.queued = h.queued ∧ u.run = run := by
  obtain ⟨_, _, _, _, _, rfl, -⟩ := hu
  obtain ⟨_, _, _, _, rfl⟩ := hg
  refine ⟨rfl, rfl, rfl, ?_, ?_, rfl, rfl, rfl⟩
  · simp only [Chain.committed, Bool.and_eq_true, decide_eq_true_eq]
  · simp only [Chain.committed, List.isEmpty_iff]

theorem Chain.committed_flags (hu : u.SameButLoads (g.committed l t writes lwait run)) :
    u.numf = g.numf ||| t.flags ||| (if t.replay then 0x10000 else 0) ∧ u.cas = g.cas := by
  obtain ⟨_, _, _, _, _, rfl, -⟩ := hu
  exact ⟨rfl, rfl⟩

theorem Chain.committed_ca (hu : u.SameButLoads (g.committed l t writes lwait run)) (hg : g.SameButFolds h)
    (hnone : h.caLoads = []) : u.ca = g.ca := by
  obtain ⟨_, _, _, _, _, rfl, hca⟩ := hu
  obtain ⟨_, _, _, _, rfl⟩ := hg
  exact (hca hnone).1

end

theorem Chain.committed_ends (h : Chain) (l : Launch) (t : Strip) (writes : List HeldWrite) (lwait : Bool) (run : Option Run) :
    { h.committed l t writes lwait run with run := none, lwait := false } = h.committed l t writes false none := rfl

/-- The device that has committed strip `t`, before the launch ends or goes on. -/
def State.committed (s : State) (c : ChainId) (r : Run) (t : Strip) (rest : List Strip) : State :=
  (s.folded c r t).modChain c fun h =>
    h.committed r.launch t (s.writesOf c r.launch t) h.lwait (some (r.committed t rest))

theorem State.committed_chain (s : State) (c : ChainId) (r : Run) (t : Strip) (rest : List Strip) :
    (s.committed c r t rest).chains[c] = (s.folded c r t).chains[c].committed r.launch t (s.writesOf c r.launch t)
      (s.folded c r t).chains[c].lwait (some (r.committed t rest)) := State.modChain_same ..

section
variable {s : State} {c : ChainId} {r : Run} {t : Strip} {rest : List Strip} (hrun : s.chains[c].run = some r)
  (hstrips : r.strips = t :: rest) (habort : t.abort = none) (hdrained : t.drained r.launch = true)
include hrun hstrips habort hdrained

theorem State.stripCommit_eq : ∃ s0,
    s.stripCommit c =
      if (s.chains[c].stopReq && rest.isEmpty) || decide (r.launch.strips ≤ t.k + 1) then
        (s.committed c r t rest).endLaunch c
      else State.freedSince s0 (s.committed c r t rest) c := by
  obtain ⟨_, _, _, _, hfolded⟩ := s.folded_chain c r t
  have hmod : (((s.folded c r t).modChain c fun h => { h with
      msc := h.msc + 1
      opa := h.opa + BitVec.ofNat 41 t.outA
      opb := h.opb + BitVec.ofNat 41 t.outB
      numf := h.numf ||| t.flags ||| (if t.replay then 0x10000 else 0)
      replays := if t.replay && h.replays ≠ 0xFFFFFFFF then h.replays + 1 else h.replays
      drains := if (s.writesOf c r.launch t).isEmpty then h.drains
        else h.drains ++ [{ serial := r.launch.serial, writes := s.writesOf c r.launch t }]
      run := h.run.map fun x => { x with strips := rest, inserted := x.inserted + t.insertedBy r.launch } }).modChain c
      fun h => { h with run := h.run.map fun x => { x with
        again := if x.again = some (t.k + 1) then none else x.again } }) = s.committed c r t rest := by
    rw [State.modChain_modChain]
    exact State.modChain_congr (by rw [hfolded, hrun]; rfl)
  simp only [State.stripCommit, hrun, hstrips, habort, hdrained]
  rw [← hmod]
  exact ⟨_, rfl⟩

/-- Beside what the fold of its accumulators and its marks leave, a commit changes its own chain alone. -/
theorem State.stripCommit_chainOnly : (s.stripCommit c).ChainOnly (s.folded c r t) c := by
  have hmod : (s.committed c r t rest).ChainOnly (s.folded c r t) c := State.modChain_chainOnly _ c _
  obtain ⟨s0, h⟩ := State.stripCommit_eq hrun hstrips habort hdrained
  rw [h]
  split
  · exact (State.endLaunch_chainOnly _ c).trans hmod
  · exact (State.freedSince_buffersOnly s0 _ c).toChainOnly.trans hmod

/-- The launch ends with its last strip, and in a stop with the last strip that the stop has kept; else it goes on. -/
theorem State.stripCommit_chain : ∃ lwait, (s.stripCommit c).chains[c].SameButLoads
    ((s.folded c r t).chains[c].committed r.launch t (s.writesOf c r.launch t) lwait
      (if (s.chains[c].stopReq && rest.isEmpty) || decide (r.launch.strips ≤ t.k + 1) then none
        else some (r.committed t rest))) := by
  obtain ⟨s0, h⟩ := State.stripCommit_eq hrun hstrips habort hdrained
  have hk := s.committed_chain c r t rest
  generalize s.committed c r t rest = k at h hk
  generalize (s.folded c r t).chains[c] = g at hk ⊢
  generalize s.writesOf c r.launch t = ws at hk ⊢
  generalize ((s.chains[c].stopReq && rest.isEmpty) || decide (r.launch.strips ≤ t.k + 1)) = last at h ⊢
  rw [h]
  cases last with
  | true =>
    have hend := k.endLaunch_chain c
    rw [hk, Chain.committed_ends] at hend
    exact ⟨false, hend⟩
  | false =>
    have hfreed := (State.freedSince_buffersOnly s0 k c).chain
    rw [hk] at hfreed
    exact ⟨g.lwait, .of_buffers hfreed (.refl _)⟩

end

end Sys2Proof.Machine

namespace Sys2Proof.Proofs
open Sys2Proof.Machine

theorem stripCommits : Sys2Proof.Claims.StripCommits := by
  unfold Sys2Proof.Claims.StripCommits
  intro c r t rest s h l last writes hrun hstrips habort hdrained
  have hframe := State.stripCommit_chainOnly hrun hstrips habort hdrained
  have hfolded := s.folded_chain c r t
  obtain ⟨_, hu⟩ := State.stripCommit_chain hrun hstrips habort hdrained
  obtain ⟨hmsc, hopa, hopb, hreplays, hdrains, hstop, hqueued, hlaunch⟩ := Chain.committed_fields hu hfolded
  obtain ⟨hnumf, hcas⟩ := Chain.committed_flags hu
  refine ⟨s.stripCommit c, exec_stripCommit c s, hframe.mem.trans (s.folded_mem c r t),
    fun k hk => (hframe.chains k hk).trans (s.folded_other c r t hk), hmsc, hopa, hopb, hreplays, hdrains, hstop, hqueued,
    fun hlast => hlaunch.trans (if_pos hlast), fun hlast => hlaunch.trans (if_neg (Bool.eq_false_iff.mp hlast)),
    fun hnone n => ?_, fun hnone => ?_, fun x hone hloads => ?_⟩
  · rw [hframe.cores, s.folded_cores c r hnone]
  · obtain ⟨_, hnil⟩ := s.folded_nil c r hnone
    rw [hnil] at hnumf hcas
    exact ⟨hnumf, fun hloads => ⟨(Chain.committed_ca hu hfolded hloads).trans (by rw [hnil]), hcas⟩⟩
  · exact (Chain.committed_ca hu hfolded hloads).trans (s.folded_one c r hone)

end Sys2Proof.Proofs
end

section
/-! The writes of a drain, and O47 (04 R70, R72; 05 R94, R100; 15 R312). -/

namespace Sys2Proof.Machine

theorem exec_drainAccept (c : ChainId) (i : Nat) (rep : Reply) (s : State) :
    exec (.drainAccept c i rep) s = .next (s.drainAccept c i rep) := rfl

/-! ## Writes of several parts to scratch (13 R263) -/

theorem State.memWrites_scratchOnly (off : Nat) (ps : List (Nat × List Byte)) : ∀ s : State,
    (ps.foldl (fun s p => s.memWrite (off + p.1) p.2) s).ScratchOnly s := by
  induction ps with
  | nil => exact .refl
  | cons p ps ih => exact fun s => (ih _).trans (s.memWrite_scratchOnly ..)

theorem State.memWrites_cells (off : Nat) (ps : List (Nat × List Byte)) : ∀ s : State,
    (ps.foldl (fun s p => s.memWrite (off + p.1) p.2) s).mem.cells =
      ps.foldl (fun m p => writeCells m (off + p.1) p.2) s.mem.cells := by
  induction ps with
  | nil => exact fun _ => rfl
  | cons p ps ih => exact fun s => (ih _).trans (by rw [State.memWrite_cells]; rfl)

theorem State.scratchParts_scratchOnly (s : State) (m off : Nat) (ps : List (Nat × List Byte)) :
    (s.scratchParts m off ps).ScratchOnly s := by
  unfold State.scratchParts
  split
  · exact s.scratchWrite_scratchOnly ..
  · exact (State.memWrites_scratchOnly ..).trans (s.checked_scratchOnly ..)

theorem State.scratchParts_cells (s : State) (m off : Nat) (ps : List (Nat × List Byte)) :
    (s.scratchParts m off ps).mem.cells = ps.foldl (fun m p => writeCells m (off + p.1) p.2) s.mem.cells := by
  unfold State.scratchParts
  split
  · exact s.scratchWrite_cells ..
  · rw [State.memWrites_cells, State.checkScratch_mem, State.bankCountFree_mem]

/-! ## A write leaves its drain (04 R72) -/

/-- The drains once write `i` of the oldest is accepted. -/
def Drain.accepted (d : Drain) (i : Nat) (rest : List Drain) : List Drain :=
  if removeAt i d.writes = [] then rest else { d with writes := removeAt i d.writes } :: rest

theorem State.drainDone_buffersOnly {s : State} {c : ChainId} {d : Drain} {rest : List Drain} (i : Nat)
    (hdrains : s.chains[c].drains = d :: rest) :
    (s.drainDone c i).BuffersOnly (s.modChain c fun h => { h with drains := d.accepted i rest }) c := by
  have hmod : (s.modChain c fun h => { h with drains := match h.drains with
      | [] => []
      | d :: t =>
        let ws := removeAt i d.writes
        if ws.isEmpty then t else { d with writes := ws } :: t }) =
      s.modChain c fun h => { h with drains := d.accepted i rest } :=
    State.modChain_congr (by simp only [hdrains, Drain.accepted, List.isEmpty_iff])
  rw [← hmod]
  exact (State.freedSince_buffersOnly s _ c).trans (State.dropResv_buffersOnly _ c)

theorem State.drainDone_chainOnly {s : State} {c : ChainId} {d : Drain} {rest : List Drain} (i : Nat)
    (hdrains : s.chains[c].drains = d :: rest) : (s.drainDone c i).ChainOnly s c :=
  (State.drainDone_buffersOnly i hdrains).toChainOnly.trans (s.modChain_chainOnly c _)

theorem State.drainDone_chain {s : State} {c : ChainId} {d : Drain} {rest : List Drain} (i : Nat)
    (hdrains : s.chains[c].drains = d :: rest) :
    (s.drainDone c i).chains[c].run = s.chains[c].run ∧ (s.drainDone c i).chains[c].drains = d.accepted i rest := by
  have hbuf := (State.drainDone_buffersOnly i hdrains).chain
  rw [State.modChain_same] at hbuf
  obtain ⟨_, _, _, h⟩ := hbuf
  rw [h]
  exact ⟨rfl, rfl⟩

section
variable {s : State} {c : ChainId} {i : Nat} {d : Drain} {rest : List Drain} {w : HeldWrite}
  (hdrains : s.chains[c].drains = d :: rest) (hwrite : d.writes[i]? = some w) (rep : Reply)
include hdrains hwrite

theorem State.drainAccept_behind (hbehind : d.behind i w = true) : s.drainAccept c i rep = s := by
  simp only [State.drainAccept, hdrains, hwrite, hbehind, if_true]

theorem State.drainAccept_scratch (hbehind : d.behind i w = false) {off : Nat} (hloc : w.loc = .here off)
    (hplace : s.place off = .scratch) :
    s.drainAccept c i rep = (s.scratchParts c.val off w.parts).drainDone c i := by
  have hreach : s.reach c.val false (.drain c w) (.here off) w.len (some w.parts) rep =
      (s.scratchParts c.val off w.parts, some (.ok [])) := by
    simp only [State.reach, hplace, Bool.false_eq_true, if_false]
  unfold State.drainAccept
  rw [hdrains]
  dsimp only
  rw [hwrite]
  dsimp only
  rw [if_neg (Bool.eq_false_iff.mp hbehind), hloc, hreach]
  dsimp only [State.drainReply, State.landed]
  rw [hloc]

end

end Sys2Proof.Machine

namespace Sys2Proof.Proofs
open Sys2Proof.Machine

theorem drainsAreAccepted : Sys2Proof.Claims.DrainsAreAccepted := by
  unfold Sys2Proof.Claims.DrainsAreAccepted
  intro c i rep d rest w s hdrains hwrite
  refine ⟨fun off hbehind hloc hplace => ?_, fun hbehind => ?_⟩
  · have hscr := s.scratchParts_scratchOnly c.val off w.parts
    have hdrains' : (s.scratchParts c.val off w.parts).chains[c].drains = d :: rest := by rw [hscr.chains, hdrains]
    have hdone := State.drainDone_chainOnly i hdrains'
    obtain ⟨hrun, hleft⟩ := State.drainDone_chain i hdrains'
    refine ⟨_, (exec_drainAccept c i rep s).trans
      (congrArg _ (State.drainAccept_scratch hdrains hwrite rep hbehind hloc hplace)), ?_, hdone.cores.trans hscr.cores,
      fun k hk => (hdone.chains k hk).trans (by rw [hscr.chains]), hrun.trans (by rw [hscr.chains]), hleft⟩
    rw [hdone.mem, State.scratchParts_cells]
  · rw [exec_drainAccept, State.drainAccept_behind hdrains hwrite rep hbehind]

/-- Settles O47: what a strip wrote is folded into its chain and goes to a drain, and a write leaves its drain only when no
earlier write of its stream meets it. -/
theorem stripsCommitAndDrain : Obligations.StripsCommitAndDrain := ⟨stripCommits, drainsAreAccepted⟩

end Sys2Proof.Proofs
end

section
/-! Lines of streams in scratch, for O46 (05 R94, R99, R109; 13 R263). -/

namespace Sys2Proof.Machine

theorem exec_streamLineFill (c : ChainId) (i : Fin 2) (stream : Nat) (va : Word) (rep : Reply) (s : State) :
    exec (.streamLineFill c i stream va rep) s = .next (s.lineFill c i stream va rep) := rfl

/-! ## Accesses of scratch by any master -/

section
variable {s : State} {off : Nat} (hplace : s.place off = .scratch) (m : Nat) (w : Wanted) (n : Nat) (rep : Reply)
include hplace

theorem State.reach_scratchRead :
    s.reach m false w (.here off) n none rep = ((s.scratchRead m off n).1, some (s.scratchAns off n)) := by
  have hfit : fitReply (.ok (s.memRead off n)) 0 n = .ok (s.memRead off n) := if_pos (readCells_length ..)
  simp only [State.reach, hplace, Bool.false_eq_true, if_false, State.scratchRead, ReadAns.reply, hfit, State.scratchAns]

theorem State.reach_scratchWrite (ps : List (Nat × List Byte)) :
    s.reach m false w (.here off) n (some ps) rep = (s.scratchParts m off ps, some (.ok [])) := by
  simp only [State.reach, hplace, Bool.false_eq_true, if_false]

end

theorem State.scratchAns_poisoned {s : State} {off n : Nat} (h : s.poisoned off n = true) :
    s.scratchAns off n = .poison := if_pos h

theorem State.scratchAns_clean {s : State} {off n : Nat} (h : s.poisoned off n = false) :
    s.scratchAns off n = .ok (s.memRead off n) := if_neg (Bool.eq_false_iff.mp h)

/-! ## Failed accesses, also during a stop (05 R99) -/

/-- The chain without strip `i` and the younger ones, as a failed access leaves it before the stop. -/
def Chain.accessFailed (h : Chain) (r : Run) (i : Nat) : Chain :=
  { h with failed := true, run := some { r with trans := none, strips := r.strips.take i } }

section
variable {s : State} {c : ChainId} {r : Run} {i : Nat} (hrun : s.chains[c].run = some r) (hi : i < r.strips.length)
include hrun hi

/-- A stop in progress goes on without the discarded strips. -/
theorem State.accessFailure_stopping (hstop : s.chains[c].stopReq = true) : s.accessFailure c i =
    if i = 0 then (s.modChain c fun h => h.accessFailed r i).endLaunch c
    else (s.modChain c fun h => h.accessFailed r i).trim c := by
  have hmod : (s.modChain c fun h => { h with
      failed := true, run := h.run.map fun r => { r with trans := none, strips := r.strips.take i } }) =
      s.modChain c fun h => h.accessFailed r i := State.modChain_congr (by rw [hrun]; rfl)
  have hstill : (s.modChain c fun h => h.accessFailed r i).chains[c].stopReq = true := by
    rw [State.modChain_same]
    exact hstop
  simp only [State.accessFailure, hrun, hi, if_true]
  rw [hmod, if_pos hstill]

/-- The chain stops with the strips before the one whose access failed, of which a stop keeps at most one. -/
theorem State.accessFailure_stops (htwo : i < 2) :
    (s.accessFailure c i).ChainOnly s c ∧ (s.accessFailure c i).chains[c].failed = true ∧
    (s.accessFailure c i).chains[c].stopReq = true ∧
    ∀ r', (s.accessFailure c i).chains[c].run = some r' → r'.strips = r.strips.take i := by
  cases hstop : s.chains[c].stopReq with
  | false =>
    have hend := State.accessFailure_run hrun hi hstop
    obtain ⟨_, _, _, _, _, _, _, _, hu, -⟩ := State.accessFailure_chain hrun hi hstop
    refine ⟨State.accessFailure_chainOnly hrun hi hstop, by rw [hu], by rw [hu], fun r' hr' => ?_⟩
    rw [hend] at hr'
    split at hr'
    · cases hr'
    · cases hr'
      rw [show i = 1 by omega]
  | true =>
    have hcut := s.modChain_chainOnly c fun h => h.accessFailed r i
    have hkept := s.modChain_same c fun h => h.accessFailed r i
    rw [State.accessFailure_stopping hrun hi hstop]
    split
    · obtain ⟨_, _, _, _, _, hu, -⟩ := State.endLaunch_chain (s.modChain c fun h => h.accessFailed r i) c
      rw [hkept] at hu
      rw [hu]
      exact ⟨(State.endLaunch_chainOnly _ c).trans hcut, rfl, hstop, fun r' hr' => nomatch hr'⟩
    · have htrim := State.trim_buffersOnly (s.modChain c fun h => h.accessFailed r i) c
      obtain ⟨_, _, _, hu⟩ := htrim.chain
      rw [hkept] at hu
      rw [hu]
      refine ⟨htrim.toChainOnly.trans hcut, rfl, hstop, fun r' hr' => ?_⟩
      cases hr'
      rfl

end

/-! ## Lines arrive (05 R94, R109) -/

/-- The first strip of an attempt. -/
theorem find_attempt {l : List Strip} {i : Nat} {t : Strip} (ht : l[i]? = some t)
    (hfirst : ∀ j < i, ∀ x, l[j]? = some x → x.att ≠ t.att) :
    (l.zipIdx.find? fun p => decide (p.1.att = t.att)) = some (t, i) := by
  obtain ⟨hi, hget⟩ := List.getElem?_eq_some_iff.mp ht
  rw [List.find?_eq_some_iff_getElem]
  refine ⟨decide_eq_true rfl, i, by simpa using hi, by simp [hget], fun j hj => ?_⟩
  simpa using hfirst j hj _ (List.getElem?_eq_getElem (hj.trans hi))

/-- The strip with a line more in its buffers, out of which RLE inputs take their blocks. -/
def Strip.lineIn (l : Launch) (stream : Nat) (va : Word) (bs : List Byte) (t : Strip) : Strip :=
  (({ t with
      lines := t.lines ++ [{ stream := stream, va := va, bytes := bs }]
      asked := t.asked.filter (· ≠ (stream, va.toNat)) } : Strip).absorbAll l).freeLines l stream

section
variable {s : State} {c : ChainId} {i stream : Nat} {va : Word} {r : Run} {t : Strip}
  (hrun : s.chains[c].run = some r) (ht : r.strips[i]? = some t)
include hrun ht

theorem State.lineArrive_wanted (hfirst : ∀ j < i, ∀ x, r.strips[j]? = some x → x.att ≠ t.att)
    (hwants : s.chains[c].wantsLine r t stream va.toNat = true) (bs : List Byte) :
    s.lineArrive c t.att stream va { bytes := bs, poison := false } =
      s.freedSince (s.modStrip c i (Strip.lineIn r.launch stream va bs)) c := by
  simp only [State.lineArrive, hrun, find_attempt ht hfirst, Bool.false_eq_true, if_false, hwants, if_true]
  rfl

/-- A line that the strip wants comes into its buffers, and buffers that have come free go back. -/
theorem State.lineArrive_strip (hfirst : ∀ j < i, ∀ x, r.strips[j]? = some x → x.att ≠ t.att)
    (hwants : s.chains[c].wantsLine r t stream va.toNat = true) (bs : List Byte) :
    let u := s.lineArrive c t.att stream va { bytes := bs, poison := false }
    u.ChainOnly s c ∧ u.HasStrip c i r (t.lineIn r.launch stream va bs) := by
  have hfreed := State.freedSince_buffersOnly s (s.modStrip c i (Strip.lineIn r.launch stream va bs)) c
  rw [State.lineArrive_wanted hrun ht hfirst hwants]
  exact ⟨hfreed.toChainOnly.trans (s.modChain_chainOnly c _),
    ((State.hasStrip_of_run hrun ht).modStrip _).of_buffers hfreed.chain⟩

/-- The fetch of a line in scratch is answered at once. -/
theorem State.lineFill_scratch {q : Stn} {off : Nat} (hinput : r.launch.inputOf stream = some q)
    (hfetch : s.chains[c].mayFetch r = true) (hwants : s.chains[c].wantsLine r t stream va.toNat = true)
    (hphys : s.streamPhys t.map stream (dPhys (descOf r.launch.sregs q)) va = some (.here off))
    (hplace : s.place off = .scratch) (rep : Reply) : s.lineFill c i stream va rep =
      (s.scratchRead c.val off 64).1.lineReply c i t.att stream va (s.scratchAns off 64) := by
  simp only [State.lineFill, hrun, ht, hinput, hfetch, hwants, hphys, State.reach_scratchRead hplace, Bool.not_true,
    Bool.or_false, Bool.false_eq_true, if_false]

end

end Sys2Proof.Machine

namespace Sys2Proof.Proofs
open Sys2Proof.Machine

theorem streamLinesArrive : Sys2Proof.Claims.StreamLinesArrive := by
  unfold Sys2Proof.Claims.StreamLinesArrive
  intro c i stream va rep r t q off s put hrun ht hfirst hinput hfetch hwants hphys hplace
  have hread := s.scratchRead_scratchOnly c.val off 64
  have hmem := s.scratchRead_mem c.val off 64
  have hfill := State.lineFill_scratch hrun ht hinput hfetch hwants hphys hplace rep
  rw [exec_streamLineFill, hfill]
  rw [← hread.chains] at hrun hwants
  generalize (s.scratchRead c.val off 64).1 = u at hread hmem hrun hwants
  refine ⟨fun hclean => ?_, fun hbad => ?_⟩
  · obtain ⟨hframe, hstrip⟩ := State.lineArrive_strip hrun ht hfirst hwants (s.memRead off 64)
    have hlen : (s.memRead off 64).length = 64 := readCells_length ..
    rw [State.scratchAns_clean hclean, State.lineReply, if_pos hlen]
    refine ⟨_, rfl, hframe.mem.trans hmem, hframe.cores.trans hread.cores,
      fun k hk => (hframe.chains k hk).trans (by rw [hread.chains]), ?_⟩
    rw [modifyAt_const ht]
    exact hstrip
  · obtain ⟨hi, -⟩ := List.getElem?_eq_some_iff.mp ht
    obtain ⟨hframe, hfailed, hstop, hstrips⟩ := State.accessFailure_stops hrun hi i.isLt
    rw [State.scratchAns_poisoned hbad]
    exact ⟨_, rfl, hframe.mem.trans hmem, hframe.cores.trans hread.cores, hfailed, hstop, hstrips⟩

end Sys2Proof.Proofs
end

section
/-! Accesses of stations to scratch, and O46 (05 R102; 07 R151; 13 R266). -/

namespace Sys2Proof.Machine

theorem exec_stationAccessResponse (c : ChainId) (i : Fin 2) (p : Fin 16) (j : Nat) (rep : Reply) (s : State) :
    exec (.stationAccessResponse c i p j rep) s = .next (s.stationAnswer c i p j rep false) := rfl

/-! ## Atomics at a bank (13 R266) -/

section
variable {s : State} {off : Nat} (hclean : s.poisoned off 8 = false) (m : Nat) (g : Word → Word)
include hclean

theorem State.scratchAtomic_clean : s.scratchAtomic m off g =
    ((s.scratchRead m off 8).1.memWrite off (bytesOf 8 (g (wordOf (s.memRead off 8))).toNat),
      { bytes := s.memRead off 8, poison := false }) := by
  simp only [State.scratchAtomic, State.scratchRead, hclean, Bool.false_eq_true, if_false]

theorem State.scratchAtomic_scratchOnly : (s.scratchAtomic m off g).1.ScratchOnly s := by
  rw [State.scratchAtomic_clean hclean]
  exact (State.memWrite_scratchOnly ..).trans (s.scratchRead_scratchOnly m off 8)

theorem State.scratchAtomic_cells : (s.scratchAtomic m off g).1.mem.cells =
    writeCells s.mem.cells off (bytesOf 8 (g (wordOf (s.memRead off 8))).toNat) := by
  rw [State.scratchAtomic_clean hclean, State.memWrite_cells, State.scratchRead_mem]

end

/-! ## What an access of a station comes to in scratch -/

section
variable {s : State} {map : List PageMap} {stream : Nat} {phys : Bool} {va : Word} {off : Nat}
  (hphys : s.streamPhys map stream phys va = some (.here off)) (hplace : s.place off = .scratch) (c : ChainId) (who : Wanted)
  (rep : Reply)
include hphys hplace

theorem State.stnRead_scratch {n : Nat} (hclean : s.poisoned off n = false) :
    s.stnRead c false who map stream phys va n rep = ((s.scratchRead c.val off n).1, .done (s.memRead off n)) := by
  simp only [State.stnRead, hphys, State.reach_scratchRead hplace, State.scratchAns_clean hclean, accAns]

theorem State.stnWrite_scratch (bs : List Byte) :
    s.stnWrite c false who map stream phys va bs rep = (s.scratchWrite c.val off bs, .done []) := by
  simp only [State.stnWrite, hphys, State.reach_scratchWrite hplace, State.scratchParts, State.landed, Nat.add_zero]

theorem State.stnAtomic_scratch (hclean : s.poisoned off 8 = false) (aop : BitVec 4) (v : Word) :
    s.stnAtomic c false who map stream phys va aop v rep =
      ((s.scratchAtomic c.val off (aopFun aop v)).1, .done (s.memRead off 8)) := by
  simp only [State.stnAtomic, hphys, hplace, if_true, State.scratchAtomic_clean hclean, Bool.false_eq_true, if_false]

end

/-! ## Flights (07 R151) -/

/-- The strip in which flight `j` of station `p` has become `f`, or is gone. -/
def Strip.withFlight (p j : Nat) (f : Option Flight) (t : Strip) : Strip :=
  { t with stations := modifyAt (fun x => { x with flight := match f with
      | some f => modifyAt (fun _ => f) j x.flight
      | none => removeAt j x.flight }) p t.stations }

/-- The strip whose output station has performed an atomic. -/
def Strip.atomicDone (q : Stn) (t : Strip) : Strip :=
  { t with
    outA := if q.code = 4 then t.outA + 1 else t.outA
    outB := if q.code = 5 then t.outB + 1 else t.outB }

theorem State.setFlight_chainOnly (s : State) (c : ChainId) (i p j : Nat) (f : Option Flight) :
    (s.setFlight c i p j f).ChainOnly s c := (s.modStrip_oneChain c i (Strip.withFlight p j f)).toChainOnly

theorem State.HasStrip.setFlight {s : State} {c : ChainId} {i : Nat} {r : Run} {t : Strip} (h : s.HasStrip c i r t)
    (p j : Nat) (f : Option Flight) : (s.setFlight c i p j f).HasStrip c i r (t.withFlight p j f) :=
  h.modStrip (Strip.withFlight p j f)

section
variable {s : State} {c : ChainId} {i p j : Nat} {r : Run} {t : Strip} {q : Stn} {ws : List Wire} {sr : StationRun}
  {f : Flight} {off : Nat}

/-- An access that nothing precedes reaches its flight. -/
theorem State.stationAnswer_flight (hrun : s.chains[c].run = some r) (ht : r.strips[i]? = some t)
    (hrow : r.launch.rows[p]? = some (q, ws)) (hsr : t.stations[p]? = some sr) (hf : sr.flight[j]? = some f)
    (hwait : s.mustWait t q (descOf r.launch.sregs q) sr.flight j f = false) (hkind : q.kind ≠ .dec) (rep : Reply) :
    s.stationAnswer c i p j rep false = s.flightAnswer c i p j r t q f rep false := by
  simp only [State.stationAnswer, hrun, ht, hrow, hkind, hsr, hf, hwait, if_false, Option.map_some, Option.getD_some,
    Bool.and_false, Bool.false_eq_true]

theorem Stn.access_out (d : Desc) (hkind : q.kind = .out) : q.access d = (q.code, dPhys d) := by simp [Stn.access, hkind]

theorem Stn.access_prb (d : Desc) (hkind : q.kind = .prb) : q.access d = (7, d.getLsbD 222) := by simp [Stn.access, hkind]

variable (rep : Reply) (hplace : s.place off = .scratch)
include hplace

/-- An atomic is performed at the bank, and its flight leaves. -/
theorem State.flightAnswer_atomic {a : Word} {aop : BitVec 4} {v : Word} (hst : f.st = .atomic a aop v)
    (hkind : q.kind = .out) (hphys : s.streamPhys t.map q.code (dPhys (descOf r.launch.sregs q)) a = some (.here off))
    (hclean : s.poisoned off 8 = false) : s.flightAnswer c i p j r t q f rep false =
      ((s.scratchAtomic c.val off (aopFun aop v)).1.setFlight c i p j none).modStrip c i (Strip.atomicDone q) := by
  simp only [State.flightAnswer, hst, Stn.access_out _ hkind, State.stnAtomic_scratch hphys hplace _ _ _ hclean]
  rfl

/-- A GATHER takes the word that it has read. -/
theorem State.flightAnswer_gather (hst : f.st = .gather) (hkind : q.kind = .prb)
    (hphys : let d := descOf r.launch.sregs q
      s.streamPhys t.map 7 (d.getLsbD 222) (BitVec.ofNat 64 (dbits d 127 64 + 8 * f.h.toNat)) = some (.here off))
    (hclean : s.poisoned off 8 = false) : s.flightAnswer c i p j r t q f rep false =
      (s.scratchRead c.val off 8).1.setFlight c i p j (some (f.finish (.nar (wordOf (s.memRead off 8))))) := by
  simp only [State.flightAnswer, hst, Stn.access_prb _ hkind, State.stnRead_scratch hphys hplace _ _ _ hclean]

/-- An INSERT has written its entry, and swaps the bucket's head next. -/
theorem State.flightAnswer_put {idx : Nat} (hst : f.st = .put idx) (hkind : q.kind = .prb)
    (hphys : let d := descOf r.launch.sregs q
      s.streamPhys t.map 7 (d.getLsbD 222) (tEntry d idx) = some (.here off)) :
    s.flightAnswer c i p j r t q f rep false =
      (s.scratchWrite c.val off (entryBytes (descOf r.launch.sregs q) f)).setFlight c i p j
        (some { f with st := .swap idx }) := by
  simp only [State.flightAnswer, hst, Stn.access_prb _ hkind, State.stnWrite_scratch hphys hplace]

end

end Sys2Proof.Machine

namespace Sys2Proof.Proofs
open Sys2Proof.Machine

theorem stationAccessesAnswer : Sys2Proof.Claims.StationAccessesAnswer := by
  unfold Sys2Proof.Claims.StationAccessesAnswer
  intro c i p j rep r t q ws sr f off s d take hrun ht hrow hsr hf hwait hplace
  have hflight : q.kind ≠ .dec → exec (.stationAccessResponse c i p j rep) s =
      .next (s.flightAnswer c i p j r t q f rep false) := fun hkind =>
    (exec_stationAccessResponse ..).trans
      (congrArg _ (State.stationAnswer_flight hrun ht hrow hsr hf hwait hkind rep))
  have hstrip := State.hasStrip_of_run hrun ht
  refine ⟨fun a aop v hst hkind hphys hclean => ?_, fun hst hkind hphys hclean => ?_,
    fun idx hst hkind hphys _ => ?_⟩
  · have hbank := State.scratchAtomic_scratchOnly hclean c.val (aopFun aop v)
    have hcells := State.scratchAtomic_cells hclean c.val (aopFun aop v)
    rw [hflight (by simp [hkind]), State.flightAnswer_atomic rep hplace hst hkind hphys hclean]
    generalize (s.scratchAtomic c.val off (aopFun aop v)).1 = u at hbank hcells
    have hleft := (State.modStrip_oneChain (u.setFlight c i p j none) c i (Strip.atomicDone q)).toChainOnly.trans
      (u.setFlight_chainOnly c i p j none)
    exact ⟨_, rfl, (congrArg Memory.cells hleft.mem).trans hcells,
      ⟨_, ((hstrip.of_chains hbank.chains).setFlight p j none).modStrip (Strip.atomicDone q), rfl⟩,
      hleft.cores.trans hbank.cores, fun k hk => (hleft.chains k hk).trans (by rw [hbank.chains])⟩
  · have hread := s.scratchRead_scratchOnly c.val off 8
    rw [hflight (by simp [hkind]), State.flightAnswer_gather rep hplace hst hkind hphys hclean]
    exact ⟨_, rfl, (State.setFlight_chainOnly ..).mem.trans (s.scratchRead_mem c.val off 8),
      _, (hstrip.of_chains hread.chains).setFlight p j _, rfl⟩
  · have hwrite := s.scratchWrite_scratchOnly c.val off (entryBytes d f)
    rw [hflight (by simp [hkind]), State.flightAnswer_put rep hplace hst hkind hphys]
    refine ⟨_, rfl, ?_, _, (hstrip.of_chains hwrite.chains).setFlight p j _, rfl⟩
    rw [(State.setFlight_chainOnly ..).mem, State.scratchWrite_cells]

/-- Settles O46: a line of scratch arrives in the buffer of the strip that wants it or fails the strip, and an access of a
station to scratch is answered at its bank. -/
theorem streamAndStationAccessesAnswer : Obligations.StreamAndStationAccessesAnswer :=
  ⟨streamLinesArrive, stationAccessesAnswer⟩

end Sys2Proof.Proofs
end

section
/-! What a station makes of an element as its result and its conditions, and O11 (06 R116 to R118, R124). -/

namespace Sys2Proof.Machine
open Sys2Proof.Claims

/-! ## Results and conditions on a wire (06 R117) -/

@[simp] theorem Elem.val_null (e : Elem) : e.val.null = e.null := rfl
@[simp] theorem Elem.val_lo (e : Elem) : e.val.lo = e.lo := rfl
@[simp] theorem Elem.val_hi (e : Elem) : e.val.hi = e.hi := rfl

theorem makes_elem (v : Val) (pos : Nat) :
    makes { ElemRes.none with out1 := some (v.elem pos) } pos v.null v.lo v.hi := rfl

theorem NumRes.res_ok (v : Val) (pos mode : Nat) : makes ((NumRes.ok v).res pos mode) pos v.null v.lo v.hi := by
  simp [makes, NumRes.res, NumRes.ok, ElemRes.none, Val.elem]

/-- A condition's element goes on as null in every mode; trap mode alone keeps its flag back. -/
theorem NumRes.res_bad (flag cond which : Nat) (v0 : Word) (v1 : Option Word) (pos mode : Nat) :
    raises ((NumRes.bad flag cond which (some v0) v1).res pos mode) pos mode cond which flag v0 := by
  simp [raises, NumRes.res, NumRes.bad, ElemRes.none, Val.elem, Val.nul]

/-- An operand that an operation has is not null. -/
theorem and_null_eq_false {two null : Bool} (h : two = true → null = false) : (two && null) = false := by
  cases two
  · rfl
  · exact h rfl

/-! ## The station of each kind -/

section
variable (l : Launch) (dict : List Word) (t : Strip) {q : Stn} (ws : List Wire) (i idx : Nat)

theorem stationElem_alu (h : q.kind = .alu) : stationElem l dict t q ws i idx =
    (aluStation q.op (t.operand q ws q.a i).val (t.operand q ws q.b i).val (t.operand q ws q.c i).val
      (aluUsesB q.op)).res (t.posOf q ws i) (q.mode t.flushOnce) := by
  simp only [stationElem, h]

theorem stationElem_mac (h : q.kind = .mac) : stationElem l dict t q ws i idx =
    (macStation q.op (q.m1 = 1) q.m2 (t.operand q ws q.a i).val (t.operand q ws q.b i).val (t.operand q ws q.c i).val
      (macUsesC q.op)).res (t.posOf q ws i) (q.mode t.flushOnce) := by
  simp only [stationElem, h]

theorem stationElem_div (h : q.kind = .div) : stationElem l dict t q ws i idx =
    (divStation q.op (divWidth q.m1) (t.operand q ws q.a i).val (t.operand q ws q.b i).val).res (t.posOf q ws i)
      (q.mode t.flushOnce) := by
  simp only [stationElem, h]

theorem stationElem_dcm (h : q.kind = .dcm) : stationElem l dict t q ws i idx =
    (dcmStation q.op (rescaleK q) q.m2 (q.m3 + 1) t.replay (t.operand q ws q.a i).val (t.operand q ws q.b i).val).res
      (t.posOf q ws i) (q.mode t.flushOnce) := by
  simp only [stationElem, h]

theorem stationElem_fpu (h : q.kind = .fpu) : stationElem l dict t q ws i idx =
    (fpuStation q.op (q.m1 = 1) q.m2 t.replay (t.operand q ws q.a i).val (t.operand q ws q.b i).val).res
      (t.posOf q ws i) (q.mode t.flushOnce) := by
  simp only [stationElem, h]

theorem stationElem_sel (h : q.kind = .sel) : stationElem l dict t q ws i idx =
    { ElemRes.none with out1 := some ((selStation q.op q.m2 (q.m3 + 1) q.m1 (t.operand q ws q.a i).val
      (t.operand q ws q.b i).val (t.operand q ws q.c i).val (t.operand q ws q.p i).val).elem (t.posOf q ws i)) } := by
  simp only [stationElem, h]

theorem stationElem_hsh (h : q.kind = .hsh) : stationElem l dict t q ws i idx =
    { ElemRes.none with out1 := some ((hshStation q.op q.imm (wideAt ws q.a) (t.operand q ws q.a i).val
      (t.operand q ws q.b i).val).elem (t.posOf q ws i)) } := by
  simp only [stationElem, h]

end

/-! ## Bit patterns of the two formats (06 R121) -/

/-- A pattern is its magnitude and its sign bit. -/
theorem Fmt.mod_width (f : Fmt) (v : Nat) :
    v % 2 ^ f.width = v % 2 ^ (f.eb + f.mb) + 2 ^ (f.eb + f.mb) * (v / 2 ^ (f.eb + f.mb) % 2) := by
  rw [Fmt.width, Nat.pow_succ, Nat.mod_mul]

theorem Fmt.mod_width_mod (f : Fmt) (v : Nat) : v % 2 ^ f.width % 2 ^ (f.eb + f.mb) = v % 2 ^ (f.eb + f.mb) :=
  Nat.mod_mod_of_dvd _ (Nat.pow_dvd_pow 2 (Nat.le_succ _))

/-- A pattern is a NaN when its magnitude lies above that of an infinity. -/
theorem Fmt.isNan_iff (f : Fmt) (v : Nat) :
    f.isNan v = true ↔ (2 ^ f.eb - 1) * 2 ^ f.mb < v % 2 ^ (f.eb + f.mb) := by
  have hsplit : v % 2 ^ (f.eb + f.mb) = v % 2 ^ f.mb + 2 ^ f.mb * (v / 2 ^ f.mb % 2 ^ f.eb) := by
    rw [Nat.add_comm, Nat.pow_add, Nat.mod_mul]
  have hfrac : v % 2 ^ f.mb < 2 ^ f.mb := Nat.mod_lt _ (Nat.two_pow_pos _)
  have hexp : v / 2 ^ f.mb % 2 ^ f.eb < 2 ^ f.eb := Nat.mod_lt _ (Nat.two_pow_pos _)
  simp only [Fmt.isNan, Fmt.expOf, Fmt.fracOf, Nat.shiftRight_eq_div_pow, Bool.and_eq_true, beq_iff_eq, bne_iff_ne]
  rw [hsplit, Nat.mul_comm]
  refine ⟨fun ⟨he, hm⟩ => by rw [he]; omega, fun h => ?_⟩
  have htop : v / 2 ^ f.mb % 2 ^ f.eb = 2 ^ f.eb - 1 := by
    by_contra hne
    have hle : 2 ^ f.mb * (v / 2 ^ f.mb % 2 ^ f.eb + 1) ≤ 2 ^ f.mb * (2 ^ f.eb - 1) := Nat.mul_le_mul_left _ (by omega)
    rw [Nat.mul_succ] at hle
    omega
  rw [htop] at h
  exact ⟨htop, by omega⟩

theorem Fmt.nanOf_none {f : Fmt} {a b : Nat} (ha : f.isNan a = false) (hb : f.isNan b = false) : f.nanOf [a, b] = none := by
  simp [Fmt.nanOf, ha, hb]

/-- The sign bit splits the patterns of a format in two halves. -/
theorem Fmt.signOf_iff (f : Fmt) (v : Nat) : f.signOf v = true ↔ 2 ^ (f.eb + f.mb) ≤ v % 2 ^ f.width := by
  have hlow : v % 2 ^ (f.eb + f.mb) < 2 ^ (f.eb + f.mb) := Nat.mod_lt _ (Nat.two_pow_pos _)
  rw [Fmt.signOf, Nat.testBit_eq_decide_div_mod_eq, decide_eq_true_iff, f.mod_width]
  obtain h | h := Nat.mod_two_eq_zero_or_one (v / 2 ^ (f.eb + f.mb)) <;> rw [h] <;> omega

/-! ## FMIN, FMAX, FABS and FNEG (06 R124) -/

/-- The order of two patterns of a format's width. -/
theorem Fmt.key_eq (f : Fmt) (v : Nat) : f.key v =
    if v % 2 ^ f.width < 2 ^ (f.eb + f.mb) then ((v % 2 ^ (f.eb + f.mb) : Nat) : Int)
    else -((v % 2 ^ (f.eb + f.mb) : Nat) : Int) - 1 := by
  have hsign := f.signOf_iff v
  simp only [Fmt.key]
  split
  · next h => rw [if_neg (Nat.not_lt.mpr (hsign.mp h))]
  · next h => rw [if_pos (Nat.not_le.mp fun hle => h (hsign.mpr hle))]

theorem Fmt.min_keys {f : Fmt} {a b : Nat} (ha : f.isNan a = false) (hb : f.isNan b = false) :
    ∃ c, (c = a ∨ c = b) ∧ f.min a b = { v := c % 2 ^ f.width, flags := 0 } ∧ f.key c ≤ f.key a ∧ f.key c ≤ f.key b := by
  simp only [Fmt.min, Fmt.nanOf_none ha hb]
  by_cases h : f.key b < f.key a
  · exact ⟨b, .inr rfl, by rw [if_pos h], h.le, le_rfl⟩
  · exact ⟨a, .inl rfl, by rw [if_neg h], le_rfl, not_lt.mp h⟩

theorem Fmt.max_keys {f : Fmt} {a b : Nat} (ha : f.isNan a = false) (hb : f.isNan b = false) :
    ∃ c, (c = a ∨ c = b) ∧ f.max a b = { v := c % 2 ^ f.width, flags := 0 } ∧ f.key a ≤ f.key c ∧ f.key b ≤ f.key c := by
  simp only [Fmt.max, Fmt.nanOf_none ha hb]
  by_cases h : f.key a < f.key b
  · exact ⟨b, .inr rfl, by rw [if_pos h], h.le, le_rfl⟩
  · exact ⟨a, .inl rfl, by rw [if_neg h], le_rfl, not_lt.mp h⟩

theorem xor_two_pow_of_lt {x n : Nat} (h : x < 2 ^ n) : x ^^^ 2 ^ n = x + 2 ^ n := by
  have hmod : (x ^^^ 2 ^ n) % 2 ^ n = x := by rw [Nat.xor_mod_two_pow, Nat.mod_self, Nat.xor_zero, Nat.mod_eq_of_lt h]
  have hdiv : (x ^^^ 2 ^ n) / 2 ^ n = 1 := by
    rw [Nat.xor_div_two_pow, Nat.div_eq_of_lt h, Nat.div_self (Nat.two_pow_pos n), Nat.zero_xor]
  rw [← Nat.mod_add_div (x ^^^ 2 ^ n) (2 ^ n), hmod, hdiv, Nat.mul_one]

/-- FNEG inverts the sign bit. -/
theorem Fmt.neg_eq (f : Fmt) (v : Nat) : f.neg v =
    if v % 2 ^ f.width < 2 ^ (f.eb + f.mb) then v % 2 ^ f.width + 2 ^ (f.eb + f.mb) else v % 2 ^ (f.eb + f.mb) := by
  rw [Fmt.neg]
  split
  · next h => exact xor_two_pow_of_lt h
  · next h =>
    have hlow : v % 2 ^ (f.eb + f.mb) < 2 ^ (f.eb + f.mb) := Nat.mod_lt _ (Nat.two_pow_pos _)
    have hset : v % 2 ^ f.width = v % 2 ^ (f.eb + f.mb) ^^^ 2 ^ (f.eb + f.mb) := by
      rw [f.mod_width] at h
      rw [xor_two_pow_of_lt hlow, f.mod_width]
      obtain hbit | hbit := Nat.mod_two_eq_zero_or_one (v / 2 ^ (f.eb + f.mb)) <;> rw [hbit] at h ⊢ <;> omega
    rw [hset, Nat.xor_xor_cancel_right]

/-- An operation that does not compute with its operands raises no condition, whatever the mode. -/
theorem fpuStation_unchecked {op v : Nat} {fmt exact : Bool} {rm : Nat} {a b : Val} (hop : fpuChecks op = false)
    (ha : a.null = false) (hb : fpuTwo op = true → b.null = false)
    (hr : fpuOp op (fmtOf fmt) rm exact a.lo.toNat b.lo.toNat = { v := v, flags := 0 }) :
    fpuStation op fmt rm exact a b = .ok (.nar (BitVec.ofNat 64 v)) := by
  have hnull : (a.null || (fpuTwo op && b.null)) = false := by rw [ha, and_null_eq_false hb]; rfl
  simp only [fpuStation, hnull, hr, hop]
  simp [NumRes.ok]

section
variable (l : Launch) (dict : List Word) (t : Strip) {q : Stn} (ws : List Wire) (i idx : Nat)

/-- An FPU operation of operands that are not null gives the pattern `v`, as FMIN, FMAX, FABS and FNEG do. -/
theorem stationElem_fpu_unchecked {v : Nat} (h : q.kind = .fpu) (hop : fpuChecks q.op = false)
    (ha : (t.operand q ws q.a i).null = false) (hb : fpuTwo q.op = true → (t.operand q ws q.b i).null = false)
    (hr : fpuOp q.op (fmtOf (q.m1 = 1)) q.m2 t.replay (t.operand q ws q.a i).lo.toNat (t.operand q ws q.b i).lo.toNat =
      { v := v, flags := 0 }) :
    makes (stationElem l dict t q ws i idx) (t.posOf q ws i) false (BitVec.ofNat 64 v) 0 := by
  rw [stationElem_fpu l dict t ws i idx h, fpuStation_unchecked (a := (t.operand q ws q.a i).val)
    (b := (t.operand q ws q.b i).val) hop ha hb hr]
  exact NumRes.res_ok (.nar (BitVec.ofNat 64 v)) _ _

end

end Sys2Proof.Machine

namespace Sys2Proof.Proofs
open Sys2Proof.Machine

/-- Settles O11: the keys of FMIN and FMAX order the operands, and none of the four operations raises a condition. -/
theorem floatMinMaxReturnOperands : Obligations.FloatMinMaxReturnOperands := by
  unfold Obligations.FloatMinMaxReturnOperands
  intro l dict t q ws i idx hkind n inf x y a b mag key gives
  generalize hf : fmtOf (q.m1 = 1) = f
  have hn : n = f.width ∧ n - 1 = f.eb + f.mb ∧ inf = (2 ^ f.eb - 1) * 2 ^ f.mb := by
    subst hf
    by_cases h : q.m1 = 1 <;> simp [n, inf, h, fmtOf, fp32, fp64, Fmt.width]
  obtain ⟨hwidth, htop, hinf⟩ := hn
  have hmag : ∀ v, mag (v % 2 ^ n) = v % 2 ^ (f.eb + f.mb) := fun v => by
    simp only [mag, hwidth ▸ htop, hwidth, f.mod_width_mod]
  have hkey : ∀ v, key (v % 2 ^ n) = f.key v := fun v => by
    rw [f.key_eq]; simp only [key, hmag]; rw [htop, hwidth]
  have hnan : ∀ v, mag (v % 2 ^ n) ≤ inf → f.isNan v = false := fun v h => by
    rw [Bool.eq_false_iff, Ne, f.isNan_iff, ← hmag, ← hinf]; exact Nat.not_lt.mpr h
  have hmakes : ∀ {v}, _ := fun {v} => stationElem_fpu_unchecked l dict t ws i idx (v := v) hkind
  rw [hf] at hmakes
  refine ⟨fun hop hx hy ha hb => ?_, fun hop hx => ?_, fun hop hx => ?_⟩
  · have hnx := hnan _ ha
    have hny := hnan _ hb
    have htwo := fun _ : fpuTwo q.op = true => hy
    rcases hop with hop | hop
    · obtain ⟨c, hc, hmin, hle⟩ := Fmt.min_keys hnx hny
      refine ⟨c % 2 ^ n, hmakes (by rw [hop]; rfl) hx htwo (by rw [hop, hwidth]; exact hmin), ?_, fun _ => ?_,
        fun h => absurd (hop.symm.trans h) (by decide)⟩
      · exact hc.imp (congrArg (· % 2 ^ n)) (congrArg (· % 2 ^ n))
      · simpa only [a, b, hkey] using hle
    · obtain ⟨c, hc, hmax, hle⟩ := Fmt.max_keys hnx hny
      refine ⟨c % 2 ^ n, hmakes (by rw [hop]; rfl) hx htwo (by rw [hop, hwidth]; exact hmax), ?_,
        fun h => absurd (hop.symm.trans h) (by decide), fun _ => ?_⟩
      · exact hc.imp (congrArg (· % 2 ^ n)) (congrArg (· % 2 ^ n))
      · simpa only [a, b, hkey] using hle
  · exact hmakes (by rw [hop]; rfl) hx (by simp [hop, fpuTwo]) (by rw [hop, hmag]; rfl)
  · refine hmakes (by rw [hop]; rfl) hx (by simp [hop, fpuTwo]) ?_
    have hneg := f.neg_eq x.lo.toNat
    rw [← hwidth] at hneg
    rw [hop, hmag, htop]
    exact congrArg (FpRes.mk · 0) hneg

end Sys2Proof.Proofs
end

section
/-! Packed decimal operands and results, and O13 (06 R129 to R133). -/

namespace Sys2Proof.Machine
open Sys2Proof.Claims

/-! ## Operands (06 R129, R130) -/

theorem digitsOf_eq_some_iff (n v d : Nat) : digitsOf n v = some d ↔
    (∀ k < n, v / 16 ^ k % 16 ≤ 9) ∧ ((List.range n).map fun k => v / 16 ^ k % 16 * 10 ^ k).sum = d := by
  induction n generalizing v d with
  | zero => simp [digitsOf]
  | succ n ih =>
    have hstep : ∀ k, v / 16 ^ (k + 1) = v / 16 / 16 ^ k := fun k => by rw [Nat.pow_succ', Nat.div_div_eq_div_mul]
    have hsum : ((List.range (n + 1)).map fun k => v / 16 ^ k % 16 * 10 ^ k).sum =
        v % 16 + 10 * ((List.range n).map fun k => v / 16 / 16 ^ k % 16 * 10 ^ k).sum := by
      rw [List.range_succ_eq_map, List.map_cons, List.sum_cons, List.map_map, ← List.sum_map_mul_left]
      simp only [Nat.pow_zero, Nat.div_one, Nat.mul_one, Function.comp_def, Nat.succ_eq_add_one]
      congr 2
      exact List.map_congr_left fun k _ => by rw [hstep, Nat.pow_succ']; ring
    have hall : (∀ k < n + 1, v / 16 ^ k % 16 ≤ 9) ↔ v % 16 ≤ 9 ∧ ∀ k < n, v / 16 / 16 ^ k % 16 ≤ 9 := by
      simp only [Nat.forall_lt_succ_left, Nat.pow_zero, Nat.div_one, hstep]
    rw [digitsOf, hsum, hall]
    split
    · next h =>
      simp only [Option.map_eq_some_iff, ih, h, true_and]
      exact ⟨fun ⟨_, ⟨hd, hs⟩, he⟩ => ⟨hd, hs ▸ he⟩, fun ⟨hd, he⟩ => ⟨_, ⟨hd, rfl⟩, he⟩⟩
    · next h => simp [h]

theorem isDec_iff_digits (nd : Nat) (exact : Bool) (v : Nat) (x : Int) : isDec nd exact v x ↔
    ∃ d, digitsOf nd (v / 16) = some d ∧
      (((v % 16 = 0xC ∨ v % 16 = 0xF ∨ (exact = true ∧ (v % 16 = 0xA ∨ v % 16 = 0xE))) ∧ x = d) ∨
        ((v % 16 = 0xD ∨ (exact = true ∧ v % 16 = 0xB)) ∧ x = -(d : Int))) := by
  have hstep : ∀ k, v / 16 / 16 ^ k = v / 16 ^ (k + 1) := fun k => by rw [Nat.pow_succ', Nat.div_div_eq_div_mul]
  simp only [digitsOf_eq_some_iff, hstep, isDec]
  exact ⟨fun ⟨hd, hs⟩ => ⟨_, ⟨hd, rfl⟩, hs⟩, fun ⟨_, ⟨hd, he⟩, hs⟩ => ⟨hd, he ▸ hs⟩⟩

/-- The model reads exactly the numbers that R129 and R130 give a pattern. -/
theorem decRead_eq_some_iff (nd : Nat) (exact : Bool) (v : Nat) (x : Int) :
    decRead nd exact v = some x ↔ isDec nd exact v x := by
  rw [isDec_iff_digits, decRead]
  cases digitsOf nd (v / 16) with
  | none => simp
  | some d =>
    have hlt : v % 16 < 16 := Nat.mod_lt _ (by decide)
    simp only [Option.some.injEq, exists_eq_left']
    generalize v % 16 = sign at hlt
    interval_cases sign <;> cases exact <;> simp [eq_comm]

/-! ## Results (06 R131) -/

theorem nibblesOf_lt (n d : Nat) : nibblesOf n d < 16 ^ n := by
  induction n generalizing d with
  | zero => simp [nibblesOf]
  | succ n ih =>
    have := ih (d / 10)
    rw [nibblesOf, Nat.pow_succ']
    omega

theorem digitsOf_nibblesOf (n d : Nat) : digitsOf n (nibblesOf n d) = some (d % 10 ^ n) := by
  induction n generalizing d with
  | zero => simp [digitsOf, Nat.mod_one]
  | succ n ih =>
    have hlow : (d % 10 + 16 * nibblesOf n (d / 10)) % 16 = d % 10 := by omega
    have hhigh : (d % 10 + 16 * nibblesOf n (d / 10)) / 16 = nibblesOf n (d / 10) := by omega
    rw [digitsOf, nibblesOf, hlow, hhigh, ih, if_pos (by omega), Option.map_some, Nat.pow_succ', Nat.mod_mul]

theorem decBits_lt (nd : Nat) (i : Int) : decBits nd i < 16 ^ (nd + 1) := by
  have := nibblesOf_lt nd (i.natAbs % 10 ^ nd)
  rw [decBits, Nat.pow_succ']
  split <;> omega

theorem decBits_eq {nd : Nat} {i : Int} (h : |i| < 10 ^ nd) :
    decBits nd i = 16 * nibblesOf nd i.natAbs + if i < 0 then 0xD else 0xC := by
  have habs : i.natAbs % 10 ^ nd = i.natAbs := by
    rw [Int.abs_eq_natAbs] at h
    exact Nat.mod_eq_of_lt (by exact_mod_cast h)
  have hzero : i < 0 → i.natAbs ≠ 0 := by omega
  by_cases hneg : i < 0 <;> simp [decBits, habs, hneg, hzero]

/-- A result that its format holds is packed with the preferred sign, and zero with 0xC. -/
theorem decBits_isDecResult {nd : Nat} {i : Int} (h : |i| < 10 ^ nd) : isDecResult nd (decBits nd i) i := by
  have habs : i.natAbs < 10 ^ nd := by
    rw [Int.abs_eq_natAbs] at h
    exact_mod_cast h
  have hdigits : ∀ sign < 16, digitsOf nd ((16 * nibblesOf nd i.natAbs + sign) / 16) = some i.natAbs := fun sign hs => by
    rw [Nat.mul_add_div (by decide), Nat.div_eq_of_lt hs, Nat.add_zero, digitsOf_nibblesOf, Nat.mod_eq_of_lt habs]
  refine ⟨decBits_lt nd i, (isDec_iff_digits ..).mpr ⟨i.natAbs, ?_⟩, ?_⟩ <;> rw [decBits_eq h]
  · by_cases hneg : i < 0
    · rw [if_pos hneg]
      exact ⟨hdigits _ (by decide), .inr ⟨by omega, by omega⟩⟩
    · rw [if_neg hneg]
      exact ⟨hdigits _ (by decide), .inl ⟨by omega, by omega⟩⟩
  · by_cases hneg : i < 0
    · rw [if_pos hneg]
      exact .inr ⟨by omega, hneg.ne⟩
    · rw [if_neg hneg]
      exact .inl (by omega)

/-- A packed result on a wire. -/
def decVal (wide : Bool) (i : Int) : Val :=
  if wide then .wid (decBits 31 i) else .nar (BitVec.ofNat 64 (decBits 15 i))

@[simp] theorem decVal_null (wide : Bool) (i : Int) : (decVal wide i).null = false := by cases wide <;> rfl

/-- The wires of both widths hold all the bits of a packed result. -/
theorem decVal_nat (wide : Bool) (i : Int) :
    (decVal wide i).lo.toNat + (decVal wide i).hi.toNat * 2 ^ 64 = decBits (if wide then 31 else 15) i := by
  cases wide
  · have := decBits_lt 15 i
    have hhi : (0 : Word).toNat = 0 := rfl
    simp only [decVal, Bool.false_eq_true, if_false, Val.nar, BitVec.toNat_ofNat, hhi]
    omega
  · have := decBits_lt 31 i
    simp only [decVal, if_true, Val.wid, BitVec.toNat_ofNat]
    omega

/-- A packed result, or what stands for one of more digits than its format holds. -/
def NumRes.packed (wide : Bool) (i : Int) (ovf : NumRes) : NumRes :=
  if i.natAbs < 10 ^ (if wide then 31 else 15) then .ok (decVal wide i) else ovf

section
variable {wide : Bool} {i : Int} (ovf : NumRes)

theorem NumRes.packed_fits (h : |i| < 10 ^ (if wide then 31 else 15)) : NumRes.packed wide i ovf = .ok (decVal wide i) := by
  rw [Int.abs_eq_natAbs] at h
  exact if_pos (by exact_mod_cast h)

theorem NumRes.packed_overflows (h : 10 ^ (if wide then 31 else 15) ≤ |i|) : NumRes.packed wide i ovf = ovf := by
  rw [Int.abs_eq_natAbs] at h
  exact if_neg (Nat.not_lt.mpr (by exact_mod_cast h))

end

/-- The decimal overflow condition. -/
def NumRes.decOverflow (v0 : Word) (v1 : Option Word) : NumRes := .bad flagDOV 5 3 (some v0) v1

/-- What goes on of a packed result: its bits by R131, or decimal overflow. -/
theorem NumRes.packed_res (wide : Bool) (x : Int) (v0 : Word) (v1 : Option Word) (pos mode : Nat) :
    let e := (NumRes.packed wide x (.decOverflow v0 v1)).res pos mode
    (|x| < 10 ^ (if wide then 31 else 15) →
      isDecResult (if wide then 31 else 15) ((decVal wide x).lo.toNat + (decVal wide x).hi.toNat * 2 ^ 64) x ∧
        makes e pos false (decVal wide x).lo (decVal wide x).hi) ∧
      (10 ^ (if wide then 31 else 15) ≤ |x| → raises e pos mode 5 3 0x2000 v0) := by
  refine ⟨fun h => ⟨decVal_nat wide x ▸ decBits_isDecResult h, ?_⟩, fun h => ?_⟩
  · rw [NumRes.packed_fits _ h]
    exact decVal_null wide x ▸ NumRes.res_ok (decVal wide x) pos mode
  · rw [NumRes.packed_overflows _ h]
    exact NumRes.res_bad ..

/-! ## The operations of DCM (06 R116, R132) -/

/-- The operand's number is what R129 gives its bits. -/
theorem decOperand_eq_some_iff (wide exact : Bool) (e : Elem) (x : Int) : decOperand wide exact e.val = some x ↔
    isDec (if wide then 31 else 15) exact (if wide then e.lo.toNat + e.hi.toNat * 2 ^ 64 else e.lo.toNat) x := by
  cases wide
  · simpa only [decOperand, Bool.false_eq_true, if_false, Elem.val] using decRead_eq_some_iff 15 exact e.lo.toNat x
  · simpa only [decOperand, if_true, Elem.val, Val.nat] using decRead_eq_some_iff 31 exact (e.lo.toNat + e.hi.toNat * 2 ^ 64) x

theorem decOperand_eq_none_iff (wide exact : Bool) (e : Elem) : decOperand wide exact e.val = none ↔
    ∀ x, ¬ isDec (if wide then 31 else 15) exact (if wide then e.lo.toNat + e.hi.toNat * 2 ^ 64 else e.lo.toNat) x := by
  simp only [← decOperand_eq_some_iff, Option.eq_none_iff_forall_ne_some, ne_eq]

/-- What DCM computes from the numbers x and y of its operands; `ovf` stands for a result that does not fit. -/
def dcmOfNumbers (op : Nat) (k : Int) (rd : Nat) (x y : Int) (ovf : NumRes) : NumRes :=
  match op with
  | 0x00 => .packed false (x + y) ovf
  | 0x01 => .packed false (x - y) ovf
  | 0x02 => .packed true (x + y) ovf
  | 0x03 => .packed true (x - y) ovf
  | 0x04 => .packed true (x * y) ovf
  | 0x05 => .packed true (x * y) ovf
  | 0x08 => .packed false (-x) ovf
  | 0x09 => .packed true (-x) ovf
  | 0x0A => .packed false x.natAbs ovf
  | 0x0B => .packed true x.natAbs ovf
  | 0x0C => .packed false x ovf
  | 0x0D => .packed true x ovf
  | 0x10 => .packed true x ovf
  | 0x11 => .packed false x ovf
  | 0x13 => if fitsI64 x then .ok (.nar (wordOfInt x)) else ovf
  | 0x14 => if 0 ≤ k then .packed true (x * (10 ^ k.toNat : Nat)) ovf else .packed true (decShift rd (-k).toNat x) ovf
  | _ => .ok (.nar (if x < y then -1 else if x = y then 0 else 1))

section
variable {op : Nat} {wa wb two exact : Bool} {a b : Val} {x y : Int} (hshape : dcmShape op = some (wa, wb, two))
include hshape

theorem dcmStation_null (k : Int) (rd l : Nat) (h : a.null = true ∨ two = true ∧ b.null = true) :
    dcmStation op k rd l exact a b = .ok .nul := by
  simp [dcmStation, hshape, h]

variable (ha : a.null = false) (hb : two = true → b.null = false)
include ha hb

theorem dcmStation_badFirst (k : Int) (rd l : Nat) (hx : decOperand wa exact a = none) :
    dcmStation op k rd l exact a b = .bad flagDINV 4 0 (some a.lo) (some (if wa then a.hi else 0)) := by
  have hnull := and_null_eq_false hb
  simp [dcmStation, hshape, ha, hnull, hx]

theorem dcmStation_badSecond (k : Int) (rd l : Nat) (hx : decOperand wa exact a = some x) (htwo : two = true)
    (hy : decOperand wb exact b = none) :
    dcmStation op k rd l exact a b = .bad flagDINV 4 1 (some b.lo) (some (if wb then b.hi else 0)) := by
  simp [dcmStation, hshape, ha, hb htwo, htwo, hx, hy]

theorem dcmStation_numbers (k : Int) (rd l : Nat) (hx : decOperand wa exact a = some x)
    (hy : (if two then decOperand wb exact b else some 0) = some y) :
    dcmStation op k rd l exact a b =
      dcmOfNumbers op k rd x y (.decOverflow a.lo (if two then some b.lo else none)) := by
  have hnull := and_null_eq_false hb
  simp only [dcmStation, hshape, ha, hnull, hx, hy]
  rfl

end

/-! ## RESCALE (06 R133) -/

/-- Whether RD rounds the magnitude q + r ÷ m up. -/
def decUp (rd m q r : Nat) : Bool :=
  match rd with
  | 0 => false
  | 1 => decide (m ≤ 2 * r)
  | _ => decide (m < 2 * r) || (decide (m = 2 * r) && decide (q % 2 = 1))

/-- The magnitude of a rescaled number: `n` ÷ 10^k rounded by RD. -/
def decQuot (rd k n : Nat) : Nat := n / 10 ^ k + b2n (decUp rd (10 ^ k) (n / 10 ^ k) (n % 10 ^ k))

theorem decShift_eq (rd k : Nat) (i : Int) :
    decShift rd k i = if i < 0 then -(decQuot rd k i.natAbs : Int) else (decQuot rd k i.natAbs : Int) := by
  have hmodel : decShift rd k i =
      let q : Int := if decUp rd (10 ^ k) (i.natAbs / 10 ^ k) (i.natAbs % 10 ^ k) then (i.natAbs / 10 ^ k : Nat) + 1
        else (i.natAbs / 10 ^ k : Nat)
      if i < 0 then -q else q := rfl
  rw [hmodel, decQuot]
  cases decUp rd (10 ^ k) (i.natAbs / 10 ^ k) (i.natAbs % 10 ^ k) <;> simp [b2n]

theorem decShift_abs (rd k : Nat) (i : Int) : |decShift rd k i| = decQuot rd k i.natAbs := by
  rw [decShift_eq]
  split <;> simp

theorem decQuot_zero (rd k : Nat) : decQuot rd k 0 = 0 := by
  have := Nat.pow_pos (n := k) (by decide : 0 < 10)
  rcases rd with _ | _ | rd <;> simp [decQuot, decUp, b2n]

/-- A quotient that is not zero has the sign of the number. -/
theorem decShift_sign (rd k : Nat) (x : Int) : decShift rd k x = 0 ∨ (0 < decShift rd k x ↔ 0 < x) := by
  rw [decShift_eq]
  by_cases hx : x = 0
  · simp [hx, decQuot_zero]
  · split <;> omega

/-- The three roundings of q + r ÷ m, in multiples of m. -/
theorem decUp_rounds {m q r : Nat} (hr : r < m) (rd : Nat) :
    let u : Int := (q + b2n (decUp rd m q r) : Nat)
    let x : Int := (m * q + r : Nat)
    (rd = 0 → u * m ≤ x ∧ x < (u + 1) * m) ∧
      (rd = 1 → (2 * u - 1) * m ≤ 2 * x ∧ 2 * x < (2 * u + 1) * m) ∧
      (rd = 2 → (2 * u - 1) * m ≤ 2 * x ∧ 2 * x ≤ (2 * u + 1) * m ∧
        (2 * x = (2 * u - 1) * m ∨ 2 * x = (2 * u + 1) * m → u % 2 = 0)) := by
  intro u x
  have hr' : (r : Int) < m := by exact_mod_cast hr
  refine ⟨fun h => ?_, fun h => ?_, fun h => ?_⟩ <;> subst h
  · simp only [u, x, decUp, b2n, Bool.false_eq_true, if_false]
    push_cast
    constructor <;> linarith
  · by_cases hup : m ≤ 2 * r <;> simp only [u, x, decUp, b2n, hup, decide_true, decide_false] <;> push_cast <;>
      constructor <;> linarith
  · have hiff : decUp 2 m q r = true ↔ m < 2 * r ∨ (m = 2 * r ∧ q % 2 = 1) := by simp [decUp]
    by_cases hup : decUp 2 m q r = true <;> simp only [u, x, hup, b2n, if_true] <;> push_cast
    · have hle : (m : Int) ≤ 2 * r := by
        have := hiff.mp hup
        omega
      refine ⟨by linarith, by linarith, fun htie => ?_⟩
      obtain hgt | ⟨_, hodd⟩ := hiff.mp hup
      · have : (m : Int) < 2 * r := by exact_mod_cast hgt
        exact htie.elim (fun h => by linarith) (fun h => by linarith)
      · omega
    · have hle : 2 * (r : Int) ≤ m := by
        have := mt hiff.mpr hup
        omega
      refine ⟨by linarith, by linarith, fun htie => ?_⟩
      have htop : (m : Int) = 2 * r := htie.elim (fun h => by linarith) (fun h => by linarith)
      have := mt hiff.mpr hup
      omega

theorem rescaled_decShift {k : Int} (hk : k < 0) (rd : Nat) (x : Int) :
    rescaled k rd x (decShift rd (-k).toNat x) := by
  have hrounds := decUp_rounds (q := x.natAbs / 10 ^ (-k).toNat)
    (Nat.mod_lt x.natAbs (Nat.pow_pos (n := (-k).toNat) (by decide : 0 < 10))) rd
  rw [Nat.div_add_mod, ← decQuot, ← Int.abs_eq_natAbs, ← decShift_abs] at hrounds
  rw [rescaled, if_neg (not_le.mpr hk)]
  exact ⟨decShift_sign .., by exact_mod_cast hrounds⟩

theorem rescaled_up {k : Int} (hk : 0 ≤ k) (rd : Nat) (x : Int) : rescaled k rd x (x * (10 ^ k.toNat : Nat)) := by
  rw [rescaled, if_pos hk]
  push_cast
  rfl

/-- The number that RESCALE makes. -/
def rescale (k : Int) (rd : Nat) (x : Int) : Int :=
  if 0 ≤ k then x * (10 ^ k.toNat : Nat) else decShift rd (-k).toNat x

theorem rescaled_rescale (k : Int) (rd : Nat) (x : Int) : rescaled k rd x (rescale k rd x) := by
  rw [rescale]
  split
  · next h => exact rescaled_up h rd x
  · next h => exact rescaled_decShift (not_le.mp h) rd x

theorem dcmOfNumbers_rescale (k : Int) (rd : Nat) (x y : Int) (ovf : NumRes) :
    dcmOfNumbers 0x14 k rd x y ovf = .packed true (rescale k rd x) ovf := by
  simp only [dcmOfNumbers, rescale]
  split <;> rfl

end Sys2Proof.Machine

namespace Sys2Proof.Proofs
open Sys2Proof.Machine

/-- Settles O13: RESCALE's number is rounded as RD says, and packed or refused as every result of DCM is. -/
theorem rescaleRounds : Obligations.RescaleRounds := by
  unfold Obligations.RescaleRounds
  intro l dict t q ws i idx hkind hop _ a e pos x ha hx
  have hread := (decOperand_eq_some_iff true t.replay a x).mpr hx
  have hstation : e = (NumRes.packed true (rescale (rescaleK q) q.m2 x) (.decOverflow a.lo none)).res pos
      (q.mode t.flushOnce) := by
    simp only [e, stationElem_dcm l dict t ws i idx hkind, hop]
    rw [dcmStation_numbers (y := 0) rfl ha (by simp) _ _ _ hread rfl, dcmOfNumbers_rescale]
    rfl
  obtain ⟨hfits, hover⟩ := NumRes.packed_res true (rescale (rescaleK q) q.m2 x) a.lo none pos (q.mode t.flushOnce)
  rw [← hstation] at hfits hover
  refine ⟨_, rescaled_rescale (rescaleK q) q.m2 x, fun h => ?_, hover⟩
  obtain ⟨hdec, hmakes⟩ := hfits h
  exact ⟨_, _, hdec, hmakes, fun hzero => by rw [hzero]; decide⟩

end Sys2Proof.Proofs
end

section
/-! The signs of decimal results and of zeros, and O12 (06 R131). -/

namespace Sys2Proof.Machine
open Sys2Proof.Claims

/-! ## Packed results of DCM -/

/-- Null, or the packed decimal of a number that the format holds. -/
def Val.IsPacked (wide : Bool) (v : Val) : Prop :=
  v.null = true ∨ ∃ i : Int, |i| < 10 ^ (if wide then 31 else 15) ∧ v = decVal wide i

theorem NumRes.packed_isPacked (wide : Bool) (i : Int) {ovf : NumRes} (hovf : ovf.v.null = true) :
    (NumRes.packed wide i ovf).v.IsPacked wide := by
  rcases lt_or_ge |i| (10 ^ (if wide then 31 else 15)) with h | h
  · exact .inr ⟨i, h, by rw [NumRes.packed_fits _ h]; rfl⟩
  · exact .inl (by rw [NumRes.packed_overflows _ h]; exact hovf)

section
variable {op : Nat} {k : Int} {rd : Nat} {x y : Int} {ovf : NumRes} (hovf : ovf.v.null = true)
include hovf

theorem dcmOfNumbers_narrow (hop : op ∈ [0x00, 0x01, 0x08, 0x0A, 0x0C, 0x11]) :
    (dcmOfNumbers op k rd x y ovf).v.IsPacked false := by
  simp only [List.mem_cons, List.not_mem_nil, or_false] at hop
  rcases hop with rfl | rfl | rfl | rfl | rfl | rfl <;> exact NumRes.packed_isPacked false _ hovf

theorem dcmOfNumbers_wide (hop : op ∈ [0x02, 0x03, 0x04, 0x05, 0x09, 0x0B, 0x0D, 0x10, 0x14]) :
    (dcmOfNumbers op k rd x y ovf).v.IsPacked true := by
  by_cases h14 : op = 0x14
  · rw [h14, dcmOfNumbers_rescale]
    exact NumRes.packed_isPacked true _ hovf
  · simp only [List.mem_cons, List.not_mem_nil, or_false, h14] at hop
    rcases hop with rfl | rfl | rfl | rfl | rfl | rfl | rfl | rfl <;> exact NumRes.packed_isPacked true _ hovf

end

/-! ## Results that differ in what a condition records alone -/

/-- The same value, or the same condition with values recorded of its own. -/
def NumRes.Alike (r s : NumRes) : Prop :=
  (∃ v, r = .ok v ∧ s = .ok v) ∨
    ∃ flag cond which v0 v1 w0 w1, r = .bad flag cond which v0 v1 ∧ s = .bad flag cond which w0 w1

theorem NumRes.Alike.refl_ok (v : Val) : (NumRes.ok v).Alike (.ok v) := .inl ⟨v, rfl, rfl⟩

theorem NumRes.Alike.res {r s : NumRes} (h : r.Alike s) (pos pos' mode mode' : Nat) :
    ((r.res pos mode).out1.map fun x => (x.null, x.lo, x.hi)) = ((s.res pos' mode').out1.map fun x => (x.null, x.lo, x.hi)) ∧
      (mode = mode' → (r.res pos mode).flags = (s.res pos' mode').flags) := by
  obtain ⟨v, rfl, rfl⟩ | ⟨flag, cond, which, v0, v1, w0, w1, rfl, rfl⟩ := h
  · simp [NumRes.res, NumRes.ok, Val.elem]
  · refine ⟨by simp [NumRes.res, NumRes.bad, Val.elem], fun hm => ?_⟩
    simp [NumRes.res, NumRes.bad, hm]

/-- An operation on numbers gives a value, or what stands for an overflow. -/
theorem NumRes.packed_total (wide : Bool) (i : Int) :
    (∃ v, ∀ ovf, NumRes.packed wide i ovf = .ok v) ∨ ∀ ovf, NumRes.packed wide i ovf = ovf := by
  by_cases h : i.natAbs < 10 ^ (if wide then 31 else 15)
  · exact .inl ⟨decVal wide i, fun _ => if_pos h⟩
  · exact .inr fun _ => if_neg h

theorem dcmOfNumbers_total (op : Nat) (k : Int) (rd : Nat) (x y : Int) :
    (∃ v, ∀ ovf, dcmOfNumbers op k rd x y ovf = .ok v) ∨ ∀ ovf, dcmOfNumbers op k rd x y ovf = ovf := by
  unfold dcmOfNumbers
  split
  any_goals exact NumRes.packed_total ..
  · split
    · exact .inl ⟨_, fun _ => rfl⟩
    · exact .inr fun _ => rfl
  · split <;> exact NumRes.packed_total ..
  · exact .inl ⟨_, fun _ => rfl⟩

theorem dcmOfNumbers_alike (op : Nat) (k : Int) (rd : Nat) (x y : Int) (v0 w0 : Word) (v1 w1 : Option Word) :
    (dcmOfNumbers op k rd x y (.decOverflow v0 v1)).Alike (dcmOfNumbers op k rd x y (.decOverflow w0 w1)) := by
  obtain ⟨v, h⟩ | h := dcmOfNumbers_total op k rd x y <;> rw [h, h]
  · exact .refl_ok v
  · exact .inr ⟨flagDOV, 5, 3, some v0, v1, some w0, w1, rfl, rfl⟩

/-! ## What DCM can do with its operands -/

/-- What DCM finds in the operands of an operation that reads decimals. -/
theorem dcmOperands_cases (wa wb two exact : Bool) (a b : Val) :
    (a.null = true ∨ two = true ∧ b.null = true) ∨
      a.null = false ∧ (two = true → b.null = false) ∧
        (decOperand wa exact a = none ∨ ∃ x, decOperand wa exact a = some x ∧
          (two = true ∧ decOperand wb exact b = none ∨
            ∃ y, (if two then decOperand wb exact b else some 0) = some y)) := by
  cases a.null
  case true => exact .inl (.inl rfl)
  cases decOperand wa exact a
  case none => cases two <;> cases b.null <;> simp
  cases two
  case false => simp
  cases b.null <;> cases decOperand wb exact b <;> simp

section
variable {op : Nat} {wa wb two exact : Bool} {a b : Val} (hshape : dcmShape op = some (wa, wb, two)) (k : Int) (rd l : Nat)
include hshape

/-- A DCM operation that reads decimals gives null, or what it computes from the operands' numbers. -/
theorem dcmStation_cases : (dcmStation op k rd l exact a b).v.null = true ∨
    ∃ x y v1, dcmStation op k rd l exact a b = dcmOfNumbers op k rd x y (.decOverflow a.lo v1) := by
  obtain hnull | ⟨ha, hb, hx | ⟨x, hx, ⟨htwo, hy⟩ | ⟨y, hy⟩⟩⟩ := dcmOperands_cases wa wb two exact a b
  · exact .inl (by rw [dcmStation_null hshape _ _ _ hnull]; rfl)
  · exact .inl (by rw [dcmStation_badFirst hshape ha hb _ _ _ hx]; rfl)
  · exact .inl (by rw [dcmStation_badSecond hshape ha hb _ _ _ hx htwo hy]; rfl)
  · exact .inr ⟨x, y, _, dcmStation_numbers hshape ha hb _ _ _ hx hy⟩

/-- Operands of the same numbers make the same of each operation. -/
theorem dcmStation_alike {a' b' : Val} (hna : a.null = a'.null) (hnb : b.null = b'.null)
    (hxa : decOperand wa exact a = decOperand wa exact a') (hyb : decOperand wb exact b = decOperand wb exact b') :
    (dcmStation op k rd l exact a b).Alike (dcmStation op k rd l exact a' b') := by
  obtain hnull | ⟨ha, hb, hx | ⟨x, hx, ⟨htwo, hy⟩ | ⟨y, hy⟩⟩⟩ := dcmOperands_cases wa wb two exact a b
  · rw [dcmStation_null hshape _ _ _ hnull, dcmStation_null hshape _ _ _ (hna ▸ hnb ▸ hnull)]
    exact .refl_ok _
  · rw [dcmStation_badFirst hshape ha hb _ _ _ hx, dcmStation_badFirst hshape (hna ▸ ha) (hnb ▸ hb) _ _ _ (hxa ▸ hx)]
    exact .inr ⟨_, _, _, _, _, _, _, rfl, rfl⟩
  · rw [dcmStation_badSecond hshape ha hb _ _ _ hx htwo hy,
      dcmStation_badSecond hshape (hna ▸ ha) (hnb ▸ hb) _ _ _ (hxa ▸ hx) htwo (hyb ▸ hy)]
    exact .inr ⟨_, _, _, _, _, _, _, rfl, rfl⟩
  · rw [dcmStation_numbers hshape ha hb _ _ _ hx hy,
      dcmStation_numbers hshape (hna ▸ ha) (hnb ▸ hb) _ _ _ (hxa ▸ hx) (hyb ▸ hy)]
    exact dcmOfNumbers_alike ..

end

/-- The operations that read no decimal and are none of 0x12, REVB8 and REVB16 give null. -/
theorem dcmStation_noShape {op : Nat} (hshape : dcmShape op = none) (hop : op ≤ 0x16) (hne : op ≠ 0x12) (k : Int)
    (rd l : Nat) (exact : Bool) (a b : Val) : dcmStation op k rd l exact a b = .ok .nul := by
  simp only [dcmStation, hshape]
  split
  · rfl
  · split
    · exact absurd rfl hne
    · exact absurd hop (by decide)
    · exact absurd hop (by decide)
    · rfl

theorem dcmShape_wide {op : Nat} {wa wb two : Bool} (hshape : dcmShape op = some (wa, wb, two)) :
    wa = decide (op ∈ [0x02, 0x03, 0x05, 0x09, 0x0B, 0x0D, 0x11, 0x13, 0x14, 0x15]) ∧
      wb = decide (op ∈ [0x02, 0x03, 0x15]) := by
  unfold dcmShape at hshape
  split at hshape <;> simp_all

/-- Each operation that gives P8. -/
theorem dcmStation_narrow {op : Nat} (hop : op ∈ [0x00, 0x01, 0x08, 0x0A, 0x0C, 0x11]) (k : Int) (rd l : Nat)
    (exact : Bool) (a b : Val) : (dcmStation op k rd l exact a b).v.IsPacked false := by
  have hreads : ∀ o ∈ [0x00, 0x01, 0x08, 0x0A, 0x0C, 0x11], (dcmShape o).isSome = true := by decide
  obtain ⟨⟨wa, wb, two⟩, hshape⟩ := Option.isSome_iff_exists.mp (hreads op hop)
  obtain hnull | ⟨x, y, v1, heq⟩ := dcmStation_cases hshape k rd l (exact := exact) (a := a) (b := b)
  · exact .inl hnull
  · exact heq ▸ dcmOfNumbers_narrow rfl hop

/-- Each operation that gives P16 from decimals. -/
theorem dcmStation_wide {op : Nat} (hop : op ∈ [0x02, 0x03, 0x04, 0x05, 0x09, 0x0B, 0x0D, 0x10, 0x14]) (k : Int)
    (rd l : Nat) (exact : Bool) (a b : Val) : (dcmStation op k rd l exact a b).v.IsPacked true := by
  have hreads : ∀ o ∈ [0x02, 0x03, 0x04, 0x05, 0x09, 0x0B, 0x0D, 0x10, 0x14], (dcmShape o).isSome = true := by decide
  obtain ⟨⟨wa, wb, two⟩, hshape⟩ := Option.isSome_iff_exists.mp (hreads op hop)
  obtain hnull | ⟨x, y, v1, heq⟩ := dcmStation_cases hshape k rd l (exact := exact) (a := a) (b := b)
  · exact .inl hnull
  · exact heq ▸ dcmOfNumbers_wide rfl hop

theorem abs_toInt_le (a : Word) : |a.toInt| ≤ 2 ^ 63 := by
  have := a.toInt_lt
  have := a.le_toInt
  rw [abs_le]
  constructor <;> omega

theorem abs_toInt_lt_decimal (a : Word) : |a.toInt| < 10 ^ 31 := (abs_toInt_le a).trans_lt (by norm_num)

/-- 0x12 packs an integer. -/
theorem dcmStation_ofInt {a : Val} (ha : a.null = false) (k : Int) (rd l : Nat) (exact : Bool) (b : Val) :
    dcmStation 0x12 k rd l exact a b = .ok (decVal true a.lo.toInt) := by
  simp [dcmStation, dcmShape, ha, decVal]

theorem dcmStation_ofInt_packed (k : Int) (rd l : Nat) (exact : Bool) (a b : Val) :
    (dcmStation 0x12 k rd l exact a b).v.IsPacked true := by
  cases ha : a.null with
  | true => exact .inl (by simp [dcmStation, dcmShape, ha, NumRes.ok, Val.nul])
  | false => exact .inr ⟨_, abs_toInt_lt_decimal a.lo, by rw [dcmStation_ofInt ha]; rfl⟩

/-- CMP16 and CMP8. -/
theorem dcmStation_compare {op : Nat} {wide exact : Bool} {a b : Val} {x y : Int}
    (hop : op = 0x15 ∧ wide = true ∨ op = 0x16 ∧ wide = false) (ha : a.null = false) (hb : b.null = false)
    (hx : decOperand wide exact a = some x) (hy : decOperand wide exact b = some y) (k : Int) (rd l : Nat) :
    dcmStation op k rd l exact a b = .ok (.nar (if x < y then -1 else if x = y then 0 else 1)) := by
  have hshape : dcmShape op = some (wide, wide, true) := by obtain ⟨rfl, rfl⟩ | ⟨rfl, rfl⟩ := hop <;> rfl
  rw [dcmStation_numbers hshape ha (fun _ => hb) _ _ _ hx (by simpa using hy)]
  obtain ⟨rfl, -⟩ | ⟨rfl, -⟩ := hop <;> rfl

/-! ## On the wire -/

theorem NumRes.res_out1 {r : NumRes} {pos mode : Nat} {x : Elem} (h : (r.res pos mode).out1 = some x) (hx : x.null = false) :
    x.val = r.v := by
  simp only [NumRes.res, Option.some.injEq] at h
  subst h
  split at hx
  · cases hx
  · next hn => simp [Val.elem, Elem.val, hn]

theorem Val.IsPacked.isDecResult {wide : Bool} {x : Elem} (h : x.val.IsPacked wide) (hx : x.null = false) :
    (wide = false → x.hi = 0) ∧
      ∃ i, Claims.isDecResult (if wide then 31 else 15) (x.lo.toNat + x.hi.toNat * 2 ^ 64) i := by
  obtain hnull | ⟨i, hi, heq⟩ := h
  · exact absurd (hnull.symm.trans hx) (by decide)
  · have hlo : x.lo = (decVal wide i).lo := congrArg Val.lo heq
    have hhi : x.hi = (decVal wide i).hi := congrArg Val.hi heq
    refine ⟨fun hw => by rw [hhi, hw]; rfl, i, ?_⟩
    rw [hlo, hhi, decVal_nat]
    exact decBits_isDecResult hi

end Sys2Proof.Machine

namespace Sys2Proof.Proofs
open Sys2Proof.Machine

/-- Settles O12: results are packed with the preferred sign, and a station sees no more of a zero than its number. -/
theorem decimalResultsAreSigned : Obligations.DecimalResultsAreSigned := by
  unfold Obligations.DecimalResultsAreSigned
  intro l dict t q ws i idx hkind bits zero wa wb e
  have he := stationElem_dcm l dict t ws i idx hkind
  have hzero : ∀ {wide v}, zero wide v → decOperand wide t.replay v.val = some 0 :=
    fun h => (decOperand_eq_some_iff ..).mpr h.2
  refine ⟨fun x hx hnull => ?_, ?_, fun hop ha hb => ?_⟩
  · have hval := NumRes.res_out1 ((congrArg ElemRes.out1 he).symm.trans hx) hnull
    refine ⟨fun hop => ?_, fun hop => ?_⟩
    · obtain ⟨hhi, v, hv⟩ := Val.IsPacked.isDecResult (hval ▸ dcmStation_narrow hop ..) hnull
      exact ⟨hhi rfl, v, by simpa [bits, hhi rfl] using hv⟩
    · have hpacked : x.val.IsPacked true := by
        rw [hval]
        by_cases h12 : q.op = 0x12
        · rw [h12]
          exact dcmStation_ofInt_packed ..
        · exact dcmStation_wide (by simpa [h12] using hop) ..
      exact (hpacked.isDecResult hnull).2
  · intro t' hreplay hop hne alike ha hb e'
    have halike : ∀ {wide v w}, alike wide v w →
        v.val.null = w.val.null ∧ decOperand wide t.replay v.val = decOperand wide t.replay w.val := by
      rintro wide v w (rfl | ⟨hv, hw⟩)
      · exact ⟨rfl, rfl⟩
      · exact ⟨hv.1.trans hw.1.symm, (hzero hv).trans (hzero hw).symm⟩
    simp only [he, e', stationElem_dcm l dict t' ws i idx hkind, hreplay, e]
    refine NumRes.Alike.res ?_ ..
    cases hshape : dcmShape q.op with
    | none =>
      rw [dcmStation_noShape hshape hop hne, dcmStation_noShape hshape hop hne]
      exact .refl_ok _
    | some s =>
      obtain ⟨hwa, hwb⟩ := dcmShape_wide hshape
      obtain ⟨hna, hxa⟩ := halike ha
      obtain ⟨hnb, hyb⟩ := halike hb
      exact dcmStation_alike hshape _ _ _ hna hnb (hwa ▸ hxa) (hwb ▸ hyb)
  · have hcompare : dcmStation q.op (rescaleK q) q.m2 (q.m3 + 1) t.replay (t.operand q ws q.a i).val
        (t.operand q ws q.b i).val = .ok (.nar 0) := by
      have hwide : q.op = 0x15 ∧ decide wa = true ∨ q.op = 0x16 ∧ decide wa = false := by
        rcases hop with hop | hop <;> simp [wa, hop]
      have hsame : decide wb = decide wa := by rcases hop with hop | hop <;> simp [wa, wb, hop]
      exact dcmStation_compare hwide ha.1 hb.1 (hzero ha) (hsame ▸ hzero hb) _ _ _
    simp only [he, hcompare, e]
    exact NumRes.res_ok (.nar 0) ..

end Sys2Proof.Proofs
end

section
/-! Bytes of a number and their reverse (06 R120, R136; 07 R140). -/

namespace Sys2Proof.Machine

theorem bytesOf_getElem? (n v k : Nat) : (bytesOf n v)[k]? = if k < n then some (BitVec.ofNat 8 (v / 256 ^ k)) else none := by
  induction n generalizing v k with
  | zero => simp [bytesOf]
  | succ n ih =>
    cases k with
    | zero => simp [bytesOf]
    | succ k => simp [bytesOf, ih, Nat.pow_succ', Nat.div_div_eq_div_mul]

theorem natOf_byte (bs : List Byte) (k : Nat) : natOf bs / 256 ^ k % 256 = (bs[k]?.getD 0).toNat := by
  induction bs generalizing k with
  | nil => simp [natOf]
  | cons b t ih =>
    cases k with
    | zero => simpa [natOf] using b.isLt
    | succ k =>
      have hdrop : (b.toNat + 256 * natOf t) / 256 = natOf t := by omega
      rw [natOf, Nat.pow_succ', ← Nat.div_div_eq_div_mul, hdrop, ih, List.getElem?_cons_succ]

theorem natOf_append (xs ys : List Byte) : natOf (xs ++ ys) = natOf xs + 256 ^ xs.length * natOf ys := by
  induction xs with
  | nil => simp [natOf]
  | cons b t ih => simp only [List.cons_append, natOf, ih, List.length_cons, Nat.pow_succ']; ring

theorem natOf_lt (bs : List Byte) : natOf bs < 256 ^ bs.length := by
  induction bs with
  | nil => simp [natOf]
  | cons b t ih =>
    rw [natOf, List.length_cons, Nat.pow_succ']
    omega

/-- Reversal puts byte `l − 1 − k` at byte `k`. -/
theorem revBytes_byte (l v k : Nat) :
    revBytes l v / 256 ^ k % 256 = if k < l then v / 256 ^ (l - 1 - k) % 256 else 0 := by
  rw [revBytes, natOf_byte]
  split
  · next h =>
    rw [List.getElem?_reverse (by simpa using h), bytesOf_length, bytesOf_getElem?, if_pos (by omega)]
    simp
  · next h => rw [List.getElem?_eq_none (by simpa using h)]; rfl

theorem revBytes_lt (l v : Nat) : revBytes l v < 256 ^ l := by
  simpa [revBytes] using natOf_lt (bytesOf l v).reverse

/-- Byte strings are compared with their first byte as the greatest. -/
theorem revBytes_sum (l v : Nat) :
    revBytes l v = ((List.range l).map fun k => v / 256 ^ k % 256 * 256 ^ (l - 1 - k)).sum := by
  induction l generalizing v with
  | zero => rfl
  | succ l ih =>
    have hstep : revBytes (l + 1) v = revBytes l (v / 256) + 256 ^ l * (v % 256) := by
      simp [revBytes, bytesOf, natOf_append, natOf]
    rw [hstep, ih, List.range_succ_eq_map, List.map_cons, List.sum_cons, List.map_map, Nat.add_comm, Nat.mul_comm (256 ^ l)]
    simp only [Nat.pow_zero, Nat.div_one, Function.comp_def, Nat.succ_eq_add_one, Nat.pow_succ', Nat.div_div_eq_div_mul,
      Nat.add_sub_cancel, Nat.sub_zero]
    congr 2
    exact List.map_congr_left fun k _ => by rw [show l - (k + 1) = l - 1 - k by omega]

/-- A bit of a number in the byte that holds it. -/
theorem testBit_byte (v j : Nat) : v.testBit j = (v / 256 ^ (j / 8) % 256).testBit (j % 8) := by
  have hbyte : j % 8 < 8 := Nat.mod_lt _ (by decide)
  rw [show 256 = 2 ^ 8 from rfl, ← Nat.pow_mul, Nat.testBit_mod_two_pow, ← Nat.shiftRight_eq_div_pow,
    Nat.testBit_shiftRight, Nat.div_add_mod]
  simp [hbyte]

end Sys2Proof.Machine
end

section
/-! The integers of ALU, MAC and DIV (06 R120, R127, R134), for O10. -/

namespace Sys2Proof.Machine
open Sys2Proof.Claims

/-! ## Words and their bits -/

theorem clz64_eq {a r : Word} (hle : r.toNat ≤ 64) (hzero : ∀ j < 64, 64 - r.toNat ≤ j → a.getLsbD j = false)
    (hone : r.toNat < 64 → a.getLsbD (63 - r.toNat) = true) : clz64 a = r.toNat := by
  rw [clz64]
  split
  · next h =>
    subst h
    by_contra hne
    simpa using hone (by omega)
  · next h =>
    have hne : a.toNat ≠ 0 := fun h0 => h (BitVec.eq_of_toNat_eq h0)
    have htop := Nat.testBit_log2 hne
    have hlog : a.toNat.log2 < 64 := (Nat.log2_lt hne).mpr a.isLt
    have hlow : a.toNat.log2 < 64 - r.toNat := by
      by_contra hge
      exact Bool.false_ne_true ((hzero _ hlog (by omega)).symm.trans htop)
    have hhigh : 63 - r.toNat ≤ a.toNat.log2 := (Nat.le_log2 hne).mpr (Nat.ge_two_pow_of_testBit (hone (by omega)))
    omega

theorem ctz64_eq {a r : Word} (hle : r.toNat ≤ 64) (hzero : ∀ j < r.toNat, a.getLsbD j = false)
    (hone : r.toNat < 64 → a.getLsbD r.toNat = true) : ctz64 a = r.toNat := by
  rw [ctz64]
  split
  · next h =>
    subst h
    by_contra hne
    simpa using hone (by omega)
  · next h =>
    have hlt : r.toNat < 64 := by
      by_contra hge
      exact h (BitVec.eq_of_getLsbD_eq fun j hj => by simp [hzero j (by omega)])
    have hfind : (upto 64).find? a.getLsbD = some r.toNat :=
      List.find?_range_eq_some.mpr ⟨hone hlt, List.mem_range.mpr hlt, fun j hj => by rw [hzero j hj]; rfl⟩
    exact congrArg (Option.getD · 64) hfind

theorem bswap64_bit (a : Word) {j : Nat} (hj : j < 64) :
    (bswap64 a).getLsbD j = a.getLsbD (8 * (7 - j / 8) + j % 8) := by
  have hindex : (8 * (7 - j / 8) + j % 8) / 8 = 7 - j / 8 ∧ (8 * (7 - j / 8) + j % 8) % 8 = j % 8 := by omega
  have hlt : revBytes 8 a.toNat < 2 ^ 64 := revBytes_lt 8 a.toNat
  have hbits : ∀ i, a.getLsbD i = a.toNat.testBit i := fun _ => rfl
  rw [hbits, testBit_byte a.toNat, hindex.1, hindex.2]
  change (BitVec.ofNat 64 (revBytes 8 a.toNat)).toNat.testBit j = _
  rw [BitVec.toNat_ofNat, Nat.mod_eq_of_lt hlt, testBit_byte, revBytes_byte, if_pos (by omega)]

theorem sextFrom_bit (a b : Word) {j : Nat} (hj : j < 64) :
    (sextFrom a b).getLsbD j = a.getLsbD (min j (b.toNat % 64)) := by
  have hb : b.toNat % 64 < 64 := Nat.mod_lt _ (by decide)
  rw [sextFrom, BitVec.getLsbD_sshiftRight, BitVec.msb_eq_getLsbD_last]
  simp only [BitVec.getLsbD_shiftLeft]
  by_cases h : j ≤ b.toNat % 64
  · have hin : 63 - b.toNat % 64 + j < 64 := by omega
    simp [hj, hin, Nat.min_eq_left h]
  · have hout : ¬ 63 - b.toNat % 64 + j < 64 := by omega
    have hlow : ¬ 63 < 63 - b.toNat % 64 := by omega
    simp [hj, hout, hlow, Nat.min_eq_right (not_le.mp h).le, show 63 - (63 - b.toNat % 64) = b.toNat % 64 by omega]

theorem sshiftRight_bit (a : Word) (k : Nat) {j : Nat} (hj : j < 64) :
    (a.sshiftRight k).getLsbD j = a.getLsbD (min (j + k) 63) := by
  rw [BitVec.getLsbD_sshiftRight, BitVec.msb_eq_getLsbD_last, Nat.add_comm k]
  by_cases h : j + k < 64
  · simp [hj, h, Nat.min_eq_left (Nat.le_of_lt_succ h)]
  · simp [hj, h, Nat.min_eq_right (by omega : 63 ≤ j + k)]

theorem zextFrom_bit (a b : Word) (j : Nat) :
    (zextFrom a b).getLsbD j = (decide (j ≤ b.toNat % 64) && a.getLsbD j) := by
  have hb : b.toNat % 64 < 64 := Nat.mod_lt _ (by decide)
  have hin : 63 - b.toNat % 64 + j < 64 ↔ j ≤ b.toNat % 64 := by omega
  simp [zextFrom, hin]

theorem rotateLeft_bit (a : Word) {k j : Nat} (hk : k < 64) (hj : j < 64) :
    (a.rotateLeft k).getLsbD ((j + k) % 64) = a.getLsbD j := by
  rw [BitVec.getLsbD_rotateLeft_of_le hk]
  by_cases h : j + k < 64
  · simp [Nat.mod_eq_of_lt h, h]
  · have hmod : (j + k) % 64 = j + k - 64 := by omega
    have hwrap : j + k - 64 < k := by omega
    simp [hmod, hwrap, show 64 - k + (j + k - 64) = j by omega]

/-- Every bit of a rotation is the image of one. -/
theorem eq_rotateLeft {a r : Word} {k : Nat} (hk : k < 64) (h : ∀ j < 64, r.getLsbD ((j + k) % 64) = a.getLsbD j) :
    a.rotateLeft k = r := by
  refine BitVec.eq_of_getLsbD_eq fun j hj => ?_
  have hj' : (((j + 64 - k) % 64) + k) % 64 = j := by omega
  have hlt : (j + 64 - k) % 64 < 64 := Nat.mod_lt _ (by decide)
  rw [← hj', rotateLeft_bit a hk hlt, h _ hlt]

/-! ## Values that fit in a word -/

theorem fitsI64_iff (x : Int) : fitsI64 x = true ↔ -(2 ^ 63 : Int) ≤ x ∧ x < (2 ^ 63 : Int) := by simp [fitsI64]

theorem fitsI64_false_iff (x : Int) : fitsI64 x = false ↔ x < -(2 ^ 63 : Int) ∨ (2 ^ 63 : Int) ≤ x := by
  rw [Bool.eq_false_iff, Ne, fitsI64_iff]
  omega

theorem wordOfInt_toInt {x : Int} (h : -(2 ^ 63 : Int) ≤ x ∧ x < (2 ^ 63 : Int)) : (wordOfInt x).toInt = x :=
  BitVec.toInt_ofInt_eq_self (by decide) h.1 h.2

theorem toNat_word {n : Nat} (h : n < 2 ^ 64) : (BitVec.ofNat 64 n).toNat = n :=
  (BitVec.toNat_ofNat ..).trans (Nat.mod_eq_of_lt h)

/-! ## ALU (06 R120) -/

/-- A checked operation computes the exact result modulo 2^64, and overflows where that does not fit. -/
theorem aluInt_of_aluExact {op : Nat} {a b : Word} {x : Int} (h : aluExact op a b = some x) :
    aluInt op a b = some (wordOfInt x, !fitsI64 x) := by
  unfold aluExact at h
  split at h
  case h_5 => cases h
  all_goals obtain rfl := Option.some.inj h
  · simp [aluInt, wordOfInt, BitVec.ofInt_add]
  · simp [aluInt, wordOfInt, Int.sub_eq_add_neg, BitVec.ofInt_add, BitVec.ofInt_neg, BitVec.sub_eq_add_neg]
  · simp [aluInt, wordOfInt, BitVec.ofInt_neg]
  · rcases lt_or_ge a.toInt 0 with hneg | hpos
    · simp [aluInt, wordOfInt, BitVec.ofInt_neg, abs_of_neg hneg, hneg]
    · simp [aluInt, wordOfInt, abs_of_nonneg hpos, not_lt.mpr hpos]

/-- An unchecked operation computes its result. -/
theorem aluInt_of_aluResult {op : Nat} {a b r : Word} (h : aluResult op a b r) : aluInt op a b = some (r, false) := by
  have hk : b.toNat % 64 < 64 := Nat.mod_lt _ (by decide)
  unfold aluResult at h
  split at h
  case h_25 => exact h.elim
  all_goals refine congrArg (fun w => some (w, false)) ?_
  · exact h.symm
  · exact h.symm
  · simp [h]
  · simp [h, BitVec.msb_eq_toInt]
  · exact BitVec.eq_of_toInt_eq (by rw [h]; split <;> omega)
  · exact BitVec.eq_of_toInt_eq (by rw [h]; split <;> omega)
  · exact BitVec.eq_of_toNat_eq (by rw [h]; split <;> omega)
  · exact BitVec.eq_of_toNat_eq (by rw [h]; split <;> omega)
  · exact BitVec.eq_of_getLsbD_eq fun j hj => by rw [h j hj, BitVec.getLsbD_and]
  · exact BitVec.eq_of_getLsbD_eq fun j hj => by rw [h j hj, BitVec.getLsbD_or]
  · exact BitVec.eq_of_getLsbD_eq fun j hj => by rw [h j hj, BitVec.getLsbD_xor]
  · exact BitVec.eq_of_getLsbD_eq fun j hj => by rw [h j hj]; simp [hj]
  · exact BitVec.eq_of_getLsbD_eq fun j hj => by rw [h j hj]; simp [hj]
  · refine BitVec.eq_of_getLsbD_eq fun j hj => ?_
    rw [h j hj, BitVec.getLsbD_shiftLeft]
    simp only [hj, decide_true, Bool.true_and, ← decide_not, Nat.not_lt]
  · exact BitVec.eq_of_getLsbD_eq fun j hj => by rw [h j hj, BitVec.getLsbD_ushiftRight, Nat.add_comm]
  · exact BitVec.eq_of_getLsbD_eq fun j hj => (sshiftRight_bit a _ hj).trans (h j hj).symm
  · exact eq_rotateLeft hk h
  · exact BitVec.eq_of_getLsbD_eq fun j hj => (sextFrom_bit a b hj).trans (h j hj).symm
  · exact BitVec.eq_of_getLsbD_eq fun j hj => (zextFrom_bit a b j).trans (h j hj).symm
  · obtain ⟨hle, hzero, hone⟩ := h
    rw [clz64_eq hle hzero hone, BitVec.ofNat_toNat, BitVec.setWidth_eq]
  · obtain ⟨hle, hzero, hone⟩ := h
    rw [ctz64_eq hle hzero hone, BitVec.ofNat_toNat, BitVec.setWidth_eq]
  · rw [popc64, upto, ← List.countP_eq_length_filter, ← h, BitVec.ofNat_toNat, BitVec.setWidth_eq]
  · exact BitVec.eq_of_getLsbD_eq fun j hj => (bswap64_bit a hj).trans (h j hj).symm
  · exact h.symm

/-! ## The stations of integers -/

theorem makes_of_ok {e : ElemRes} {r : NumRes} {v : Val} {pos mode : Nat} (he : e = r.res pos mode) (hr : r = .ok v) :
    makes e pos v.null v.lo v.hi := by
  rw [he, hr]
  exact NumRes.res_ok v pos mode

theorem raises_of_bad {e : ElemRes} {r : NumRes} {flag cond which : Nat} {v0 : Word} {v1 : Option Word} {pos mode : Nat}
    (he : e = r.res pos mode) (hr : r = .bad flag cond which (some v0) v1) : raises e pos mode cond which flag v0 := by
  rw [he, hr]
  exact NumRes.res_bad ..

section
variable {op : Nat} {a b : Val} {two : Bool} (p : Val)

theorem aluStation_null (hop : op < 0x30 ∨ op = 0x33) (h : a.null = true ∨ two = true ∧ b.null = true) :
    aluStation op a b p two = .ok .nul := by
  unfold aluStation
  split
  · omega
  · omega
  · omega
  · exact if_pos (by simpa using h)

theorem aluStation_of_aluInt {r : Word} {carry : Bool} (ha : a.null = false) (hb : two = true → b.null = false)
    (h : aluInt op a.lo b.lo = some (r, carry)) : aluStation op a b p two =
      if carry then .bad flagIOV 1 3 (some a.lo) (if two then some b.lo else none) else .ok (.nar r) := by
  have hnull : (a.null || (two && b.null)) = false := by rw [ha, and_null_eq_false hb]; rfl
  unfold aluStation
  split
  · simp [aluInt] at h
  · simp [aluInt] at h
  · simp [aluInt] at h
  · rw [hnull, h]
    cases carry <;> rfl

end

/-- The narrow value of an operand, or null. -/
def Val.narrow (v : Val) : Val := if v.null then .nul else .nar v.lo

theorem makes_narrow {e : ElemRes} {r : NumRes} {v : Elem} {pos mode : Nat} (he : e = r.res pos mode)
    (hr : r = .ok v.val.narrow) : makes e pos v.null (if v.null then 0 else v.lo) 0 := by
  have hval : v.val.narrow = { null := v.null, lo := if v.null then 0 else v.lo, hi := 0 } := by
    cases hv : v.null <;> simp [Val.narrow, Elem.val, hv, Val.nul, Val.nar]
  exact makes_of_ok he (hr.trans (congrArg NumRes.ok hval))

theorem aluStation_select (a b p : Val) (two : Bool) :
    aluStation 0x30 a b p two = .ok (if p.null = false ∧ p.lo ≠ 0 then a else b).narrow := by
  have hcond : (!p.null && p.lo != 0) = true ↔ p.null = false ∧ p.lo ≠ 0 := by simp
  rw [apply_ite Val.narrow]
  exact congrArg NumRes.ok (if_congr hcond rfl rfl)

theorem aluStation_nvl (a b p : Val) (two : Bool) :
    aluStation 0x31 a b p two = .ok (if a.null = false then a else b).narrow := by
  cases ha : a.null <;> simp [aluStation, Val.narrow, ha]

theorem aluComputes : AluComputes := by
  unfold AluComputes
  intro l dict t q ws i idx hkind a b p e pos gives
  have he : e = (aluStation q.op a.val b.val p.val (aluUsesB q.op)).res pos (q.mode t.flushOnce) :=
    stationElem_alu l dict t ws i idx hkind
  refine ⟨fun hop hnull => ?_, fun ha hb => ⟨fun r hr => ?_, fun x hx => ⟨fun hfits => ?_, fun hover => ?_⟩⟩,
    fun hop => ?_, fun hop => ?_, fun hop => ?_⟩
  · exact makes_of_ok he (aluStation_null p.val hop hnull)
  · exact makes_of_ok he (aluStation_of_aluInt p.val ha hb (aluInt_of_aluResult hr))
  · refine ⟨wordOfInt x, wordOfInt_toInt hfits, makes_of_ok he (v := .nar (wordOfInt x)) ?_⟩
    rw [aluStation_of_aluInt p.val ha hb (aluInt_of_aluExact hx), (fitsI64_iff x).mpr hfits]
    rfl
  · refine raises_of_bad he (v1 := if aluUsesB q.op then some b.lo else none) ?_
    rw [aluStation_of_aluInt p.val ha hb (aluInt_of_aluExact hx), (fitsI64_false_iff x).mpr hover]
    rfl
  · refine makes_narrow (v := if p.null = false ∧ p.lo ≠ 0 then a else b) he ?_
    rw [hop, aluStation_select, apply_ite Elem.val]
    rfl
  · refine makes_narrow (v := if a.null = false then a else b) he ?_
    rw [hop, aluStation_nvl, apply_ite Elem.val]
    rfl
  · exact makes_of_ok he (v := .nar (if a.null then 1 else 0)) (by rw [hop]; rfl)

/-! ## MAC (06 R134) -/

/-- The two words of a wide value spell it. -/
theorem wid_nat {n : Nat} (h : n < 2 ^ 128) : (Val.wid n).hi.toNat * 2 ^ 64 + (Val.wid n).lo.toNat = n := by
  simp only [Val.wid, BitVec.toNat_ofNat]
  omega

theorem wid_int {x : Int} (h : -(2 ^ 127 : Int) ≤ x ∧ x < (2 ^ 127 : Int)) :
    (Val.wid (ofSigned 128 x)).hi.toInt * 2 ^ 64 + (Val.wid (ofSigned 128 x)).lo.toNat = x := by
  simp only [Val.wid, BitVec.toInt_ofNat', BitVec.toNat_ofNat, ofSigned, Int.bmod_def]
  omega

theorem word_mul_lt (a b : Word) : a.toNat * b.toNat < 2 ^ 128 :=
  (Nat.mul_lt_mul'' a.isLt b.isLt).trans_eq (by norm_num)

theorem toInt_mul_bounds (a b : Word) : -(2 ^ 127 : Int) ≤ a.toInt * b.toInt ∧ a.toInt * b.toInt < (2 ^ 127 : Int) := by
  have hprod : |a.toInt * b.toInt| ≤ 2 ^ 63 * 2 ^ 63 := by
    rw [abs_mul]
    exact mul_le_mul (abs_toInt_le a) (abs_toInt_le b) (abs_nonneg _) (by norm_num)
  have := abs_le.mp hprod
  omega

section
variable {op : Nat} {a b c : Val} {three : Bool} (fmt : Bool) (rm : Nat)

theorem macStation_null (h : a.null = true ∨ b.null = true ∨ three = true ∧ c.null = true) :
    macStation op fmt rm a b c three = .ok .nul := by
  have hnull : (a.null || b.null || (three && c.null)) = true := by simpa [or_assoc] using h
  rw [macStation, if_pos hnull]

end

theorem macComputes : MacComputes := by
  unfold MacComputes
  intro l dict t q ws i idx hkind a b c e pos gives
  have he : e = (macStation q.op (q.m1 = 1) q.m2 a.val b.val c.val (macUsesC q.op)).res pos (q.mode t.flushOnce) :=
    stationElem_mac l dict t ws i idx hkind
  refine ⟨fun hnull => makes_of_ok he (macStation_null _ _ hnull), fun ha hb hc => ?_⟩
  have hnull : (a.val.null || b.val.null || (macUsesC q.op && c.val.null)) = false := by
    rw [Elem.val_null, Elem.val_null, Elem.val_null, ha, hb, and_null_eq_false hc]
    rfl
  simp only [macStation, hnull, Bool.false_eq_true, if_false] at he
  refine ⟨fun hop => ?_, fun hop => ?_, fun hop => ?_, fun hop => ?_, fun hop => ?_, fun hop => ?_, fun hop => ?_⟩
  all_goals rw [hop] at he
  · exact makes_of_ok he rfl
  · exact makes_of_ok he rfl
  · exact makes_of_ok he rfl
  · exact makes_of_ok he rfl
  · refine ⟨fun hfits => ?_, fun hover => ?_⟩
    · exact ⟨_, wordOfInt_toInt hfits, makes_of_ok he (v := .nar _) (if_pos ((fitsI64_iff _).mpr hfits))⟩
    · exact raises_of_bad he (if_neg (Bool.eq_false_iff.mp ((fitsI64_false_iff _).mpr hover)))
  · exact ⟨_, _, wid_int (toInt_mul_bounds a.lo b.lo), makes_of_ok he rfl⟩
  · exact ⟨_, _, wid_nat (word_mul_lt a.lo b.lo), makes_of_ok he rfl⟩

/-! ## DIV (06 R127) -/

/-- The operands that DIV takes at width `w`. -/
def divInRange (op w : Nat) (x : Word) : Bool :=
  if op % 2 = 0 then decide (-(2 ^ (w - 1) : Int) ≤ x.toInt) && decide (x.toInt < (2 ^ (w - 1) : Int))
  else decide (x.toNat < 2 ^ w)

theorem divInRange_iff {op : Nat} (hop : op < 4) (w : Nat) (x : Word) : divInRange op w x = true ↔
    (op = 0 ∨ op = 2 → -(2 ^ (w - 1) : Int) ≤ x.toInt ∧ x.toInt < (2 ^ (w - 1) : Int)) ∧
      (¬ (op = 0 ∨ op = 2) → x.toNat < 2 ^ w) := by
  interval_cases op <;> simp [divInRange]

theorem divInRange_zero (op w : Nat) : divInRange op w 0 = true := by
  simp [divInRange]

theorem divWidth_eq {m : Nat} (h : m < 4) : divWidth m = 64 / 2 ^ m := by interval_cases m <;> rfl

/-- What DIV makes of operands in range and a divisor that is not zero. -/
def divQuot (op w : Nat) (a b : Word) : NumRes :=
  match op with
  | 0 => if a.toInt = -(2 ^ (w - 1) : Int) && b.toInt = -1 then .bad flagDRANGE 2 3 (some a) (some b)
         else .ok (.nar (wordOfInt (Int.tdiv a.toInt b.toInt)))
  | 1 => .ok (.nar (BitVec.ofNat 64 (a.toNat / b.toNat)))
  | 2 => .ok (.nar (wordOfInt (Int.tmod a.toInt b.toInt)))
  | _ => .ok (.nar (BitVec.ofNat 64 (a.toNat % b.toNat)))

section
variable {op : Nat} {a b : Val} (w : Nat)

theorem divStation_null (h : a.null = true ∨ b.null = true) : divStation op w a b = .ok .nul := by
  simp [divStation, h]

variable (ha : a.null = false) (hb : b.null = false)
include ha hb

/-- A dividend out of range stands before a divisor out of range, and that before a divisor of zero. -/
theorem divStation_values : divStation op w a b =
    if divInRange op w a.lo = false then .bad flagDRANGE 2 0 (some a.lo) (some b.lo)
    else if divInRange op w b.lo = false then .bad flagDRANGE 2 1 (some a.lo) (some b.lo)
    else if b.lo = 0 then .bad flagDRANGE 2 3 (some a.lo) (some b.lo)
    else divQuot op w a.lo b.lo := by
  have hnull : (a.null || b.null) = false := by rw [ha, hb]; rfl
  simp only [← Bool.not_eq_true', divStation, hnull, divInRange]
  rfl

theorem divStation_badFirst (h : divInRange op w a.lo = false) :
    divStation op w a b = .bad flagDRANGE 2 0 (some a.lo) (some b.lo) := by
  rw [divStation_values w ha hb, if_pos h]

variable (hina : divInRange op w a.lo = true)
include hina

theorem divStation_badSecond (h : divInRange op w b.lo = false) :
    divStation op w a b = .bad flagDRANGE 2 1 (some a.lo) (some b.lo) := by
  rw [divStation_values w ha hb, if_neg (by rw [hina]; decide), if_pos h]

theorem divStation_zero (h : b.lo = 0) : divStation op w a b = .bad flagDRANGE 2 3 (some a.lo) (some b.lo) := by
  rw [divStation_values w ha hb, if_neg (by rw [hina]; decide), if_neg (by rw [h, divInRange_zero]; decide), if_pos h]

theorem divStation_quot (hinb : divInRange op w b.lo = true) (h : b.lo ≠ 0) :
    divStation op w a b = divQuot op w a.lo b.lo := by
  rw [divStation_values w ha hb, if_neg (by rw [hina]; decide), if_neg (by rw [hinb]; decide), if_neg h]

end

/-- Quotients fit but for the least value by −1. -/
theorem wordOfInt_tdiv {a b : Word} (h : ¬ (a.toInt = -(2 ^ 63 : Int) ∧ b.toInt = -1)) :
    (wordOfInt (Int.tdiv a.toInt b.toInt)).toInt = Int.tdiv a.toInt b.toInt := by
  have hne : a ≠ BitVec.intMin 64 ∨ b ≠ -1#64 := by
    by_contra hboth
    push Not at hboth
    exact h ⟨by rw [hboth.1]; decide, by rw [hboth.2]; decide⟩
  rw [← BitVec.toInt_sdiv_of_ne_or_ne a b hne, wordOfInt, BitVec.ofInt_toInt]

theorem wordOfInt_tmod (a b : Word) : (wordOfInt (Int.tmod a.toInt b.toInt)).toInt = Int.tmod a.toInt b.toInt := by
  rw [← BitVec.toInt_srem, wordOfInt, BitVec.ofInt_toInt]

theorem divComputes : DivComputes := by
  unfold DivComputes
  intro l dict t q ws i idx hkind hop hm w a b e pos gives signed fits range
  have he : e = (divStation q.op w a.val b.val).res pos (q.mode t.flushOnce) :=
    (stationElem_div l dict t ws i idx hkind).trans (by rw [divWidth_eq hm])
  have hfits : ∀ {x}, fits x → divInRange q.op w x = true := fun h => (divInRange_iff hop w _).mpr h
  have hout : ∀ {x}, ¬ fits x → divInRange q.op w x = false :=
    fun h => Bool.eq_false_iff.mpr fun hin => h ((divInRange_iff hop w _).mp hin)
  refine ⟨fun hnull => makes_of_ok he (divStation_null w hnull), fun ha hb => ?_⟩
  refine ⟨fun hfa => ?_, fun hfa hfb => ?_, fun hfa hzero => ?_, fun hfa hfb hne => ?_⟩
  · exact raises_of_bad he (divStation_badFirst w ha hb (hout hfa))
  · exact raises_of_bad he (divStation_badSecond w ha hb (hfits hfa) (hout hfb))
  · exact raises_of_bad he (divStation_zero w ha hb (hfits hfa) hzero)
  · have hquot : divStation q.op w a.val b.val = divQuot q.op w a.lo b.lo :=
      divStation_quot w ha hb (hfits hfa) (hfits hfb) hne
    have hw : w - 1 ≤ 63 := Nat.sub_le_sub_right (Nat.div_le_self 64 (2 ^ q.m1)) 1
    refine ⟨fun hop hmin hneg => ?_, fun hop hnot => ?_, fun hop => ?_, fun hop => ?_, fun hop => ?_⟩ <;>
      rw [hop] at hquot he
    · exact raises_of_bad he (hquot.trans (if_pos (by simp [hmin, hneg])))
    · refine ⟨_, wordOfInt_tdiv fun hboth => hnot ⟨?_, hboth.2⟩, makes_of_ok he (v := .nar _) (hquot.trans (if_neg ?_))⟩
      · have hfit := (hfa.1 (.inl hop)).1
        have hmono : (2 : Int) ^ (w - 1) ≤ 2 ^ 63 := pow_le_pow_right₀ (by decide) hw
        omega
      · simpa using hnot
    · exact ⟨_, toNat_word ((Nat.div_le_self ..).trans_lt a.lo.isLt), makes_of_ok he hquot⟩
    · exact ⟨_, wordOfInt_tmod a.lo b.lo, makes_of_ok he hquot⟩
    · exact ⟨_, toNat_word ((Nat.mod_le ..).trans_lt a.lo.isLt), makes_of_ok he hquot⟩

end Sys2Proof.Machine
end

section
/-! The decimals of DCM by their table (06 R129 to R132, R136), for O10. -/

namespace Sys2Proof.Machine
open Sys2Proof.Claims

/-- Each row of the table: its operands and what it computes. -/
theorem dcmRow_spec {op : Nat} {wa wr : Bool} {wb : Option Bool} {f : Int → Int → Int}
    (h : (op, wa, wb, wr, f) ∈ dcmRows) :
    dcmShape op = some (wa, wb.getD false, wb.isSome) ∧
      ∀ k rd x y ovf, dcmOfNumbers op k rd x y ovf = .packed wr (f x y) ovf := by
  simp only [dcmRows, List.mem_cons, Prod.mk.injEq, List.not_mem_nil, or_false] at h
  rcases h with h | h | h | h | h | h | h | h | h | h | h | h | h | h <;> obtain ⟨rfl, rfl, rfl, rfl, rfl⟩ := h <;>
    exact ⟨rfl, fun k rd x y ovf => by simp [dcmOfNumbers]⟩

/-- A packed result or decimal overflow, as the table of DCM says it. -/
theorem result_of_packed {e : ElemRes} {wide : Bool} {x : Int} {v0 : Word} {v1 : Option Word} {pos mode : Nat}
    (he : e = (NumRes.packed wide x (.decOverflow v0 v1)).res pos mode) :
    (|x| < 10 ^ (if wide then 31 else 15) → ∃ lo hi : Word, (wide = false → hi = 0) ∧
      isDecResult (if wide then 31 else 15) (lo.toNat + hi.toNat * 2 ^ 64) x ∧ makes e pos false lo hi) ∧
      (10 ^ (if wide then 31 else 15) ≤ |x| → raises e pos mode 5 3 0x2000 v0) := by
  obtain ⟨hfits, hover⟩ := NumRes.packed_res wide x v0 v1 pos mode
  rw [← he] at hfits hover
  refine ⟨fun h => ?_, hover⟩
  obtain ⟨hdec, hmakes⟩ := hfits h
  exact ⟨_, _, fun hw => by rw [hw]; rfl, hdec, hmakes⟩

/-! ## Bytes in reverse order (06 R136) -/

section
variable {op l : Nat} {a : Val} (ha : a.null = false) (k : Int) (rd : Nat) (exact : Bool) (b : Val)
include ha

theorem dcmStation_rev8 : dcmStation 0x18 k rd l exact a b = .ok (.nar (BitVec.ofNat 64 (revBytes l a.lo.toNat))) := by
  simp [dcmStation, dcmShape, ha]

theorem dcmStation_rev16 : dcmStation 0x19 k rd l exact a b = .ok (.wid (revBytes l a.nat)) := by
  simp [dcmStation, dcmShape, ha]

end

theorem revBytes_lt_of_le {l n : Nat} (h : l ≤ n) (v : Nat) : revBytes l v < 256 ^ n :=
  (revBytes_lt l v).trans_le (Nat.pow_le_pow_right (by decide) h)

theorem revBytes_succ_byte (m v k : Nat) :
    revBytes (m + 1) v / 256 ^ k % 256 = if k ≤ m then v / 256 ^ (m - k) % 256 else 0 := by
  rw [revBytes_byte]
  exact if_congr Nat.lt_succ_iff rfl rfl

/-! ## Nulls -/

theorem dcmStation_nullFirst {op : Nat} {a : Val} (ha : a.null = true) (k : Int) (rd l : Nat) (exact : Bool) (b : Val) :
    dcmStation op k rd l exact a b = .ok .nul := by
  cases hshape : dcmShape op with
  | none => simp [dcmStation, hshape, ha]
  | some s => exact dcmStation_null hshape _ _ _ (.inl ha)

theorem dcmComputes : DcmComputes := by
  unfold DcmComputes
  intro l dict t q ws i idx hkind a b e pos gives mode bits dec result cmp
  have he : e = (dcmStation q.op (rescaleK q) q.m2 (q.m3 + 1) t.replay a.val b.val).res pos mode :=
    stationElem_dcm l dict t ws i idx hkind
  have hsome : ∀ {wide v x}, dec wide v x → decOperand wide t.replay v.val = some x :=
    fun h => (decOperand_eq_some_iff ..).mpr h
  have hnone : ∀ {wide v}, (∀ x, ¬ dec wide v x) → decOperand wide t.replay v.val = none :=
    fun h => (decOperand_eq_none_iff ..).mpr h
  refine ⟨?_, fun hop ha => ?_, fun hop ha x hx => ?_, fun hop ha hb x y hx hy => ?_, fun hop ha hb x y hx hy => ?_,
    fun hop ha hl => ?_, fun hop ha hl => ?_, fun hop hnull => ?_⟩
  · rintro ⟨op, wa, wb, wr, f⟩ hrow rfl
    obtain ⟨hshape, hvalue⟩ := dcmRow_spec hrow
    have hpresent : wb.isSome = true ↔ wb ≠ none := Option.isSome_iff_ne_none
    refine ⟨fun hnull => ?_, fun ha hb => ⟨fun hx => ?_, fun x hx => ⟨fun hwb => ?_, fun w hwb =>
      ⟨fun hy => ?_, fun y hy => ?_⟩⟩⟩⟩
    · exact makes_of_ok he (dcmStation_null hshape _ _ _ (hnull.imp_right (And.imp_left hpresent.mpr)))
    · exact raises_of_bad he (dcmStation_badFirst hshape ha (hb ∘ hpresent.mp) _ _ _ (hnone hx))
    · subst hwb
      rw [dcmStation_numbers hshape ha (by simp) _ _ _ (hsome hx) rfl, hvalue] at he
      exact result_of_packed he
    · subst hwb
      exact raises_of_bad he (dcmStation_badSecond hshape ha (hb ∘ hpresent.mp) _ _ _ (hsome hx) rfl (hnone hy))
    · subst hwb
      rw [dcmStation_numbers hshape ha (hb ∘ hpresent.mp) _ _ _ (hsome hx) (hsome hy), hvalue] at he
      exact result_of_packed he
  · rw [hop, dcmStation_ofInt ha, ← NumRes.packed_fits (.decOverflow a.lo none) (abs_toInt_lt_decimal a.lo)] at he
    exact result_of_packed he
  · rw [hop, dcmStation_numbers (y := 0) rfl ha (by simp) _ _ _ (hsome hx) rfl] at he
    refine ⟨fun hfits => ?_, fun hover => ?_⟩
    · exact ⟨_, wordOfInt_toInt hfits, makes_of_ok he (v := .nar _) (if_pos ((fitsI64_iff x).mpr hfits))⟩
    · exact raises_of_bad he (if_neg (Bool.eq_false_iff.mp ((fitsI64_false_iff x).mpr hover)))
  · rw [hop] at he
    exact makes_of_ok he (dcmStation_compare (.inl ⟨rfl, rfl⟩) ha hb (hsome hx) (hsome hy) ..)
  · rw [hop] at he
    exact makes_of_ok he (dcmStation_compare (.inr ⟨rfl, rfl⟩) ha hb (hsome hx) (hsome hy) ..)
  · rw [hop, dcmStation_rev8 ha] at he
    refine ⟨_, makes_of_ok he rfl, fun k _ => ?_⟩
    have hlt : revBytes (q.m3 + 1) a.lo.toNat < 2 ^ 64 := revBytes_lt_of_le (n := 8) hl _
    exact (congrArg (· / 256 ^ k % 256) (toNat_word hlt)).trans (revBytes_succ_byte ..)
  · rw [hop, dcmStation_rev16 ha] at he
    refine ⟨_, _, makes_of_ok he rfl, fun k _ => ?_⟩
    have hlt : revBytes (q.m3 + 1) a.val.nat < 2 ^ 128 := revBytes_lt_of_le (n := 16) hl _
    rw [Nat.add_comm, wid_nat hlt]
    exact revBytes_succ_byte ..
  · refine makes_of_ok he (v := .nul) ?_
    obtain hnull | ⟨hcmp, hnull⟩ := hnull
    · exact dcmStation_nullFirst hnull ..
    · simp only [List.mem_cons, List.not_mem_nil, or_false] at hcmp
      obtain hop | hop := hcmp <;> rw [hop] <;> exact dcmStation_null rfl _ _ _ (.inr ⟨rfl, hnull⟩)

end Sys2Proof.Machine
end

section
/-! The predicates of SEL, the elements of CPT and the hashes of HSH (07 R138 to R145), for O10. -/

namespace Sys2Proof.Machine
open Sys2Proof.Claims

/-! ## Three-valued logic (07 R138, R141) -/

/-- A truth value as a number: 0 false, 1 unknown, 2 true. -/
def truthNum : Option Bool → Nat
  | some false => 0
  | none => 1
  | some true => 2

theorem truthNum_truth (e : Elem) : truthNum e.val.truth = truth e := by
  cases hn : e.null
  · have hval : e.val.truth = some (e.lo != 0) := by simp [Val.truth, hn]
    rw [hval, truth, hn]
    by_cases hz : e.lo = 0
    · simp [hz, truthNum]
    · have hne : (e.lo != 0) = true := by simpa using hz
      rw [hne, if_neg Bool.false_ne_true, if_neg hz]
      rfl
  · simp [Val.truth, truth, hn, truthNum]

theorem truthNum_and3 (x y : Option Bool) : truthNum (and3 x y) = min (truthNum x) (truthNum y) := by
  rcases x with _ | _ | _ <;> rcases y with _ | _ | _ <;> rfl

theorem truthNum_or3 (x y : Option Bool) : truthNum (or3 x y) = max (truthNum x) (truthNum y) := by
  rcases x with _ | _ | _ <;> rcases y with _ | _ | _ <;> rfl

theorem truthNum_not3 (x : Option Bool) : truthNum (not3 x) = 2 - truthNum x := by
  rcases x with _ | _ | _ <;> rfl

theorem predVal_eq (x : Option Bool) :
    predVal x = { null := decide (truthNum x = 1), lo := if truthNum x = 2 then 1 else 0, hi := 0 } := by
  rcases x with _ | _ | _ <;> rfl

/-! ## SEL (07 R139 to R141) -/

/-- The predicate of SEL before it is combined with p. -/
def selTruth (op ty l : Nat) (a b c : Val) : Option Bool :=
  match op with
  | 8 => some a.null
  | 9 => a.truth
  | _ => if a.null || b.null || (6 ≤ op && c.null) then none else some (selCompare op ty l a b c)

/-- A predicate combined with p by CMB. -/
def combine (cmb : Nat) (r p : Option Bool) : Option Bool :=
  match cmb with
  | 0 => r
  | 1 => and3 r p
  | 2 => or3 r p
  | _ => and3 r (not3 p)

theorem selStation_eq (op ty l cmb : Nat) (a b c p : Val) :
    selStation op ty l cmb a b c p = predVal (combine cmb (selTruth op ty l a b c) p.truth) := rfl

/-- The combination on numbers: AND is the lesser and OR the greater. -/
def combineNum (cmb r p : Nat) : Nat :=
  match cmb with
  | 0 => r
  | 1 => min r p
  | 2 => max r p
  | _ => min r (2 - p)

theorem truthNum_combine (cmb : Nat) (r p : Option Bool) :
    truthNum (combine cmb r p) = combineNum cmb (truthNum r) (truthNum p) := by
  rcases cmb with _ | _ | _ | cmb
  · rfl
  · exact truthNum_and3 r p
  · exact truthNum_or3 r p
  · exact (truthNum_and3 r (not3 p)).trans (congrArg (min (truthNum r)) (truthNum_not3 p))

/-- The numbers that a format's patterns stand for in an order, with both zeros as 0. -/
theorem Fmt.key_signed (f : Fmt) (v : Nat) : f.key v + b2n (f.signOf v) =
    if v / 2 ^ (f.eb + f.mb) % 2 = 1 then -((v % 2 ^ (f.eb + f.mb) : Nat) : Int) else (v % 2 ^ (f.eb + f.mb) : Nat) := by
  rw [Fmt.key, Fmt.signOf, Nat.testBit_eq_decide_div_mod_eq]
  by_cases h : v / 2 ^ (f.eb + f.mb) % 2 = 1 <;> simp [h, b2n]

theorem Fmt.key_mod_width (f : Fmt) (v : Nat) : f.key (v % 2 ^ f.width) = f.key v := by
  rw [f.key_eq, f.key_eq, Nat.mod_mod, f.mod_width_mod]

/-- Patterns that are no NaN are ordered as the numbers of their signs and magnitudes. -/
theorem Fmt.order_eq (f : Fmt) (v : Nat) :
    (if f.isNan v = true then none
      else if v % 2 ^ (f.eb + f.mb) = 0 then some 0 else some (f.key v + b2n (f.signOf v))) =
      if (2 ^ f.eb - 1) * 2 ^ f.mb < v % 2 ^ (f.eb + f.mb) then none
      else some (if v / 2 ^ (f.eb + f.mb) % 2 = 1 then -((v % 2 ^ (f.eb + f.mb) : Nat) : Int)
        else (v % 2 ^ (f.eb + f.mb) : Nat)) := by
  refine if_congr (f.isNan_iff v) rfl ?_
  rw [f.key_signed]
  split
  · next h => simp [h]
  · rfl

section
variable {op : Nat} {a b c : Val} (hop : op < 8) (ty l : Nat)
include hop

theorem selTruth_null (h : a.null = true ∨ b.null = true ∨ 6 ≤ op ∧ c.null = true) : selTruth op ty l a b c = none := by
  have hnull : (a.null || b.null || (6 ≤ op && c.null)) = true := by simpa [or_assoc] using h
  unfold selTruth
  split
  · omega
  · omega
  · rw [hnull]; rfl

theorem selTruth_values (ha : a.null = false) (hb : b.null = false) (hc : 6 ≤ op → c.null = false) :
    selTruth op ty l a b c = some (selCompare op ty l a b c) := by
  have hnull : (a.null || b.null || (6 ≤ op && c.null)) = false := by simpa [ha, hb] using hc
  unfold selTruth
  split
  · omega
  · omega
  · rw [hnull]; rfl

end

/-- The model's order of elements is that of the numbers TYPE reads. -/
theorem cmpKey_eq (ty l : Nat) (e : Elem) : cmpKey ty l e.val = selNumber ty l e := by
  have hstr : ∀ v, ((revBytes l v : Nat) : Int) = _ := fun v => congrArg Int.ofNat (revBytes_sum l v)
  rcases ty with _ | _ | _ | _ | _ | ty
  · rfl
  · rfl
  · exact fp64.order_eq e.lo.toNat
  · rw [cmpKey, show (2 : Nat) ^ 32 = 2 ^ fp32.width from rfl, fp32.key_mod_width]
    exact fp32.order_eq e.lo.toNat
  · exact congrArg some (hstr _)
  · exact congrArg some (hstr _)

/-- What SEL's comparison says of the numbers x, y and (for the two ranges) z. -/
theorem selCompare_two {op ty l : Nat} {a b : Elem} (c : Elem) {x y : Int} (hop : op < 6) (hx : selNumber ty l a = some x)
    (hy : selNumber ty l b = some y) : selCompare op ty l a.val b.val c.val =
      [decide (x = y), decide (x ≠ y), decide (x < y), decide (x ≤ y), decide (y < x), decide (y ≤ x)].getD op false := by
  rw [selCompare, cmpKey_eq, cmpKey_eq, cmpKey_eq, hx, hy]
  cases selNumber ty l c <;> interval_cases op <;> rfl

theorem selCompare_three {ty l : Nat} {a b c : Elem} {x y z : Int} (hx : selNumber ty l a = some x)
    (hy : selNumber ty l b = some y) (hz : selNumber ty l c = some z) :
    selCompare 6 ty l a.val b.val c.val = decide (y ≤ x ∧ x ≤ z) ∧
      selCompare 7 ty l a.val b.val c.val = decide (y ≤ x ∧ x < z) := by
  simp [selCompare, cmpKey_eq, hx, hy, hz]

/-- With a NaN, NE alone is true. -/
theorem selCompare_unordered {op ty l : Nat} {a b c : Elem}
    (h : selNumber ty l a = none ∨ selNumber ty l b = none ∨ 6 ≤ op ∧ selNumber ty l c = none) :
    selCompare op ty l a.val b.val c.val = decide (op = 1) := by
  simp only [selCompare, cmpKey_eq]
  cases hx : selNumber ty l a with
  | none => rfl
  | some x =>
    cases hy : selNumber ty l b with
    | none => rfl
    | some y =>
      obtain ⟨hop, hz⟩ : 6 ≤ op ∧ selNumber ty l c = none := by simpa [hx, hy] using h
      obtain ⟨n, rfl⟩ := Nat.exists_eq_add_of_le' hop
      simp [hz]

section
variable {l : Launch} {dict : List Word} {t : Strip} {q : Stn} {ws : List Wire} {i idx : Nat} (hkind : q.kind = .sel)
include hkind

/-- SEL's element from the predicate `r` of its comparison. -/
theorem stationElem_sel_makes {r : Option Bool} (hr : selTruth q.op q.m2 (q.m3 + 1) (t.operand q ws q.a i).val
    (t.operand q ws q.b i).val (t.operand q ws q.c i).val = r) :
    let v := combineNum q.m1 (truthNum r) (truth (t.operand q ws q.p i))
    makes (stationElem l dict t q ws i idx) (t.posOf q ws i) (decide (v = 1)) (if v = 2 then 1 else 0) 0 := by
  rw [stationElem_sel l dict t ws i idx hkind, selStation_eq, hr, predVal_eq, truthNum_combine, truthNum_truth]
  exact makes_elem ..

end

theorem selComputes : SelComputes := by
  unfold SelComputes
  intro l dict t q ws i idx hkind hop hm1 hm2 a b c p num gives
  have hgives : ∀ {r}, selTruth q.op q.m2 (q.m3 + 1) a.val b.val c.val = r → gives (truthNum r) :=
    fun hr => stationElem_sel_makes hkind hr
  have hbool : ∀ {r : Bool}, selTruth q.op q.m2 (q.m3 + 1) a.val b.val c.val = some r → gives (if r then 2 else 0) :=
    fun {r} hr => by cases r <;> exact hgives hr
  refine ⟨fun h8 => ?_, fun h9 => ?_, fun h8 hnull => ?_, fun h8 ha hb hc => ?_⟩
  · exact hbool (by rw [h8]; rfl)
  · rw [← truthNum_truth]
    exact hgives (by rw [h9]; rfl)
  · exact hgives (selTruth_null h8 _ _ hnull)
  · have hvalues : selTruth q.op q.m2 (q.m3 + 1) a.val b.val c.val = _ := selTruth_values h8 _ _ ha hb hc
    refine ⟨fun hnan => ?_, fun x y hx hy => ⟨fun h6 => ?_, fun z hz => ⟨fun h6 => ?_, fun h7 => ?_⟩⟩⟩
    · rw [selCompare_unordered hnan] at hvalues
      simpa using hbool hvalues
    · rw [selCompare_two c h6 hx hy] at hvalues
      exact hbool hvalues
    · rw [h6, (selCompare_three hx hy hz).1, ← h6] at hvalues
      simpa using hbool hvalues
    · rw [h7, (selCompare_three hx hy hz).2, ← h7] at hvalues
      simpa using hbool hvalues

/-! ## CPT and HSH (07 R142 to R145) -/

theorem truth_eq_two_iff (e : Elem) : truth e = 2 ↔ e.val.truth = some true := by
  rw [← truthNum_truth]
  rcases e.val.truth with _ | _ | _ <;> simp [truthNum]

/-- What CPT emits of the operand that a code names; code 28 is POS. -/
def cptPick (t : Strip) (q : Stn) (ws : List Wire) (i code : Nat) : Elem :=
  let pos := t.posOf q ws i
  if code = 28 then { pos := pos, null := false, lo := BitVec.ofNat 64 pos, hi := 0, bad := false }
  else { t.operand q ws code i with pos := pos, bad := false }

section
variable (l : Launch) (dict : List Word) (t : Strip) {q : Stn} (ws : List Wire) (i idx : Nat)

theorem stationElem_cpt (h : q.kind = .cpt) : stationElem l dict t q ws i idx =
    if truth (t.operand q ws q.p i) = 2 then
      { ElemRes.none with
        out1 := some (cptPick t q ws i q.a), out2 := if q.b = 0 then none else some (cptPick t q ws i q.b) }
    else .none := by
  have hpick : ∀ code, cptPick t q ws i code =
      { (if code = 28 then
          { pos := t.posOf q ws i, null := false, lo := BitVec.ofNat 64 (t.posOf q ws i), hi := 0, bad := false }
        else t.operand q ws code i : Elem) with pos := t.posOf q ws i, bad := false } := fun code => by
    unfold cptPick
    split <;> rfl
  simp only [stationElem, h, truth_eq_two_iff, hpick]

end

/-- HSH's hash of the words that its operands hold. -/
theorem hshStation_one (seed : Word) (wide : Bool) {a : Val} (b : Val) (ha : a.null = false) :
    hshStation 0 seed wide a b = .nar (hash1 a.lo seed) := by
  simp [hshStation, ha]

theorem hshStation_two (seed : Word) {wide : Bool} {a b : Val} (ha : a.null = false) (hb : wide = false → b.null = false) :
    hshStation 1 seed wide a b = .nar (hash2 a.lo (if wide then a.hi else b.lo) seed) := by
  have hnull : (a.null || (!wide && b.null)) = false := by
    rw [ha, and_null_eq_false fun h => hb (by simpa using h)]
    rfl
  simp [hshStation, hnull]

theorem hshStation_null {op : Nat} (seed : Word) {wide : Bool} {a b : Val}
    (h : a.null = true ∨ (op = 1 ∧ wide = false) ∧ b.null = true) : hshStation op seed wide a b = .nul := by
  obtain ha | ⟨⟨rfl, rfl⟩, hb⟩ := h
  · rcases op with _ | op <;> simp [hshStation, ha]
  · simp [hshStation, hb]

theorem cptAndHshCompute : CptAndHshCompute := by
  unfold CptAndHshCompute
  refine ⟨fun l dict t q ws i idx hkind => ?_, fun l dict t q ws i idx hkind hop => ?_⟩
  · intro e pos out
    have he : e = _ := stationElem_cpt l dict t ws i idx hkind
    by_cases htrue : truth (t.operand q ws q.p i) = 2
    · rw [if_pos htrue] at he
      rw [he]
      exact ⟨rfl, rfl, rfl, rfl, fun _ => ⟨⟨_, rfl, rfl⟩, fun hb => if_pos hb, fun hb => ⟨_, if_neg hb, rfl⟩⟩,
        fun h => absurd htrue h⟩
    · rw [if_neg htrue] at he
      rw [he]
      exact ⟨rfl, rfl, rfl, rfl, fun h => absurd h htrue, fun _ => ⟨rfl, rfl⟩⟩
  · intro a b gives mix two
    have hmakes : ∀ {v}, hshStation q.op q.imm (wideAt ws q.a) a.val b.val = v → gives v.null v.lo v.hi := by
      rintro v rfl
      simp only [gives, stationElem_hsh l dict t ws i idx hkind]
      exact makes_elem ..
    refine ⟨fun hnull => hmakes (hshStation_null _ hnull), fun ha hb => ⟨fun h0 => ?_, fun h1 => ?_⟩⟩
    · exact hmakes ((congrArg (hshStation · _ _ _ _) h0).trans (hshStation_one q.imm _ b.val ha))
    · exact hmakes ((congrArg (hshStation · _ _ _ _) h1).trans (hshStation_two q.imm ha fun hw => hb ⟨h1, hw⟩))

end Sys2Proof.Machine
end

section
/-! The accumulators at a strip's commit (07 R156, R157, R159), and O10. -/

namespace Sys2Proof.Machine
open Sys2Proof.Claims

/-! ## The elements of a strip -/

/-- A slot takes the elements of a strip from index `k` on, each in the lane of its index. -/
def Shadow.takes (wide : Bool) : Shadow → List Elem → Nat → Shadow
  | h, [], _ => h
  | h, e :: es, k => Shadow.takes wide (h.take wide ⟨k % 8, by omega⟩ e).1 es (k + 1)

theorem Shadow.takes_eq_foldl (wide : Bool) (h : Shadow) (es : List Elem) (k : Nat) :
    (es.zipIdx k).foldl (fun (h : Shadow) e => (h.take wide ⟨e.2 % 8, by omega⟩ e.1).1) h = h.takes wide es k := by
  induction es generalizing h k with
  | nil => rfl
  | cons e es ih => exact ih _ _

/-- The operations of integers and counts. -/
def countingOps : List Nat := [0, 1, 4, 5, 8, 9, 10, 11]

/-- What one element adds to a sum or a count. -/
def sumTerm (op : Nat) (wide : Bool) (e : Elem) : Int :=
  if e.null then (if op = 5 then 1 else 0)
  else match op with
    | 0 => elemInt true wide e
    | 1 => elemInt false wide e
    | _ => 1

/-- The integer of an element that MIN and MAX compare. -/
def bestKey (op : Nat) (e : Elem) : Int := if op = 8 ∨ op = 9 then e.lo.toInt else e.lo.toNat

section
variable (h : Shadow) (wide : Bool) (lane : Fin 8) (e : Elem)

theorem Shadow.take_null (hnull : e.null = true) : (h.take wide lane e).1 =
    { h with nullSeen := true, sum := if h.op.toNat = 5 then h.sum + 1 else h.sum } := by
  simp [Shadow.take, hnull]

/-- A slot notes whether it has had an element and a null. -/
theorem Shadow.take_seen (hop : h.op.toNat ∈ countingOps) : (h.take wide lane e).1.op = h.op ∧
    (h.take wide lane e).1.nonempty = (h.nonempty || !e.null) ∧ (h.take wide lane e).1.nullSeen = (h.nullSeen || e.null) := by
  cases hnull : e.null with
  | true => simp [Shadow.take_null _ _ _ _ hnull]
  | false =>
    simp only [countingOps, List.mem_cons, List.not_mem_nil, or_false] at hop
    rcases hop with hop | hop | hop | hop | hop | hop | hop | hop <;> simp [Shadow.take, hnull, hop]

theorem Shadow.take_sum (hop : h.op.toNat ∈ [0, 1, 4, 5]) :
    (h.take wide lane e).1.sum = h.sum + sumTerm h.op.toNat wide e := by
  cases hnull : e.null with
  | true =>
    rw [Shadow.take_null _ _ _ _ hnull]
    by_cases h5 : h.op.toNat = 5 <;> simp [sumTerm, hnull, h5]
  | false =>
    simp only [List.mem_cons, List.not_mem_nil, or_false] at hop
    rcases hop with hop | hop | hop | hop <;> simp [Shadow.take, sumTerm, hnull, hop]

/-- The lesser or the greater of two integers. -/
def pick (smaller : Bool) (x y : Int) : Int := if smaller then min x y else max x y

/-- MIN and MAX keep the best of the integers they have had. -/
theorem Shadow.take_best (hop : h.op.toNat ∈ [8, 9, 10, 11]) (hnull : e.null = false) :
    (h.take wide lane e).1.best =
      some (h.best.elim (bestKey h.op.toNat e) fun y => pick (h.op.toNat % 2 = 0) y (bestKey h.op.toNat e)) := by
  simp only [List.mem_cons, List.not_mem_nil, or_false] at hop
  rcases hop with hop | hop | hop | hop <;> cases hb : h.best <;> simp [Shadow.take, bestKey, hnull, hop, hb, pick]

end

section
variable {h : Shadow} (wide : Bool) (es : List Elem) (k : Nat)

theorem Shadow.takes_seen (hop : h.op.toNat ∈ countingOps) : (h.takes wide es k).op = h.op ∧
    (h.takes wide es k).nonempty = (h.nonempty || es.any fun e => !e.null) ∧
      (h.takes wide es k).nullSeen = (h.nullSeen || es.any fun e => e.null) := by
  induction es generalizing h k with
  | nil => simp [Shadow.takes]
  | cons e es ih =>
    obtain ⟨hsame, hone, hnull⟩ := h.take_seen wide ⟨k % 8, by omega⟩ e hop
    obtain ⟨hsame', hone', hnull'⟩ := ih (h := (h.take wide ⟨k % 8, by omega⟩ e).1) (k + 1) (by rwa [hsame])
    rw [Shadow.takes, hsame', hone', hnull', hsame, hone, hnull, List.any_cons, List.any_cons, Bool.or_assoc, Bool.or_assoc]
    exact ⟨rfl, rfl, rfl⟩

theorem Shadow.takes_sum (hop : h.op.toNat ∈ [0, 1, 4, 5]) :
    (h.takes wide es k).sum = h.sum + (es.map (sumTerm h.op.toNat wide)).sum := by
  induction es generalizing h k with
  | nil => simp [Shadow.takes]
  | cons e es ih =>
    have hsame := (h.take_seen wide ⟨k % 8, by omega⟩ e ((by decide : [0, 1, 4, 5] ⊆ countingOps) hop)).1
    rw [Shadow.takes, ih (k + 1) (by rwa [hsame]), hsame, h.take_sum _ _ _ hop, List.map_cons, List.sum_cons, Int.add_assoc]

/-- The least or the greatest of a list. -/
def bestOf (smaller : Bool) (xs : List Int) : Option Int := if smaller then xs.min? else xs.max?

theorem bestOf_pick (smaller : Bool) (x y : Int) (xs : List Int) :
    bestOf smaller (x :: y :: xs) = bestOf smaller (pick smaller x y :: xs) := by
  cases smaller <;> rfl

theorem bestOf_cons (smaller : Bool) (x : Int) (xs : List Int) :
    bestOf smaller (x :: xs) = some ((bestOf smaller xs).elim x (pick smaller x)) := by
  cases smaller
  · exact List.max?_cons
  · exact List.min?_cons

theorem Shadow.takes_best (hop : h.op.toNat ∈ [8, 9, 10, 11]) : (h.takes wide es k).best =
    bestOf (h.op.toNat % 2 = 0) (h.best.toList ++ (es.filter fun e => !e.null).map (bestKey h.op.toNat)) := by
  induction es generalizing h k with
  | nil => cases hb : h.best <;> simp [Shadow.takes, bestOf, hb]
  | cons e es ih =>
    have hsame := (h.take_seen wide ⟨k % 8, by omega⟩ e ((by decide : [8, 9, 10, 11] ⊆ countingOps) hop)).1
    rw [Shadow.takes, ih (k + 1) (by rwa [hsame]), hsame]
    cases hnull : e.null with
    | true => simp [Shadow.take_null _ _ _ _ hnull, hnull]
    | false =>
      rw [h.take_best _ _ _ hop hnull]
      cases hb : h.best <;> simp [hnull, bestOf_pick]

/-- Elements that are null leave all but the count of COUNTALL. -/
theorem Shadow.takes_nulls (hnull : ∀ e ∈ es, e.null = true) :
    ∃ seen n, h.takes wide es k = { h with nullSeen := seen, sum := n } ∧ (h.op.toNat ≠ 5 → n = h.sum) := by
  induction es generalizing h k with
  | nil => exact ⟨h.nullSeen, h.sum, rfl, fun _ => rfl⟩
  | cons e es ih =>
    rw [Shadow.takes, Shadow.take_null _ _ _ _ (hnull e List.mem_cons_self)]
    obtain ⟨seen, n, heq, hn⟩ := ih (h := { h with nullSeen := true, sum := if h.op.toNat = 5 then h.sum + 1 else h.sum })
      (k + 1) fun e he => hnull e (List.mem_cons_of_mem _ he)
    exact ⟨seen, n, heq, fun h5 => (hn h5).trans (if_neg h5)⟩

end

/-! ## Sums of elements -/

theorem elemInt_signed (wide : Bool) (e : Elem) :
    elemInt true wide e = if wide then e.lo.toNat + e.hi.toInt * 2 ^ 64 else e.lo.toInt := by
  cases wide
  · simp [elemInt]
  · have hlo := e.lo.isLt
    have hhi := e.hi.isLt
    have hmod : (e.lo.toNat + e.hi.toNat * 2 ^ 64) % 2 ^ 128 = e.lo.toNat + e.hi.toNat * 2 ^ 64 :=
      Nat.mod_eq_of_lt (by omega)
    have hsign : e.lo.toNat + e.hi.toNat * 2 ^ 64 < 2 ^ 127 ↔ 2 * e.hi.toNat < 2 ^ 64 := by omega
    simp only [elemInt, toSigned, Val.nat, Elem.val_lo, Elem.val_hi, if_true, BitVec.toInt_eq_toNat_cond, hmod, Nat.reduceSub,
      hsign]
    split <;> push_cast <;> omega

theorem elemInt_plain (wide : Bool) (e : Elem) :
    elemInt false wide e = ((if wide then e.lo.toNat + e.hi.toNat * 2 ^ 64 else e.lo.toNat : Nat) : Int) := by
  cases wide <;> rfl

/-- But for COUNTALL, an element that is null adds nothing. -/
theorem sum_sumTerm {op : Nat} (hop : op ≠ 5) (wide : Bool) (es : List Elem) :
    (es.map (sumTerm op wide)).sum = ((es.filter fun e => !e.null).map (sumTerm op wide)).sum := by
  induction es with
  | nil => rfl
  | cons e es ih => cases hnull : e.null <;> simp [hnull, ih, sumTerm, hop]

theorem map_sumTerm_filter {op : Nat} {wide : Bool} {g : Elem → Int} (es : List Elem)
    (h : ∀ e : Elem, e.null = false → sumTerm op wide e = g e) :
    (es.filter fun e => !e.null).map (sumTerm op wide) = (es.filter fun e => !e.null).map g :=
  List.map_congr_left fun e he => h e (by simpa using (List.mem_filter.mp he).2)

/-! ## The fold into CAn (07 R157, R159) -/

/-- The bits of CAS after a strip. -/
def casBits (cas : Nat) (nonempty nullSeen ovf : Bool) : Nat := cas ||| b2n nonempty ||| 2 * b2n nullSeen ||| 4 * b2n ovf

theorem casBits_testBit (cas : Nat) (n u o : Bool) :
    ((casBits cas n u o).testBit 0 = true ↔ cas.testBit 0 = true ∨ n = true) ∧
      ((casBits cas n u o).testBit 1 = true ↔ cas.testBit 1 = true ∨ u = true) ∧
      ((casBits cas n u o).testBit 2 = true ↔ cas.testBit 2 = true ∨ o = true) := by
  have hbits : ∀ j, (casBits cas n u o).testBit j =
      (cas.testBit j || ((b2n n).testBit j || ((2 * b2n u).testBit j || (4 * b2n o).testBit j))) := fun j => by
    simp only [casBits, Nat.testBit_or, Bool.or_assoc]
  simp only [hbits, Bool.or_eq_true]
  cases n <;> cases u <;> cases o <;> simp +decide

section
variable {h : Shadow} (ca : Wide) (cas : Nat) (free : Int)

theorem Shadow.fold_signed (hop : h.op.toNat ∈ [0, 4, 5]) : h.fold ca cas free =
    { ca := BitVec.ofInt 128 (ca.toInt + h.sum)
      cas := casBits cas h.nonempty h.nullSeen
        (!(decide (-(2 ^ 127 : Int) ≤ ca.toInt + h.sum) && decide (ca.toInt + h.sum < (2 ^ 127 : Int))))
      flags := 0 } := by
  simp only [List.mem_cons, List.not_mem_nil, or_false] at hop
  rcases hop with hop | hop | hop <;> simp only [Shadow.fold, hop, casBits]

theorem Shadow.fold_plain (hop : h.op.toNat = 1) : h.fold ca cas free =
    { ca := BitVec.ofInt 128 (ca.toNat + h.sum)
      cas := casBits cas h.nonempty h.nullSeen (decide ((2 ^ 128 : Int) ≤ ca.toNat + h.sum))
      flags := 0 } := by
  simp only [Shadow.fold, hop, casBits]

/-- The integer that MIN and MAX find in CAn. -/
def bestHeld (op : Nat) (ca : Wide) : Int := if op < 10 then ca.toInt else ca.toNat

theorem Shadow.fold_best (hop : h.op.toNat ∈ [8, 9, 10, 11]) : h.fold ca cas free =
    { ca := h.best.elim ca fun x => BitVec.ofInt 128
        (if cas.testBit 0 then pick (h.op.toNat % 2 = 0) (bestHeld h.op.toNat ca) x else x)
      cas := casBits cas h.nonempty h.nullSeen false
      flags := 0 } := by
  simp only [List.mem_cons, List.not_mem_nil, or_false] at hop
  rcases hop with hop | hop | hop | hop <;> cases hb : h.best <;>
    simp [Shadow.fold, hop, hb, casBits, pick, bestHeld]

theorem Shadow.fold_seen (hop : h.op.toNat ∈ countingOps) :
    (∃ ovf, (h.fold ca cas free).cas = casBits cas h.nonempty h.nullSeen ovf) ∧ (h.fold ca cas free).flags = 0 := by
  have hcases : h.op.toNat ∈ [0, 4, 5] ∨ h.op.toNat = 1 ∨ h.op.toNat ∈ [8, 9, 10, 11] := by
    simp only [countingOps, List.mem_cons, List.not_mem_nil, or_false] at hop ⊢
    omega
  obtain hop | hop | hop := hcases
  · rw [Shadow.fold_signed ca cas free hop]
    exact ⟨⟨_, rfl⟩, rfl⟩
  · rw [Shadow.fold_plain ca cas free hop]
    exact ⟨⟨_, rfl⟩, rfl⟩
  · rw [Shadow.fold_best ca cas free hop]
    exact ⟨⟨_, rfl⟩, rfl⟩

theorem laneSum_none (op : Nat) : laneSum op (Vector.replicate 8 none) = (none, 0) := by
  simp [laneSum, laneOp]

/-- A slot that has taken no element leaves CAn. -/
theorem Shadow.fold_nothing (hsum : h.sum = 0) (hbest : h.best = none) (hlanes : h.lanes = Vector.replicate 8 none)
    (hone : h.nonempty = false) : (h.fold ca cas free).ca = ca := by
  simp only [Shadow.fold, hsum, hbest, hlanes, hone, Int.add_zero, laneSum_none]
  split <;> simp

end

/-- The best of what CAn held, where it held something, and of a strip's elements. -/
theorem bestOf_held (smaller held : Bool) (cur : Int) {xs : List Int} (hne : xs ≠ []) :
    ∃ x m, bestOf smaller xs = some x ∧
    bestOf smaller ((if held then [cur] else []) ++ xs) = some m ∧ m = if held then pick smaller cur x else x := by
  obtain ⟨y, ys, rfl⟩ := List.exists_cons_of_ne_nil hne
  refine ⟨_, _, bestOf_cons smaller y ys, ?_, rfl⟩
  cases held
  · exact bestOf_cons smaller y ys
  · exact (bestOf_cons smaller cur (y :: ys)).trans (by rw [bestOf_cons]; rfl)

/-- The best of a list is one of its integers, and none is better. -/
theorem bestOf_min_iff {xs : List Int} {m : Int} : bestOf true xs = some m ↔ m ∈ xs ∧ ∀ x ∈ xs, m ≤ x :=
  List.min?_eq_some_iff

theorem bestOf_max_iff {xs : List Int} {m : Int} : bestOf false xs = some m ↔ m ∈ xs ∧ ∀ x ∈ xs, x ≤ m :=
  List.max?_eq_some_iff

/-! ## A strip's slot from its start to its fold -/

/-- The slot of a strip that has taken the elements `es`. -/
def stripSlot (ca : Fin 8) (op : BitVec 5) (wide : Bool) (es : List Elem) : Shadow := (Shadow.start ca op).takes wide es 0

section
variable (ca : Fin 8) {op : BitVec 5} (wide : Bool) (es : List Elem) (old : Wide) (cas : Nat) (free : Int)

/-- CAS records whether the strip had an element and a null. -/
theorem stripSlot_seen (hop : op.toNat ∈ countingOps) :
    (stripSlot ca op wide es).op = op ∧
      ((stripSlot ca op wide es).nonempty = true ↔ (es.filter fun e => !e.null) ≠ []) ∧
      ((stripSlot ca op wide es).nullSeen = true ↔ (es.filter fun e => !e.null).length ≠ es.length) := by
  obtain ⟨hsame, hone, hnull⟩ := (Shadow.takes_seen (h := Shadow.start ca op) wide es 0 hop)
  refine ⟨hsame, ?_, ?_⟩
  · rw [stripSlot, hone]
    simp [Shadow.start]
  · rw [stripSlot, hnull, Ne, List.length_filter_eq_length_iff]
    simp [Shadow.start]

theorem stripSlot_sum (hop : op.toNat ∈ [0, 1, 4, 5]) :
    (stripSlot ca op wide es).sum = (es.map (sumTerm op.toNat wide)).sum :=
  (Shadow.takes_sum (h := Shadow.start ca op) wide es 0 hop).trans (Int.zero_add _)

theorem stripSlot_best (hop : op.toNat ∈ [8, 9, 10, 11]) : (stripSlot ca op wide es).best =
    bestOf (op.toNat % 2 = 0) ((es.filter fun e => !e.null).map (bestKey op.toNat)) :=
  Shadow.takes_best (h := Shadow.start ca op) wide es 0 hop

/-- A strip without an element that is not null leaves CAn, but for COUNTALL and SUMF. -/
theorem stripSlot_nothing (h2 : op.toNat ≠ 2) (h5 : op.toNat ≠ 5) (hnone : (es.filter fun e => !e.null) = []) :
    ((stripSlot ca op wide es).fold old cas free).ca = old := by
  have hnull : ∀ e ∈ es, e.null = true := by simpa [List.filter_eq_nil_iff] using hnone
  obtain ⟨seen, n, heq, hn⟩ := Shadow.takes_nulls (h := Shadow.start ca op) wide es 0 hnull
  have hop : op ≠ 2 := fun h => h2 (congrArg BitVec.toNat h)
  rw [stripSlot, heq]
  exact Shadow.fold_nothing _ _ _ (hn h5) rfl (congrArg (Vector.replicate 8) (if_neg hop)) rfl

/-- An exact signed sum, as CAn holds it, and OVF. -/
theorem stripSlot_signed (hop : op.toNat ∈ [0, 4, 5]) {x : Int}
    (hx : (es.map (sumTerm op.toNat wide)).sum = x) :
    ((stripSlot ca op wide es).fold old cas free).ca.toInt = (old.toInt + x).bmod (2 ^ 128) ∧
      (((stripSlot ca op wide es).fold old cas free).cas.testBit 2 = true ↔
        cas.testBit 2 = true ∨ old.toInt + x < -(2 ^ 127 : Int) ∨ (2 ^ 127 : Int) ≤ old.toInt + x) := by
  have hsum := (stripSlot_sum ca wide es ((by decide : [0, 4, 5] ⊆ [0, 1, 4, 5]) hop)).trans hx
  have hsame := (stripSlot_seen ca wide es ((by decide : [0, 4, 5] ⊆ countingOps) hop)).1
  rw [Shadow.fold_signed old cas free (by rwa [hsame]), hsum]
  refine ⟨BitVec.toInt_ofInt _, ?_⟩
  rw [(casBits_testBit ..).2.2, Bool.not_eq_true', ← Bool.decide_and, decide_eq_false_iff_not]
  exact or_congr_right (by omega)

/-- An exact unsigned sum, as CAn holds it, and OVF. -/
theorem stripSlot_plain (hop : op.toNat = 1) {n : Nat} (hn : (es.map (sumTerm op.toNat wide)).sum = n) :
    ((stripSlot ca op wide es).fold old cas free).ca.toNat = (old.toNat + n) % 2 ^ 128 ∧
      (((stripSlot ca op wide es).fold old cas free).cas.testBit 2 = true ↔
        cas.testBit 2 = true ∨ 2 ^ 128 ≤ old.toNat + n) := by
  have hsum := (stripSlot_sum ca wide es (by simp [hop])).trans hn
  have hsame := (stripSlot_seen ca (op := op) wide es (by simp [hop, countingOps])).1
  rw [Shadow.fold_plain old cas free (by rwa [hsame]), hsum, ← Int.natCast_add]
  refine ⟨by rw [BitVec.ofInt_natCast, BitVec.toNat_ofNat], ?_⟩
  rw [(casBits_testBit ..).2.2, decide_eq_true_iff]
  exact or_congr_right (by omega)

/-- MIN and MAX take the best of what CAn held and of the strip's elements. -/
theorem stripSlot_bestHeld (hop : op.toNat ∈ [8, 9, 10, 11]) (hne : (es.filter fun e => !e.null) ≠ []) :
    ∃ m, bestOf (op.toNat % 2 = 0) ((if cas.testBit 0 then [bestHeld op.toNat old] else []) ++
        (es.filter fun e => !e.null).map (bestKey op.toNat)) = some m ∧
      ((stripSlot ca op wide es).fold old cas free).ca = BitVec.ofInt 128 m := by
  obtain ⟨x, m, hx, hm, rfl⟩ := bestOf_held (op.toNat % 2 = 0) (cas.testBit 0) (bestHeld op.toNat old)
    (xs := (es.filter fun e => !e.null).map (bestKey op.toNat)) (by simpa using hne)
  have hsame := (stripSlot_seen ca wide es ((by decide : [8, 9, 10, 11] ⊆ countingOps) hop)).1
  refine ⟨_, hm, ?_⟩
  rw [Shadow.fold_best old cas free (by rwa [hsame]), stripSlot_best ca wide es hop, hx, hsame]
  rfl

end

theorem accumulatorsFold : AccumulatorsFold := by
  unfold AccumulatorsFold
  intro ca op wide es old cas free h r there signed plain wraps
  have hslot : h = stripSlot ca op wide es := Shadow.takes_eq_foldl wide (Shadow.start ca op) es 0
  have hr : r = (stripSlot ca op wide es).fold old cas free := by rw [← hslot]
  clear_value r
  subst hr
  refine ⟨fun hop => ?_, stripSlot_nothing ca wide es old cas free, ?_, ?_, ?_, ?_, fun hne => ?_⟩
  · obtain ⟨hsame, hone, hnull⟩ := stripSlot_seen ca wide es hop
    obtain ⟨⟨ovf, hcas⟩, hflags⟩ := Shadow.fold_seen (h := stripSlot ca op wide es) old cas free (by rwa [hsame])
    obtain ⟨hbit0, hbit1, -⟩ := casBits_testBit cas (stripSlot ca op wide es).nonempty
      (stripSlot ca op wide es).nullSeen ovf
    rw [hcas, hbit0, hbit1, hone, hnull]
    exact ⟨Iff.rfl, Iff.rfl, hflags⟩
  · rintro rfl
    refine stripSlot_signed ca wide es old cas free (by decide) ?_
    have hterm : ∀ e : Elem, e.null = false → sumTerm 0 wide e = signed e := fun e he =>
      (by simp [sumTerm, he] : sumTerm 0 wide e = elemInt true wide e).trans (elemInt_signed wide e)
    exact (sum_sumTerm (by decide) wide es).trans (congrArg List.sum (map_sumTerm_filter es hterm))
  · rintro rfl
    refine stripSlot_signed ca wide es old cas free (by decide) ?_
    have hterm : ∀ e : Elem, e.null = false → sumTerm 4 wide e = 1 := fun e he => by simp [sumTerm, he]
    exact (sum_sumTerm (by decide) wide es).trans
      ((congrArg List.sum (map_sumTerm_filter es hterm)).trans (by simp [there]))
  · rintro rfl
    refine stripSlot_signed ca wide es old cas free (by decide) ?_
    have hterm : sumTerm 5 wide = fun _ => 1 := funext fun e => by cases he : e.null <;> simp [sumTerm, he]
    exact (congrArg (fun g => (es.map g).sum) hterm).trans (by simp)
  · rintro rfl
    refine stripSlot_plain ca wide es old cas free (by decide) ?_
    have hterm : ∀ e : Elem, e.null = false → sumTerm 1 wide e = (plain e : Int) := fun e he =>
      (by simp [sumTerm, he] : sumTerm 1 wide e = elemInt false wide e).trans (elemInt_plain wide e)
    rw [Nat.cast_list_sum, List.map_map]
    exact (sum_sumTerm (by decide) wide es).trans (congrArg List.sum (map_sumTerm_filter es hterm))
  · intro held
    have hbest := stripSlot_bestHeld ca (op := op) wide es old cas free
    refine ⟨?_, ?_⟩ <;> rintro (rfl | rfl)
    all_goals obtain ⟨m, hm, hca⟩ := hbest (by decide) hne
    · obtain ⟨hmem, hall⟩ := bestOf_min_iff.mp hm
      exact ⟨m, hmem, hca, hall⟩
    · obtain ⟨hmem, hall⟩ := bestOf_min_iff.mp hm
      exact ⟨m, hmem, hca, hall⟩
    · obtain ⟨hmem, hall⟩ := bestOf_max_iff.mp hm
      exact ⟨m, hmem, hca, hall⟩
    · obtain ⟨hmem, hall⟩ := bestOf_max_iff.mp hm
      exact ⟨m, hmem, hca, hall⟩

end Sys2Proof.Machine

namespace Sys2Proof.Proofs
open Sys2Proof.Machine

/-- Settles O10: each unit's station by its own table, and the accumulators by what a strip's slot has taken. -/
theorem stationOperationsCompute : Obligations.StationOperationsCompute :=
  ⟨aluComputes, macComputes, divComputes, dcmComputes, selComputes, cptAndHshCompute, accumulatorsFold⟩

end Sys2Proof.Proofs
end

section
/-! Trap entry over a stack that lies in DMEM, and the precise faults of a bundle, for O41 (09 R195; 11 R234 to R237). -/

-- The proofs of this part are elaborated in order, on one heap: the whole text comes near the check's memory limit.
set_option Elab.async false

namespace Sys2Proof.Machine

/-! ## The stack of an entry (11 R234 to R237) -/

/-- What a ready stack says of SP and SLIM. -/
def FrameFits (sp slim : Word) : Prop :=
  sp.toNat % 8 = 0 ∧ 16 ≤ sp.toNat ∧ slim.toNat + 16 ≤ sp.toNat ∧ sp.toNat ≤ dmemSize

theorem State.stackReady_iff {s : State} {n : CoreId} {t : ThreadId} :
    s.stackReady n t = true ↔ FrameFits (s.thread n t).sp s.cores[n].slim := by
  simp only [State.stackReady, FrameFits, Bool.and_eq_true, decide_eq_true_eq, and_assoc]

section
variable {sp slim : Word} (h : FrameFits sp slim)
include h

/-- A word of the frame is a word of DMEM. -/
theorem FrameFits.word {k : Word} (hdvd : 8 ∣ k.toNat) (hpos : 0 < k.toNat) (hk : k.toNat ≤ 16) :
    (sp - k).toNat % 8 = 0 ∧ (sp - k).toNat < dmemSize := by
  obtain ⟨halign, hlow, -, hhigh⟩ := h
  have hle := hk.trans hlow
  rw [BitVec.toNat_sub_of_le (BitVec.le_def.mpr hle)]
  exact ⟨Nat.mod_eq_zero_of_dvd (Nat.dvd_sub (Nat.dvd_of_mod_eq_zero halign) hdvd),
    (Nat.sub_lt (hpos.trans_le hle) hpos).trans_le hhigh⟩

theorem FrameFits.upperWord : (sp - 8).toNat % 8 = 0 ∧ (sp - 8).toNat < dmemSize :=
  h.word (by decide) (by decide) (by decide)

theorem FrameFits.lowerWord : (sp - 16).toNat % 8 = 0 ∧ (sp - 16).toNat < dmemSize :=
  h.word (by decide) (by decide) (by decide)

/-- SP is not below the reserve under SLIM, where an entry halts its core (11 R236). -/
theorem FrameFits.aboveReserve :
    ¬ sp.toNat < (if 1024 ≤ slim.toNat then slim.toNat - 1024 else 0) + 16 := by
  obtain ⟨-, -, hslim, -⟩ := h
  refine Nat.not_lt.mpr (le_trans (Nat.add_le_add_right ?_ 16) hslim)
  split
  · exact Nat.sub_le ..
  · exact Nat.zero_le _

end

theorem Core.entryRoom_of_frameFits {c : Core} {t : ThreadId} (h : FrameFits c.threads[t].sp c.slim) :
    c.entryRoom t = true := by
  simp only [Core.entryRoom, decide_eq_false (Nat.not_le.mpr h.upperWord.2),
    decide_eq_false (Nat.not_le.mpr h.lowerWord.2), b2n]
  rfl

/-- A push to an aligned word of DMEM goes there. -/
theorem State.pushPlace_dmem (s : State) (c : Core) (levelK : Bool) {a : Word} (halign : a.toNat % 8 = 0)
    (hin : a.toNat < dmemSize) : s.pushPlace c levelK a = (c, some (.dmem a.toNat)) := by
  simp [State.pushPlace, State.dataAccess, halign, hin]

/-! ## Entry (11 R234) -/

/-- A thread that has entered its trap handler. -/
def Thread.entered (h : Thread) (evb : Word) (x : Cause) (era : Word) (buf : Option Nat) : Thread :=
  { h with
    pc := evb &&& ~~~(1 : Word)
    a := h.a.set 15 (h.sp - 16)
    status := h.status &&& 4
    cause := BitVec.ofNat 64 (x.info % 256 * 256 + x.code)
    era := era &&& ~~~(1 : Word)
    est := h.status
    latch := []
    waited := false
    hold := false
    frame := Vector.replicate 2 .unread
    prev := none
    buf := buf }

theorem Core.giveUpBundle_thread (c : Core) (t : ThreadId) : (c.giveUpBundle t).threads[t] = c.threads[t].clear :=
  c.modThread_same t Thread.clear

@[simp] theorem Core.cycles_dmem (c : Core) (k : Nat) : (c.cycles k).dmem = c.dmem := rfl

/-- A core whose thread has pushed its frame into DMEM and entered its trap handler. -/
def Core.entered (c : Core) (t : ThreadId) (x : Cause) (era : Word) (buf : Option Nat) : Core :=
  let h := c.threads[t]
  (((c.giveUpBundle t).dmemStore (h.sp - 16).toNat (bytesOf 8 (era &&& ~~~(1 : Word)).toNat)).dmemStore
    (h.sp - 8).toNat (bytesOf 8 h.status.toNat)).modThread t fun h => h.entered c.evb x era buf

theorem Core.entered_thread (c : Core) (t : ThreadId) (x : Cause) (era : Word) (buf : Option Nat) :
    (c.entered t x era buf).threads[t] = c.threads[t].entered c.evb x era buf :=
  (Core.modThread_same ..).trans
    (congrArg (Thread.entered · c.evb x era buf) (c.giveUpBundle_thread t) :
      _ = c.threads[t].clear.entered c.evb x era buf)

theorem Core.entered_dmem (c : Core) (t : ThreadId) (x : Cause) (era : Word) (buf : Option Nat) :
    (c.entered t x era buf).dmem =
      writeCells (writeCells c.dmem (c.threads[t].sp - 16).toNat (bytesOf 8 (era &&& ~~~(1 : Word)).toNat))
        (c.threads[t].sp - 8).toNat (bytesOf 8 c.threads[t].status.toNat) := by
  simp only [Core.entered, Core.modThread, Core.dmemStore, Core.freshWords, Core.giveUpBundle]

theorem Core.entered_thread_other (c : Core) {t r : ThreadId} (hr : r ≠ t) (x : Cause) (era : Word) (buf : Option Nat) :
    (c.entered t x era buf).threads[r] = c.threads[r] :=
  (Core.modThread_other _ t r _ hr).trans (Core.modThread_other c t r Thread.clear hr)

/-! ## The steps of an entry -/

/-- The core of an entry that is under way: the bundle is given up, and ERA, EST and CAUSE are written. -/
def Core.caused (c : Core) (t : ThreadId) (x : Cause) (era : Word) : Core :=
  ((c.giveUpBundle t).modThread t fun h => { h with era := era &&& ~~~(1 : Word), est := h.status }).modThread t
    fun h => { h with cause := BitVec.ofNat 64 (x.info % 256 * 256 + x.code) }

theorem Core.modThread_congr {c : Core} {t : ThreadId} {f g : Thread → Thread} {h : Thread} (hh : c.threads[t] = h)
    (hfg : f h = g h) : c.modThread t f = c.modThread t g := by
  simp only [Core.modThread, hh, hfg]

theorem Core.dmemStore_modThread (c : Core) (t : ThreadId) (g : Thread → Thread) (a : Nat) (bs : List Byte) :
    (c.modThread t g).dmemStore a bs = (c.dmemStore a bs).modThread t g := rfl

/-- The pushes and the new STATUS, SP and pc of an entry into DMEM that is under way; `sp` and `status` are the thread's. -/
def Core.pushed (c : Core) (t : ThreadId) (era sp status : Word) (buf : Option Nat) : Core :=
  ((c.push t (sp - 16) (era &&& ~~~(1 : Word)) (.dmem (sp - 16).toNat)).push t (sp - 8) status
    (.dmem (sp - 8).toNat)).modThread t fun h => { h with
      a := h.a.set 15 (sp - 16), status := h.status &&& 4, pc := c.evb &&& ~~~(1 : Word), buf := buf }

theorem Core.caused_pushed (c : Core) (t : ThreadId) (x : Cause) (era : Word) (buf : Option Nat) :
    (c.caused t x era).pushed t era c.threads[t].sp c.threads[t].status buf = c.entered t x era buf := by
  simp only [Core.pushed, Core.caused, Core.entered, Core.push, Core.dmemStore_modThread, Core.modThread_modThread]
  exact Core.modThread_congr (c.giveUpBundle_thread t) rfl

/-- `u` has core `n` of `s` with its thread entered, but for CYCLE, and the other cores, memory and the chains of `s`. -/
def State.Entered (u s : State) (n : CoreId) (t : ThreadId) (x : Cause) (era : Word) : Prop :=
  ∃ buf k, u.cores[n] = (s.cores[n].entered t x era buf).cycles k ∧ (∀ m, m ≠ n → u.cores[m] = s.cores[m]) ∧
    u.mem = s.mem ∧ u.chains = s.chains

section
variable {u s : State} {n : CoreId} {t : ThreadId} {x : Cause} {era : Word}

/-- A kernel's end concerns the ACI's commands alone. -/
theorem State.kernelEnd_ite {c : Prop} [Decidable c] : (if c then s.kernelEnd n t else s).cores = s.cores ∧
    (if c then s.kernelEnd n t else s).mem = s.mem ∧ (if c then s.kernelEnd n t else s).chains = s.chains := by
  split <;> exact ⟨rfl, rfl, rfl⟩

theorem State.entered_of_pushed {buf : Option Nat} {k : Nat}
    (hu : u.cores = (s.modCore n (·.caused t x era)).cores ∧ u.mem = s.mem ∧ u.chains = s.chains) :
    (u.modCore n fun c => (c.pushed t era (s.thread n t).sp (s.thread n t).status buf).cycles k).Entered s n t x era := by
  obtain ⟨hcores, hmem, hchains⟩ := hu
  refine ⟨buf, k, ?_, fun m hm => ?_, hmem, hchains⟩
  · rw [State.modCore_same, hcores, State.modCore_same]
    exact congrArg (Core.cycles · k) (Core.caused_pushed ..)
  · rw [State.modCore_other _ _ _ _ hm, hcores, State.modCore_other _ _ _ _ hm]

theorem State.Entered.tick_unless {c : Prop} [Decidable c] (h : u.Entered s n t x era) :
    (if c then u else u.tick).Entered s n t x era := by
  split <;> exact h

/-- Entry over a stack in DMEM, for a cause without an address. -/
theorem State.trapEntry_entered (h : s.stackReady n t = true) (hx : x.addr = none) :
    (s.trapEntry n t x era).Entered s n t x era := by
  have hfits : FrameFits s.cores[n].threads[t].sp s.cores[n].slim := State.stackReady_iff.mp h
  have ⟨halign, _, hslim, _⟩ := hfits
  unfold State.trapEntry
  simp only [hx, State.modThread, State.modCore_same, State.modCore_modCore, halign, ne_eq, not_true_eq_false, if_false,
    if_neg hfits.aboveReserve, if_neg (Nat.not_lt.mpr hslim),
    State.pushPlace_dmem _ _ _ hfits.upperWord.1 hfits.upperWord.2,
    State.pushPlace_dmem _ _ _ hfits.lowerWord.1 hfits.lowerWord.2]
  exact (State.entered_of_pushed State.kernelEnd_ite).tick_unless

theorem State.Entered.enteredFrom (h : u.Entered s n t x era) (hx : x.addr = none) : u.enteredFrom s n t x era := by
  obtain ⟨buf, k, hcore, hcores, hmem, hchains⟩ := h
  have hthread : u.thread n t = (s.thread n t).entered s.cores[n].evb x era buf := by
    rw [State.thread, hcore]
    exact Core.entered_thread ..
  refine ⟨hthread.trans ?thread, ?dmem, fun r hr => ?threads, hcores, ?xregs, ?sregs, hmem, hchains, fun a ha => ?addr⟩
  case thread =>
    rw [hthread]
    rfl
  case dmem => rw [hcore, Core.cycles_dmem, Core.entered_dmem, State.thread]
  case threads =>
    rw [State.thread, hcore]
    exact Core.entered_thread_other _ hr ..
  case xregs => rw [hcore]; rfl
  case sregs => rw [hcore]; rfl
  case addr => exact nomatch hx.symm.trans ha

end

/-! ## Precise faults (09 R195; 11 R234) -/

/-- The end of a bundle touches the mode, the value of CORE_CFG that was due, and the caches. -/
theorem Core.bundleOver_keeps (c : Core) : c.bundleOver.threads = c.threads ∧ c.bundleOver.evb = c.evb ∧
    c.bundleOver.slim = c.slim ∧ c.bundleOver.dmem = c.dmem ∧ c.bundleOver.x = c.x ∧ c.bundleOver.s = c.s := by
  unfold Core.bundleOver
  split <;> exact ⟨rfl, rfl, rfl, rfl, rfl, rfl⟩

/-- The state from which a precise fault enters: its bundle is over. -/
def State.overAtFault (s : State) (n : CoreId) : State := (s.cyclesFree n).modCore n (·.bundleOver)

section
variable (s : State) (n : CoreId)

theorem State.overAtFault_core : (s.overAtFault n).cores[n] = (s.cores[n].cycles (Config.freeNat s.free)).bundleOver := by
  simp [-Fin.getElem_fin, State.overAtFault, State.cyclesFree]

theorem State.overAtFault_core_other {m : CoreId} (hm : m ≠ n) : (s.overAtFault n).cores[m] = s.cores[m] :=
  (State.modCore_other _ n m _ hm).trans (s.modCore_other n m (·.cycles (Config.freeNat s.free)) hm)

@[simp] theorem State.overAtFault_thread (r : ThreadId) : (s.overAtFault n).thread n r = s.thread n r := by
  rw [State.thread, State.overAtFault_core, (Core.bundleOver_keeps _).1]
  rfl

theorem State.overAtFault_stackReady (t : ThreadId) : (s.overAtFault n).stackReady n t = s.stackReady n t := by
  obtain ⟨-, -, hslim, -, -, -⟩ := Core.bundleOver_keeps (s.cores[n].cycles (Config.freeNat s.free))
  simp only [State.stackReady, State.overAtFault_thread, State.overAtFault_core, hslim]
  rfl

end

theorem State.enteredFrom_of_overAtFault {u s : State} {n : CoreId} {t : ThreadId} {x : Cause} {era : Word}
    (h : u.enteredFrom (s.overAtFault n) n t x era) : u.enteredFrom s n t x era := by
  obtain ⟨-, hevb, -, hd, hX, hS⟩ := Core.bundleOver_keeps (s.cores[n].cycles (Config.freeNat s.free))
  unfold State.enteredFrom at h ⊢
  simp only [State.overAtFault_thread, State.overAtFault_core, hevb, hd, hX, hS] at h
  obtain ⟨hthread, hdmem, hthreads, hcores, hx, hs, hmem, hchains, haddr⟩ := h
  exact ⟨hthread, hdmem, hthreads, fun m hm => (hcores m hm).trans (s.overAtFault_core_other n hm), hx, hs, hmem, hchains,
    haddr⟩

/-- A precise fault of a bundle whose entry finds its stack in DMEM. -/
theorem State.bundleFault_enteredFrom {s : State} {n : CoreId} {t : ThreadId} (h : s.stackReady n t = true)
    (is : List SlotI) {x : Cause} (hx : x.addr = none) :
    (s.bundleFault n t is x).enteredFrom s n t x (s.thread n t).pc := by
  have hentry : s.bundleFault n t is x = (s.overAtFault n).trapEntry n t x (s.thread n t).pc :=
    if_pos (Core.entryRoom_of_frameFits (State.stackReady_iff.mp h))
  have hover := (s.overAtFault_stackReady n t).trans h
  rw [hentry]
  exact State.enteredFrom_of_overAtFault ((State.trapEntry_entered hover hx).enteredFrom hx)

end Sys2Proof.Machine
end

section
/-! The proof of O41 (04 R60, R61; 08 R169, R170; 10 R226; 11 R231): chiss queues a launch, or refuses a bad chain word. -/

-- The proofs of this part are elaborated in order, on one heap: the whole text comes near the check's memory limit.
set_option Elab.async false

namespace Sys2Proof.Machine

/-! ## Effects beside the cycles of a bundle -/

/-- A message looks neither at the cores nor at the counter of free values. -/
theorem State.msix_setCores (s : State) (e : Evt) (cs : Vector Core 36) (fr v : Nat) :
    ({ s with evt := e, cores := cs, free := fr } : State).msix v =
      { ({ s with evt := e } : State).msix v with cores := cs, free := fr } := by
  have hsend : ({ s with evt := e, cores := cs, free := fr } : State).canSend v =
      ({ s with evt := e } : State).canSend v := rfl
  simp only [State.msix, hsend]
  split <;> rfl

/-- Raising a source looks neither at the cores nor at the counter of free values. -/
theorem State.raise_setCores (s : State) (cs : Vector Core 36) (fr k : Nat) :
    ({ s with cores := cs, free := fr } : State).raise k = { s.raise k with cores := cs, free := fr } := by
  unfold State.raise
  dsimp only
  split
  · rfl
  · split
    · rfl
    · split
      · exact State.msix_setCores ..
      · rfl

/-- A state whose core's CYCLE and whose counter of free values are replaced. -/
def State.setCycle (s : State) (n : CoreId) (cyc : Word) (fr : Nat) : State :=
  { s.modCore n (fun c => { c with cycle := cyc }) with free := fr }

theorem State.setCycle_chargedFrom (s : State) (n : CoreId) (cyc : Word) (fr : Nat) :
    (s.setCycle n cyc fr).chargedFrom s n := by
  have hcyc : (s.setCycle n cyc fr).cores[n].cycle = cyc := by simp [-Fin.getElem_fin, State.setCycle]
  rw [State.chargedFrom, hcyc]
  rfl

theorem State.raise_setCycle (s : State) (n : CoreId) (cyc : Word) (fr k : Nat) :
    (s.setCycle n cyc fr).raise k = (s.raise k).setCycle n cyc fr := by
  refine (s.raise_setCores _ fr k).trans ?_
  simp only [State.setCycle, State.modCore, State.raise_cores]

/-- Corrected words of a core's memories have nothing to do with its cycles. -/
theorem State.fixWords_setCycle (s : State) (n : CoreId) (cyc : Word) (fr : Nat) (ws : List Nat) :
    (s.setCycle n cyc fr).fixWords n ws = (s.fixWords n ws).setCycle n cyc fr := by
  unfold State.fixWords
  split
  · rfl
  · rw [← State.raise_setCycle]
    simp [State.setCycle, State.modCore]

theorem State.retire_setCycle (s : State) (n : CoreId) (t : ThreadId) (i : SlotI) (extra : Nat) (es : List Eff) :
    ∃ cyc fr, s.retire n t (s.nextPc n t i) [i] extra es = ((s.past n t i).setCycle n cyc fr).applyEffs n t es :=
  s.retire_eq n t i extra es

theorem State.modChain_setCycle (s : State) (n : CoreId) (cyc : Word) (fr : Nat) (k : ChainId) (g : Chain → Chain) :
    (s.setCycle n cyc fr).modChain k g = (s.modChain k g).setCycle n cyc fr := rfl

/-! ## An instruction alone in its bundle -/

theorem State.runSlots_single (s : State) (n : CoreId) (t : ThreadId) (na : Word) {i : SlotI} {g : Sem}
    (hg : i.sem = some g) : s.runSlots n t na [i] = g s n t na i.f := by
  simp only [State.runSlots, hg]
  rcases g s n t na i.f with ⟨u, _ | _ | _⟩ <;> simp

/-- An instruction that executes alone and finds a precise fault is over. -/
theorem State.alone_faults {s u : State} {n : CoreId} {t : ThreadId} {i : SlotI} {x : Cause} (h : s.alone n t i = true)
    (he : s.abandonOnExc n t (s.nextPc n t i) [i] = s)
    (hr : s.runSlots n t (s.nextPc n t i) [i] = (u, .fault x)) : s.coreInstr n t i true = u.bundleFault n t [i] x := by
  rw [State.coreInstr_alone h]
  simp only [State.alone, Bool.and_eq_true, Bool.not_eq_true', Option.isNone_iff_eq_none] at h
  obtain ⟨⟨-, hdecode⟩, hwait⟩ := h
  simp [-Fin.getElem_fin, State.finishBundle, hdecode, he, hwait, bundleEnd_single, hr]

/-- A chain that is not halted takes no ABANDON. -/
theorem State.abandonOnExc_running {s : State} {n : CoreId} {t : ThreadId} {k : ChainId} (hk : chainOf n = some k)
    (hexc : s.chains[k].exc = false) (na : Word) (is : List SlotI) : s.abandonOnExc n t na is = s := by
  simp only [State.abandonOnExc, hk, hexc, Bool.not_false, Bool.true_or, if_true]

/-! ## chiss (04 R60; 08 R169, R170; 10 R226) -/

theorem exec_chiss (n : CoreId) (t : ThreadId) (f : Fields) (s : State) :
    exec (.chiss n t f) s = .next (s.coreInstr n t (slotOf 4 0x00 f) true) := rfl

theorem chissBad_of_dmem {a : Word} (halign : a.toNat % 8 = 0) (hin : a.toNat < dmemSize) : chissBad a = false := by
  simp [chissBad, halign, hin]

theorem softOf_fixEff (ws : List Nat) : softOf (fixEff ws) = none := by
  unfold fixEff; split <;> rfl

theorem State.applyEffs_fixEff (s : State) (n : CoreId) (t : ThreadId) (ws : List Nat) :
    s.applyEffs n t (fixEff ws) = s.fixWords n ws := by
  cases ws <;> rfl

/-- A launch and the words that its capture corrected take effect. -/
theorem State.applyEffs_launch (s : State) {n : CoreId} (t : ThreadId) {k : ChainId} (hk : chainOf n = some k) (l : Launch)
    (ws : List Nat) : s.applyEffs n t (.launch l :: fixEff ws) =
      (s.modChain k fun x => { x with queued := some l, issued := l.serial }).fixWords n ws := by
  refine Eq.trans ?_ (State.applyEffs_fixEff _ n t ws)
  simp only [State.applyEffs, List.foldl_cons, State.applyEff, hk]

/-- The launch that chiss captures: the chain word's parcels, the S registers, Db's options and the chain's settings
(04 R60). -/
def State.captured (s : State) (n : CoreId) (t : ThreadId) (f : Fields) (k : ChainId) : Launch :=
  let c := s.cores[n]
  let h := s.thread n t
  let o := h.rD f.rb
  let ch := s.chains[k]
  { word := (c.chainWord (h.rA f.ra)).1.flatten, sregs := c.s, n := (o.extractLsb' 0 41).toNat
    caClear := o.extractLsb' 48 8, overlap := o.getLsbD 56, sl := ch.stripLen, levelK := h.levelK, markCfg := ch.markCfg
    serial := ch.issued + 1 }

/-- The bytes of DMEM that the chain reads at a chain word (10 R226). -/
def Core.wordBytes (c : Core) (a : Word) : Nat := min (8 * chainWordLen (c.chainWord a).1) (dmemSize - a.toNat)

/-- What the checks of R170 say about the chain word that chiss names. -/
def State.checkLaunch (s : State) (n : CoreId) (t : ThreadId) (f : Fields) (k : ChainId) : Option LaunchFail :=
  let c := s.cores[n]
  let h := s.thread n t
  let ch := s.chains[k]
  launchCheck (c.chainWord (h.rA f.ra)).1 (c.chainWord (h.rA f.ra)).2 (h.rD f.rb) c.s ch.stripLen h.levelK ch.markCfg

section
variable {s : State} {n : CoreId} {t : ThreadId} {f : Fields} {k : ChainId} (hk : chainOf n = some k)
  (hbad : chissBad ((s.thread n t).rA f.ra) = false)
  (hgood : s.cores[n].dmemBad ((s.thread n t).rA f.ra).toNat (s.cores[n].wordBytes ((s.thread n t).rA f.ra)) = none)
include hk hbad hgood

/-- A sound chain word in DMEM is captured. -/
theorem semChiss_captures (hcheck : s.checkLaunch n t f k = none) (na : Word) : semChiss s n t na f =
    (s, .ok (.launch (s.captured n t f k) ::
      fixEff (s.cores[n].dmemSoft ((s.thread n t).rA f.ra).toNat (s.cores[n].wordBytes ((s.thread n t).rA f.ra))))) := by
  simp only [State.checkLaunch, Core.wordBytes] at hgood hcheck
  simp only [semChiss, withChain, hk, hbad, hgood, hcheck, Bool.false_eq_true, if_false]
  rfl

/-- A chain word in DMEM that fails a check leaves CORE_LCHK and a fault. -/
theorem semChiss_refuses {e : LaunchFail} (hcheck : s.checkLaunch n t f k = some e) (na : Word) : semChiss s n t na f =
    (s.modChain k fun x => { x with lchk := e.lchk }, .fault { code := codeChain, info := e.code, addr := none }) := by
  simp only [State.checkLaunch, Core.wordBytes] at hgood hcheck
  simp only [semChiss, withChain, hk, hbad, hgood, hcheck, Bool.false_eq_true, if_false]

end

section
variable {s : State} {n : CoreId} {t : ThreadId} {f : Fields} {k : ChainId} (hk : chainOf n = some k)
  (halone : s.alone n t (slotOf 4 0x00 f) = true) (hexc : s.chains[k].exc = false)
include hk halone hexc

/-- A launch retires with its bundle. -/
theorem State.chiss_launches {l : Launch} {ws : List Nat}
    (hsem : semChiss s n t (s.nextPc n t (slotOf 4 0x00 f)) f = (s, .ok (.launch l :: fixEff ws))) :
    ∃ u, exec (.chiss n t f) s = .next u ∧
      u.chargedFrom (((s.past n t (slotOf 4 0x00 f)).modChain k fun x => { x with
        queued := some l, issued := l.serial }).fixWords n ws) n := by
  have hrun := (s.runSlots_single n t (s.nextPc n t (slotOf 4 0x00 f)) (i := slotOf 4 0x00 f) rfl).trans hsem
  have hretire := State.alone_retires halone (State.abandonOnExc_running hk hexc _ _) hrun (softOf_fixEff ws)
  obtain ⟨cyc, fr, hpast⟩ := s.retire_setCycle n t (slotOf 4 0x00 f)
    (s.cores[n].l2Extra (s.thread n t) [slotOf 4 0x00 f]) (.launch l :: fixEff ws)
  refine ⟨_, exec_chiss n t f s, ?_⟩
  rw [hretire, hpast, State.applyEffs_launch _ t hk, State.modChain_setCycle, State.fixWords_setCycle]
  exact State.setCycle_chargedFrom ..

/-- A refusal enters CHAIN_ILLEGAL at the bundle. -/
theorem State.chiss_refuses {e : LaunchFail} (hstack : s.stackReady n t = true)
    (hsem : semChiss s n t (s.nextPc n t (slotOf 4 0x00 f)) f =
      (s.modChain k fun x => { x with lchk := e.lchk }, .fault { code := codeChain, info := e.code, addr := none })) :
    ∃ u, exec (.chiss n t f) s = .next u ∧
      u.enteredFrom (s.modChain k fun x => { x with lchk := e.lchk }) n t
        { code := codeChain, info := e.code, addr := none } (s.thread n t).pc := by
  have hrun := (s.runSlots_single n t (s.nextPc n t (slotOf 4 0x00 f)) (i := slotOf 4 0x00 f) rfl).trans hsem
  have hfault := State.alone_faults halone (State.abandonOnExc_running hk hexc _ _) hrun
  refine ⟨_, exec_chiss n t f s, ?_⟩
  rw [hfault]
  exact State.bundleFault_enteredFrom (s := s.modChain k _) hstack _ rfl

end

theorem chainIssueQueuesLaunch : Claims.ChainIssueQueuesLaunch :=
  fun _ _ _ _ _ hk halone hexc halign hin hgood hcheck =>
    State.chiss_launches hk halone hexc (semChiss_captures hk (chissBad_of_dmem halign hin) hgood hcheck _)

theorem chainIssueRefusesBadWord : Claims.ChainIssueRefusesBadWord :=
  fun _ _ _ _ _ _ hk halone hexc hstack halign hin hgood hcheck =>
    State.chiss_refuses hk halone hexc hstack (semChiss_refuses hk (chissBad_of_dmem halign hin) hgood hcheck _)

end Sys2Proof.Machine

namespace Sys2Proof.Proofs
open Sys2Proof.Machine

/-- Settles O41: the capture of chiss comes to a launch or to the fault of R170's checks; the launch's bundle retires, and the
fault's bundle enters its trap. -/
theorem chainIssueQueuesOrRefuses : Obligations.ChainIssueQueuesOrRefuses :=
  ⟨chainIssueQueuesLaunch, chainIssueRefusesBadWord⟩

end Sys2Proof.Proofs
end

section
/-! BARREL rises and falls with a write of STATUS, for O4 (09 R196, R197; 10 R204). -/

-- The proofs of this part are elaborated in order, on one heap: the whole text comes near the check's memory limit.
set_option Elab.async false

namespace Sys2Proof.Machine

/-! ## Threads 1 to 3 -/

/-- A thread of 1 to 3 when BARREL rises, with its CORE_THR_PC. -/
def Thread.barrelStart (start : Word) (h : Thread) : Thread :=
  if start.getLsbD 0 then
    { h.clear with pc := start &&& ~~~(1 : Word), status := h.status &&& 1 ||| 4, buf := none, live := true }
  else h

/-- A thread of 1 to 3 when BARREL falls. -/
def Thread.barrelStop (h : Thread) : Thread := { h.clear with live := false }

/-- A core whose threads 1 to 3 have changed. -/
def Core.modBarrel (c : Core) (f : Fin 3 → Thread → Thread) : Core :=
  ((c.modThread 1 (f 0)).modThread 2 (f 1)).modThread 3 (f 2)

theorem Core.modBarrel_frame (c : Core) (f : Fin 3 → Thread → Thread) :
    c.modBarrel f = { c with threads := (c.modBarrel f).threads } := rfl

theorem Core.modBarrel_thread_zero (c : Core) (f : Fin 3 → Thread → Thread) :
    (c.modBarrel f).threads[(0 : ThreadId)] = c.threads[(0 : ThreadId)] := by
  rw [Core.modBarrel, Core.modThread_other _ 3 0 _ (by decide), Core.modThread_other _ 2 0 _ (by decide),
    Core.modThread_other _ 1 0 _ (by decide)]

theorem Core.modBarrel_thread_succ (c : Core) (f : Fin 3 → Thread → Thread) :
    ∀ i : Fin 3, (c.modBarrel f).threads[i.succ] = f i c.threads[i.succ] := by
  refine Fin.forall_fin_succ.mpr ⟨?_, Fin.forall_fin_two.mpr ⟨?_, ?_⟩⟩
  · change (c.modBarrel f).threads[(1 : ThreadId)] = _
    rw [Core.modBarrel, Core.modThread_other _ 3 1 _ (by decide), Core.modThread_other _ 2 1 _ (by decide),
      Core.modThread_same]
    rfl
  · change (c.modBarrel f).threads[(2 : ThreadId)] = _
    rw [Core.modBarrel, Core.modThread_other _ 3 2 _ (by decide), Core.modThread_same,
      Core.modThread_other _ 1 2 _ (by decide)]
    rfl
  · change (c.modBarrel f).threads[(3 : ThreadId)] = _
    rw [Core.modBarrel, Core.modThread_same, Core.modThread_other _ 2 3 _ (by decide),
      Core.modThread_other _ 1 3 _ (by decide)]
    rfl

/-! ## BARREL rises -/

theorem Core.modThread_barrelStart (c : Core) (t : ThreadId) (start : Word) :
    c.modThread t (Thread.barrelStart start) =
      if start.getLsbD 0 then c.modThread t fun h => { h.clear with
        pc := start &&& ~~~(1 : Word), status := h.status &&& 1 ||| 4, buf := none, live := true } else c := by
  unfold Thread.barrelStart
  split
  · rfl
  · simp [Core.modThread]

theorem Core.barrelOn_eq (c : Core) : c.barrelOn = c.modBarrel fun i => Thread.barrelStart c.thrPc[i] := by
  simp only [Core.barrelOn, List.foldl, ← Core.modThread_barrelStart]
  rfl

/-! ## BARREL falls -/

/-- What a thread that stops leaves in its CORE_THR_PC: its next pc, and EN as it stood (09 R197). -/
def Core.leftPc (c : Core) (i : Fin 3) : Word := c.threads[i.succ].pc &&& ~~~(1 : Word) ||| c.thrPc[i] &&& 1

/-- One of threads 1 to 3 stops. -/
def Core.stopThread (c : Core) (i : Fin 3) : Core :=
  { c.modThread i.succ Thread.barrelStop with
    thrPc := c.thrPc.set i (c.leftPc i)
    loads := c.loads.filter fun l => !(decide (l.thread = i.succ) && l.ofFrame) }

theorem Core.giveUpBundle_stop (c : Core) (t : ThreadId) :
    (c.giveUpBundle t).modThread t (fun h => { h with live := false }) =
      { c.modThread t Thread.barrelStop with loads := c.loads.filter fun l => !(decide (l.thread = t) && l.ofFrame) } :=
  congrArg (fun x : Core => { x with loads := c.loads.filter fun l => !(decide (l.thread = t) && l.ofFrame) })
    (c.modThread_modThread t Thread.clear fun h => { h with live := false })

theorem Core.barrelOff_stops (c : Core) : c.barrelOff = ((c.stopThread 0).stopThread 1).stopThread 2 := by
  simp only [Core.barrelOff, List.foldl, Core.giveUpBundle_stop]
  rfl

/-- A thread that stops leaves the next pc of the others as it is. -/
theorem Core.stopThread_leftPc (c : Core) {i j : Fin 3} (h : j ≠ i) : (c.stopThread i).leftPc j = c.leftPc j := by
  have hthread : (c.stopThread i).threads[j.succ] = c.threads[j.succ] :=
    c.modThread_other i.succ j.succ _ fun e => h (Fin.succ_injective 3 e)
  have hpc : (c.stopThread i).thrPc[j] = c.thrPc[j] :=
    Vector.getElem_set_ne i.isLt j.isLt fun e => h (Fin.ext e.symm)
  rw [Core.leftPc, hthread, hpc, Core.leftPc]

/-- The frame reads of threads 1 to 3, taken out one thread after another. -/
theorem filter_frames (ls : List Load) :
    (((ls.filter fun l => !(decide (l.thread = 1) && l.ofFrame)).filter fun l => !(decide (l.thread = 2) && l.ofFrame)).filter
      fun l => !(decide (l.thread = 3) && l.ofFrame)) = ls.filter fun l => !(decide (l.thread ≠ 0) && l.ofFrame) := by
  have hthreads : ∀ t : ThreadId, decide (t ≠ 0) = (decide (t = 1) || decide (t = 2) || decide (t = 3)) := by decide
  rw [List.filter_filter, List.filter_filter]
  refine List.filter_congr fun l _ => ?_
  rw [hthreads]
  cases l.ofFrame <;> simp [Bool.and_comm, Bool.and_assoc]

theorem set_set_set_eq_ofFn (v : Vector Word 3) (g : Fin 3 → Word) :
    ((v.set (0 : Fin 3) (g 0)).set (1 : Fin 3) (g 1)).set (2 : Fin 3) (g 2) = Vector.ofFn g := by
  ext i hi
  match i, hi with
  | 0, _ => simp
  | 1, _ => simp
  | 2, _ => simp

theorem Core.barrelOff_eq (c : Core) : c.barrelOff = { c.modBarrel fun _ => Thread.barrelStop with
    thrPc := Vector.ofFn c.leftPc
    loads := c.loads.filter fun l => !(decide (l.thread ≠ 0) && l.ofFrame) } := by
  have hsecond : (c.stopThread 0).leftPc 1 = c.leftPc 1 := c.stopThread_leftPc (by decide)
  have hthird : ((c.stopThread 0).stopThread 1).leftPc 2 = c.leftPc 2 :=
    (Core.stopThread_leftPc _ (by decide)).trans (c.stopThread_leftPc (by decide))
  rw [Core.barrelOff_stops, ← filter_frames, ← set_set_set_eq_ofFn c.thrPc, ← hsecond, ← hthird]
  rfl

/-! ## A write of STATUS (10 R204) -/

/-- A thread that writes STATUS: its IE and LEVEL. -/
def Thread.writesStatus (v : Word) (h : Thread) : Thread := { h with status := v &&& 3 ||| h.status &&& 4 }

theorem Core.modThread_thread (c : Core) (t r : ThreadId) (g : Thread → Thread) :
    (c.modThread t g).threads[r] = if r = t then g c.threads[r] else c.threads[r] := by
  split
  case isTrue h => rw [h, Core.modThread_same]
  case isFalse h => exact c.modThread_other t r g h

theorem ite_barrelBit (v : Word) : (if v.getLsbD 2 then 4 else 0) = v &&& 4 := (BitVec.and_twoPow v 2).symm

/-- IE and LEVEL are not BARREL. -/
theorem Core.writesStatus_barrel (c : Core) (t : ThreadId) (v : Word) :
    (c.modThread t (Thread.writesStatus v)).barrel = c.barrel := by
  have hbit : (v &&& 3 ||| c.threads[(0 : ThreadId)].status &&& 4).getLsbD 2 =
      c.threads[(0 : ThreadId)].status.getLsbD 2 := by
    simp
  rw [Core.barrel, Core.modThread_thread, Core.barrel]
  split
  · exact hbit
  · rfl

/-- A core after the writer's IE and LEVEL, and BARREL in thread 0. -/
def Core.withStatus (c : Core) (t : ThreadId) (v : Word) : Core :=
  (c.modThread t (Thread.writesStatus v)).modThread 0 fun h => { h with status := h.status &&& 3 ||| v &&& 4 }

theorem Core.withStatus_succ (c : Core) (t : ThreadId) (v : Word) (i : Fin 3) :
    (c.withStatus t v).threads[i.succ] = (c.modThread t (Thread.writesStatus v)).threads[i.succ] :=
  Core.modThread_other _ 0 i.succ _ (Fin.succ_ne_zero i)

theorem Core.writeStatus_eq_ite (c : Core) (t : ThreadId) (v : Word) : c.writeStatus t v =
    if !c.barrel && v.getLsbD 2 then (c.withStatus t v).barrelOn
    else if c.barrel && !v.getLsbD 2 then (c.withStatus t v).barrelOff
    else c.withStatus t v := by
  rw [← c.writesStatus_barrel t v, Core.withStatus, ← ite_barrelBit]
  rfl

theorem threadAfter_zero (c : Core) (t : ThreadId) (v : Word) :
    Claims.threadAfter c t v 0 = (c.withStatus t v).threads[(0 : ThreadId)] := by
  rw [Core.withStatus, Core.modThread_same, Core.modThread_thread]
  rfl

/-- Where BARREL rises, EN decides which threads start. -/
theorem ite_barrelChange {α : Type} (was now en : Bool) (starts stops stays : α) :
    (if !was && now && en then starts else if was && !now then stops else stays) =
      if !was && now then (if en then starts else stays) else if was && !now then stops else stays := by
  cases was <;> cases now <;> cases en <;> rfl

theorem threadAfter_succ (c : Core) (t : ThreadId) (v : Word) (i : Fin 3) :
    Claims.threadAfter c t v i.succ =
      if !c.barrel && v.getLsbD 2 then Thread.barrelStart c.thrPc[i] (c.withStatus t v).threads[i.succ]
      else if c.barrel && !v.getLsbD 2 then Thread.barrelStop (c.withStatus t v).threads[i.succ]
      else (c.withStatus t v).threads[i.succ] := by
  rw [Core.withStatus_succ, Core.modThread_thread, Claims.threadAfter]
  simp only [Fin.succ_ne_zero, if_false]
  exact ite_barrelChange c.barrel (v.getLsbD 2) (c.thrPc[i].getLsbD 0) _ _ _

/-- The threads of a core after a write of STATUS: thread 0 has BARREL, and the others go by its change. -/
theorem Core.threads_eq_threadAfter {c u : Core} {t : ThreadId} {v : Word}
    (hzero : u.threads[(0 : ThreadId)] = (c.withStatus t v).threads[(0 : ThreadId)])
    (hsucc : ∀ i : Fin 3, u.threads[i.succ] = Claims.threadAfter c t v i.succ) :
    u.threads = Vector.ofFn fun r => Claims.threadAfter c t v r := by
  ext i hi
  rw [Vector.getElem_ofFn]
  exact (Fin.forall_fin_succ (P := fun r : ThreadId => u.threads[r] = Claims.threadAfter c t v r)).mpr
    ⟨hzero.trans (threadAfter_zero c t v).symm, hsucc⟩ ⟨i, hi⟩

theorem Core.withStatus_leftPc (c : Core) (t : ThreadId) (v : Word) : (c.withStatus t v).leftPc = c.leftPc := by
  funext i
  rw [Core.leftPc, Core.withStatus_succ, Core.modThread_thread, Core.leftPc]
  split <;> rfl

section
variable {c : Core} {t : ThreadId} {v : Word}

theorem statusWritten_rises (hrise : (!c.barrel && v.getLsbD 2) = true) :
    (c.withStatus t v).barrelOn = Claims.statusWritten c t v := by
  have hfalls : (c.barrel && !v.getLsbD 2) = false := by
    revert hrise; cases c.barrel <;> cases v.getLsbD 2 <;> decide
  have hthreads : ((c.withStatus t v).modBarrel fun i => Thread.barrelStart (c.withStatus t v).thrPc[i]).threads =
      Vector.ofFn fun r => Claims.threadAfter c t v r :=
    Core.threads_eq_threadAfter (Core.modBarrel_thread_zero ..) fun i =>
      (Core.modBarrel_thread_succ ..).trans ((threadAfter_succ c t v i).trans (if_pos hrise)).symm
  rw [Core.barrelOn_eq, Core.modBarrel_frame, hthreads, Claims.statusWritten]
  simp only [hfalls]
  rfl

theorem statusWritten_falls (hrise : ¬(!c.barrel && v.getLsbD 2) = true) (hfalls : (c.barrel && !v.getLsbD 2) = true) :
    (c.withStatus t v).barrelOff = Claims.statusWritten c t v := by
  rw [Core.barrelOff_eq, Core.modBarrel_frame, Core.threads_eq_threadAfter (Core.modBarrel_thread_zero ..) fun i =>
    (Core.modBarrel_thread_succ ..).trans
      ((threadAfter_succ c t v i).trans ((if_neg hrise).trans (if_pos hfalls))).symm,
    Core.withStatus_leftPc, Claims.statusWritten]
  simp only [hfalls]
  rfl

theorem statusWritten_same (hrise : ¬(!c.barrel && v.getLsbD 2) = true) (hfalls : ¬(c.barrel && !v.getLsbD 2) = true) :
    c.withStatus t v = Claims.statusWritten c t v := by
  rw [Claims.statusWritten, ← Core.threads_eq_threadAfter (u := c.withStatus t v) rfl fun i =>
    ((threadAfter_succ c t v i).trans ((if_neg hrise).trans (if_neg hfalls))).symm]
  simp only [hfalls]
  rfl

end

theorem Core.writeStatus_eq (c : Core) (t : ThreadId) (v : Word) : c.writeStatus t v = Claims.statusWritten c t v := by
  rw [Core.writeStatus_eq_ite]
  split
  case isTrue hrise => exact statusWritten_rises hrise
  case isFalse hrise =>
    split
    case isTrue hfalls => exact statusWritten_falls hrise hfalls
    case isFalse hfalls => exact statusWritten_same hrise hfalls

end Sys2Proof.Machine
end

section
/-! The proof of O4 (09 R197; 10 R204): mfcr and mtcr. -/

-- The proofs of this part are elaborated in order, on one heap: the whole text comes near the check's memory limit.
set_option Elab.async false

namespace Sys2Proof.Machine

/-! ## Instructions whose effects stay in their core -/

theorem State.modCore_setCycle (s : State) (n : CoreId) (cyc : Word) (fr : Nat) {g : Core → Core}
    (hg : ∀ c : Core, g { c with cycle := cyc } = { g c with cycle := cyc }) :
    (s.setCycle n cyc fr).modCore n g = (s.modCore n g).setCycle n cyc fr := by
  change ({ (s.modCore n fun c => { c with cycle := cyc }).modCore n g with free := fr } : State) = _
  rw [State.setCycle, State.modCore_modCore, State.modCore_modCore]
  simp only [hg]

theorem State.setCycle_cycle (s : State) (n : CoreId) (cyc : Word) (fr : Nat) : (s.setCycle n cyc fr).cores[n].cycle = cyc :=
  congrArg Core.cycle (s.modCore_same n fun c => { c with cycle := cyc })

theorem State.setCycle_again (s : State) (n : CoreId) (cyc v : Word) (fr : Nat) :
    (s.setCycle n cyc fr).modCore n (fun c => { c with cycle := v }) = s.setCycle n v fr := by
  change ({ (s.modCore n fun c => { c with cycle := cyc }).modCore n (fun c => { c with cycle := v }) with free := fr } :
    State) = _
  rw [State.modCore_modCore]
  rfl

section
variable {s : State} {n : CoreId} {t : ThreadId} {i : SlotI} {e : Eff} {sem : Sem} (halone : s.alone n t i = true)
  (hsem : i.sem = some sem) (hV : (i.isV 0 || i.isV 1) = false)
  (heff : sem s n t (s.nextPc n t i) i.f = (s, .ok [e])) (hsoft : softOf [e] = none)
include halone hsem hV heff hsoft

/-- An instruction alone in its bundle that comes to one effect: the effect takes place on the thread that has gone on, but
for the cycles. -/
theorem State.coreInstr_effect : ∃ cyc fr, s.coreInstr n t i true = ((s.past n t i).setCycle n cyc fr).applyEff n t e := by
  have hrun : s.runSlots n t (s.nextPc n t i) [i] = (s, .ok [e]) := (s.runSlots_single n t _ hsem).trans heff
  rw [State.alone_retires halone (State.abandonOnExc_id hV) hrun hsoft]
  exact s.retire_setCycle n t i _ [e]

/-- An effect on the core beside CYCLE. -/
theorem State.coreInstr_charged {g : Core → Core} (happly : ∀ u : State, u.applyEff n t e = u.modCore n g)
    (hcycle : ∀ (c : Core) (cyc : Word), g { c with cycle := cyc } = { g c with cycle := cyc }) :
    (s.coreInstr n t i true).chargedFrom ((s.past n t i).modCore n g) n := by
  obtain ⟨cyc, fr, hgoes⟩ := State.coreInstr_effect halone hsem hV heff hsoft
  rw [hgoes, happly, State.modCore_setCycle _ n cyc fr (hcycle · cyc)]
  exact State.setCycle_chargedFrom ..

end

/-! ## mfcr and mtcr -/

theorem exec_mfcr (n : CoreId) (t : ThreadId) (f : Fields) (s : State) :
    exec (.mfcr n t f) s = .next (s.coreInstr n t (slotOf 3 0x0B f) true) := rfl

theorem exec_mtcr (n : CoreId) (t : ThreadId) (f : Fields) (s : State) :
    exec (.mtcr n t f) s = .next (s.coreInstr n t (slotOf 3 0x0C f) true) := rfl

section
variable {s : State} {n : CoreId} {t : ThreadId} {f : Fields}

theorem State.modThread_congr {u : State} {g k : Thread → Thread} (h : g (u.thread n t) = k (u.thread n t)) :
    u.modThread n t g = u.modThread n t k :=
  congrArg (fun c => { u with cores := u.cores.set n c }) (Core.modThread_congr rfl h)

/-- A bundle leaves CAUSE, ERA and EST as they are. -/
theorem State.past_causes (s : State) (n : CoreId) (t : ThreadId) (i : SlotI) :
    ((s.past n t i).thread n t).cause = (s.thread n t).cause ∧ ((s.past n t i).thread n t).era = (s.thread n t).era ∧
      ((s.past n t i).thread n t).est = (s.thread n t).est := by
  rw [State.thread, State.past, State.modCore_same, Core.modThread_same, (Core.bundleOver_keeps _).1]
  exact ⟨rfl, rfl, rfl⟩

/-- mfcr writes Dd. -/
theorem State.mfcr_charged (h : s.alone n t (slotOf 3 0x0B f) = true) :
    (s.coreInstr n t (slotOf 3 0x0B f) true).chargedFrom ((s.past n t (slotOf 3 0x0B f)).modThread n t fun h => { h with
      d := h.d.set (⟨f.rd.toNat % 32, by omega⟩ : Fin 32) (s.readCreg n t f.md.toNat) }) n := by
  have hwidth : (w64 (s.readCreg n t f.md.toNat)).setWidth 64 = s.readCreg n t f.md.toNat := by simp [w64]
  rw [← hwidth]
  exact State.coreInstr_charged h rfl rfl rfl rfl (fun _ => rfl) fun _ _ => rfl

/-- mtcr writes a control register that has nothing to do with its bundle's cycles. -/
theorem State.mtcr_charged (h : s.alone n t (slotOf 3 0x0C f) = true) {k : BitVec 4} (hmd : f.md = k) {g : Core → Core}
    (hg : ∀ c : Core, c.writeCreg t k.toNat ((s.thread n t).rD f.ra) = g c)
    (hcycle : ∀ (c : Core) (cyc : Word), g { c with cycle := cyc } = { g c with cycle := cyc }) :
    (s.coreInstr n t (slotOf 3 0x0C f) true).chargedFrom ((s.past n t (slotOf 3 0x0C f)).modCore n g) n := by
  subst hmd
  exact State.coreInstr_charged h rfl rfl rfl rfl (fun u => congrArg (u.modCore n) (funext hg)) hcycle

/-- mtcr of CYCLE: the written value stands, whatever the bundle's cycles. -/
theorem State.mtcr_cycle (h : s.alone n t (slotOf 3 0x0C f) = true) (hmd : f.md = 7) :
    (s.coreInstr n t (slotOf 3 0x0C f) true).cores[n].cycle = (s.thread n t).rD f.ra ∧
      (s.coreInstr n t (slotOf 3 0x0C f) true).chargedFrom (s.past n t (slotOf 3 0x0C f)) n := by
  obtain ⟨cyc, fr, hgoes⟩ := State.coreInstr_effect h rfl rfl rfl rfl
  have hset : s.coreInstr n t (slotOf 3 0x0C f) true =
      (s.past n t (slotOf 3 0x0C f)).setCycle n ((s.thread n t).rD f.ra) fr := by
    rw [hgoes]
    rw [slotOf_f, hmd]
    exact State.setCycle_again ..
  rw [hset]
  exact ⟨State.setCycle_cycle .., State.setCycle_chargedFrom ..⟩

end

theorem statusWritten_cycle (c : Core) (cyc : Word) (t : ThreadId) (v : Word) :
    Claims.statusWritten { c with cycle := cyc } t v = { Claims.statusWritten c t v with cycle := cyc } := rfl

end Sys2Proof.Machine

namespace Sys2Proof.Proofs
open Sys2Proof.Machine

/-- Settles O4: an instruction alone in its bundle comes to one effect, and each control register goes by its number; a write of
STATUS by what it makes of BARREL. -/
theorem controlRegistersMove : Obligations.ControlRegistersMove := by
  intro n t f s
  refine ⟨fun h => ⟨_, exec_mfcr n t f s, ?_⟩, fun h => ⟨_, exec_mtcr n t f s, ?_, ?_, ?_, ?_, ?_, ?_, ?_, ?_⟩⟩
  · have hread := State.mfcr_charged h
    obtain ⟨hcause, hera, hest⟩ := s.past_causes n t (slotOf 3 0x0B f)
    refine Eq.mp (congrArg (State.chargedFrom _ · n) (State.modThread_congr ?_)) hread
    simp only [State.readCreg, ← hcause, ← hera, ← hest]
  · exact fun hmd => State.mtcr_charged h hmd (fun _ => rfl) fun _ _ => rfl
  · exact fun hmd => State.mtcr_charged h hmd (fun _ => rfl) fun _ _ => rfl
  · exact fun hmd => State.mtcr_charged h hmd (fun _ => rfl) fun _ _ => rfl
  · exact fun hmd => State.mtcr_charged h hmd (fun _ => rfl) fun _ _ => rfl
  · exact fun hmd => State.mtcr_charged h hmd (fun _ => rfl) fun _ _ => rfl
  · intro hmd
    change State.chargedFrom _ (s.past n t (slotOf 3 0x0C f)) n
    rw [← State.modCore_id (s.past n t (slotOf 3 0x0C f)) n]
    exact State.mtcr_charged h hmd (g := fun c => c) (fun _ => rfl) fun _ _ => rfl
  · exact fun hmd => State.mtcr_cycle h hmd
  · exact fun hmd => State.mtcr_charged h hmd (fun c => c.writeStatus_eq t _)
      fun c cyc => statusWritten_cycle c cyc t _

end Sys2Proof.Proofs
end

section
/-! Writes of one 32-bit register at any offset, for O9 (02 R31). -/

-- The proofs of this part are elaborated in order, on one heap: the whole text comes near the check's memory limit.
set_option Elab.async false

namespace Sys2Proof.Machine

/-! ## Writes of one register (02 R31) -/

theorem ushiftRight_half (v : Half) : ((v.setWidth 64 : Word) <<< 32) >>> 32 = v.setWidth 64 := by
  apply BitVec.eq_of_toNat_eq
  simp only [BitVec.toNat_setWidth, BitVec.toNat_ushiftRight, BitVec.toNat_shiftLeft, Nat.shiftRight_eq_div_pow,
    Nat.shiftLeft_eq]
  omega

/-- A write of a 32-bit register that its path carries reaches the register: it is the lower or the upper half of its 8 bytes,
and the lower half holds a register as well. -/
theorem State.put4_reaches {s : State} {src : Src} {off o : Nat} {b : Block} (h4 : o % 4 = 0) (hoff : off % 8 = o % 8)
    (hb : blockOf (off / 8 * 8) = some (b, o / 8 * 8)) (hlow : regWidth b (o / 8 * 8) = some 4)
    (hw : regWidth b o = some 4) (h : s.reaches src off = true) (v : Half) :
    s.put4 src off v [] = .next (s.regWrite b o (v.setWidth 64) src []) := by
  have h8 : off / 8 * 8 % 8 = 0 := by omega
  have hreach := State.reaches_aligned h
  obtain ⟨-, hg, -⟩ := (State.reaches_iff h8 hb).mp hreach
  have hhalf : o % 8 = 0 ∨ o % 8 = 4 := by omega
  rw [State.put4, hoff]
  rcases hhalf with ho | ho <;> rw [ho]
  · have ho8 : o / 8 * 8 = o := by omega
    refine (State.putAccess_reaches h8 hb hreach 0x0F ((v.setWidth 64 : Word) <<< 0)).trans (congrArg _ ?_)
    rw [State.csrWrite_low hb hg hlow, BitVec.shiftLeft_zero, ho8]
  · have ho8 : o / 8 * 8 + 4 = o := by omega
    refine (State.putAccess_reaches h8 hb hreach 0xF0 ((v.setWidth 64 : Word) <<< 32)).trans (congrArg _ ?_)
    rw [State.csrWrite_high hb hg hlow (by rw [ho8]; exact hw), ushiftRight_half, ho8]

/-! ## The blocks (02 R27) -/

theorem blockOf_evt {o : Nat} (h : o < 0x10000) : blockOf (0x10000 + o) = some (.evt, o) := by
  have hid : ¬ 0x10000 + o < 0x1000 := by omega
  have hacc : ¬ 0x10000 + o < 0x2000 := by omega
  have hevt : 0x10000 + o < 0x20000 := by omega
  simp [blockOf, hid, hacc, hevt]

theorem blockOf_jnc {o : Nat} (h : o < 0x100000) : blockOf (0x400000 + o) = some (.jnc, o) := by
  have hbelow : ∀ k ≤ 0x400000, ¬ 0x400000 + o < k := by omega
  have hjnc : 0x400000 + o < 0x500000 := by omega
  simp [blockOf, hbelow, hjnc]

/-- CORE_CFG, CORE_CTL and CORE_DB_RING. -/
theorem coreReg_place : ∀ n : CoreId, ∀ o ∈ [0x90000, 0x90004, 0x90100], o % 4 = 0 ∧
    blockOf ((0x4000000 + 0x100000 * n.val + o) / 8 * 8) = some (.core n, o / 8 * 8) ∧
      regWidth (.core n) (o / 8 * 8) = some 4 ∧ regWidth (.core n) o = some 4 := by decide

end Sys2Proof.Machine
end

section
/-! Cores start, stop and take their configuration and doorbells, for O9 (09 R185, R195, R198, R200; 11 R236). -/

-- The proofs of this part are elaborated in order, on one heap: the whole text comes near the check's memory limit.
set_option Elab.async false

namespace Sys2Proof.Machine

/-! ## Writes of a core's registers -/

section
variable {s : State} {src : Src} {n : CoreId}

theorem State.put4_coreReg {o : Nat} (ho : o ∈ [0x90000, 0x90004, 0x90100])
    (h : s.reaches src (0x4000000 + 0x100000 * n.val + o) = true) (v : Half) :
    s.put4 src (coreBase n + o) v [] = .next (s.coreRegWrite n o (v.setWidth 64) src []) := by
  obtain ⟨h4, hb, hlow, hw⟩ := coreReg_place n o ho
  have hbase : coreBase n + o = 0x4000000 + 0x100000 * n.val + o := by rw [coreBase, Nat.mul_comm]
  rw [hbase]
  exact State.put4_reaches h4 (by omega) hb hlow hw h v

theorem exec_coreCfg (h : s.reaches src (0x4000000 + 0x100000 * n.val + 0x90000) = true) (v : Half) :
    exec (.coreCfg src n v) s = .next (s.modCore n (·.writeCfg v (decide (src = .core n)))) :=
  (State.put4_coreReg (by decide) h v).trans
    (congrArg (fun x => Host.Outcome.next (s.modCore n (·.writeCfg x (decide (src = .core n))))) (setWidth_half v))

theorem State.put4_coreCtl (h : s.reaches src (0x4000000 + 0x100000 * n.val + 0x90004) = true) (v : Half) :
    s.put4 src (coreBase n + 0x90004) v [] = .next (s.coreCtl n v) :=
  (State.put4_coreReg (by decide) h v).trans (congrArg (fun x => Host.Outcome.next (s.coreCtl n x)) (setWidth_half v))

theorem exec_coreDbRing (h : s.reaches src (0x4000000 + 0x100000 * n.val + 0x90100) = true) :
    exec (.coreDbRing src n) s = .next (s.modCore n (·.ring src)) := State.put4_coreReg (by decide) h 1

theorem exec_coreStart (h : s.reaches src (0x4000000 + 0x100000 * n.val + 0x90004) = true) (k : Bool) :
    exec (.coreStart src n k) s = .next (s.coreCtl n (if k then 3 else 1)) := State.put4_coreCtl h _

theorem exec_coreStop (h : s.reaches src (0x4000000 + 0x100000 * n.val + 0x90004) = true) :
    exec (.coreStop src n) s = .next (s.coreCtl n (s.cores[n].ctl &&& ~~~(1 : Half))) := State.put4_coreCtl h _

end

theorem State.modCore_congr {s : State} {n : CoreId} {g k : Core → Core} (h : g s.cores[n] = k s.cores[n]) :
    s.modCore n g = s.modCore n k :=
  congrArg (fun c => { s with cores := s.cores.set n c }) h

/-! ## CORE_CTL (09 R198; 11 R236) -/

/-- CORE_CTL as a start writes it. -/
theorem startCtl_mask (k : Bool) : ((if k then 3 else 1) &&& 3 : Half) = if k then 3 else 1 := by cases k <;> rfl

theorem startCtl_run (k : Bool) : (if k then 3 else 1 : Half).getLsbD 0 = true := by cases k <;> rfl

theorem startCtl_level (k : Bool) : (if k then 3 else 1 : Half).getLsbD 1 = k := by cases k <;> rfl

section
variable {s : State} {n : CoreId}

theorem State.coreCtl_starts (h : s.cores[n].ctl.getLsbD 0 = false) (k : Bool) :
    s.coreCtl n (if k then 3 else 1) = (s.modCore n fun c => { c with ctl := if k then 3 else 1 }).coreStart n := by
  simp only [State.coreCtl, h, startCtl_mask, startCtl_run]
  rfl

theorem State.coreCtl_runs (h : s.cores[n].ctl.getLsbD 0 = true) (k : Bool) :
    s.coreCtl n (if k then 3 else 1) = s.modCore n fun c => { c with ctl := if k then 3 else 1 } := by
  simp only [State.coreCtl, h, startCtl_mask, startCtl_run]
  rfl

/-- A core whose RUN goes from 1 to 0 (`State.coreStop`). -/
def Core.stopped (c : Core) : Core := c.boundary.giveUpBundles.settle

theorem State.coreCtl_stops (h : s.cores[n].ctl.getLsbD 0 = true) :
    s.coreCtl n (s.cores[n].ctl &&& ~~~(1 : Half)) =
      s.modCore n fun c => { c with ctl := s.cores[n].ctl &&& 2 }.stopped := by
  have hrun : (s.cores[n].ctl &&& ~~~(1 : Half)).getLsbD 0 = false := by simp
  have hctl : s.cores[n].ctl &&& ~~~(1 : Half) &&& 3 = s.cores[n].ctl &&& 2 := BitVec.and_assoc ..
  simp only [State.coreCtl, h, hrun, hctl]
  change (s.modCore n fun c => { c with ctl := s.cores[n].ctl &&& 2 }).coreStop n = _
  exact State.modCore_modCore ..

end

/-- What a start gives thread 0. -/
theorem Core.started_thread (c : Core) : c.started.threads[(0 : ThreadId)] = { c.threads[(0 : ThreadId)].clear with
    pc := c.entry
    status := (c.threads[(0 : ThreadId)].status &&& ~~~(2 : Word)) ||| (if c.ctl.getLsbD 1 then 2 else 0)
    buf := none
    live := true } := by
  unfold Core.started Core.giveUpBundle
  rw [Core.boundary_frame, Core.modThread_same, Core.modThread_same]
  rfl

/-- What a stop leaves of a core. -/
theorem Core.stopped_spec (c : Core) : c.stopped.ctl = c.ctl ∧ c.stopped.dmem = c.dmem ∧ c.stopped.x = c.x ∧
    c.stopped.loads = c.loads.filter (fun l => !l.ofFrame) ∧ c.stopped.stores = c.stores ∧
    c.stopped.threads = c.threads.map Thread.clear := by
  unfold Core.stopped
  rw [Core.settle_frame, Core.giveUpBundles, Core.boundary_frame]
  exact ⟨rfl, rfl, rfl, rfl, rfl, rfl⟩

theorem Core.settle_done {c : Core} (hctl : c.ctl.getLsbD 0 = false) (hloads : c.loads = []) (hstores : c.stores = [])
    (hdivider : c.divider = none) : c.settle.stat = 0 := by
  simp only [Core.settle, hctl, hloads, hstores, hdivider]
  rfl

/-- A core that is told to stop and has nothing outstanding reads STATE 0. -/
theorem Core.stopped_stat {c : Core} (hctl : c.ctl.getLsbD 0 = false) (hloads : c.loads = []) (hstores : c.stores = [])
    (hdivider : c.divider = none) : c.stopped.stat = 0 := by
  unfold Core.stopped
  rw [Core.giveUpBundles, Core.boundary_frame]
  exact Core.settle_done hctl (by rw [hloads]; rfl) hstores hdivider

/-! ## CORE_CFG (09 R185, R195) -/

theorem Core.atBoundary_cfg (c : Core) (v : Half) : ({ c with cfg := v } : Core).atBoundary = c.atBoundary := rfl

theorem Core.writeCfg_due {c : Core} {own : Bool} (h : own = true ∨ c.atBoundary = false) (v : Half) :
    c.writeCfg v own = { c with cfg := v &&& 0x1F, cfgDue := some { value := v &&& 0x1F, own := own } } := by
  refine if_neg ?_
  rw [Core.atBoundary_cfg]
  rcases h with h | h <;> simp [h]

theorem Core.writeCfg_acts {c : Core} (h : c.atBoundary = true) (v : Half) :
    c.writeCfg v false = { c with cfg := v &&& 0x1F }.setMode (v &&& 0x1F) := by
  refine if_pos ?_
  rw [Core.atBoundary_cfg, h]
  rfl

/-! ## What the registers do -/

section
variable {s : State} {src : Src} {n : CoreId}

/-- The core that a write of CORE_CTL starts. -/
theorem State.coreCtl_started (h : s.cores[n].ctl.getLsbD 0 = false) (k : Bool) :
    (s.coreCtl n (if k then 3 else 1)).cores[n] =
      (({ s.cores[n] with ctl := if k then 3 else 1 } : Core).cycles (Config.freeNat s.free)).started := by
  rw [State.coreCtl_starts h, State.coreStart_cores, State.modCore_same, State.modCore_same]
  rfl

theorem State.coreCtl_starts_frame (h : s.cores[n].ctl.getLsbD 0 = false) (k : Bool) :
    (s.coreCtl n (if k then 3 else 1)).mem = s.mem ∧ (s.coreCtl n (if k then 3 else 1)).chains = s.chains ∧
      (s.coreCtl n (if k then 3 else 1)).evt.halt = cellSet s.evt.halt n.val 0 ∧
      ∀ m, m ≠ n → (s.coreCtl n (if k then 3 else 1)).cores[m] = s.cores[m] := by
  rw [State.coreCtl_starts h]
  refine ⟨rfl, rfl, rfl, fun m hm => ?_⟩
  rw [State.coreStart_cores, State.modCore_other _ _ _ _ hm, State.modCore_other _ _ _ _ hm]

/-- The core that a write of CORE_CTL stops. -/
theorem State.coreCtl_stopped (h : s.cores[n].ctl.getLsbD 0 = true) :
    (s.coreCtl n (s.cores[n].ctl &&& ~~~(1 : Half))).cores[n] =
      ({ s.cores[n] with ctl := s.cores[n].ctl &&& 2 } : Core).stopped := by
  rw [State.coreCtl_stops h, State.modCore_same]

theorem State.coreCtl_stops_frame (h : s.cores[n].ctl.getLsbD 0 = true) :
    (s.coreCtl n (s.cores[n].ctl &&& ~~~(1 : Half))).mem = s.mem ∧
      (s.coreCtl n (s.cores[n].ctl &&& ~~~(1 : Half))).chains = s.chains ∧
      ∀ m, m ≠ n → (s.coreCtl n (s.cores[n].ctl &&& ~~~(1 : Half))).cores[m] = s.cores[m] := by
  rw [State.coreCtl_stops h]
  exact ⟨rfl, rfl, fun m hm => State.modCore_other _ _ _ _ hm⟩

end

theorem coreControl : Claims.CoreControl := by
  intro src n s
  refine ⟨fun k h hstop => ⟨_, exec_coreStart h k, ?_⟩, fun k h hrun => (exec_coreStart h k).trans ?_,
    fun h hrun => ⟨_, exec_coreStop h, ?_⟩, fun v h => ⟨fun hdue => ?_, fun hsrc hat => ?_⟩,
    fun h => (exec_coreDbRing h).trans ?_⟩
  · obtain ⟨hctl, hstat, hx, -, hdmem, -⟩ := Core.started_spec
      (({ s.cores[n] with ctl := if k then 3 else 1 } : Core).cycles (Config.freeNat s.free))
    obtain ⟨hmem, hchains, hhalt, hother⟩ := State.coreCtl_starts_frame hstop k
    rw [State.thread, State.coreCtl_started hstop, Core.started_thread]
    refine ⟨⟨hmem, hchains, hother⟩, hstat, hctl, hdmem, hx, hhalt, ?_⟩
    simp only [Core.cycles, startCtl_level]
    rfl
  · rw [State.coreCtl_runs hrun]
  · obtain ⟨hctl, hdmem, hx, hloads, hstores, hthreads⟩ := Core.stopped_spec
      { s.cores[n] with ctl := s.cores[n].ctl &&& 2 }
    have hclear : (s.cores[n].ctl &&& 2).getLsbD 0 = false := by simp
    simp only [State.thread, State.coreCtl_stopped hrun, hthreads]
    exact ⟨State.coreCtl_stops_frame hrun, hctl, hdmem, hx, hloads, hstores, fun t => Vector.getElem_map ..,
      fun hl hs hd => Core.stopped_stat hclear hl hs hd⟩
  · exact (exec_coreCfg h v).trans (congrArg _ (State.modCore_congr (Core.writeCfg_due (hdue.imp_left decide_eq_true) v)))
  · rw [exec_coreCfg h, decide_eq_false hsrc]
    exact congrArg _ (State.modCore_congr (Core.writeCfg_acts hat v))
  · cases src <;> rfl

end Sys2Proof.Machine
end

section
/-! Event, priority and wake-flag writes, and O9 (11 R241; 14 R286, R287; 16 R320; 17 R369). -/

-- The proofs of this part are elaborated in order, on one heap: the whole text comes near the check's memory limit.
set_option Elab.async false

namespace Sys2Proof.Machine

/-! ## Events (11 R241) -/

theorem elemAt_four {k n : Nat} (h : k < n) : elemAt 0 4 n (4 * k) = some k := by
  have hdiv : 4 * k / 4 = k := by omega
  simp [elemAt, hdiv, h]

theorem regWidth_evtRoute {k : Nat} (h : k < 2048) : regWidth .evt (4 * k) = some 4 := by
  simp [regWidth, isElem, elemAt_four h]

/-- The vector in the low bits of a register. -/
theorem extractLsb_vector (v : Half) : (v.extractLsb' 0 11).toNat = v.toNat % 2048 := by
  rw [BitVec.extractLsb'_toNat]
  rfl

section
variable {s : State} {src : Src}

theorem exec_evtRoute (e : Fin 2048) (h : s.reaches src (0x10000 + 4 * e.val) = true) (v : Half) :
    exec (.evtRoute src e v) s = .next (s.setRoute e.val v) := by
  have hb : blockOf ((0x10000 + 4 * e.val) / 8 * 8) = some (.evt, 4 * e.val / 8 * 8) := by
    have hoff : (0x10000 + 4 * e.val) / 8 * 8 = 0x10000 + 4 * e.val / 8 * 8 := by omega
    rw [hoff, blockOf_evt (by omega)]
  have hlow : 4 * e.val / 8 * 8 = 4 * (e.val / 2 * 2) := by omega
  refine (State.put4_reaches (o := 4 * e.val) (by omega) (by omega) hb (by rw [hlow]; exact regWidth_evtRoute (by omega))
    (regWidth_evtRoute e.isLt) h v).trans ?_
  simp only [State.regWrite, elemAt_four e.isLt, setWidth_half]

theorem exec_evtSwset (h : s.reaches src 0x14200 = true) (v : Half) :
    exec (.evtSwset src v) s = .next (s.swset v) :=
  (State.put4_reaches (b := .evt) (o := 0x4200) (by decide) (by decide) (by decide) (by decide) (by decide) h v).trans
    (congrArg (fun x => Host.Outcome.next (s.swset x)) (setWidth_half v))

theorem exec_pwrWakeClear (h : s.reaches src 0x210020 = true) (v : Half) :
    exec (.pwrWakeClear src v) s = .next (s.pwrWakeWrite v) :=
  (State.put4_reaches (b := .pwr) (o := 0x20) (by decide) (by decide) (by decide) (by decide) (by decide) h v).trans
    (congrArg (fun x => Host.Outcome.next (s.pwrWakeWrite x)) (setWidth_half v))

theorem tglCtl_place : ∀ p : PortId, blockOf ((0x2000004 + 0x100000 * p.val) / 8 * 8) = some (.tgl p, 4 / 8 * 8) ∧
    (0x2000004 + 0x100000 * p.val) % 8 = 4 % 8 := by decide

theorem exec_tglPortEnable (p : PortId) (h : s.reaches src (0x2000004 + 0x100000 * p.val) = true) (en : Bool) :
    exec (.tglPortEnable src p en) s = .next (s.tglCtl p en) := by
  obtain ⟨hb, hoff⟩ := tglCtl_place p
  refine (State.put4_reaches (o := 4) (by decide) hoff hb rfl rfl h _).trans ?_
  cases en <;> rfl

end

/-- A route as EVT_ROUTE holds it. -/
theorem State.setRoute_eq (s : State) (e : Nat) (v : Half) :
    let s' := { s with evt := { s.evt with route := cellSet s.evt.route e (v &&& 0xFFFC07FF) } }
    s.setRoute e v = if (cellGet s.evt.route e).getLsbD 30 = false ∧ v.getLsbD 30 = true ∧ s.pendingSrc e = true then
      s'.msix (v.toNat % 2048) else s' := by
  have hbit : (v &&& 0xFFFC07FF).getLsbD 30 = v.getLsbD 30 := by simp
  have hvector : ((v &&& 0xFFFC07FF).extractLsb' 0 11).toNat = v.toNat % 2048 := by
    have hmask : (0xFFFC07FF : Half).extractLsb' 0 11 = BitVec.allOnes 11 := by decide
    rw [BitVec.extractLsb'_and, hmask, BitVec.and_allOnes, extractLsb_vector]
  simp only [State.setRoute, hbit, hvector, Bool.and_eq_true, Bool.not_eq_true', and_assoc]
  rfl

/-- Setting one bit leaves every other bit as it is. -/
theorem getLsbD_or_bit {i j : Nat} (h : j ≠ i) (x : Word) : (x ||| (1 : Word) <<< i).getLsbD j = x.getLsbD j := by
  have hpow : (1 : Word) <<< i = BitVec.twoPow 64 i := (BitVec.twoPow_eq 64 i).symm
  rw [hpow, BitVec.getLsbD_or, BitVec.getLsbD_twoPow, decide_eq_false h.symm, Bool.and_false, Bool.or_false]

theorem val_of_fin? {n i : Nat} {w : Fin n} (h : fin? n i = some w) : w.val = i := by
  unfold fin? at h
  split at h
  · exact (congrArg Fin.val (Option.some.inj h)).symm
  · cases h

theorem State.raise_pend (s : State) {k : Nat} {w : Fin 32} (hw : fin? 32 (k / 64) = some w) :
    (s.raise k).evt.pend = s.evt.pend ∨
      (s.raise k).evt.pend = s.evt.pend.set w (s.evt.pend[w] ||| (1 : Word) <<< (k % 64)) := by
  unfold State.raise
  simp only [hw]
  split
  · exact .inl rfl
  · split
    · rw [State.msix_evt]; exact .inr rfl
    · exact .inr rfl

/-- Raising a source leaves every other source as it is. -/
theorem State.raise_pendingSrc_other (s : State) {k e : Nat} (h : e ≠ k) : (s.raise k).pendingSrc e = s.pendingSrc e := by
  unfold State.pendingSrc
  cases hwe : fin? 32 (e / 64) with
  | none => rfl
  | some we =>
    dsimp only
    cases hwk : fin? 32 (k / 64) with
    | none => simp [State.raise, hwk]
    | some wk =>
      rcases s.raise_pend hwk with hpend | hpend <;> rw [hpend]
      by_cases hw : wk = we
      · subst hw
        have hbit : e % 64 ≠ k % 64 := by
          have hk := val_of_fin? hwk
          have he := val_of_fin? hwe
          omega
        have hself : (s.evt.pend.set wk (s.evt.pend[wk] ||| (1 : Word) <<< (k % 64)))[wk] =
          s.evt.pend[wk] ||| (1 : Word) <<< (k % 64) := Vector.getElem_set_self wk.isLt
        rw [hself]
        exact getLsbD_or_bit hbit _
      · exact congrArg (BitVec.getLsbD · (e % 64)) (Vector.getElem_set_ne wk.isLt we.isLt fun h => hw (Fin.ext h))

theorem State.swset_eq (s : State) (v : Half) :
    s.swset v = if 0x400 ≤ v.toNat % 2048 then s.raise (v.toNat % 2048) else s := by
  simp only [State.swset, extractLsb_vector]

/-! ## Priorities and lay-bys (14 R286, R287) -/

theorem alookup_aset_other {α β : Type} [DecidableEq α] {k j : α} (h : j ≠ k) (v : β) (l : List (α × β)) :
    alookup j (aset k v l) = alookup j l := by
  induction l with
  | nil => simp [aset, alookup, h.symm]
  | cons x t ih =>
    rw [aset]
    split
    case isTrue hx => rw [alookup, alookup, if_neg h.symm, if_neg (hx ▸ h.symm)]
    case isFalse hx => rw [alookup, alookup, ih]

theorem alookup_adel_same {α β : Type} [DecidableEq α] (k : α) (l : List (α × β)) : alookup k (adel k l) = none := by
  induction l with
  | nil => rfl
  | cons x t ih =>
    by_cases hx : x.1 = k
    · rw [adel, List.filter_cons_of_neg (by simp [hx])]; exact ih
    · rw [adel, List.filter_cons_of_pos (by simp [hx]), alookup, if_neg hx]; exact ih

theorem alookup_adel_other {α β : Type} [DecidableEq α] {k j : α} (h : j ≠ k) (l : List (α × β)) :
    alookup j (adel k l) = alookup j l := by
  induction l with
  | nil => rfl
  | cons x t ih =>
    by_cases hx : x.1 = k
    · rw [adel, List.filter_cons_of_neg (by simp [hx]), alookup, if_neg (hx ▸ h.symm)]; exact ih
    · rw [adel, List.filter_cons_of_pos (by simp [hx]), alookup, alookup]
      exact congrArg (fun o => if x.1 = j then some x.2 else o) ih

theorem State.tport_setTport_same (s : State) (j : Junction) (t : Nat) (p : TPort) : (s.setTport j t p).tport j t = p := by
  unfold State.tport State.setTport
  dsimp only
  split
  case isTrue h => rw [alookup_adel_same, h]; rfl
  case isFalse h => rw [alookup_aset_same]; rfl

theorem State.tport_setTport_other (s : State) {j j' : Junction} {t t' : Nat}
    (h : junctionIx j' * 512 + t' ≠ junctionIx j * 512 + t) (p : TPort) : (s.setTport j t p).tport j' t' = s.tport j' t' := by
  unfold State.tport State.setTport
  dsimp only
  split
  · rw [alookup_adel_other h]
  · rw [alookup_aset_other h]

/-- The lay-by of one target is released. -/
def State.releaseLayby (s : State) (j : Junction) (t : Nat) : State :=
  if (s.tport j t).layby.isNone then s else s.setTport j t { s.tport j t with layby := none }

theorem State.releaseLaybys_eq (s : State) (j : Junction) (w : Nat) :
    s.releaseLaybys j w = (upto 8).foldl (fun s i => s.releaseLayby j (8 * w + i)) s := rfl

theorem State.releaseLayby_same (s : State) (j : Junction) (t : Nat) : ((s.releaseLayby j t).tport j t).layby = none := by
  unfold State.releaseLayby
  split
  case isTrue h => exact Option.isNone_iff_eq_none.mp h
  case isFalse h => rw [State.tport_setTport_same]

theorem State.releaseLayby_other (s : State) {j j' : Junction} {t t' : Nat}
    (h : junctionIx j' * 512 + t' ≠ junctionIx j * 512 + t) : (s.releaseLayby j t).tport j' t' = s.tport j' t' := by
  unfold State.releaseLayby
  split
  · rfl
  · exact s.tport_setTport_other h _

/-- Releasing a lay-by takes up none. -/
theorem State.releaseLayby_keeps (s : State) (j : Junction) (t : Nat) {t' : Nat} (h : (s.tport j t').layby = none) :
    ((s.releaseLayby j t).tport j t').layby = none := by
  by_cases ht : t' = t
  · rw [ht]; exact s.releaseLayby_same j t
  · rw [State.releaseLayby_other s (by omega)]; exact h

/-- What holds after one element of a fold, and is kept by the others, holds after the fold. -/
theorem State.foldl_establishes {α : Type} {p : State → Prop} {f : State → α → State} (hkeep : ∀ s a, p s → p (f s a))
    {a : α} (hset : ∀ s, p (f s a)) {l : List α} (ha : a ∈ l) (s : State) : p (l.foldl f s) := by
  induction l generalizing s with
  | nil => cases ha
  | cons b l ih =>
    rcases List.mem_cons.mp ha with rfl | ha
    · exact State.foldl_keeps_prop hkeep l (hset s)
    · exact ih ha (f s b)

theorem junctionIx_injective : Function.Injective junctionIx := by
  intro j j' h
  cases j with
  | cluster k =>
    cases j' with
    | cluster k' => exact congrArg Junction.cluster (Fin.ext h)
    | root => exact absurd h k.isLt.ne
  | root =>
    cases j' with
    | cluster k' => exact absurd h k'.isLt.ne'
    | root => rfl

section
variable (s : State) (j : Junction) (w : Nat)

theorem State.releaseLaybys_released {i : Nat} (hi : i < 8) : ((s.releaseLaybys j w).tport j (8 * w + i)).layby = none :=
  State.foldl_establishes (p := fun u => (u.tport j (8 * w + i)).layby = none)
    (fun u k h => u.releaseLayby_keeps j (8 * w + k) h) (fun u => u.releaseLayby_same j (8 * w + i)) (List.mem_range.mpr hi) s

/-- A lay-by that is released changes the junctions' ports alone. -/
theorem State.releaseLayby_frame (t : Nat) :
    s.releaseLayby j t = { s with jnc := { s.jnc with ports := (s.releaseLayby j t).jnc.ports } } := by
  unfold State.releaseLayby
  split <;> rfl

theorem State.releaseLaybys_frame :
    s.releaseLaybys j w = { s with jnc := { s.jnc with ports := (s.releaseLaybys j w).jnc.ports } } := by
  rw [State.releaseLaybys_eq]
  refine List.foldlRecOn (motive := fun u : State => u = { s with jnc := { s.jnc with ports := u.jnc.ports } })
    (upto 8) _ rfl fun u hu i _ => ?_
  rw [State.releaseLayby_frame, hu]

/-- The targets of every other junction keep their ports. -/
theorem State.releaseLaybys_otherJunction (hw : w < 33) {j' : Junction} (hj : j' ≠ j) {t : Nat} (ht : t < 512) :
    (s.releaseLaybys j w).tport j' t = s.tport j' t := by
  refine List.foldlRecOn (motive := fun u : State => u.tport j' t = s.tport j' t) (upto 8) _ rfl fun u hu i hi => ?_
  have hi := List.mem_range.mp hi
  have hix := junctionIx_injective.ne hj
  exact (u.releaseLayby_other (by omega)).trans hu

end

/-! ## Priority words -/

theorem fin?_val {n : Nat} (k : Fin n) : fin? n k.val = some k := dif_pos k.isLt

section
variable {o : Nat}

theorem priReg_cluster {k : ClusterId} {m : Fin 25} {w : Fin 33}
    (ho : o = 0x10000 + 0x10000 * k.val + 0x200 * m.val + 4 * w.val) : priReg o = some (.cluster k, m.val, w.val) := by
  have halign : o % 4 = 0 := by omega
  have hrange : 0x10000 ≤ o ∧ o < 0x50000 := by omega
  have hk : o / 0x10000 - 1 = k.val := by omega
  have hm : o % 0x10000 / 0x200 = m.val := by omega
  have hw : o % 0x200 / 4 = w.val := by omega
  simp [priReg, halign, hrange, hk, hm, hw, fin?_val]

theorem priReg_root {m : Fin 25} {w : Fin 33} (hm : m.val < 22) (hw : w.val < 4)
    (ho : o = 0x60000 + 0x10 * m.val + 4 * w.val) : priReg o = some (.root, m.val, w.val) := by
  have halign : o % 4 = 0 := by omega
  have habove : ¬ o < 0x50000 := by omega
  have hrange : 0x60000 ≤ o ∧ o < 0x60160 := by omega
  have hmaster : (o - 0x60000) / 0x10 = m.val := by omega
  have hword : o % 0x10 / 4 = w.val := by omega
  simp [priReg, halign, habove, hrange, hmaster, hword]

theorem priReg_aligned {x : Junction × Nat × Nat} (h : priReg o = some x) : o % 4 = 0 := by
  unfold priReg at h
  by_contra hne
  simp [hne] at h

theorem regWidth_pri {x : Junction × Nat × Nat} (h : priReg o = some x) : regWidth .jnc o = some 4 := by
  simp [regWidth, h]

theorem State.regWrite_pri {s : State} {m w : Nat} {j : Junction} (hsingle : o ∉ jncSingle) (h : priReg o = some (j, m, w))
    (v : Word) (src : Src) : s.regWrite .jnc o v src [] = s.setPri j m w (v.setWidth 32) := by
  change s.jncWrite o v = _
  unfold State.jncWrite
  dsimp only
  split
  case h_5 => rw [h]
  all_goals exact absurd (by decide) hsingle

end

/-- A write of a priority word that its path carries reaches the word. -/
theorem State.put4_pri {s : State} {src : Src} {o m w : Nat} {j : Junction} {x : Junction × Nat × Nat} (hlt : o < 0x100000)
    (hge : 0x10000 ≤ o) (h : priReg o = some (j, m, w)) (hlow : priReg (o / 8 * 8) = some x)
    (hreach : s.reaches src (0x400000 + o) = true) (v : Half) :
    s.put4 src (0x400000 + o) v [] = .next (s.setPri j m w v) := by
  have hoff : (0x400000 + o) / 8 * 8 = 0x400000 + o / 8 * 8 := by omega
  have hsingle : o ∉ jncSingle := fun hmem => by
    have hlow : ∀ i ∈ jncSingle, i < 0x10000 := by decide
    exact absurd (hlow o hmem) (Nat.not_lt.mpr hge)
  refine (State.put4_reaches (priReg_aligned h) (by omega) (by rw [hoff]; exact blockOf_jnc (by omega)) (regWidth_pri hlow)
    (regWidth_pri h) hreach v).trans ?_
  rw [State.regWrite_pri hsingle h, setWidth_half]

section
variable {s : State} {src : Src} {m : Fin 25} {w : Fin 33}

theorem exec_priorityWrite_cluster {k : ClusterId}
    (h : s.reaches src (0x410000 + 0x10000 * k.val + 0x200 * m.val + 4 * w.val) = true) (v : Half) :
    exec (.priorityWrite src (.cluster k) m w v) s = .next (s.setPri (.cluster k) m.val w.val v) := by
  have hexists : priExists (.cluster k) m.val w.val = true := by simp [priExists]
  have hoff : 0x410000 + 0x10000 * k.val + 0x200 * m.val + 4 * w.val =
      0x400000 + (0x10000 + 0x10000 * k.val + 0x200 * m.val + 4 * w.val) := by omega
  have hlow := priReg_cluster (k := k) (m := m) (w := ⟨w.val / 2 * 2, by omega⟩)
    (o := (0x10000 + 0x10000 * k.val + 0x200 * m.val + 4 * w.val) / 8 * 8) (by simp only; omega)
  refine (if_pos hexists).trans ?_
  rw [priOffset, hoff]
  exact State.put4_pri (by omega) (by omega) (priReg_cluster rfl) hlow (hoff ▸ h) v

theorem exec_priorityWrite_root (hm : m.val < 22) (hw : w.val < 4)
    (h : s.reaches src (0x460000 + 0x10 * m.val + 4 * w.val) = true) (v : Half) :
    exec (.priorityWrite src .root m w v) s = .next (s.setPri .root m.val w.val v) := by
  have hexists : priExists .root m.val w.val = true := by simp [priExists, hm, hw]
  have hoff : 0x460000 + 0x10 * m.val + 4 * w.val = 0x400000 + (0x60000 + 0x10 * m.val + 4 * w.val) := by omega
  have hlow := priReg_root (m := m) (w := ⟨w.val / 2 * 2, by omega⟩) hm (by simp only; omega)
    (o := (0x60000 + 0x10 * m.val + 4 * w.val) / 8 * 8) (by simp only; omega)
  refine (if_pos hexists).trans ?_
  rw [priOffset, hoff]
  exact State.put4_pri (by omega) (by omega) (priReg_root hm hw rfl) hlow (hoff ▸ h) v

end

theorem State.setPri_cluster (s : State) (k : ClusterId) (m w : Nat) (v : Half) : s.setPri (.cluster k) m w v =
    ({ s with jnc := { s.jnc with cpri := cellSet s.jnc.cpri ((k.val * 25 + m) * 33 + w) (v &&& priMask (.cluster k) w) } } :
      State).releaseLaybys (.cluster k) w := rfl

theorem State.setPri_root (s : State) (m w : Nat) (v : Half) : s.setPri .root m w v =
    ({ s with jnc := { s.jnc with rpri := cellSet s.jnc.rpri (m * 4 + w) (v &&& priMask .root w) } } :
      State).releaseLaybys .root w := rfl

/-! ## Ports and wake flags (16 R320; 17 R369) -/

theorem State.modTgl_of_eq {s : State} {p : PortId} {g : Tgl → Tgl} (h : g s.tgl[p] = s.tgl[p]) : s.modTgl p g = s :=
  (congrArg (fun t => { s with tgl := s.tgl.set p t }) h).trans
    (congrArg (fun ts => { s with tgl := ts }) (Vector.set_getElem_self p.isLt))

/-- Enabling an enabled port. -/
theorem State.tglCtl_enabled {s : State} {p : PortId} (h : s.tgl[p].en = true) : s.tglCtl p true = s := by
  have hport : s.modTgl p (fun t => { t with en := true }) = s := State.modTgl_of_eq (by rw [← h])
  simp only [State.tglCtl, hport, h]
  rfl

theorem State.pwrWakeWrite_eq (s : State) (v : Half) : s.pwrWakeWrite v = { s with chip := { s.chip with
    wake := s.chip.wake &&& ~~~(v.setWidth 3), pwrreqN := s.chip.pwrreqN || v.getLsbD 0 } } := by
  rw [State.pwrWakeWrite, BitVec.setWidth_eq_extractLsb' (by decide)]

/-! ## The statement -/

theorem eventAndPriorityWrites : Claims.EventAndPriorityWrites := by
  refine ⟨fun src e v s h => ?_, fun src v s h => ⟨fun hsw => ?_, fun hsw => ?_⟩, fun src k m w v s h => ?_,
    fun src m w v s hm hw h => ?_, fun src v s h => ?_, fun src p s h hen => ?_⟩
  · rw [exec_evtRoute e h, State.setRoute_eq]
  · rw [exec_evtSwset h, State.swset_eq, if_pos hsw]
    refine ⟨_, rfl, s.raise_pendingSrc _ (Nat.mod_lt _ (by decide)), s.raise_mem _, s.raise_cores _, ?_,
      fun e he => s.raise_pendingSrc_other he⟩
    rw [State.raise_frame]
  · rw [exec_evtSwset h, State.swset_eq, if_neg (Nat.not_le.mpr hsw)]
  · rw [exec_priorityWrite_cluster h, State.setPri_cluster]
    refine ⟨_, rfl, ?_, ?_, ?_, ?_, fun i hi => State.releaseLaybys_released _ _ _ hi,
      fun j t hj ht => State.releaseLaybys_otherJunction _ _ _ w.isLt hj ht⟩ <;> rw [State.releaseLaybys_frame]
    rfl
  · rw [exec_priorityWrite_root hm hw h, State.setPri_root]
    refine ⟨_, rfl, ?_, ?_, ?_, ?_, fun i hi => State.releaseLaybys_released _ _ _ hi⟩ <;> rw [State.releaseLaybys_frame]
    rfl
  · rw [exec_pwrWakeClear h, State.pwrWakeWrite_eq]
  · rw [exec_tglPortEnable p h, State.tglCtl_enabled hen]

end Sys2Proof.Machine

namespace Sys2Proof.Proofs
open Sys2Proof.Machine

/-- Settles O9: each write reaches its register, and the register acts on its core, its event source, its junction, the wake flags
or its port. -/
theorem coreControlAndEventWritesAct : Obligations.CoreControlAndEventWritesAct := ⟨coreControl, eventAndPriorityWrites⟩

end Sys2Proof.Proofs
end
